-- ==== Sys2Proof/Word.lean ====
section
/-! DEFINITION. The word types of the module: 32-bit registers (R16), 40-bit values (R12, R15), 80-bit
accumulators (R168), and nothing that a rule computes. -/

namespace Sys2Proof

/-- A 32-bit register, link word, TM_NOW stamp (R14) or turn32 angle (R13). -/
abbrev Word := BitVec 32
/-- One byte of memory. -/
abbrev Byte := BitVec 8
/-- A 40-bit value: q40 (R12) read as signed, u40 (R15) read as unsigned. -/
abbrev W40 := BitVec 40
/-- An engine accumulator (R168). -/
abbrev W80 := BitVec 80

end Sys2Proof
end

