-- ==== Sys2Proof/Syntax.lean ====
section
/-! DEFINITION. The commands of the module: one constructor of `Instr` for each row of spec/opcode_table.json, and the
plain data they carry. A command names the lane it happens in and what comes from outside that lane (a value written
by firmware, a received frame, a sampled pin, the outcome of an analog check). -/

namespace Sys2Proof

/-- The lanes of a module (R3, R7); lane C exists on the TS-8630 only. -/
inductive LaneId where
  | a | b | c
  deriving DecidableEq, Repr, Inhabited

/-- The two Nolxis channels (R370). -/
inductive Chan where
  | x | y
  deriving DecidableEq, Repr, Inhabited

/-- A general register of an engine, w0 to w31 (R168). -/
abbrev Reg := Fin 32
/-- A predicate register, p0 to p3 (R168). -/
abbrev Pred := Fin 4
/-- An engine of a lane, index 4b + e (R93). -/
abbrev EngIx := Fin 24

/-- A cross-lane link frame as its receiver sees it (R35, R36). -/
structure LinkFrame where
  ftype    : BitVec 4
  sender   : BitVec 2
  reserved : BitVec 2
  len      : BitVec 8
  seq      : BitVec 16
  payload  : List Word
  check    : Word
  deriving DecidableEq, Repr, Inhabited

/-- A Nolxis frame as a receiver sees it (R374, R375), with what its receiver measured: whether every symbol was valid
and in place, and the stamp of the end of the start delimiter (R384) and of the end delimiter (R381). -/
structure NxFrame where
  frameId  : BitVec 11
  cycle    : BitVec 6
  len      : BitVec 7
  sync     : Bool
  cold     : Bool
  null     : Bool
  stale    : Bool
  claim    : Bool
  hcrc     : BitVec 11
  payload  : List Word
  crc      : Word
  symbolsOk : Bool
  sdEnd    : Word
  edEnd    : Word
  deriving DecidableEq, Repr, Inhabited

/-- A CAN frame on a bus (R492, R496). -/
structure CanFrame where
  ide    : Bool
  fdf    : Bool
  brs    : Bool
  remote : Bool
  id     : BitVec 29
  dlc    : BitVec 4
  data   : List Word
  deriving DecidableEq, Repr, Inhabited

/-- The head of a service request (R485) with its peer's address. -/
structure SvcReq where
  txn     : BitVec 16
  session : BitVec 16
  ip      : Word
  port    : BitVec 16
  deriving DecidableEq, Repr, Inhabited

/-- What the converters of one power stage deliver at a sample point (R200, R238): the three shunt conversions in
codes, the period means of the phase voltages and the DC link in V (q40), and the gate supply in mV and the three bootstraps
in 100 mV, which the model lets the stage measure at the same point (R262; DESIGN CHOICE, log 75). -/
structure PwmSample where
  sa  : BitVec 16
  sb  : BitVec 16
  sc  : BitVec 16
  va  : W40
  vb  : W40
  vc  : W40
  vdc : W40
  vgMv  : BitVec 16
  bootA : BitVec 8
  bootB : BitVec 8
  bootC : BitVec 8
  deriving DecidableEq, Repr, Inhabited

/-- Raw sine and cosine codes of one angle interface (R326), signed. -/
structure SinCos where
  s : BitVec 16
  c : BitVec 16
  deriving DecidableEq, Repr, Inhabited

/-- What the pre-drive check measures on one power stage (R261). -/
structure PsReading where
  vgMv      : BitVec 16
  bootA     : BitVec 8
  bootB     : BitVec 8
  bootC     : BitVec 8
  gatesOff  : Bool
  vdc       : W40
  chopI     : W40
  deriving DecidableEq, Repr, Inhabited

/-- What the pre-drive check measures (R64): solenoid currents at the 50 mA test, whether each stepper driver's phase
current reads back at 5 %, whether each safety output's switch node reads on and its current in mA (R357), and the
two power stages. -/
structure PreDrive where
  solenoid  : List W40
  stepperOk : List Bool
  outNode   : List Bool
  outMa     : List (BitVec 16)
  stages    : List PsReading
  deriving DecidableEq, Repr, Inhabited

/-- What happened to a granule that a reader fetched (R106, R107). -/
inductive Ecc where
  | clean
  | corrected (w : Word)
  | uncorrectable
  deriving DecidableEq, Repr, Inhabited

/-- The sources that wake an engine (R164). -/
inductive WakeCause where
  | push | handOff | scheduler | injection
  deriving DecidableEq, Repr, Inhabited

/-- Which of a channel's homing inputs an edge belongs to (R309). -/
inductive HomeInput where
  | target | neg | pos
  deriving DecidableEq, Repr, Inhabited

/-- The two safe torque off paths (R240). -/
inductive StoPath where
  | cut | logic
  deriving DecidableEq, Repr, Inhabited

/-- The stages that carry a hold latch (R58, R59). -/
inductive Stage where
  | solenoid (n : Fin 6)
  | stepper (n : Fin 4)
  | output (k : Fin 8)
  | supply (s : Fin 2)
  deriving DecidableEq, Repr, Inhabited

/-- How a transmission on a marshal branch breaks a rule after admission (R401 to R403). -/
inductive TruncKind where
  | overrun | header | unsynced
  deriving DecidableEq, Repr, Inhabited

/-- Where in the cycle a transmission on a marshal branch starts, as the marshal's own timer sees it (R400, R402,
R403): in static slot `n` at `off` ns from slot_start(n) + d_b, at `off` ns from the start of a mini-slot with
the ID counter at `id`, in the symbol window, or in the network idle time. -/
inductive TxPlace where
  | static (n : Nat) (off : Int)
  | dynamic (id : Nat) (off : Int)
  | symbol (wake : Bool)
  | idle
  deriving DecidableEq, Repr, Inhabited

/-- A transmission that starts on a marshal branch (R400): where it starts, and the frame it carries, if any. -/
structure Transmission where
  place : TxPlace
  frame : Option NxFrame
  deriving DecidableEq, Repr, Inhabited

/-- Errors and bus events of a CAN controller (ISO 11898-1, R496). -/
inductive CanError where
  | txError | rxError | rxErrorSevere | txOk | rxOk
  deriving DecidableEq, Repr, Inhabited

/-- What the tests of one power stage read (R524): VG and, 5 ms after the start, the bootstraps in V (q40), whether the gates stayed
off with each path alone asserted, and whether the off-pulse test of each path passed. -/
structure StageTest where
  vg         : W40
  boots      : List W40
  logicOff   : Bool
  cutOff     : Bool
  logicPulse : Bool
  cutPulse   : Bool
  deriving DecidableEq, Repr, Inhabited

/-- What the self-test read (R523): the comparators whose injection was not detected, the twins with a parity or checker fault, the
granules the march test did not read clean, the engines whose digest differs, how far each converter's readings lie off in ppm of its
range, the power stages, the current of each solenoid driver at the end of its test in A (q40), the outputs that read back on, and the
stepper drivers and test-pulse sources whose readback failed. -/
structure SelfTest where
  missed    : List (Fin 29)
  parity    : List (Fin 29)
  memory    : List (Word × Ecc)
  digests   : List EngIx
  converters : List Nat
  stages    : List StageTest
  coils     : List W40
  outputs   : List (Fin 8)
  steppers  : List (Fin 4)
  sources   : List (Fin 2)
  deriving DecidableEq, Repr, Inhabited

/-- The marshal section of an image (R398), as a lane offers it: for each branch its delay, coldstart mark, the lane it
is wired to, the slots, dynamic IDs, claim IDs and spare slots it owns (a spare slot for each claim ID), and whether it may
send WAKE. -/
structure BranchTable where
  delay     : Nat
  coldstart : Bool
  lane      : Option LaneId
  slots     : List Nat
  dynIds    : List Nat
  claimIds  : List Nat
  spare     : List Nat
  wake      : Bool
  deriving DecidableEq, Repr, Inhabited

/-- Marshal tables with the image ID they were compiled from and the schedule values they enforce by: the cycle and slot
lengths, the precision, the number of static slots, the mini-slots with their length, the symbol window, the rate limit, and the pacers
by rank with their node IDs and slots (R372, R385 to R387, R399). -/
structure MarshalTables where
  imageId   : BitVec 64
  channel   : Chan
  pacers    : List (Nat × Nat)
  slotLen   : BitVec 16
  disqLimit : BitVec 8
  disqCycles : BitVec 16
  level     : BitVec 2
  precision : BitVec 16
  cycleLen  : Word
  slots     : BitVec 11
  miniLen   : BitVec 16
  minis     : BitVec 12
  symbolLen : BitVec 16
  rateLim   : Word
  branches  : List BranchTable
  deriving DecidableEq, Repr, Inhabited

/-- Lifetime counters kept in a health record (R509, words 92 to 111). -/
structure LifeCounts where
  relay : Word
  dropped : Word
  los : Word
  chopS : Word
  ce : Word
  cycles : Word
  conflictHours : Word
  faults : List Word
  deriving DecidableEq, Repr, Inhabited

/-- What a lane finds by itself in its flash or its image (R472, R479, R481, R490, R511): the command that has it look brings nothing
for it. -/
abbrev Found : Type := Unit

/-- A contact in a sample: its level, and the stamp of its last raw edge at the pin (R345, R418). -/
structure ContactRead where
  level : Bool
  edge : Word
  deriving DecidableEq, Repr, Inhabited

/-- What a wake from NAP reads in the retained memories (R455, R459): the granules of each bank that are not clean, and those that the
scrub pass finds. -/
structure WakeRead where
  banks : List (List (Nat × Ecc))
  scrub : List (Word × Ecc)
  deriving DecidableEq, Repr, Inhabited

/-- The sender of a datagram (R484). -/
structure UdpPeer where
  ip : Word
  port : BitVec 16
  deriving DecidableEq, Repr, Inhabited

/-- The data of a datagram (R485): its words, and its length in bytes. -/
structure UdpData where
  words : List Word
  bytes : Nat
  deriving DecidableEq, Repr, Inhabited

/-- An ARP or ICMP echo request (R484): which of the two, who asks, the address asked for, and the data of an echo. -/
structure AskFrame where
  icmp : Bool
  peer : Word
  target : Word
  bytes : List Byte
  deriving DecidableEq, Repr, Inhabited

/-- What became of a frame on Ethernet (R495). -/
inductive EthFate where
  | good
  | badFcs
  | noBuffer
  deriving DecidableEq, Repr, Inhabited

/-- A conversion beside a switching edge (R502): the high sides commanded on, the three phase currents, and the DC-link voltage. -/
structure EdgeConv where
  high : BitVec 3
  i : List W40
  vdc : W40
  deriving DecidableEq, Repr, Inhabited

/-- What the dies measure for an ageing sample (R500 to R504): the ppm of monitor 0; of monitor 5 the change of sense gain of each
driver in ppm; the voltages and currents of the three low and three high sides of a bridge with the DC link; the conversions before and
after a switching edge; and the two sense voltages with the lane input current. -/
inductive AgeRaw where
  | ppm (x : Word)
  | gains (xs : List (Fin 6 × Word))
  | bridge (low : List (W40 × W40)) (high : List (W40 × W40)) (vdc : W40)
  | esr (before after : EdgeConv)
  | contact (vs vg i : W40)
  deriving DecidableEq, Repr, Inhabited

/-- The commands: one constructor per row of the opcode table. -/
inductive Instr where
  -- registers (00_scope)
  | registerWrite (ln : LaneId) (addr : Word) (size : Nat) (value : Word)
  | pairLoWrite (ln : LaneId) (addr : Word) (value : Word)
  | pairHiWrite (ln : LaneId) (addr : Word) (value : Word)
  -- start-up (18, 16, 15)
  | laneSupplyRise (ln : LaneId)
  | bootRom (ln : LaneId) (calibration record : Found)
  | imageHashDone (ln : LaneId) (primary alternate : Found)
  | selfTestDone (ln : LaneId) (r : SelfTest)
  | imageFrameSend (ln : LaneId)
  | imageFrameReceive (ln : LaneId) (sender : LaneId) (imageId : BitVec 64) (alt : Bool)
  | agreementRoundDecided (ln : LaneId)
  | schedulerStart (ln : LaneId)
  | sensorCheckEnd (ln : LaneId)
  | pulseSlotStart (ln : LaneId)
  | batonAward (ln : LaneId)
  | awardAssertTimeout (ln : LaneId)
  | spoolHomingStart (ln : LaneId)
  | ready (ln : LaneId)
  | presenceClose (ln : LaneId)
  -- fault containment (03)
  | twinMismatch (ln : LaneId) (ix : Fin 29) (rails : BitVec 2) (spare : Bool)
  | inputDisagree (ln : LaneId) (ix : Fin 29) (input : BitVec 8) (again : Bool)
  | parityError (ln : LaneId) (ix : Fin 29)
  | correctedError (ln : LaneId) (memory : Fin 7) (addr : Word) (value : Word)
  | uncorrectableError (ln : LaneId) (memory : Fin 7) (addr : Word)
  | scrubRead (ln : LaneId) (r : Ecc) (raced : Bool)
  | memInjWrite (ln : LaneId) (value : Word)
  | memErrorPlant (ln : LaneId) (addr : Word)
  | comparatorInjection (ln : LaneId) (ix : Fin 29) (reported : Bool)
  | managementFault (ln : LaneId) (row : Fin 6)
  | selfUnfitWrite (ln : LaneId) (value : Word)
  -- links and roles (01, 02)
  | heartbeatSend (ln : LaneId)
  | linkFrameReceive (ln : LaneId) (from_ : LaneId) (f : LinkFrame)
  | heartbeatMissed (ln : LaneId) (sender : LaneId)
  | linkDown (ln : LaneId) (peer : LaneId)
  | linkFaultCharge (ln : LaneId) (peer : LaneId)
  | mirrorSend (ln : LaneId)
  | plausSend (ln : LaneId)
  | claim (ln : LaneId) (sender : LaneId) (failed : LaneId) (cause : BitVec 4)
  | claimAck (ln : LaneId) (sender : LaneId) (failed : LaneId)
  | claimTimeout (ln : LaneId)
  | successorClaimTimeout (ln : LaneId)
  | passOffer (ln : LaneId) (sender : LaneId) (heat : BitVec 16) (cause : BitVec 4) (urgent : Bool)
  | preDriveCheckDone (ln : LaneId) (m : PreDrive)
  | passAccept (ln : LaneId) (sender : LaneId) (heat : BitVec 16)
  | passRefuse (ln : LaneId) (sender : LaneId) (stage : BitVec 5)
  | passAbort (ln : LaneId) (sender : LaneId) (reason : BitVec 2)
  | passConfirm (ln : LaneId) (sender : LaneId) (incoming : LaneId) (zoneStart : Word) (cause : BitVec 4)
  | passDone (ln : LaneId) (sender : LaneId) (outgoing : LaneId) (cause : BitVec 4) (zoneStart : Word)
  | zoneStart (ln : LaneId)
  | handoverUpdate (ln : LaneId)
  | rampStep (ln : LaneId)
  | zoneEnd (ln : LaneId)
  | passReqWrite (ln : LaneId) (value : Word)
  | pinWrite (ln : LaneId) (value : Word)
  | pinMessage (ln : LaneId) (sender : LaneId) (lane : LaneId) (minutes : BitVec 11)
  | pinExpiry (ln : LaneId)
  | rotPeriodWrite (ln : LaneId) (value : Word)
  | rotEnvWrite (ln : LaneId) (value : Word)
  | dwellExpiry (ln : LaneId)
  | weights (ln : LaneId) (sender : LaneId) (da : Word) (db : Word) (dc : Word)
  | rotationSkip (ln : LaneId)
  | takeoverLineChange (ln : LaneId) (driver : LaneId) (asserted : Bool)
  | batonDecisionComplete (ln : LaneId)
  | takeoverAssert (ln : LaneId)
  | takeoverWindowExpiry (ln : LaneId)
  | leaving (ln : LaneId) (sender : LaneId) (cause : BitVec 4) (cls : BitVec 4)
  | leavingTimeout (ln : LaneId) (gone : LaneId)
  | disagree (ln : LaneId) (sender : LaneId) (lanes : BitVec 3) (quantity : BitVec 16) (heats : BitVec 2)
  | disputed (ln : LaneId) (sender : LaneId) (quantity : BitVec 16)
  | vote (ln : LaneId) (sender : LaneId) (target : LaneId) (row : Fin 5)
  | voteAssert (ln : LaneId) (target : LaneId) (row : Fin 5)
  | voteRelease (ln : LaneId) (target : LaneId)
  | inhibitTrip (ln : LaneId)
  | voteTestPulse (ln : LaneId) (target : LaneId) (received : Bool)
  | voteTestFail (ln : LaneId) (target : LaneId)
  | latchHold (ln : LaneId) (st : Stage)
  | latchTimeout (ln : LaneId) (st : Stage)
  | starvationHoldEnd (ln : LaneId)
  | standstillConfirmed (ln : LaneId)
  | engagementEnd (ln : LaneId)
  -- engine array (04)
  | heatBoundary (ln : LaneId)
  | legStart (ln : LaneId) (e : EngIx)
  | stealSweep (ln : LaneId) (e : EngIx)
  | engineWake (ln : LaneId) (e : EngIx) (cause : WakeCause)
  | hurdleReached (ln : LaneId) (h : Fin 8)
  | commitTakesEffect (ln : LaneId) (h : Fin 8)
  | earlyCommit (ln : LaneId)
  | raLegReady (ln : LaneId) (leg : BitVec 8)
  | tcmWrite (ln : LaneId) (addr : Word) (value : Word)
  -- engine instructions (05)
  | insAdd (ln : LaneId) (e : EngIx) (rd ra rb : Reg)
  | insSub (ln : LaneId) (e : EngIx) (rd ra rb : Reg)
  | insAnd (ln : LaneId) (e : EngIx) (rd ra rb : Reg)
  | insOr (ln : LaneId) (e : EngIx) (rd ra rb : Reg)
  | insXor (ln : LaneId) (e : EngIx) (rd ra rb : Reg)
  | insSll (ln : LaneId) (e : EngIx) (rd ra rb : Reg)
  | insSrl (ln : LaneId) (e : EngIx) (rd ra rb : Reg)
  | insSra (ln : LaneId) (e : EngIx) (rd ra rb : Reg)
  | insMin (ln : LaneId) (e : EngIx) (rd ra rb : Reg)
  | insMax (ln : LaneId) (e : EngIx) (rd ra rb : Reg)
  | insMinu (ln : LaneId) (e : EngIx) (rd ra rb : Reg)
  | insMaxu (ln : LaneId) (e : EngIx) (rd ra rb : Reg)
  | insMul (ln : LaneId) (e : EngIx) (rd ra rb : Reg)
  | insSel (ln : LaneId) (e : EngIx) (p : Pred) (rd ra rb : Reg)
  | insClz (ln : LaneId) (e : EngIx) (rd ra : Reg)
  | insJr (ln : LaneId) (e : EngIx) (ra : Reg)
  | insAddi (ln : LaneId) (e : EngIx) (rd ra : Reg) (imm : BitVec 16)
  | insAndi (ln : LaneId) (e : EngIx) (rd ra : Reg) (imm : BitVec 16)
  | insOri (ln : LaneId) (e : EngIx) (rd ra : Reg) (imm : BitVec 16)
  | insXori (ln : LaneId) (e : EngIx) (rd ra : Reg) (imm : BitVec 16)
  | insOrh (ln : LaneId) (e : EngIx) (rd ra : Reg) (imm : BitVec 16)
  | insLdx (ln : LaneId) (e : EngIx) (rd : Reg) (imm : BitVec 8)
  | insCmpi (ln : LaneId) (e : EngIx) (cond : Fin 8) (p : Pred) (ra : Reg) (imm : BitVec 16)
  | insShi (ln : LaneId) (e : EngIx) (rd ra : Reg) (kind : Fin 3) (amount : BitVec 6)
  | insQadd (ln : LaneId) (e : EngIx) (rd ra rb : Reg)
  | insQsub (ln : LaneId) (e : EngIx) (rd ra rb : Reg)
  | insQmul (ln : LaneId) (e : EngIx) (rd ra rb : Reg)
  | insQdiv (ln : LaneId) (e : EngIx) (rd ra rb : Reg)
  | insQsat (ln : LaneId) (e : EngIx) (rd ra rb : Reg)
  | insQabs (ln : LaneId) (e : EngIx) (rd ra : Reg)
  | insQneg (ln : LaneId) (e : EngIx) (rd ra : Reg)
  | insQshl (ln : LaneId) (e : EngIx) (rd ra rb : Reg)
  | insQsrr (ln : LaneId) (e : EngIx) (rd ra rb : Reg)
  | insQmac (ln : LaneId) (e : EngIx) (acc : Bool) (ra rb : Reg)
  | insQmsu (ln : LaneId) (e : EngIx) (acc : Bool) (ra rb : Reg)
  | insAmul (ln : LaneId) (e : EngIx) (acc : Bool) (ra rb : Reg)
  | insAclr (ln : LaneId) (e : EngIx) (acc : Bool)
  | insAld (ln : LaneId) (e : EngIx) (acc : Bool) (ra : Reg)
  | insArd (ln : LaneId) (e : EngIx) (acc : Bool) (rd : Reg)
  | insArh (ln : LaneId) (e : EngIx) (acc : Bool) (rd : Reg)
  | insArl (ln : LaneId) (e : EngIx) (acc : Bool) (rd : Reg)
  | insAwr (ln : LaneId) (e : EngIx) (acc : Bool) (ra rb : Reg)
  | insEq (ln : LaneId) (e : EngIx) (p : Pred) (ra rb : Reg)
  | insNe (ln : LaneId) (e : EngIx) (p : Pred) (ra rb : Reg)
  | insLt (ln : LaneId) (e : EngIx) (p : Pred) (ra rb : Reg)
  | insLe (ln : LaneId) (e : EngIx) (p : Pred) (ra rb : Reg)
  | insLtu (ln : LaneId) (e : EngIx) (p : Pred) (ra rb : Reg)
  | insLeu (ln : LaneId) (e : EngIx) (p : Pred) (ra rb : Reg)
  | insLtw (ln : LaneId) (e : EngIx) (p : Pred) (ra rb : Reg)
  | insLew (ln : LaneId) (e : EngIx) (p : Pred) (ra rb : Reg)
  | insPand (ln : LaneId) (e : EngIx) (p pa pb : Pred)
  | insPor (ln : LaneId) (e : EngIx) (p pa pb : Pred)
  | insPxor (ln : LaneId) (e : EngIx) (p pa pb : Pred)
  | insPnot (ln : LaneId) (e : EngIx) (p pa : Pred)
  | insBr (ln : LaneId) (e : EngIx) (off : BitVec 21)
  | insBp (ln : LaneId) (e : EngIx) (p : Pred) (off : BitVec 21)
  | insBnp (ln : LaneId) (e : EngIx) (p : Pred) (off : BitVec 21)
  | insJal (ln : LaneId) (e : EngIx) (rd : Reg) (off : BitVec 21)
  | insLd40 (ln : LaneId) (e : EngIx) (rt ra : Reg) (disp : BitVec 12)
  | insSt40 (ln : LaneId) (e : EngIx) (rt ra : Reg) (disp : BitVec 12)
  | insLd32 (ln : LaneId) (e : EngIx) (zext : Bool) (rt ra : Reg) (disp : BitVec 12)
  | insSt32 (ln : LaneId) (e : EngIx) (rt ra : Reg) (disp : BitVec 12)
  | insPin (ln : LaneId) (e : EngIx) (low : Bool) (rt ra : Reg) (disp : BitVec 12)
  | insPout (ln : LaneId) (e : EngIx) (low : Bool) (rt ra : Reg) (disp : BitVec 12)
  | encodingTrap (ln : LaneId) (e : EngIx) (word : Word)
  | insCrot (ln : LaneId) (e : EngIx) (rd ra rb : Reg)
  | insCatan (ln : LaneId) (e : EngIx) (rd ra rb : Reg)
  | cordicResult (ln : LaneId) (e : EngIx)
  | insYield (ln : LaneId) (e : EngIx)
  | insHurdle (ln : LaneId) (e : EngIx) (t : BitVec 17)
  | insSpawn (ln : LaneId) (e : EngIx) (leg : BitVec 8)
  | insDigest (ln : LaneId) (e : EngIx)
  | insCommit (ln : LaneId) (e : EngIx)
  | insSquash (ln : LaneId) (e : EngIx)
  -- motor channels and power stages (06, 07)
  | currentSample (ln : LaneId) (ch : Fin 2) (m : PwmSample)
  | channelEnable (ln : LaneId) (ch : Fin 2) (on : Bool)
  | catchWindowExpiry (ln : LaneId) (ch : Fin 2)
  | pulseTestDone (ln : LaneId) (ch : Fin 2) (currents : List W40) (gapSpeed : W40)
  | relockTimeout (ln : LaneId) (ch : Fin 2)
  | obsEnvWrite (ln : LaneId) (ch : Fin 2) (value : Word)
  | bridgeFault (ln : LaneId) (ch : Fin 2) (kind : Fin 10) (switch : BitVec 3) (stuckOn : Bool)
  | stoTestPulse (ln : LaneId) (ch : Fin 2) (path : StoPath) (passed : Bool)
  | ascTestWrite (ln : LaneId) (ch : Fin 2) (value : Word)
  | stoReqWrite (ln : LaneId) (ch : Fin 2) (value : Word)
  | chopperOn (ln : LaneId) (ch : Fin 2)
  | chopperOff (ln : LaneId) (ch : Fin 2) (vdc : W40)
  | chopperTestPulse (ln : LaneId) (ch : Fin 2) (vdc : W40)
  | chopperReadback (ln : LaneId) (ch : Fin 2) (vdc : W40) (current : W40)
  | dcLinkOvervoltage (ln : LaneId) (ch : Fin 2)
  | ascOvpRelease (ln : LaneId) (ch : Fin 2)
  -- steering and braking (08)
  | demandEngage (ln : LaneId)
  | demandHold (ln : LaneId)
  | demandPark (ln : LaneId)
  | demandFeel (ln : LaneId)
  | speedReceive (ln : LaneId)
  | speedStale (ln : LaneId)
  | takeoverReqChange (ln : LaneId) (on : Bool)
  | solenoidFault (ln : LaneId) (n : Fin 6) (kind : Fin 4)
  | solenoidOpenTest (ln : LaneId) (n : Fin 6) (current : W40)
  | ditherEnvWrite (ln : LaneId) (n : Fin 6) (value : Word)
  | parkReleased (ln : LaneId)
  | parkReleaseFail (ln : LaneId)
  | parkApplyStart (ln : LaneId)
  | parkApplied (ln : LaneId)
  | moduleStatusSend (ln : LaneId)
  -- steppers (09)
  | stepIssue (ln : LaneId) (n : Fin 4) (lv : BitVec 10)
  | targetWrite (ln : LaneId) (n : Fin 4) (value : Word)
  | holdCurrentTimeout (ln : LaneId) (n : Fin 4)
  | stepperDriverFault (ln : LaneId) (n : Fin 4) (kind : Fin 4)
  | homeCommand (ln : LaneId) (n : Fin 4)
  | stopCommand (ln : LaneId) (n : Fin 4)
  | homingEdge (ln : LaneId) (n : Fin 4) (input : HomeInput) (active : Bool) (stamp : Word) (chatter : Bool)
  | limitHit (ln : LaneId) (n : Fin 4)
  | cmpArm (ln : LaneId) (n : Fin 4) (value : Word)
  | cmpDisarm (ln : LaneId) (n : Fin 4)
  | curEnvWrite (ln : LaneId) (n : Fin 4) (value : Word)
  -- angle feedback (10)
  | angleSample (ln : LaneId) (s0 s1 : SinCos)
  | angleFaultTimeout (ln : LaneId) (n : Fin 2)
  | interfaceStartTimeout (ln : LaneId) (n : Fin 2)
  | speedZeroTimeout (ln : LaneId) (n : Fin 2)
  -- safety I/O (11)
  | contactSample (ln : LaneId) (n : Fin 12) (c1 c2 : ContactRead)
  | discrepancyTimeout (ln : LaneId) (n : Fin 12)
  | testPulseStart (ln : LaneId) (s : Fin 2)
  | testPulseCheck (ln : LaneId) (s : Fin 2) (c1 c2 : BitVec 12)
  | testPulseEnd (ln : LaneId) (s : Fin 2)
  | tpSourceFault (ln : LaneId) (s : Fin 2)
  | doSetWrite (ln : LaneId) (value : Word)
  | outputOffPulse (ln : LaneId) (k : Fin 8) (nodeOff pinOff nodeOn : Bool)
  | outputFault (ln : LaneId) (k : Fin 8) (kind : Fin 7)
  | analogSample (ln : LaneId) (codes : List (BitVec 16)) (supply : List (BitVec 16))
  | analogFaultTimeout (ln : LaneId) (m : Fin 8)
  | supplyFault (ln : LaneId) (s : Fin 2) (mv : BitVec 16) (limit : Bool)
  | supplyRetry (ln : LaneId) (s : Fin 2)
  -- Nolxis and marshal (12)
  | nxFrameReceive (ln : LaneId) (ch : Chan) (f : NxFrame)
  | slotStart (ln : LaneId) (ch : Chan) (slot : BitVec 11)
  | minislotEnd (ln : LaneId) (ch : Chan) (idle : Bool)
  | txCommit (ln : LaneId) (n : Fin 16) (value : Word)
  | nitCorrection (ln : LaneId)
  | pacerSwitch (ln : LaneId)
  | nxEnable (ln : LaneId) (value : Word)
  | passiveReq (ln : LaneId) (value : Word)
  | listenTimeout (ln : LaneId)
  | cycleVerify (ln : LaneId)
  | coldCycleDone (ln : LaneId)
  | collisionReceive (ln : LaneId) (ch : Chan)
  | backoffExpiry (ln : LaneId)
  | syncLost (ln : LaneId)
  | passiveTimeout (ln : LaneId)
  | portLost (ln : LaneId) (ch : Chan)
  | claimSend (ln : LaneId)
  | claimGrant (ln : LaneId)
  | grantCheck (ln : LaneId)
  | grantRelease (ln : LaneId) (slot : BitVec 11)
  | marshalTableOffer (ln : LaneId) (section_ : Found)
  | marshalLoadDone
  | marshalAdmit (b : Fin 16) (x : Transmission)
  | marshalTruncate (b : Fin 16) (k : TruncKind)
  | marshalCollision
  | marshalRequalify (b : Fin 16)
  | marshalUnsync
  | msRequalWrite (ln : LaneId) (value : Word)
  -- time (13)
  | correctionWindow (ln : LaneId)
  | lap (ln : LaneId)
  | interruptEntry (ln : LaneId) (line : Fin 20)
  | timerDueWrite (ln : LaneId) (t : Fin 64) (value : Word)
  | timerDisarm (ln : LaneId) (t : Fin 64)
  | timerFire (ln : LaneId) (t : Fin 64)
  | watchMet (ln : LaneId) (t : Fin 64) (stamp : Word)
  | watchTimeout (ln : LaneId) (t : Fin 64)
  -- safety envelope (14)
  | envelopeProduce (ln : LaneId) (c : Fin 64) (payload : List Word)
  | seTxCommit (ln : LaneId) (value : Word)
  | envelopeCopyJudge (ln : LaneId) (c : Fin 64) (pathB : Bool) (words : List Word) (arrival : Word)
  | envelopeChargeDecision (ln : LaneId) (c : Fin 64)
  | connectionUnblock (ln : LaneId) (c : Fin 64)
  -- power states (15)
  | powerRequest (ln : LaneId) (w0 w1 : Word)
  | voteWindowExpiry (ln : LaneId) (unit : Fin 22)
  | powerVoteNit (ln : LaneId) (others : List (LaneId × Word))
  | retentionSave (ln : LaneId)
  | sleepEntryComplete (ln : LaneId)
  | wakeEvent (ln : LaneId) (source : Fin 5)
  | wakePulseSend (ln : LaneId)
  | napWake (ln : LaneId) (x : WakeRead)
  | dormantWake (ln : LaneId) (banks : List (List (Nat × Ecc)))
  | padRelease (ln : LaneId) (value : Word)
  | padTimeout (ln : LaneId)
  | presenceOpen (ln : LaneId)
  | brownOut (ln : LaneId)
  -- configuration and service (16)
  | serviceMessageReceive (ln : LaneId) (fate : EthFate) (peer : UdpPeer) (target : BitVec 16) (data : UdpData)
  | svcInfo (ln : LaneId) (q : SvcReq)
  | svcRead (ln : LaneId) (q : SvcReq) (addr : Word) (len : Nat)
  | svcOpen (ln : LaneId) (q : SvcReq)
  | svcClose (ln : LaneId) (q : SvcReq)
  | svcWriteBegin (ln : LaneId) (q : SvcReq) (target : Word) (offset : Nat) (len : Nat) (sha : BitVec 256)
  | svcWriteData (ln : LaneId) (q : SvcReq) (offset : Nat) (data : List Byte)
  | svcWriteEnd (ln : LaneId) (q : SvcReq)
  | svcPromote (ln : LaneId) (q : SvcReq)
  | svcAbort (ln : LaneId) (q : SvcReq)
  | svcReadJournal (ln : LaneId) (q : SvcReq) (first : Word) (count : Nat)
  | sessionTimeout (ln : LaneId)
  | serviceConditionDrop (ln : LaneId)
  | journalScan (ln : LaneId) (head tail : Found)
  | canFrameReceive (ln : LaneId) (k : Fin 2) (f : CanFrame)
  | canSend (ln : LaneId) (k : Fin 2) (m : Fin 16) (value : Word)
  | canCancel (ln : LaneId) (k : Fin 2) (m : Fin 16)
  | canTxDone (ln : LaneId) (k : Fin 2) (m : Fin 16)
  | canRxPop (ln : LaneId) (k : Fin 2) (value : Word)
  | canBusOffRecover (ln : LaneId) (k : Fin 2)
  | canRecoverWrite (ln : LaneId) (k : Fin 2) (value : Word)
  -- health (17)
  | ageingSample (ln : LaneId) (i : Fin 8) (x : AgeRaw)
  | dieTemperatureSample (ln : LaneId) (t : BitVec 16)
  | hourlyLifeUpdate (ln : LaneId)
  | healthRecordWrite (ln : LaneId)
  | telemetrySend (ln : LaneId)
  | baselineReset (ln : LaneId) (value : Word)
  -- rows listed last in the table
  | linkFrameSend (ln : LaneId) (dest : LaneId)
  | passAcceptDeadline (ln : LaneId)
  | pwmPeriodBoundary (ln : LaneId)
  | staticSlotEnd (ln : LaneId) (n : Fin 32)
  | pairLoRead (ln : LaneId) (addr : Word)
  | marshalSupplyChange (on : Bool)
  | managementLinkDown (ln : LaneId) (down : Bool)
  | ethernetLinkChange (ln : LaneId) (up : Bool) (sqi : BitVec 3)
  | arpOrIcmpEchoReceive (ln : LaneId) (fate : EthFate) (ask : AskFrame)
  | canErrorEvent (ln : LaneId) (k : Fin 2) (ev : CanError)
  deriving DecidableEq, Repr, Inhabited

end Sys2Proof
end

