-- ==== Sys2Proof/Decode.lean ====
section
/-! DEFINITION. The decoder of the table's words and of the engine's instruction words (R171 to R187). -/

namespace Sys2Proof

/-- The command that a word spells by the table's bits. No row of the table gives bits, so no word spells one. -/
def decodeTableWord (_nbits _w : Nat) : Option Instr := none

/-- A field of an engine word, bits hi:lo. -/
def ewField (w : Word) (hi lo : Nat) : Nat := w.toNat / 2 ^ lo % 2 ^ (hi - lo + 1)

/-- A register number field. -/
def ewReg (w : Word) (lo : Nat) : Reg := Fin.ofNat 32 (ewField w (lo + 4) lo)

/-- A predicate number from the two lowest bits of a field. -/
def ewPred (w : Word) (lo : Nat) : Pred := Fin.ofNat 4 (ewField w (lo + 1) lo)

/-- The integer group, op 0x01 (R174). -/
def decodeInteger (ln : LaneId) (e : EngIx) (w : Word) : Option Instr :=
  let rd := ewReg w 21
  let ra := ewReg w 16
  let rb := ewReg w 11
  let hiFn := ewField w 10 6
  let d := ewField w 25 21
  let b := ewField w 15 11
  match ewField w 5 0 with
  | 0x00 => if hiFn = 0 then some (.insAdd ln e rd ra rb) else none
  | 0x01 => if hiFn = 0 then some (.insSub ln e rd ra rb) else none
  | 0x02 => if hiFn = 0 then some (.insAnd ln e rd ra rb) else none
  | 0x03 => if hiFn = 0 then some (.insOr ln e rd ra rb) else none
  | 0x04 => if hiFn = 0 then some (.insXor ln e rd ra rb) else none
  | 0x05 => if hiFn = 0 then some (.insSll ln e rd ra rb) else none
  | 0x06 => if hiFn = 0 then some (.insSrl ln e rd ra rb) else none
  | 0x07 => if hiFn = 0 then some (.insSra ln e rd ra rb) else none
  | 0x08 => if hiFn = 0 then some (.insMin ln e rd ra rb) else none
  | 0x09 => if hiFn = 0 then some (.insMax ln e rd ra rb) else none
  | 0x0A => if hiFn = 0 then some (.insMinu ln e rd ra rb) else none
  | 0x0B => if hiFn = 0 then some (.insMaxu ln e rd ra rb) else none
  | 0x0C => if hiFn = 0 then some (.insMul ln e rd ra rb) else none
  | 0x0D => if ewField w 10 8 = 0 then some (.insSel ln e (ewPred w 6) rd ra rb) else none
  | 0x0E => if hiFn = 0 ∧ b = 0 then some (.insClz ln e rd ra) else none
  | 0x0F => if hiFn = 0 ∧ b = 0 ∧ d = 0 then some (.insJr ln e ra) else none
  | _ => none

/-- The fixed-point group, op 0x02 (R177). -/
def decodeFixed (ln : LaneId) (e : EngIx) (w : Word) : Option Instr :=
  let rd := ewReg w 21
  let ra := ewReg w 16
  let rb := ewReg w 11
  let b := ewField w 15 11
  if ewField w 10 6 ≠ 0 then none
  else match ewField w 5 0 with
  | 0x00 => some (.insQadd ln e rd ra rb)
  | 0x01 => some (.insQsub ln e rd ra rb)
  | 0x02 => some (.insQmul ln e rd ra rb)
  | 0x03 => some (.insQdiv ln e rd ra rb)
  | 0x04 => some (.insQsat ln e rd ra rb)
  | 0x05 => if b = 0 then some (.insQabs ln e rd ra) else none
  | 0x06 => if b = 0 then some (.insQneg ln e rd ra) else none
  | 0x07 => some (.insQshl ln e rd ra rb)
  | 0x08 => some (.insQsrr ln e rd ra rb)
  | _ => none

/-- The compare and predicate group, op 0x03 (R179). -/
def decodeCompare (ln : LaneId) (e : EngIx) (w : Word) : Option Instr :=
  let p := ewPred w 21
  let ra := ewReg w 16
  let rb := ewReg w 11
  let logic := decide (ewField w 20 18 = 0) && decide (ewField w 15 13 = 0)
  if ewField w 25 23 ≠ 0 ∨ ewField w 10 4 ≠ 0 then none
  else match ewField w 3 0 with
  | 0x0 => some (.insEq ln e p ra rb)
  | 0x1 => some (.insNe ln e p ra rb)
  | 0x2 => some (.insLt ln e p ra rb)
  | 0x3 => some (.insLe ln e p ra rb)
  | 0x4 => some (.insLtu ln e p ra rb)
  | 0x5 => some (.insLeu ln e p ra rb)
  | 0x6 => some (.insLtw ln e p ra rb)
  | 0x7 => some (.insLew ln e p ra rb)
  | 0x8 => if logic then some (.insPand ln e p (ewPred w 16) (ewPred w 11)) else none
  | 0x9 => if logic then some (.insPor ln e p (ewPred w 16) (ewPred w 11)) else none
  | 0xA => if logic then some (.insPxor ln e p (ewPred w 16) (ewPred w 11)) else none
  | 0xB => if logic && decide (ewField w 15 11 = 0) then some (.insPnot ln e p (ewPred w 16)) else none
  | _ => none

/-- The accumulator group, op 0x04 (R178). -/
def decodeAccum (ln : LaneId) (e : EngIx) (w : Word) : Option Instr :=
  let rd := ewReg w 21
  let ra := ewReg w 16
  let rb := ewReg w 11
  let acc := decide (ewField w 6 6 = 1)
  let d0 := decide (ewField w 25 21 = 0)
  let a0 := decide (ewField w 20 16 = 0)
  let b0 := decide (ewField w 15 11 = 0)
  if ewField w 10 7 ≠ 0 then none
  else match ewField w 5 0 with
  | 0x00 => if d0 then some (.insQmac ln e acc ra rb) else none
  | 0x01 => if d0 then some (.insQmsu ln e acc ra rb) else none
  | 0x02 => if d0 then some (.insAmul ln e acc ra rb) else none
  | 0x03 => if d0 && a0 && b0 then some (.insAclr ln e acc) else none
  | 0x04 => if d0 && b0 then some (.insAld ln e acc ra) else none
  | 0x05 => if a0 && b0 then some (.insArd ln e acc rd) else none
  | 0x06 => if a0 && b0 then some (.insArh ln e acc rd) else none
  | 0x07 => if a0 && b0 then some (.insArl ln e acc rd) else none
  | 0x08 => if d0 then some (.insAwr ln e acc ra rb) else none
  | _ => none

/-- The pairing rules of the CORDIC group (R185): rd even and not 0, and for crot ra even. -/
def pairOk (atan : Bool) (rd ra : Reg) : Bool :=
  decide (rd.val % 2 = 0) && decide (rd.val ≠ 0) && (atan || decide (ra.val % 2 = 0))

/-- The CORDIC group, op 0x05 (R185). -/
def decodeCordic (ln : LaneId) (e : EngIx) (w : Word) : Option Instr :=
  let rd := ewReg w 21
  let ra := ewReg w 16
  let rb := ewReg w 11
  match ewField w 10 0 with
  | 0 => if pairOk false rd ra then some (.insCrot ln e rd ra rb) else none
  | 1 => if pairOk true rd ra then some (.insCatan ln e rd ra rb) else none
  | _ => none

/-- Leg control, op 0x38 (R187). -/
def decodeLeg (ln : LaneId) (e : EngIx) (w : Word) : Option Instr :=
  let arg := ewField w 21 0
  match ewField w 25 22 with
  | 0 => if arg = 0 then some (.insYield ln e) else none
  | 1 => if ewField w 21 17 = 0 then some (.insHurdle ln e (BitVec.ofNat 17 arg)) else none
  | 2 => if ewField w 21 8 = 0 then some (.insSpawn ln e (BitVec.ofNat 8 arg)) else none
  | 3 => if arg = 0 then some (.insDigest ln e) else none
  | 4 => if arg = 0 then some (.insCommit ln e) else none
  | 5 => if arg = 0 then some (.insSquash ln e) else none
  | _ => none

/-- The engine instruction that a word spells in engine `e` of a lane (R171 to R187); an undefined encoding spells none
(R172, R173). -/
def decodeEngineWord (ln : LaneId) (e : EngIx) (w : Word) : Option Instr :=
  let rd := ewReg w 21
  let ra := ewReg w 16
  let imm : BitVec 16 := w.setWidth 16
  let fn := ewField w 15 12
  let disp : BitVec 12 := w.setWidth 12
  let off : BitVec 21 := w.setWidth 21
  match ewField w 31 26 with
  | 0x01 => decodeInteger ln e w
  | 0x02 => decodeFixed ln e w
  | 0x03 => decodeCompare ln e w
  | 0x04 => decodeAccum ln e w
  | 0x05 => decodeCordic ln e w
  | 0x10 => some (.insAddi ln e rd ra imm)
  | 0x11 => some (.insAndi ln e rd ra imm)
  | 0x12 => some (.insOri ln e rd ra imm)
  | 0x13 => some (.insXori ln e rd ra imm)
  | 0x14 => some (.insOrh ln e rd ra imm)
  | 0x15 => if ewField w 20 8 = 0 then some (.insLdx ln e rd (w.setWidth 8)) else none
  | 0x16 => some (.insCmpi ln e (Fin.ofNat 8 (ewField w 25 23)) (ewPred w 21) ra imm)
  | 0x17 =>
    if ewField w 15 8 = 0 ∧ ewField w 7 6 ≠ 3 then
      some (.insShi ln e rd ra (Fin.ofNat 3 (ewField w 7 6)) (w.setWidth 6))
    else none
  | 0x20 => if fn = 0 then some (.insLd40 ln e rd ra disp) else none
  | 0x21 => if fn = 0 then some (.insSt40 ln e rd ra disp) else none
  | 0x22 => if fn ≤ 1 then some (.insLd32 ln e (decide (fn = 1)) rd ra disp) else none
  | 0x23 => if fn = 0 then some (.insSt32 ln e rd ra disp) else none
  | 0x24 => if fn ≤ 1 then some (.insPin ln e (decide (fn = 1)) rd ra disp) else none
  | 0x25 => if fn ≤ 1 then some (.insPout ln e (decide (fn = 1)) rd ra disp) else none
  | 0x30 => if ewField w 25 21 = 0 then some (.insBr ln e off) else none
  | 0x31 => if ewField w 25 23 = 0 then some (.insBp ln e (ewPred w 21) off) else none
  | 0x32 => if ewField w 25 23 = 0 then some (.insBnp ln e (ewPred w 21) off) else none
  | 0x33 => some (.insJal ln e rd off)
  | 0x38 => decodeLeg ln e w
  | _ => none

/-! ### The encoder -/

/-- A word from its major opcode, the fields at bits 25:21 and 20:16, and what stands below (R171). -/
def ewWord (op d a low : Nat) : Word := BitVec.ofNat 32 (op * 2 ^ 26 + d * 2 ^ 21 + a * 2 ^ 16 + low)

/-- Whether an engine instruction is one that the encodings admit: the pairing rules of the CORDIC group (R185). -/
def encodable : Instr → Bool
  | .insCrot _ _ rd ra _ => pairOk false rd ra
  | .insCatan _ _ rd ra _ => pairOk true rd ra
  | _ => true

/-- The word of an engine instruction (R171 to R187); no other command has one. -/
def encodeEngineWord : Instr → Option Word
  | .insAdd _ _ rd ra rb => some (ewWord 0x01 rd.val ra.val (rb.val * 2048 + 0x00))
  | .insSub _ _ rd ra rb => some (ewWord 0x01 rd.val ra.val (rb.val * 2048 + 0x01))
  | .insAnd _ _ rd ra rb => some (ewWord 0x01 rd.val ra.val (rb.val * 2048 + 0x02))
  | .insOr _ _ rd ra rb => some (ewWord 0x01 rd.val ra.val (rb.val * 2048 + 0x03))
  | .insXor _ _ rd ra rb => some (ewWord 0x01 rd.val ra.val (rb.val * 2048 + 0x04))
  | .insSll _ _ rd ra rb => some (ewWord 0x01 rd.val ra.val (rb.val * 2048 + 0x05))
  | .insSrl _ _ rd ra rb => some (ewWord 0x01 rd.val ra.val (rb.val * 2048 + 0x06))
  | .insSra _ _ rd ra rb => some (ewWord 0x01 rd.val ra.val (rb.val * 2048 + 0x07))
  | .insMin _ _ rd ra rb => some (ewWord 0x01 rd.val ra.val (rb.val * 2048 + 0x08))
  | .insMax _ _ rd ra rb => some (ewWord 0x01 rd.val ra.val (rb.val * 2048 + 0x09))
  | .insMinu _ _ rd ra rb => some (ewWord 0x01 rd.val ra.val (rb.val * 2048 + 0x0A))
  | .insMaxu _ _ rd ra rb => some (ewWord 0x01 rd.val ra.val (rb.val * 2048 + 0x0B))
  | .insMul _ _ rd ra rb => some (ewWord 0x01 rd.val ra.val (rb.val * 2048 + 0x0C))
  | .insSel _ _ p rd ra rb => some (ewWord 0x01 rd.val ra.val (rb.val * 2048 + p.val * 64 + 0x0D))
  | .insClz _ _ rd ra => some (ewWord 0x01 rd.val ra.val 0x0E)
  | .insJr _ _ ra => some (ewWord 0x01 0 ra.val 0x0F)
  | .insQadd _ _ rd ra rb => some (ewWord 0x02 rd.val ra.val (rb.val * 2048 + 0x00))
  | .insQsub _ _ rd ra rb => some (ewWord 0x02 rd.val ra.val (rb.val * 2048 + 0x01))
  | .insQmul _ _ rd ra rb => some (ewWord 0x02 rd.val ra.val (rb.val * 2048 + 0x02))
  | .insQdiv _ _ rd ra rb => some (ewWord 0x02 rd.val ra.val (rb.val * 2048 + 0x03))
  | .insQsat _ _ rd ra rb => some (ewWord 0x02 rd.val ra.val (rb.val * 2048 + 0x04))
  | .insQabs _ _ rd ra => some (ewWord 0x02 rd.val ra.val 0x05)
  | .insQneg _ _ rd ra => some (ewWord 0x02 rd.val ra.val 0x06)
  | .insQshl _ _ rd ra rb => some (ewWord 0x02 rd.val ra.val (rb.val * 2048 + 0x07))
  | .insQsrr _ _ rd ra rb => some (ewWord 0x02 rd.val ra.val (rb.val * 2048 + 0x08))
  | .insEq _ _ p ra rb => some (ewWord 0x03 p.val ra.val (rb.val * 2048 + 0x0))
  | .insNe _ _ p ra rb => some (ewWord 0x03 p.val ra.val (rb.val * 2048 + 0x1))
  | .insLt _ _ p ra rb => some (ewWord 0x03 p.val ra.val (rb.val * 2048 + 0x2))
  | .insLe _ _ p ra rb => some (ewWord 0x03 p.val ra.val (rb.val * 2048 + 0x3))
  | .insLtu _ _ p ra rb => some (ewWord 0x03 p.val ra.val (rb.val * 2048 + 0x4))
  | .insLeu _ _ p ra rb => some (ewWord 0x03 p.val ra.val (rb.val * 2048 + 0x5))
  | .insLtw _ _ p ra rb => some (ewWord 0x03 p.val ra.val (rb.val * 2048 + 0x6))
  | .insLew _ _ p ra rb => some (ewWord 0x03 p.val ra.val (rb.val * 2048 + 0x7))
  | .insPand _ _ p pa pb => some (ewWord 0x03 p.val pa.val (pb.val * 2048 + 0x8))
  | .insPor _ _ p pa pb => some (ewWord 0x03 p.val pa.val (pb.val * 2048 + 0x9))
  | .insPxor _ _ p pa pb => some (ewWord 0x03 p.val pa.val (pb.val * 2048 + 0xA))
  | .insPnot _ _ p pa => some (ewWord 0x03 p.val pa.val 0xB)
  | .insQmac _ _ acc ra rb => some (ewWord 0x04 0 ra.val (rb.val * 2048 + cond acc 64 0 + 0x00))
  | .insQmsu _ _ acc ra rb => some (ewWord 0x04 0 ra.val (rb.val * 2048 + cond acc 64 0 + 0x01))
  | .insAmul _ _ acc ra rb => some (ewWord 0x04 0 ra.val (rb.val * 2048 + cond acc 64 0 + 0x02))
  | .insAclr _ _ acc => some (ewWord 0x04 0 0 (cond acc 64 0 + 0x03))
  | .insAld _ _ acc ra => some (ewWord 0x04 0 ra.val (cond acc 64 0 + 0x04))
  | .insArd _ _ acc rd => some (ewWord 0x04 rd.val 0 (cond acc 64 0 + 0x05))
  | .insArh _ _ acc rd => some (ewWord 0x04 rd.val 0 (cond acc 64 0 + 0x06))
  | .insArl _ _ acc rd => some (ewWord 0x04 rd.val 0 (cond acc 64 0 + 0x07))
  | .insAwr _ _ acc ra rb => some (ewWord 0x04 0 ra.val (rb.val * 2048 + cond acc 64 0 + 0x08))
  | .insCrot _ _ rd ra rb => some (ewWord 0x05 rd.val ra.val (rb.val * 2048))
  | .insCatan _ _ rd ra rb => some (ewWord 0x05 rd.val ra.val (rb.val * 2048 + 1))
  | .insAddi _ _ rd ra imm => some (ewWord 0x10 rd.val ra.val imm.toNat)
  | .insAndi _ _ rd ra imm => some (ewWord 0x11 rd.val ra.val imm.toNat)
  | .insOri _ _ rd ra imm => some (ewWord 0x12 rd.val ra.val imm.toNat)
  | .insXori _ _ rd ra imm => some (ewWord 0x13 rd.val ra.val imm.toNat)
  | .insOrh _ _ rd ra imm => some (ewWord 0x14 rd.val ra.val imm.toNat)
  | .insLdx _ _ rd imm => some (ewWord 0x15 rd.val 0 imm.toNat)
  | .insCmpi _ _ k p ra imm => some (ewWord 0x16 (k.val * 4 + p.val) ra.val imm.toNat)
  | .insShi _ _ rd ra kind amount => some (ewWord 0x17 rd.val ra.val (kind.val * 64 + amount.toNat))
  | .insLd40 _ _ rt ra disp => some (ewWord 0x20 rt.val ra.val (disp.toNat))
  | .insSt40 _ _ rt ra disp => some (ewWord 0x21 rt.val ra.val (disp.toNat))
  | .insLd32 _ _ zext rt ra disp => some (ewWord 0x22 rt.val ra.val (cond zext 4096 0 + disp.toNat))
  | .insSt32 _ _ rt ra disp => some (ewWord 0x23 rt.val ra.val (disp.toNat))
  | .insPin _ _ low rt ra disp => some (ewWord 0x24 rt.val ra.val (cond low 4096 0 + disp.toNat))
  | .insPout _ _ low rt ra disp => some (ewWord 0x25 rt.val ra.val (cond low 4096 0 + disp.toNat))
  | .insBr _ _ off => some (ewWord 0x30 0 0 off.toNat)
  | .insBp _ _ p off => some (ewWord 0x31 p.val 0 off.toNat)
  | .insBnp _ _ p off => some (ewWord 0x32 p.val 0 off.toNat)
  | .insJal _ _ rd off => some (ewWord 0x33 rd.val 0 off.toNat)
  | .insYield _ _ => some (ewWord 0x38 0 0 (0 * 0x400000 + 0))
  | .insHurdle _ _ t => some (ewWord 0x38 0 0 (1 * 0x400000 + t.toNat))
  | .insSpawn _ _ leg => some (ewWord 0x38 0 0 (2 * 0x400000 + leg.toNat))
  | .insDigest _ _ => some (ewWord 0x38 0 0 (3 * 0x400000 + 0))
  | .insCommit _ _ => some (ewWord 0x38 0 0 (4 * 0x400000 + 0))
  | .insSquash _ _ => some (ewWord 0x38 0 0 (5 * 0x400000 + 0))
  | _ => none

end Sys2Proof
end

