-- ==== Sys2Proof/Config.lean ====
section
/-! DEFINITION. What an implementation fixes and what the spec leaves open: constants without a body, so that no proof can
lean on a value of theirs. Each is named in the assumption log. -/

namespace Sys2Proof.Config

/-- The level on the pin of a safety output whose switch is off (R357): what is wired to it decides, by output and draw. -/
opaque pinLevel : Nat → Nat → Bool

/-- The level on the switch node of a safety output whose switch is off (R357): a switch that sticks holds it on, by output and draw. -/
opaque nodeLevel : Nat → Nat → Bool

/-- The mean current of a solenoid coil over the last PWM period, q40 A (R294), by driver and draw. -/
opaque coilCurrent : Nat → Nat → BitVec 40

/-- The measured dither ripple of a solenoid driver in mA (R285), by driver and draw. -/
opaque ripple : Nat → Nat → BitVec 16

/-- The current of a sensor supply in mA as SI_SUP shows it (R369), by supply and draw: what is wired to it decides. -/
opaque supplyMa : Nat → Nat → BitVec 8

/-- The switch current of a safety output in mA (R357, R369), by output and draw. -/
opaque outputMa : Nat → Nat → BitVec 16

/-- The address that envelopes of a producing Ethernet connection go to (R440), by connection; the spec does not say where
the image holds it. -/
opaque envelopePeer : Nat → BitVec 32

/-- The remaining life in hours where the regression of R506 has no solution (den not positive), by monitor and draw. -/
opaque openLife : Nat → Nat → BitVec 16

/-- The bytes of a journal granule that can no longer be read (R107, R490), by address and draw. -/
opaque damagedWord : Nat → Nat → BitVec 32

/-- The sensitivity of a library leg's reference to a predicted input, q40 (R160), by leg, input and draw: the library's legs write
it, and the spec does not state it. -/
opaque libSens : Nat → Nat → Nat → BitVec 40

/-- The Ethernet transmitter has no buffer for a datagram (R512), by draw: the spec gives no count of its buffers. -/
opaque txFull : Nat → Bool

/-- The digest of a supervisor core's own registers (R100), by draw: firmware decides what they hold. -/
opaque coreDigest : Nat → BitVec 64

end Sys2Proof.Config
end

