-- ==== Sys2Proof/Machine/Arith.lean ====
section
/-! DEFINITION. The arithmetic the spec fixes to the bit: rounding and saturation (R176), radians (R560), the CORDIC
operations (R186), and the cyclic checks of the links, the digest and the envelope. -/

namespace Sys2Proof.Machine

/-- Signed value of a 40-bit word (R12). -/
def qv (w : W40) : Int := w.toInt

/-- The 40-bit word of an integer, modulo 2^40. -/
def qw (x : Int) : W40 := BitVec.ofInt 40 x

/-- The largest q40 value in LSB. -/
def qMax : Int := 2 ^ 39 - 1
/-- The least q40 value in LSB. -/
def qMin : Int := -(2 ^ 39)

/-- An integer held within two bounds. -/
def clampInt (lo hi x : Int) : Int := if x < lo then lo else if hi < x then hi else x

/-- saturate_q40 without its count (R176). -/
def satQ (x : Int) : Int := clampInt qMin qMax x

/-- Whether saturate_q40 counts a saturation for this value (R176). -/
def satHit (x : Int) : Bool := decide (x < qMin) || decide (qMax < x)

/-- sat80 of the accumulators (R178). -/
def sat80 (x : Int) : Int := clampInt (-(2 ^ 79)) (2 ^ 79 - 1) x

/-- Whether sat80 counts a saturation. -/
def sat80Hit (x : Int) : Bool := decide (x < -(2 ^ 79)) || decide (2 ^ 79 - 1 < x)

/-- round_nearest_away(x, n) (R176). -/
def rna (x : Int) (n : Nat) : Int :=
  if 0 ≤ x then (x + 2 ^ (n - 1)) / 2 ^ n else -((-x + 2 ^ (n - 1)) / 2 ^ n)

/-- The quotient a / b to the nearest integer with ties away from zero, b not 0. -/
def rnaDiv (a b : Int) : Int :=
  let m : Int := a.natAbs
  let d : Int := b.natAbs
  let r := (2 * m + d) / (2 * d)
  if (decide (a < 0)) == (decide (b < 0)) then r else -r

/-- One q40 unit, 2^24 LSB. -/
def qOne : Int := 2 ^ 24

/-- The product of two q40 values in LSB, rounded once and saturated (R177). -/
def qMul (a b : Int) : Int := satQ (rna (a * b) 24)

/-- The quotient of two q40 values in LSB with R177's results for a zero divisor. -/
def qDiv (a b : Int) : Int :=
  if b = 0 then (if 0 < a then qMax else if a < 0 then qMin else 0) else satQ (rnaDiv (a * 2 ^ 24) b)

/-- K_2PI, 2π times 2^32 (R560). -/
def k2pi : Int := 0x6487ED511

/-- A signed turn32 value or difference as a q40 angle (R560). -/
def turnToRad (t : Int) : Int := satQ (rna (t * k2pi) 40)

/-- A q40 angle as turn32 (R560). -/
def radToTurn (v : Int) : Word := BitVec.ofInt 32 (rnaDiv (v * 2 ^ 40) k2pi)

/-- The signed 32-bit difference of two stamps or angles (R13, R14). -/
def sdiff (a b : Word) : Int := (a - b).toInt

/-- The integer square root, by bits from `n` down. -/
def isqrtFrom (x : Nat) : Nat → Nat → Nat
  | 0, r => r
  | n + 1, r =>
    let t := r + 2 ^ n
    if t * t ≤ x then isqrtFrom x n t else isqrtFrom x n r

/-- The integer square root, rounded down. -/
def isqrt (x : Nat) : Nat := isqrtFrom x (x.log2 / 2 + 1) 0

/-- The square root of a nonnegative integer, rounded to the nearest integer (no tie can occur). -/
def isqrtNear (x : Nat) : Nat :=
  let r := isqrt x
  if r * r + r < x then r + 1 else r

/-- atan_tab of R186: round_nearest_away(atan(2^-i) / 2π · 2^32), i = 0 to 31. -/
def atanTab : List Int := [
  0x20000000, 0x12E4051E, 0x09FB385B, 0x051111D4, 0x028B0D43, 0x0145D7E1, 0x00A2F61E, 0x00517C55,
  0x0028BE53, 0x00145F2F, 0x000A2F98, 0x000517CC, 0x00028BE6, 0x000145F3, 0x0000A2FA, 0x0000517D,
  0x000028BE, 0x0000145F, 0x00000A30, 0x00000518, 0x0000028C, 0x00000146, 0x000000A3, 0x00000051,
  0x00000029, 0x00000014, 0x0000000A, 0x00000005, 0x00000003, 0x00000001, 0x00000001, 0x00000000]

/-- K of R186. -/
def cordicK : Int := 0x9B74EDA8

/-- An arithmetic right shift of an integer. -/
def asr (x : Int) (n : Nat) : Int := x / 2 ^ n

/-- A value wrapped to a signed width, as the CORDIC registers hold it. -/
def wrapS (w : Nat) (x : Int) : Int := (BitVec.ofInt w x).toInt

/-- The iterations of crot (R186). -/
def crotLoop : List Int → Nat → Int × Int × Int → Int × Int × Int
  | [], _, s => s
  | a :: t, i, (x, y, z) =>
    if 0 ≤ z then crotLoop t (i + 1) (wrapS 56 (x - asr y i), wrapS 56 (y + asr x i), wrapS 34 (z - a))
    else crotLoop t (i + 1) (wrapS 56 (x + asr y i), wrapS 56 (y - asr x i), wrapS 34 (z + a))

/-- The iterations of catan (R186). -/
def catanLoop : List Int → Nat → Int × Int × Int → Int × Int × Int
  | [], _, s => s
  | a :: t, i, (x, y, z) =>
    if 0 ≤ y then catanLoop t (i + 1) (wrapS 56 (x + asr y i), wrapS 56 (y - asr x i), wrapS 34 (z + a))
    else catanLoop t (i + 1) (wrapS 56 (x - asr y i), wrapS 56 (y + asr x i), wrapS 34 (z - a))

/-- The vector and angle that crot's iterations start from (R186): a vector beyond a quarter turn is turned by half. -/
def crotStart (x y angle : Int) : Int × Int × Int :=
  if 2 ^ 30 < angle then (-(x * 2 ^ 8), -(y * 2 ^ 8), angle - 2 ^ 31)
  else if angle < -(2 ^ 30) then (-(x * 2 ^ 8), -(y * 2 ^ 8), angle + 2 ^ 31)
  else (x * 2 ^ 8, y * 2 ^ 8, angle)

/-- crot of R186 on q40 values and a signed turn32 angle, before saturation. -/
def crotRaw (x y angle : Int) : Int × Int :=
  let (x1, y1, _) := crotLoop atanTab 0 (crotStart x y angle)
  (rna (x1 * cordicK) 40, rna (y1 * cordicK) 40)

/-- crot with its saturation. -/
def crot (x y angle : Int) : Int × Int :=
  let (a, b) := crotRaw x y angle
  (satQ a, satQ b)

/-- catan of R186, magnitude before saturation and angle. -/
def catanRaw (x y : Int) : Int × Word :=
  let s : Int × Int × Int := if x < 0 then (-(x * 2 ^ 8), -(y * 2 ^ 8), 2 ^ 31) else (x * 2 ^ 8, y * 2 ^ 8, 0)
  let (x1, _, z) := catanLoop atanTab 0 s
  (rna (x1 * cordicK) 40, BitVec.ofInt 32 z)

/-- catan with its saturation; (0, 0) gives magnitude 0 and angle 0. -/
def catan (x y : Int) : Int × Word :=
  if x = 0 ∧ y = 0 then (0, 0) else
  let (m, z) := catanRaw x y
  (satQ m, z)

/-- Eight steps of a reflected CRC. -/
def crcRefl {w : Nat} (poly : BitVec w) : Nat → BitVec w → BitVec w
  | 0, c => c
  | n + 1, c => crcRefl poly n (if c.getLsbD 0 then (c >>> 1) ^^^ poly else c >>> 1)

/-- A reflected CRC over bytes. -/
def crcReflBytes {w : Nat} (poly : BitVec w) : List Byte → BitVec w → BitVec w
  | [], c => c
  | b :: t, c => crcReflBytes poly t (crcRefl poly 8 (c ^^^ b.setWidth w))

/-- The four bytes of a word, least significant first (R35). -/
def wordBytes (w : Word) : List Byte :=
  [w.extractLsb' 0 8, w.extractLsb' 8 8, w.extractLsb' 16 8, w.extractLsb' 24 8]

/-- CRC-32C of R35: polynomial 0x1EDC6F41 reflected, initial value and final XOR all ones. -/
def crc32c (bs : List Byte) : Word := crcReflBytes (0x82F63B78 : Word) bs 0xFFFFFFFF ^^^ 0xFFFFFFFF

/-- CRC-32C of words sent least significant byte first. -/
def crc32cWords (ws : List Word) : Word := crc32c (ws.flatMap wordBytes)

/-- Steps of a CRC taken most significant bit first, without reflection. -/
def crcFwd {w : Nat} (poly : BitVec w) : Nat → BitVec w → BitVec w
  | 0, c => c
  | n + 1, c => crcFwd poly n (if c.msb then (c <<< 1) ^^^ poly else c <<< 1)

/-- A CRC over bytes, most significant bit first. -/
def crcFwdBytes {w : Nat} (poly : BitVec w) : List Byte → BitVec w → BitVec w
  | [], c => c
  | b :: t, c => crcFwdBytes poly t (crcFwd poly 8 (c ^^^ (b.setWidth w <<< (w - 8))))

/-- The CRC-16 of a retention bank (R458). -/
def crc16 (bs : List Byte) : BitVec 16 := crcFwdBytes (0x1021 : BitVec 16) bs 0xFFFF

/-- The digest of R192. -/
def digest64 (bs : List Byte) : BitVec 64 := crcFwdBytes (0x42F0E1EBA9EA3693 : BitVec 64) bs (-1#64)

/-- A CRC over a list of bits, first bit first, without reflection. -/
def crcBits {w : Nat} (poly : BitVec w) : List Bool → BitVec w → BitVec w
  | [], c => c
  | b :: t, c => crcBits poly t (if c.msb != b then (c <<< 1) ^^^ poly else c <<< 1)

/-- The bits of a vector, most significant first. -/
def bitsMsb {w : Nat} (v : BitVec w) : List Bool := (List.range w).map (fun i => v.getLsbD (w - 1 - i))

/-- The bytes of a vector of n bytes, most significant first. -/
def bytesMsb {w : Nat} (n : Nat) (v : BitVec w) : List Byte := (List.range n).map (fun i => v.extractLsb' (8 * (n - 1 - i)) 8)

/-- The primes up to 311, the 64th. -/
def shaPrimes : List Nat := (List.range 312).filter (fun n => decide (2 ≤ n) && (List.range 16).all (fun i => n % (i + 2) ≠ 0 || n = i + 2))

/-- The whole k-th root of x below 2 ^ n, found bit by bit. -/
def wholeRoot (k x : Nat) : Nat → Nat → Nat
  | 0, r => r
  | n + 1, r => wholeRoot k x n (if (r + 2 ^ n) ^ k ≤ x then r + 2 ^ n else r)

/-- The first 32 bits of the fraction of the k-th root of a prime, from which SHA-256 takes its constants. -/
def rootFraction (k p : Nat) : Word := BitVec.ofNat 32 (wholeRoot k (p * 2 ^ (32 * k)) 38 0)

/-- The constants of the 64 rounds: cube roots. -/
def shaKeys : List Word := shaPrimes.map (rootFraction 3)

/-- The hash value before the first block: square roots of the first eight primes. -/
def shaStart : List Word := (shaPrimes.take 8).map (rootFraction 2)

/-- Three rotations of a word combined. -/
def turn3 (w : Word) (i j k : Nat) : Word := w.rotateRight i ^^^ w.rotateRight j ^^^ w.rotateRight k

/-- Two rotations and a shift of a word combined. -/
def turn2 (w : Word) (i j k : Nat) : Word := w.rotateRight i ^^^ w.rotateRight j ^^^ (w >>> k)

/-- One round on the eight working words, with its constant and its schedule word added up. -/
def shaMixIn (kw : Word) : List Word → List Word
  | [a, b, c, d, e, f, g, h] =>
    let x := kw + h + turn3 e 6 11 25 + (g ^^^ (e &&& (f ^^^ g)))
    [x + turn3 a 2 13 22 + ((a &&& (b ||| c)) ||| (b &&& c)), a, b, c, x + d, e, f, g]
  | v => v

/-- A round with the sixteen schedule words in view: the first is used, and the one that follows the last comes in. -/
def shaAdvance (s : List Word × List Word) (k : Word) : List Word × List Word :=
  let see := fun (i : Nat) => (s.1[i]?).getD 0
  (s.1.tail ++ [see 0 + turn2 (see 1) 7 18 3 + see 9 + turn2 (see 14) 17 19 10], shaMixIn (k + see 0) s.2)

/-- The hash value after a block of sixteen words. -/
def shaBlock (h : List Word) (m : List Word) : List Word := List.zipWith (· + ·) h (shaKeys.foldl shaAdvance (m, h)).2

/-- Words from bytes, most significant byte first, `n` of them. -/
def wordsMsb : Nat → List Byte → List Word
  | 0, _ => []
  | n + 1, a :: b :: c :: d :: t =>
    (a.setWidth 32 <<< 24 ||| b.setWidth 32 <<< 16 ||| c.setWidth 32 <<< 8 ||| d.setWidth 32) :: wordsMsb n t
  | _ + 1, _ => []

/-- The hash value after n blocks of 64 bytes. -/
def hashBlocks : Nat → List Byte → List Word → List Word
  | 0, _, h => h
  | n + 1, bs, h => hashBlocks n (bs.drop 64) (shaBlock h (wordsMsb 16 bs))

/-- A message with what SHA-256 appends: a 1 bit, zeros up to 56 bytes of the last block, and the length in bits. -/
def shaPadded (bs : List Byte) : List Byte :=
  bs ++ 0x80 :: List.replicate ((119 - bs.length % 64) % 64) 0 ++ bytesMsb 8 (BitVec.ofNat 64 (8 * bs.length))

/-- SHA-256 of a list of bytes (FIPS 180-4), as the spec names it for images and the journal (R472, R489). -/
def sha256 (bs : List Byte) : BitVec 256 :=
  (hashBlocks ((bs.length + 72) / 64) (shaPadded bs) shaStart).foldl (fun d w => d <<< 32 ||| w.setWidth 256) 0

end Sys2Proof.Machine
end

