-- ==== Sys2Proof/Machine/Reals.lean ====
section
/-! DEFINITION. Exact evaluation of the spec's formulas: quantities as rational numbers, rounded once to q40 by R176, with
the square roots and the factor √3 that the motor formulas use (R203). -/

namespace Sys2Proof.Machine

/-- The value of a q40 number of LSB. -/
def qr (x : Int) : Rat := mkRat x (2 ^ 24)

/-- A rational number rounded to the nearest integer, ties away from zero. -/
def nearest (r : Rat) : Int := rnaDiv r.num r.den

/-- A rational number rounded down. -/
def floorRat (r : Rat) : Int := r.num / (r.den : Int)

/-- A rational number rounded up. -/
def ceilRat (r : Rat) : Int := -((-r.num) / (r.den : Int))

/-- A rational number as q40 LSB, rounded once and saturated (R176). -/
def rq (r : Rat) : Int := satQ (nearest (r * (2 ^ 24 : Int)))

/-- How many of the exact results saturate where each is rounded once to q40 (R176). -/
def hitsOf (rs : List Rat) : Nat := (rs.filter (fun r => satHit (nearest (r * (2 ^ 24 : Int))))).length

/-- The integer part, rounded down, of n·√3. -/
def floorSqrt3 (n : Int) : Int :=
  if 0 ≤ n then (isqrt (3 * n.natAbs * n.natAbs) : Int) else -((isqrt (3 * n.natAbs * n.natAbs) : Int) + 1)

/-- a + b·√3 as q40 LSB, rounded once and saturated. -/
def rq3 (a b : Rat) : Int :=
  let x := a * (2 ^ 24 : Int)
  let y := b * (2 ^ 24 : Int)
  let d : Int := (x.den : Int) * y.den
  let n := x.num * y.den
  let m := y.num * x.den
  if m = 0 then satQ (rnaDiv n d) else satQ ((2 * n + floorSqrt3 (2 * m) + d) / (2 * d))

/-- r / √3 as q40 LSB. -/
def rqOverSqrt3 (r : Rat) : Int := rq3 0 (r / 3)

/-- The square root of a rational number as q40 LSB, rounded down (R203); 0 for a negative one. -/
def sqrtDown (r : Rat) : Int :=
  if r < 0 then 0 else satQ (isqrt (floorRat (r * (2 ^ 48 : Int))).toNat)

/-- Clamped symmetrically, as qsat of R177 does: |m| with the least value taken as the largest. -/
def qsatV (x m : Int) : Int :=
  let a := min (m.natAbs : Int) qMax
  if a < x then a else if x < -a then -a else x

/-- A rational number held within two bounds. -/
def clampRat (lo hi x : Rat) : Rat := if x < lo then lo else if hi < x then hi else x

/-- Nanoseconds as seconds. -/
def secs (ns : Nat) : Rat := mkRat ns 1000000000

/-- An angle in rad as turn32, rounded once, modulo 2^32, with 2π as R560 takes it. -/
def turnsOf (rad : Rat) : Word := BitVec.ofInt 32 (nearest (rad * (2 ^ 64 : Int) / k2pi))

/-- A signed turn32 value in rad, exactly, with 2π as R560 takes it. -/
def radOf (t : Int) : Rat := mkRat (t * k2pi) (2 ^ 64)

end Sys2Proof.Machine
end

