-- ==== Sys2Proof/Machine/Regs.lean ====
section
/-! DEFINITION. The registers of a lane: the address of each register and the place of each of its fields (R16 to R22 and
the register tables of every chapter), and the table of what a write may change. A register of a unit with several
channels takes the channel's number; a pair is named by the address of its _LO register. -/

namespace Sys2Proof.Machine

/-- A field of a register: the register's address and the field's bits hi:lo. -/
structure Fld where
  addr : Nat
  hi : Nat
  lo : Nat
  deriving DecidableEq, Repr

namespace R

/-- LM_ID (R92, 02). -/
abbrev LM_ID : Nat := 0x40000000
abbrev LM_ID_silicon_rev : Fld := ⟨LM_ID, 31, 24⟩
abbrev LM_ID_this_lane : Fld := ⟨LM_ID, 17, 16⟩
abbrev LM_ID_marshal : Fld := ⟨LM_ID, 12, 12⟩
abbrev LM_ID_lane_count : Fld := ⟨LM_ID, 11, 8⟩
abbrev LM_ID_member : Fld := ⟨LM_ID, 7, 0⟩
/-- LM_ROLE (R92, 02). -/
abbrev LM_ROLE : Nat := 0x40000004
abbrev LM_ROLE_fit_lanes : Fld := ⟨LM_ROLE, 18, 16⟩
abbrev LM_ROLE_preferred : Fld := ⟨LM_ROLE, 13, 12⟩
abbrev LM_ROLE_fault_count : Fld := ⟨LM_ROLE, 9, 8⟩
abbrev LM_ROLE_disputed : Fld := ⟨LM_ROLE, 7, 7⟩
abbrev LM_ROLE_pinned : Fld := ⟨LM_ROLE, 6, 6⟩
abbrev LM_ROLE_deciding : Fld := ⟨LM_ROLE, 5, 5⟩
abbrev LM_ROLE_in_zone : Fld := ⟨LM_ROLE, 4, 4⟩
abbrev LM_ROLE_baton_lane : Fld := ⟨LM_ROLE, 3, 2⟩
abbrev LM_ROLE_role : Fld := ⟨LM_ROLE, 1, 0⟩
/-- LM_STATUS (R92, 02). -/
abbrev LM_STATUS : Nat := 0x40000008
abbrev LM_STATUS_takeover_pending : Fld := ⟨LM_STATUS, 15, 15⟩
abbrev LM_STATUS_late_demand : Fld := ⟨LM_STATUS, 14, 14⟩
abbrev LM_STATUS_demand_valid : Fld := ⟨LM_STATUS, 13, 13⟩
abbrev LM_STATUS_parked : Fld := ⟨LM_STATUS, 12, 12⟩
abbrev LM_STATUS_age_warning : Fld := ⟨LM_STATUS, 11, 11⟩
abbrev LM_STATUS_gate_supply_ok : Fld := ⟨LM_STATUS, 10, 10⟩
abbrev LM_STATUS_pulse_rx_1 : Fld := ⟨LM_STATUS, 9, 9⟩
abbrev LM_STATUS_pulse_rx_0 : Fld := ⟨LM_STATUS, 8, 8⟩
abbrev LM_STATUS_nx_y_ok : Fld := ⟨LM_STATUS, 7, 7⟩
abbrev LM_STATUS_nx_x_ok : Fld := ⟨LM_STATUS, 6, 6⟩
abbrev LM_STATUS_hurdle_miss : Fld := ⟨LM_STATUS, 5, 5⟩
abbrev LM_STATUS_disputed : Fld := ⟨LM_STATUS, 4, 4⟩
abbrev LM_STATUS_pinned : Fld := ⟨LM_STATUS, 3, 3⟩
abbrev LM_STATUS_in_zone : Fld := ⟨LM_STATUS, 2, 2⟩
abbrev LM_STATUS_plaus_ok : Fld := ⟨LM_STATUS, 1, 1⟩
abbrev LM_STATUS_mirror_ok : Fld := ⟨LM_STATUS, 0, 0⟩
/-- LM_FLAGS (R92, 02). -/
abbrev LM_FLAGS : Nat := 0x4000000C
abbrev LM_FLAGS_pulse_fail : Fld := ⟨LM_FLAGS, 15, 15⟩
abbrev LM_FLAGS_handover_seen : Fld := ⟨LM_FLAGS, 14, 14⟩
abbrev LM_FLAGS_unreachable : Fld := ⟨LM_FLAGS, 13, 13⟩
abbrev LM_FLAGS_latch_timeout : Fld := ⟨LM_FLAGS, 12, 12⟩
abbrev LM_FLAGS_mirror_incomplete : Fld := ⟨LM_FLAGS, 11, 11⟩
abbrev LM_FLAGS_link_down : Fld := ⟨LM_FLAGS, 10, 10⟩
abbrev LM_FLAGS_vote_cast : Fld := ⟨LM_FLAGS, 9, 9⟩
abbrev LM_FLAGS_disputed : Fld := ⟨LM_FLAGS, 8, 8⟩
abbrev LM_FLAGS_disagree : Fld := ⟨LM_FLAGS, 7, 7⟩
abbrev LM_FLAGS_pin_refused : Fld := ⟨LM_FLAGS, 6, 6⟩
abbrev LM_FLAGS_pin_expired : Fld := ⟨LM_FLAGS, 5, 5⟩
abbrev LM_FLAGS_rot_conflict : Fld := ⟨LM_FLAGS, 4, 4⟩
abbrev LM_FLAGS_rot_skip : Fld := ⟨LM_FLAGS, 3, 3⟩
abbrev LM_FLAGS_relay_abort : Fld := ⟨LM_FLAGS, 2, 2⟩
abbrev LM_FLAGS_relay_done : Fld := ⟨LM_FLAGS, 1, 1⟩
abbrev LM_FLAGS_drop_taken : Fld := ⟨LM_FLAGS, 0, 0⟩
/-- LM_FLAG_EN (R92, 02). -/
abbrev LM_FLAG_EN : Nat := 0x40000010
abbrev LM_FLAG_EN_pulse_fail : Fld := ⟨LM_FLAG_EN, 15, 15⟩
abbrev LM_FLAG_EN_handover_seen : Fld := ⟨LM_FLAG_EN, 14, 14⟩
abbrev LM_FLAG_EN_unreachable : Fld := ⟨LM_FLAG_EN, 13, 13⟩
abbrev LM_FLAG_EN_latch_timeout : Fld := ⟨LM_FLAG_EN, 12, 12⟩
abbrev LM_FLAG_EN_mirror_incomplete : Fld := ⟨LM_FLAG_EN, 11, 11⟩
abbrev LM_FLAG_EN_link_down : Fld := ⟨LM_FLAG_EN, 10, 10⟩
abbrev LM_FLAG_EN_vote_cast : Fld := ⟨LM_FLAG_EN, 9, 9⟩
abbrev LM_FLAG_EN_disputed : Fld := ⟨LM_FLAG_EN, 8, 8⟩
abbrev LM_FLAG_EN_disagree : Fld := ⟨LM_FLAG_EN, 7, 7⟩
abbrev LM_FLAG_EN_pin_refused : Fld := ⟨LM_FLAG_EN, 6, 6⟩
abbrev LM_FLAG_EN_pin_expired : Fld := ⟨LM_FLAG_EN, 5, 5⟩
abbrev LM_FLAG_EN_rot_conflict : Fld := ⟨LM_FLAG_EN, 4, 4⟩
abbrev LM_FLAG_EN_rot_skip : Fld := ⟨LM_FLAG_EN, 3, 3⟩
abbrev LM_FLAG_EN_relay_abort : Fld := ⟨LM_FLAG_EN, 2, 2⟩
abbrev LM_FLAG_EN_relay_done : Fld := ⟨LM_FLAG_EN, 1, 1⟩
abbrev LM_FLAG_EN_drop_taken : Fld := ⟨LM_FLAG_EN, 0, 0⟩
/-- LM_EVT_SEL (R92, 02). -/
abbrev LM_EVT_SEL : Nat := 0x40000014
abbrev LM_EVT_SEL_index : Fld := ⟨LM_EVT_SEL, 3, 0⟩
/-- LM_EVT_CNT (R92, 02). -/
abbrev LM_EVT_CNT : Nat := 0x40000018
abbrev LM_EVT_CNT_count : Fld := ⟨LM_EVT_CNT, 31, 0⟩
/-- LM_SELF_UNFIT (R92, 02). -/
abbrev LM_SELF_UNFIT : Nat := 0x4000001C
abbrev LM_SELF_UNFIT_key : Fld := ⟨LM_SELF_UNFIT, 7, 0⟩
/-- LM_ROT_PERIOD (R92, 02). -/
abbrev LM_ROT_PERIOD : Nat := 0x40000020
abbrev LM_ROT_PERIOD_seconds : Fld := ⟨LM_ROT_PERIOD, 16, 0⟩
/-- LM_ROT_ENV (R92, 02). -/
abbrev LM_ROT_ENV : Nat := 0x40000024
abbrev LM_ROT_ENV_weight_max : Fld := ⟨LM_ROT_ENV, 24, 16⟩
abbrev LM_ROT_ENV_weight_min : Fld := ⟨LM_ROT_ENV, 8, 0⟩
/-- LM_ROT_NEXT (R92, 02). -/
abbrev LM_ROT_NEXT : Nat := 0x40000028
abbrev LM_ROT_NEXT_seconds : Fld := ⟨LM_ROT_NEXT, 31, 0⟩
/-- LM_DWELL_A (R92, 02). -/
abbrev LM_DWELL_A : Nat := 0x4000002C
abbrev LM_DWELL_A_seconds : Fld := ⟨LM_DWELL_A, 31, 0⟩
/-- LM_DWELL_B (R92, 02). -/
abbrev LM_DWELL_B : Nat := 0x40000030
abbrev LM_DWELL_B_seconds : Fld := ⟨LM_DWELL_B, 31, 0⟩
/-- LM_DWELL_C (R92, 02). -/
abbrev LM_DWELL_C : Nat := 0x40000034
abbrev LM_DWELL_C_seconds : Fld := ⟨LM_DWELL_C, 31, 0⟩
/-- LM_PIN (R92, 02). -/
abbrev LM_PIN : Nat := 0x40000038
abbrev LM_PIN_minutes : Fld := ⟨LM_PIN, 26, 16⟩
abbrev LM_PIN_lane : Fld := ⟨LM_PIN, 1, 0⟩
/-- LM_PIN_LEFT (R92, 02). -/
abbrev LM_PIN_LEFT : Nat := 0x4000003C
abbrev LM_PIN_LEFT_seconds : Fld := ⟨LM_PIN_LEFT, 31, 0⟩
/-- LM_PASS_REQ (R92, 02). -/
abbrev LM_PASS_REQ : Nat := 0x40000040
abbrev LM_PASS_REQ_go : Fld := ⟨LM_PASS_REQ, 2, 2⟩
abbrev LM_PASS_REQ_lane : Fld := ⟨LM_PASS_REQ, 1, 0⟩
/-- LM_LIFE_AB (R92, 02). -/
abbrev LM_LIFE_AB : Nat := 0x40000044
abbrev LM_LIFE_AB_life_b : Fld := ⟨LM_LIFE_AB, 31, 16⟩
abbrev LM_LIFE_AB_life_a : Fld := ⟨LM_LIFE_AB, 15, 0⟩
/-- LM_LIFE_C (R92, 02). -/
abbrev LM_LIFE_C : Nat := 0x40000048
abbrev LM_LIFE_C_life_c : Fld := ⟨LM_LIFE_C, 15, 0⟩
/-- LM_HANDOVER (R92, 02). -/
abbrev LM_HANDOVER : Nat := 0x4000004C
abbrev LM_HANDOVER_count : Fld := ⟨LM_HANDOVER, 31, 16⟩
abbrev LM_HANDOVER_cause : Fld := ⟨LM_HANDOVER, 11, 8⟩
abbrev LM_HANDOVER_to : Fld := ⟨LM_HANDOVER, 5, 4⟩
abbrev LM_HANDOVER_from : Fld := ⟨LM_HANDOVER, 3, 2⟩
abbrev LM_HANDOVER_kind : Fld := ⟨LM_HANDOVER, 0, 0⟩
/-- LM_HANDOVER_TIME (R92, 02). -/
abbrev LM_HANDOVER_TIME : Nat := 0x40000050
abbrev LM_HANDOVER_TIME_stamp : Fld := ⟨LM_HANDOVER_TIME, 31, 0⟩
/-- LM_GAP_PRIV (R92, 02). -/
abbrev LM_GAP_PRIV : Nat := 0x40000054
abbrev LM_GAP_PRIV_ns : Fld := ⟨LM_GAP_PRIV, 31, 0⟩
/-- LM_GAP_NPRIV (R92, 02). -/
abbrev LM_GAP_NPRIV : Nat := 0x40000058
abbrev LM_GAP_NPRIV_ns : Fld := ⟨LM_GAP_NPRIV, 31, 0⟩
/-- LM_LINK_STAT (R92, 02). -/
abbrev LM_LINK_STAT : Nat := 0x4000005C
abbrev LM_LINK_STAT_link1_charged : Fld := ⟨LM_LINK_STAT, 3, 3⟩
abbrev LM_LINK_STAT_link0_charged : Fld := ⟨LM_LINK_STAT, 2, 2⟩
abbrev LM_LINK_STAT_link1_up : Fld := ⟨LM_LINK_STAT, 1, 1⟩
abbrev LM_LINK_STAT_link0_up : Fld := ⟨LM_LINK_STAT, 0, 0⟩
/-- LM_LINK0_ERR (R92, 02). -/
abbrev LM_LINK0_ERR : Nat := 0x40000060
abbrev LM_LINK0_ERR_count : Fld := ⟨LM_LINK0_ERR, 31, 0⟩
/-- LM_LINK0_LOST (R92, 02). -/
abbrev LM_LINK0_LOST : Nat := 0x40000064
abbrev LM_LINK0_LOST_count : Fld := ⟨LM_LINK0_LOST, 31, 0⟩
/-- LM_LINK1_ERR (R92, 02). -/
abbrev LM_LINK1_ERR : Nat := 0x40000068
abbrev LM_LINK1_ERR_count : Fld := ⟨LM_LINK1_ERR, 31, 0⟩
/-- LM_LINK1_LOST (R92, 02). -/
abbrev LM_LINK1_LOST : Nat := 0x4000006C
abbrev LM_LINK1_LOST_count : Fld := ⟨LM_LINK1_LOST, 31, 0⟩
/-- LM_DISAGREE (R92, 02). -/
abbrev LM_DISAGREE : Nat := 0x40000070
abbrev LM_DISAGREE_quantity : Fld := ⟨LM_DISAGREE, 31, 16⟩
abbrev LM_DISAGREE_lanes : Fld := ⟨LM_DISAGREE, 10, 8⟩
abbrev LM_DISAGREE_heats : Fld := ⟨LM_DISAGREE, 1, 0⟩
/-- LM_VOTE (R92, 02). -/
abbrev LM_VOTE : Nat := 0x40000074
abbrev LM_VOTE_test_fail : Fld := ⟨LM_VOTE, 31, 16⟩
abbrev LM_VOTE_votes_in : Fld := ⟨LM_VOTE, 6, 4⟩
abbrev LM_VOTE_votes_out : Fld := ⟨LM_VOTE, 2, 0⟩
/-- FC_STATUS (R132, 03). -/
abbrev FC_STATUS : Nat := 0x40004000
abbrev FC_STATUS_fit_engines : Fld := ⟨FC_STATUS, 15, 8⟩
abbrev FC_STATUS_scrub_active : Fld := ⟨FC_STATUS, 4, 4⟩
abbrev FC_STATUS_inj_ok : Fld := ⟨FC_STATUS, 3, 3⟩
abbrev FC_STATUS_mgmt_fault : Fld := ⟨FC_STATUS, 2, 2⟩
abbrev FC_STATUS_inhibited : Fld := ⟨FC_STATUS, 1, 1⟩
abbrev FC_STATUS_lane_fit : Fld := ⟨FC_STATUS, 0, 0⟩
/-- FC_FLAGS (R132, 03). -/
abbrev FC_FLAGS : Nat := 0x40004004
abbrev FC_FLAGS_lane_unfit : Fld := ⟨FC_FLAGS, 15, 15⟩
abbrev FC_FLAGS_scrub_pass : Fld := ⟨FC_FLAGS, 14, 14⟩
abbrev FC_FLAGS_journal_ue : Fld := ⟨FC_FLAGS, 13, 13⟩
abbrev FC_FLAGS_mode_change : Fld := ⟨FC_FLAGS, 12, 12⟩
abbrev FC_FLAGS_fault_counted : Fld := ⟨FC_FLAGS, 11, 11⟩
abbrev FC_FLAGS_sensor_fault : Fld := ⟨FC_FLAGS, 10, 10⟩
abbrev FC_FLAGS_mgmt_fault : Fld := ⟨FC_FLAGS, 9, 9⟩
abbrev FC_FLAGS_quarantine : Fld := ⟨FC_FLAGS, 8, 8⟩
abbrev FC_FLAGS_ue : Fld := ⟨FC_FLAGS, 7, 7⟩
abbrev FC_FLAGS_ce : Fld := ⟨FC_FLAGS, 6, 6⟩
abbrev FC_FLAGS_parity : Fld := ⟨FC_FLAGS, 5, 5⟩
abbrev FC_FLAGS_ia_fault : Fld := ⟨FC_FLAGS, 4, 4⟩
abbrev FC_FLAGS_ia_disagree : Fld := ⟨FC_FLAGS, 3, 3⟩
abbrev FC_FLAGS_inj_missed : Fld := ⟨FC_FLAGS, 2, 2⟩
abbrev FC_FLAGS_checker_fault : Fld := ⟨FC_FLAGS, 1, 1⟩
abbrev FC_FLAGS_mismatch : Fld := ⟨FC_FLAGS, 0, 0⟩
/-- FC_FLAG_EN (R132, 03). -/
abbrev FC_FLAG_EN : Nat := 0x40004008
abbrev FC_FLAG_EN_lane_unfit : Fld := ⟨FC_FLAG_EN, 15, 15⟩
abbrev FC_FLAG_EN_scrub_pass : Fld := ⟨FC_FLAG_EN, 14, 14⟩
abbrev FC_FLAG_EN_journal_ue : Fld := ⟨FC_FLAG_EN, 13, 13⟩
abbrev FC_FLAG_EN_mode_change : Fld := ⟨FC_FLAG_EN, 12, 12⟩
abbrev FC_FLAG_EN_fault_counted : Fld := ⟨FC_FLAG_EN, 11, 11⟩
abbrev FC_FLAG_EN_sensor_fault : Fld := ⟨FC_FLAG_EN, 10, 10⟩
abbrev FC_FLAG_EN_mgmt_fault : Fld := ⟨FC_FLAG_EN, 9, 9⟩
abbrev FC_FLAG_EN_quarantine : Fld := ⟨FC_FLAG_EN, 8, 8⟩
abbrev FC_FLAG_EN_ue : Fld := ⟨FC_FLAG_EN, 7, 7⟩
abbrev FC_FLAG_EN_ce : Fld := ⟨FC_FLAG_EN, 6, 6⟩
abbrev FC_FLAG_EN_parity : Fld := ⟨FC_FLAG_EN, 5, 5⟩
abbrev FC_FLAG_EN_ia_fault : Fld := ⟨FC_FLAG_EN, 4, 4⟩
abbrev FC_FLAG_EN_ia_disagree : Fld := ⟨FC_FLAG_EN, 3, 3⟩
abbrev FC_FLAG_EN_inj_missed : Fld := ⟨FC_FLAG_EN, 2, 2⟩
abbrev FC_FLAG_EN_checker_fault : Fld := ⟨FC_FLAG_EN, 1, 1⟩
abbrev FC_FLAG_EN_mismatch : Fld := ⟨FC_FLAG_EN, 0, 0⟩
/-- FC_EVT_SEL (R132, 03). -/
abbrev FC_EVT_SEL : Nat := 0x4000400C
abbrev FC_EVT_SEL_index : Fld := ⟨FC_EVT_SEL, 3, 0⟩
/-- FC_EVT_CNT (R132, 03). -/
abbrev FC_EVT_CNT : Nat := 0x40004010
abbrev FC_EVT_CNT_count : Fld := ⟨FC_EVT_CNT, 31, 0⟩
/-- FC_MODE (R132, 03). -/
abbrev FC_MODE : Nat := 0x40004014
abbrev FC_MODE_classes : Fld := ⟨FC_MODE, 28, 17⟩
abbrev FC_MODE_restricted : Fld := ⟨FC_MODE, 11, 11⟩
abbrev FC_MODE_parked : Fld := ⟨FC_MODE, 10, 10⟩
abbrev FC_MODE_request : Fld := ⟨FC_MODE, 9, 8⟩
abbrev FC_MODE_fault_count : Fld := ⟨FC_MODE, 5, 4⟩
abbrev FC_MODE_mode : Fld := ⟨FC_MODE, 2, 0⟩
/-- FC_FAULT0 (R132, 03). -/
abbrev FC_FAULT0 : Nat := 0x40004018
abbrev FC_FAULT0_valid : Fld := ⟨FC_FAULT0, 31, 31⟩
abbrev FC_FAULT0_detail : Fld := ⟨FC_FAULT0, 15, 8⟩
abbrev FC_FAULT0_lane : Fld := ⟨FC_FAULT0, 5, 4⟩
abbrev FC_FAULT0_class : Fld := ⟨FC_FAULT0, 3, 0⟩
/-- FC_FAULT0_TIME (R132, 03). -/
abbrev FC_FAULT0_TIME : Nat := 0x4000401C
abbrev FC_FAULT0_TIME_stamp : Fld := ⟨FC_FAULT0_TIME, 31, 0⟩
/-- FC_FAULT1 (R132, 03). -/
abbrev FC_FAULT1 : Nat := 0x40004020
abbrev FC_FAULT1_valid : Fld := ⟨FC_FAULT1, 31, 31⟩
abbrev FC_FAULT1_detail : Fld := ⟨FC_FAULT1, 15, 8⟩
abbrev FC_FAULT1_lane : Fld := ⟨FC_FAULT1, 5, 4⟩
abbrev FC_FAULT1_class : Fld := ⟨FC_FAULT1, 3, 0⟩
/-- FC_FAULT1_TIME (R132, 03). -/
abbrev FC_FAULT1_TIME : Nat := 0x40004024
abbrev FC_FAULT1_TIME_stamp : Fld := ⟨FC_FAULT1_TIME, 31, 0⟩
/-- FC_SCRATCH (R132, 03). -/
abbrev FC_SCRATCH : Nat := 0x40004028
abbrev FC_SCRATCH_engines : Fld := ⟨FC_SCRATCH, 23, 0⟩
/-- FC_LAST_SCRATCH (R132, 03). -/
abbrev FC_LAST_SCRATCH : Nat := 0x4000402C
abbrev FC_LAST_SCRATCH_heat : Fld := ⟨FC_LAST_SCRATCH, 31, 16⟩
abbrev FC_LAST_SCRATCH_cause : Fld := ⟨FC_LAST_SCRATCH, 10, 8⟩
abbrev FC_LAST_SCRATCH_engine : Fld := ⟨FC_LAST_SCRATCH, 4, 0⟩
/-- FC_BLOCKS (R132, 03). -/
abbrev FC_BLOCKS : Nat := 0x40004030
abbrev FC_BLOCKS_readmit_fail : Fld := ⟨FC_BLOCKS, 13, 8⟩
abbrev FC_BLOCKS_quarantined : Fld := ⟨FC_BLOCKS, 5, 0⟩
/-- FC_INJ (R132, 03). -/
abbrev FC_INJ : Nat := 0x40004034
abbrev FC_INJ_missed : Fld := ⟨FC_INJ, 31, 16⟩
abbrev FC_INJ_last_missed : Fld := ⟨FC_INJ, 4, 0⟩
/-- FC_IA (R132, 03). -/
abbrev FC_IA : Nat := 0x40004038
abbrev FC_IA_tolerated : Fld := ⟨FC_IA, 31, 16⟩
abbrev FC_IA_input : Fld := ⟨FC_IA, 15, 8⟩
abbrev FC_IA_twin : Fld := ⟨FC_IA, 4, 0⟩
/-- FC_CE_SEL (R132, 03). -/
abbrev FC_CE_SEL : Nat := 0x4000403C
abbrev FC_CE_SEL_memory : Fld := ⟨FC_CE_SEL, 2, 0⟩
/-- FC_CE_CNT (R132, 03). -/
abbrev FC_CE_CNT : Nat := 0x40004040
abbrev FC_CE_CNT_count : Fld := ⟨FC_CE_CNT, 31, 0⟩
/-- FC_UE_INFO (R132, 03). -/
abbrev FC_UE_INFO : Nat := 0x40004044
abbrev FC_UE_INFO_memory : Fld := ⟨FC_UE_INFO, 2, 0⟩
/-- FC_UE_ADDR (R132, 03). -/
abbrev FC_UE_ADDR : Nat := 0x40004048
abbrev FC_UE_ADDR_address : Fld := ⟨FC_UE_ADDR, 31, 0⟩
/-- FC_SCRUB_PERIOD (R132, 03). -/
abbrev FC_SCRUB_PERIOD : Nat := 0x4000404C
abbrev FC_SCRUB_PERIOD_seconds : Fld := ⟨FC_SCRUB_PERIOD, 9, 0⟩
/-- FC_SCRUB_STAT (R132, 03). -/
abbrev FC_SCRUB_STAT : Nat := 0x40004050
abbrev FC_SCRUB_STAT_passes : Fld := ⟨FC_SCRUB_STAT, 31, 0⟩
/-- FC_MEM_INJ (R132, 03). -/
abbrev FC_MEM_INJ : Nat := 0x40004054
abbrev FC_MEM_INJ_bit : Fld := ⟨FC_MEM_INJ, 15, 10⟩
abbrev FC_MEM_INJ_kind : Fld := ⟨FC_MEM_INJ, 9, 8⟩
abbrev FC_MEM_INJ_memory : Fld := ⟨FC_MEM_INJ, 1, 0⟩
/-- FC_MGMT (R132, 03). -/
abbrev FC_MGMT : Nat := 0x40004058
abbrev FC_MGMT_count : Fld := ⟨FC_MGMT, 31, 16⟩
abbrev FC_MGMT_row : Fld := ⟨FC_MGMT, 2, 0⟩
/-- FC_SENSOR (R132, 03). -/
abbrev FC_SENSOR : Nat := 0x4000405C
abbrev FC_SENSOR_sp_subst : Fld := ⟨FC_SENSOR, 23, 16⟩
abbrev FC_SENSOR_sp_fault : Fld := ⟨FC_SENSOR, 15, 8⟩
abbrev FC_SENSOR_sa_subst : Fld := ⟨FC_SENSOR, 3, 2⟩
abbrev FC_SENSOR_sa_fault : Fld := ⟨FC_SENSOR, 1, 0⟩
/-- FC_HOLD_TIME (R132, 03). -/
abbrev FC_HOLD_TIME : Nat := 0x40004060
abbrev FC_HOLD_TIME_ns : Fld := ⟨FC_HOLD_TIME, 31, 0⟩
/-- FC_STARVE_DECEL (R132, 03, a _LO/_HI pair). -/
abbrev FC_STARVE_DECEL : Nat := 0x40004064
/-- FC_STOP_DECEL (R132, 03, a _LO/_HI pair). -/
abbrev FC_STOP_DECEL : Nat := 0x4000406C
/-- FC_STILL_SPEED (R132, 03, a _LO/_HI pair). -/
abbrev FC_STILL_SPEED : Nat := 0x40004074
/-- FC_STILL_TIME (R132, 03). -/
abbrev FC_STILL_TIME : Nat := 0x4000407C
abbrev FC_STILL_TIME_ns : Fld := ⟨FC_STILL_TIME, 31, 0⟩
/-- FC_PROFILE_CFG (R132, 03). -/
abbrev FC_PROFILE_CFG : Nat := 0x40004080
abbrev FC_PROFILE_CFG_mc1_asc : Fld := ⟨FC_PROFILE_CFG, 5, 5⟩
abbrev FC_PROFILE_CFG_mc0_asc : Fld := ⟨FC_PROFILE_CFG, 4, 4⟩
abbrev FC_PROFILE_CFG_steer_straight : Fld := ⟨FC_PROFILE_CFG, 0, 0⟩
/-- EA_STATUS (R167, 04). -/
abbrev EA_STATUS : Nat := 0x40010000
abbrev EA_STATUS_queued : Fld := ⟨EA_STATUS, 23, 16⟩
abbrev EA_STATUS_fit_engines : Fld := ⟨EA_STATUS, 15, 8⟩
abbrev EA_STATUS_ra_present : Fld := ⟨EA_STATUS, 3, 3⟩
abbrev EA_STATUS_spawning : Fld := ⟨EA_STATUS, 2, 2⟩
abbrev EA_STATUS_running : Fld := ⟨EA_STATUS, 1, 1⟩
abbrev EA_STATUS_below_min : Fld := ⟨EA_STATUS, 0, 0⟩
/-- EA_FLAGS (R167, 04). -/
abbrev EA_FLAGS : Nat := 0x40010004
abbrev EA_FLAGS_heat_start : Fld := ⟨EA_FLAGS, 11, 11⟩
abbrev EA_FLAGS_below_min : Fld := ⟨EA_FLAGS, 10, 10⟩
abbrev EA_FLAGS_encoding_trap : Fld := ⟨EA_FLAGS, 9, 9⟩
abbrev EA_FLAGS_spawn_ignored : Fld := ⟨EA_FLAGS, 8, 8⟩
abbrev EA_FLAGS_ra_late : Fld := ⟨EA_FLAGS, 7, 7⟩
abbrev EA_FLAGS_ra_squash : Fld := ⟨EA_FLAGS, 6, 6⟩
abbrev EA_FLAGS_deque_overflow : Fld := ⟨EA_FLAGS, 5, 5⟩
abbrev EA_FLAGS_respawn_refused : Fld := ⟨EA_FLAGS, 4, 4⟩
abbrev EA_FLAGS_respawn : Fld := ⟨EA_FLAGS, 3, 3⟩
abbrev EA_FLAGS_window_trap : Fld := ⟨EA_FLAGS, 2, 2⟩
abbrev EA_FLAGS_priv_miss3 : Fld := ⟨EA_FLAGS, 1, 1⟩
abbrev EA_FLAGS_hurdle_miss : Fld := ⟨EA_FLAGS, 0, 0⟩
/-- EA_FLAG_EN (R167, 04). -/
abbrev EA_FLAG_EN : Nat := 0x40010008
abbrev EA_FLAG_EN_heat_start : Fld := ⟨EA_FLAG_EN, 11, 11⟩
abbrev EA_FLAG_EN_below_min : Fld := ⟨EA_FLAG_EN, 10, 10⟩
abbrev EA_FLAG_EN_encoding_trap : Fld := ⟨EA_FLAG_EN, 9, 9⟩
abbrev EA_FLAG_EN_spawn_ignored : Fld := ⟨EA_FLAG_EN, 8, 8⟩
abbrev EA_FLAG_EN_ra_late : Fld := ⟨EA_FLAG_EN, 7, 7⟩
abbrev EA_FLAG_EN_ra_squash : Fld := ⟨EA_FLAG_EN, 6, 6⟩
abbrev EA_FLAG_EN_deque_overflow : Fld := ⟨EA_FLAG_EN, 5, 5⟩
abbrev EA_FLAG_EN_respawn_refused : Fld := ⟨EA_FLAG_EN, 4, 4⟩
abbrev EA_FLAG_EN_respawn : Fld := ⟨EA_FLAG_EN, 3, 3⟩
abbrev EA_FLAG_EN_window_trap : Fld := ⟨EA_FLAG_EN, 2, 2⟩
abbrev EA_FLAG_EN_priv_miss3 : Fld := ⟨EA_FLAG_EN, 1, 1⟩
abbrev EA_FLAG_EN_hurdle_miss : Fld := ⟨EA_FLAG_EN, 0, 0⟩
/-- EA_EVT_SEL (R167, 04). -/
abbrev EA_EVT_SEL : Nat := 0x4001000C
abbrev EA_EVT_SEL_index : Fld := ⟨EA_EVT_SEL, 3, 0⟩
/-- EA_EVT_CNT (R167, 04). -/
abbrev EA_EVT_CNT : Nat := 0x40010010
abbrev EA_EVT_CNT_count : Fld := ⟨EA_EVT_CNT, 31, 0⟩
/-- EA_HEAT_LEN (R167, 04). -/
abbrev EA_HEAT_LEN : Nat := 0x40010014
abbrev EA_HEAT_LEN_ns : Fld := ⟨EA_HEAT_LEN, 31, 0⟩
/-- EA_HEAT_CNT (R167, 04). -/
abbrev EA_HEAT_CNT : Nat := 0x40010018
abbrev EA_HEAT_CNT_count : Fld := ⟨EA_HEAT_CNT, 31, 0⟩
/-- EA_HEAT_STAMP (R167, 04). -/
abbrev EA_HEAT_STAMP : Nat := 0x4001001C
abbrev EA_HEAT_STAMP_stamp : Fld := ⟨EA_HEAT_STAMP, 31, 0⟩
/-- EA_MIN_ENGINES (R167, 04). -/
abbrev EA_MIN_ENGINES : Nat := 0x40010020
abbrev EA_MIN_ENGINES_count : Fld := ⟨EA_MIN_ENGINES, 7, 0⟩
/-- EA_AWAKE (R167, 04). -/
abbrev EA_AWAKE : Nat := 0x40010024
abbrev EA_AWAKE_engines : Fld := ⟨EA_AWAKE, 23, 0⟩
/-- EA_LOAD (R167, 04). -/
abbrev EA_LOAD : Nat := 0x40010028
abbrev EA_LOAD_permille : Fld := ⟨EA_LOAD, 9, 0⟩
/-- EA_STEALS (R167, 04). -/
abbrev EA_STEALS : Nat := 0x4001002C
abbrev EA_STEALS_remote : Fld := ⟨EA_STEALS, 31, 16⟩
abbrev EA_STEALS_local : Fld := ⟨EA_STEALS, 15, 0⟩
/-- EA_MISS_CNT (R167, 04). -/
abbrev EA_MISS_CNT : Nat := 0x40010030
abbrev EA_MISS_CNT_count : Fld := ⟨EA_MISS_CNT, 31, 0⟩
/-- EA_LAST_MISS (R167, 04). -/
abbrev EA_LAST_MISS : Nat := 0x40010034
abbrev EA_LAST_MISS_heat : Fld := ⟨EA_LAST_MISS, 31, 16⟩
abbrev EA_LAST_MISS_leg : Fld := ⟨EA_LAST_MISS, 15, 8⟩
abbrev EA_LAST_MISS_cause : Fld := ⟨EA_LAST_MISS, 2, 0⟩
/-- EA_RESPAWN (R167, 04). -/
abbrev EA_RESPAWN : Nat := 0x40010038
abbrev EA_RESPAWN_refused : Fld := ⟨EA_RESPAWN, 31, 16⟩
abbrev EA_RESPAWN_done : Fld := ⟨EA_RESPAWN, 15, 0⟩
/-- EA_LEG_SEL (R167, 04). -/
abbrev EA_LEG_SEL : Nat := 0x4001003C
abbrev EA_LEG_SEL_leg : Fld := ⟨EA_LEG_SEL, 7, 0⟩
/-- EA_LEG_STAT (R167, 04). -/
abbrev EA_LEG_STAT : Nat := 0x40010040
abbrev EA_LEG_STAT_misses : Fld := ⟨EA_LEG_STAT, 31, 20⟩
abbrev EA_LEG_STAT_consecutive : Fld := ⟨EA_LEG_STAT, 19, 18⟩
abbrev EA_LEG_STAT_privileged : Fld := ⟨EA_LEG_STAT, 17, 17⟩
abbrev EA_LEG_STAT_run_ahead : Fld := ⟨EA_LEG_STAT, 16, 16⟩
abbrev EA_LEG_STAT_hurdle : Fld := ⟨EA_LEG_STAT, 15, 13⟩
abbrev EA_LEG_STAT_last_engine : Fld := ⟨EA_LEG_STAT, 12, 8⟩
abbrev EA_LEG_STAT_last_end : Fld := ⟨EA_LEG_STAT, 7, 5⟩
abbrev EA_LEG_STAT_defined : Fld := ⟨EA_LEG_STAT, 0, 0⟩
/-- EA_LEG_TIME (R167, 04). -/
abbrev EA_LEG_TIME : Nat := 0x40010044
abbrev EA_LEG_TIME_ns : Fld := ⟨EA_LEG_TIME, 31, 0⟩
/-- EA_DEQUE_SEL (R167, 04). -/
abbrev EA_DEQUE_SEL : Nat := 0x40010048
abbrev EA_DEQUE_SEL_engine : Fld := ⟨EA_DEQUE_SEL, 4, 0⟩
/-- EA_DEQUE (R167, 04). -/
abbrev EA_DEQUE : Nat := 0x4001004C
abbrev EA_DEQUE_max_depth : Fld := ⟨EA_DEQUE, 20, 16⟩
abbrev EA_DEQUE_depth : Fld := ⟨EA_DEQUE, 4, 0⟩
/-- EA_RA_COMMIT (R167, 04). -/
abbrev EA_RA_COMMIT : Nat := 0x40010050
abbrev EA_RA_COMMIT_count : Fld := ⟨EA_RA_COMMIT, 31, 0⟩
/-- EA_RA_SQUASH (R167, 04). -/
abbrev EA_RA_SQUASH : Nat := 0x40010054
abbrev EA_RA_SQUASH_count : Fld := ⟨EA_RA_SQUASH, 31, 0⟩
/-- EA_RA_LAST (R167, 04). -/
abbrev EA_RA_LAST : Nat := 0x40010058
abbrev EA_RA_LAST_heat : Fld := ⟨EA_RA_LAST, 31, 16⟩
abbrev EA_RA_LAST_leg : Fld := ⟨EA_RA_LAST, 15, 8⟩
abbrev EA_RA_LAST_cause : Fld := ⟨EA_RA_LAST, 7, 6⟩
abbrev EA_RA_LAST_input : Fld := ⟨EA_RA_LAST, 4, 0⟩
/-- EA_HURDLE (R167, 04). -/
abbrev EA_HURDLE (n : Nat) : Nat := 0x40010060 + 0x4 * n
abbrev EA_HURDLE_ns (n : Nat) : Fld := ⟨EA_HURDLE n, 31, 0⟩
/-- MC_STATUS (R234, 06). -/
abbrev MC_STATUS (n : Nat) : Nat := 0x40020000 + 0x4000 * n
abbrev MC_STATUS_enabled (n : Nat) : Fld := ⟨MC_STATUS n, 11, 11⟩
abbrev MC_STATUS_fw_active (n : Nat) : Fld := ⟨MC_STATUS n, 10, 10⟩
abbrev MC_STATUS_inj_active (n : Nat) : Fld := ⟨MC_STATUS n, 9, 9⟩
abbrev MC_STATUS_direction (n : Nat) : Fld := ⟨MC_STATUS n, 8, 8⟩
abbrev MC_STATUS_locked (n : Nat) : Fld := ⟨MC_STATUS n, 7, 7⟩
abbrev MC_STATUS_lock_src (n : Nat) : Fld := ⟨MC_STATUS n, 6, 4⟩
abbrev MC_STATUS_state (n : Nat) : Fld := ⟨MC_STATUS n, 2, 0⟩
/-- MC_FLAGS (R234, 06). -/
abbrev MC_FLAGS (n : Nat) : Nat := 0x40020004 + 0x4000 * n
abbrev MC_FLAGS_state_change (n : Nat) : Fld := ⟨MC_FLAGS n, 11, 11⟩
abbrev MC_FLAGS_pulse_abort (n : Nat) : Fld := ⟨MC_FLAGS n, 10, 10⟩
abbrev MC_FLAGS_mirror_seed (n : Nat) : Fld := ⟨MC_FLAGS n, 9, 9⟩
abbrev MC_FLAGS_obs_conflict (n : Nat) : Fld := ⟨MC_FLAGS n, 8, 8⟩
abbrev MC_FLAGS_regen_limit (n : Nat) : Fld := ⟨MC_FLAGS n, 7, 7⟩
abbrev MC_FLAGS_v_limit (n : Nat) : Fld := ⟨MC_FLAGS n, 6, 6⟩
abbrev MC_FLAGS_i_limit (n : Nat) : Fld := ⟨MC_FLAGS n, 5, 5⟩
abbrev MC_FLAGS_chan_fault (n : Nat) : Fld := ⟨MC_FLAGS n, 4, 4⟩
abbrev MC_FLAGS_pulse_retry (n : Nat) : Fld := ⟨MC_FLAGS n, 3, 3⟩
abbrev MC_FLAGS_catch_ext (n : Nat) : Fld := ⟨MC_FLAGS n, 2, 2⟩
abbrev MC_FLAGS_relock (n : Nat) : Fld := ⟨MC_FLAGS n, 1, 1⟩
abbrev MC_FLAGS_los (n : Nat) : Fld := ⟨MC_FLAGS n, 0, 0⟩
/-- MC_FLAG_EN (R234, 06). -/
abbrev MC_FLAG_EN (n : Nat) : Nat := 0x40020008 + 0x4000 * n
abbrev MC_FLAG_EN_state_change (n : Nat) : Fld := ⟨MC_FLAG_EN n, 11, 11⟩
abbrev MC_FLAG_EN_pulse_abort (n : Nat) : Fld := ⟨MC_FLAG_EN n, 10, 10⟩
abbrev MC_FLAG_EN_mirror_seed (n : Nat) : Fld := ⟨MC_FLAG_EN n, 9, 9⟩
abbrev MC_FLAG_EN_obs_conflict (n : Nat) : Fld := ⟨MC_FLAG_EN n, 8, 8⟩
abbrev MC_FLAG_EN_regen_limit (n : Nat) : Fld := ⟨MC_FLAG_EN n, 7, 7⟩
abbrev MC_FLAG_EN_v_limit (n : Nat) : Fld := ⟨MC_FLAG_EN n, 6, 6⟩
abbrev MC_FLAG_EN_i_limit (n : Nat) : Fld := ⟨MC_FLAG_EN n, 5, 5⟩
abbrev MC_FLAG_EN_chan_fault (n : Nat) : Fld := ⟨MC_FLAG_EN n, 4, 4⟩
abbrev MC_FLAG_EN_pulse_retry (n : Nat) : Fld := ⟨MC_FLAG_EN n, 3, 3⟩
abbrev MC_FLAG_EN_catch_ext (n : Nat) : Fld := ⟨MC_FLAG_EN n, 2, 2⟩
abbrev MC_FLAG_EN_relock (n : Nat) : Fld := ⟨MC_FLAG_EN n, 1, 1⟩
abbrev MC_FLAG_EN_los (n : Nat) : Fld := ⟨MC_FLAG_EN n, 0, 0⟩
/-- MC_EVT_SEL (R234, 06). -/
abbrev MC_EVT_SEL (n : Nat) : Nat := 0x4002000C + 0x4000 * n
abbrev MC_EVT_SEL_index (n : Nat) : Fld := ⟨MC_EVT_SEL n, 3, 0⟩
/-- MC_EVT_CNT (R234, 06). -/
abbrev MC_EVT_CNT (n : Nat) : Nat := 0x40020010 + 0x4000 * n
abbrev MC_EVT_CNT_count (n : Nat) : Fld := ⟨MC_EVT_CNT n, 31, 0⟩
/-- MC_CFG (R234, 06). -/
abbrev MC_CFG (n : Nat) : Nat := 0x40020014 + 0x4000 * n
abbrev MC_CFG_set_offset (n : Nat) : Fld := ⟨MC_CFG n, 31, 24⟩
abbrev MC_CFG_pole_pairs (n : Nat) : Fld := ⟨MC_CFG n, 15, 8⟩
abbrev MC_CFG_mtpa_en (n : Nat) : Fld := ⟨MC_CFG n, 1, 1⟩
abbrev MC_CFG_fw_en (n : Nat) : Fld := ⟨MC_CFG n, 0, 0⟩
/-- MC_PWM_PERIOD (R234, 06). -/
abbrev MC_PWM_PERIOD (n : Nat) : Nat := 0x40020018 + 0x4000 * n
abbrev MC_PWM_PERIOD_ns (n : Nat) : Fld := ⟨MC_PWM_PERIOD n, 31, 0⟩
/-- MC_PWM_WIN (R234, 06). -/
abbrev MC_PWM_WIN (n : Nat) : Nat := 0x4002001C + 0x4000 * n
abbrev MC_PWM_WIN_ns (n : Nat) : Fld := ⟨MC_PWM_WIN n, 15, 0⟩
/-- MC_SHARE (R234, 06). -/
abbrev MC_SHARE (n : Nat) : Nat := 0x40020020 + 0x4000 * n
abbrev MC_SHARE_share (n : Nat) : Fld := ⟨MC_SHARE n, 8, 0⟩
/-- MC_RS (R234, 06, a _LO/_HI pair). -/
abbrev MC_RS (n : Nat) : Nat := 0x40020030 + 0x4000 * n
/-- MC_LD (R234, 06, a _LO/_HI pair). -/
abbrev MC_LD (n : Nat) : Nat := 0x40020038 + 0x4000 * n
/-- MC_LQ (R234, 06, a _LO/_HI pair). -/
abbrev MC_LQ (n : Nat) : Nat := 0x40020040 + 0x4000 * n
/-- MC_PSI (R234, 06, a _LO/_HI pair). -/
abbrev MC_PSI (n : Nat) : Nat := 0x40020048 + 0x4000 * n
/-- MC_MX (R234, 06, a _LO/_HI pair). -/
abbrev MC_MX (n : Nat) : Nat := 0x40020050 + 0x4000 * n
/-- MC_KP_D (R234, 06, a _LO/_HI pair). -/
abbrev MC_KP_D (n : Nat) : Nat := 0x40020058 + 0x4000 * n
/-- MC_KP_Q (R234, 06, a _LO/_HI pair). -/
abbrev MC_KP_Q (n : Nat) : Nat := 0x40020060 + 0x4000 * n
/-- MC_KI_T (R234, 06, a _LO/_HI pair). -/
abbrev MC_KI_T (n : Nat) : Nat := 0x40020068 + 0x4000 * n
/-- MC_I_MAX (R234, 06, a _LO/_HI pair). -/
abbrev MC_I_MAX (n : Nat) : Nat := 0x40020070 + 0x4000 * n
/-- MC_M_MAX (R234, 06, a _LO/_HI pair). -/
abbrev MC_M_MAX (n : Nat) : Nat := 0x40020078 + 0x4000 * n
/-- MC_MTPA_K (R234, 06, a _LO/_HI pair). -/
abbrev MC_MTPA_K (n : Nat) : Nat := 0x40020080 + 0x4000 * n
/-- MC_PLL_KP (R234, 06, a _LO/_HI pair). -/
abbrev MC_PLL_KP (n : Nat) : Nat := 0x40020088 + 0x4000 * n
/-- MC_PLL_KI_T (R234, 06, a _LO/_HI pair). -/
abbrev MC_PLL_KI_T (n : Nat) : Nat := 0x40020090 + 0x4000 * n
/-- MC_FLUX_KC_T (R234, 06, a _LO/_HI pair). -/
abbrev MC_FLUX_KC_T (n : Nat) : Nat := 0x40020098 + 0x4000 * n
/-- MC_W_LO (R234, 06, a _LO/_HI pair). -/
abbrev MC_W_LO (n : Nat) : Nat := 0x400200A0 + 0x4000 * n
/-- MC_W_HI (R234, 06, a _LO/_HI pair). -/
abbrev MC_W_HI (n : Nat) : Nat := 0x400200A8 + 0x4000 * n
/-- MC_V_INJ (R234, 06, a _LO/_HI pair). -/
abbrev MC_V_INJ (n : Nat) : Nat := 0x400200B0 + 0x4000 * n
/-- MC_SLEW_MAX (R234, 06, a _LO/_HI pair). -/
abbrev MC_SLEW_MAX (n : Nat) : Nat := 0x400200B8 + 0x4000 * n
/-- MC_RESID_MAX (R234, 06, a _LO/_HI pair). -/
abbrev MC_RESID_MAX (n : Nat) : Nat := 0x400200C0 + 0x4000 * n
/-- MC_W_RATED (R234, 06, a _LO/_HI pair). -/
abbrev MC_W_RATED (n : Nat) : Nat := 0x400200C8 + 0x4000 * n
/-- MC_SPD_KP (R234, 06, a _LO/_HI pair). -/
abbrev MC_SPD_KP (n : Nat) : Nat := 0x400200D0 + 0x4000 * n
/-- MC_SPD_KI_T (R234, 06, a _LO/_HI pair). -/
abbrev MC_SPD_KI_T (n : Nat) : Nat := 0x400200D8 + 0x4000 * n
/-- MC_INERTIA (R234, 06, a _LO/_HI pair). -/
abbrev MC_INERTIA (n : Nat) : Nat := 0x400200E0 + 0x4000 * n
/-- MC_ACCEL (R234, 06, a _LO/_HI pair). -/
abbrev MC_ACCEL (n : Nat) : Nat := 0x400200E8 + 0x4000 * n
/-- MC_DECEL (R234, 06, a _LO/_HI pair). -/
abbrev MC_DECEL (n : Nat) : Nat := 0x400200F0 + 0x4000 * n
/-- MC_JERK_T (R234, 06, a _LO/_HI pair). -/
abbrev MC_JERK_T (n : Nat) : Nat := 0x400200F8 + 0x4000 * n
/-- MC_SPD_MAX (R234, 06, a _LO/_HI pair). -/
abbrev MC_SPD_MAX (n : Nat) : Nat := 0x40020100 + 0x4000 * n
/-- MC_T_MAX (R234, 06, a _LO/_HI pair). -/
abbrev MC_T_MAX (n : Nat) : Nat := 0x40020108 + 0x4000 * n
/-- MC_ANG_KP (R234, 06, a _LO/_HI pair). -/
abbrev MC_ANG_KP (n : Nat) : Nat := 0x40020110 + 0x4000 * n
/-- MC_GEAR (R234, 06, a _LO/_HI pair). -/
abbrev MC_GEAR (n : Nat) : Nat := 0x40020118 + 0x4000 * n
/-- MC_RATE_MAX (R234, 06, a _LO/_HI pair). -/
abbrev MC_RATE_MAX (n : Nat) : Nat := 0x40020120 + 0x4000 * n
/-- MC_ANG_LIMITS (R234, 06). -/
abbrev MC_ANG_LIMITS (n : Nat) : Nat := 0x4002012C + 0x4000 * n
abbrev MC_ANG_LIMITS_ang_max (n : Nat) : Fld := ⟨MC_ANG_LIMITS n, 31, 16⟩
abbrev MC_ANG_LIMITS_ang_min (n : Nat) : Fld := ⟨MC_ANG_LIMITS n, 15, 0⟩
/-- MC_LOS_CFG (R234, 06). -/
abbrev MC_LOS_CFG (n : Nat) : Nat := 0x40020130 + 0x4000 * n
abbrev MC_LOS_CFG_n (n : Nat) : Fld := ⟨MC_LOS_CFG n, 7, 0⟩
/-- MC_CATCH_CFG (R234, 06). -/
abbrev MC_CATCH_CFG (n : Nat) : Nat := 0x40020134 + 0x4000 * n
abbrev MC_CATCH_CFG_still_permille (n : Nat) : Fld := ⟨MC_CATCH_CFG n, 23, 16⟩
abbrev MC_CATCH_CFG_window_us (n : Nat) : Fld := ⟨MC_CATCH_CFG n, 15, 0⟩
/-- MC_PULSE_CFG (R234, 06). -/
abbrev MC_PULSE_CFG (n : Nat) : Nat := 0x40020138 + 0x4000 * n
abbrev MC_PULSE_CFG_gap_us (n : Nat) : Fld := ⟨MC_PULSE_CFG n, 31, 16⟩
abbrev MC_PULSE_CFG_pulse_us (n : Nat) : Fld := ⟨MC_PULSE_CFG n, 15, 0⟩
/-- MC_OBS_ENV (R234, 06). -/
abbrev MC_OBS_ENV (n : Nat) : Nat := 0x4002013C + 0x4000 * n
abbrev MC_OBS_ENV_g_hi (n : Nat) : Fld := ⟨MC_OBS_ENV n, 15, 8⟩
abbrev MC_OBS_ENV_g_lo (n : Nat) : Fld := ⟨MC_OBS_ENV n, 7, 0⟩
/-- MC_W_SCHED (R234, 06, a _LO/_HI pair). -/
abbrev MC_W_SCHED (n : Nat) : Nat := 0x40020140 + 0x4000 * n
/-- MC_ANGLE (R234, 06). -/
abbrev MC_ANGLE (n : Nat) : Nat := 0x40020148 + 0x4000 * n
abbrev MC_ANGLE_turn32 (n : Nat) : Fld := ⟨MC_ANGLE n, 31, 0⟩
/-- MC_SPEED (R234, 06, a _LO/_HI pair). -/
abbrev MC_SPEED (n : Nat) : Nat := 0x40020150 + 0x4000 * n
/-- MC_ID (R234, 06, a _LO/_HI pair). -/
abbrev MC_ID (n : Nat) : Nat := 0x40020158 + 0x4000 * n
/-- MC_IQ (R234, 06, a _LO/_HI pair). -/
abbrev MC_IQ (n : Nat) : Nat := 0x40020160 + 0x4000 * n
/-- MC_VD (R234, 06, a _LO/_HI pair). -/
abbrev MC_VD (n : Nat) : Nat := 0x40020168 + 0x4000 * n
/-- MC_VQ (R234, 06, a _LO/_HI pair). -/
abbrev MC_VQ (n : Nat) : Nat := 0x40020170 + 0x4000 * n
/-- MC_FLUX (R234, 06, a _LO/_HI pair). -/
abbrev MC_FLUX (n : Nat) : Nat := 0x40020178 + 0x4000 * n
/-- MC_RESID (R234, 06, a _LO/_HI pair). -/
abbrev MC_RESID (n : Nat) : Nat := 0x40020180 + 0x4000 * n
/-- MC_TORQUE (R234, 06, a _LO/_HI pair). -/
abbrev MC_TORQUE (n : Nat) : Nat := 0x40020188 + 0x4000 * n
/-- MC_LOS (R234, 06). -/
abbrev MC_LOS (n : Nat) : Nat := 0x40020190 + 0x4000 * n
abbrev MC_LOS_count (n : Nat) : Fld := ⟨MC_LOS n, 31, 16⟩
abbrev MC_LOS_criterion (n : Nat) : Fld := ⟨MC_LOS n, 2, 0⟩
/-- MC_LOS_TIME (R234, 06). -/
abbrev MC_LOS_TIME (n : Nat) : Nat := 0x40020194 + 0x4000 * n
abbrev MC_LOS_TIME_stamp (n : Nat) : Fld := ⟨MC_LOS_TIME n, 31, 0⟩
/-- MC_PULSE_ANGLE (R234, 06). -/
abbrev MC_PULSE_ANGLE (n : Nat) : Nat := 0x40020198 + 0x4000 * n
abbrev MC_PULSE_ANGLE_turn32 (n : Nat) : Fld := ⟨MC_PULSE_ANGLE n, 31, 0⟩
/-- MC_PULSE_STAT (R234, 06). -/
abbrev MC_PULSE_STAT (n : Nat) : Nat := 0x4002019C + 0x4000 * n
abbrev MC_PULSE_STAT_asym (n : Nat) : Fld := ⟨MC_PULSE_STAT n, 31, 16⟩
abbrev MC_PULSE_STAT_attempts (n : Nat) : Fld := ⟨MC_PULSE_STAT n, 1, 0⟩
/-- MC_CONFLICT (R234, 06). -/
abbrev MC_CONFLICT (n : Nat) : Nat := 0x400201A0 + 0x4000 * n
abbrev MC_CONFLICT_count (n : Nat) : Fld := ⟨MC_CONFLICT n, 31, 0⟩
/-- PS_STATUS (R262, 07). -/
abbrev PS_STATUS (n : Nat) : Nat := 0x40028000 + 0x4000 * n
abbrev PS_STATUS_fault (n : Nat) : Fld := ⟨PS_STATUS n, 9, 9⟩
abbrev PS_STATUS_offset_valid (n : Nat) : Fld := ⟨PS_STATUS n, 8, 8⟩
abbrev PS_STATUS_regen_limiting (n : Nat) : Fld := ⟨PS_STATUS n, 7, 7⟩
abbrev PS_STATUS_ovp_active (n : Nat) : Fld := ⟨PS_STATUS n, 6, 6⟩
abbrev PS_STATUS_chop_fault (n : Nat) : Fld := ⟨PS_STATUS n, 5, 5⟩
abbrev PS_STATUS_chop_on (n : Nat) : Fld := ⟨PS_STATUS n, 4, 4⟩
abbrev PS_STATUS_supply_cut (n : Nat) : Fld := ⟨PS_STATUS n, 3, 3⟩
abbrev PS_STATUS_logic_disable (n : Nat) : Fld := ⟨PS_STATUS n, 2, 2⟩
abbrev PS_STATUS_asc (n : Nat) : Fld := ⟨PS_STATUS n, 1, 1⟩
abbrev PS_STATUS_switching (n : Nat) : Fld := ⟨PS_STATUS n, 0, 0⟩
/-- PS_FLAGS (R262, 07). -/
abbrev PS_FLAGS (n : Nat) : Nat := 0x40028004 + 0x4000 * n
abbrev PS_FLAGS_bridge_fault (n : Nat) : Fld := ⟨PS_FLAGS n, 15, 15⟩
abbrev PS_FLAGS_asc_fail (n : Nat) : Fld := ⟨PS_FLAGS n, 14, 14⟩
abbrev PS_FLAGS_asc_entered (n : Nat) : Fld := ⟨PS_FLAGS n, 13, 13⟩
abbrev PS_FLAGS_ovp (n : Nat) : Fld := ⟨PS_FLAGS n, 12, 12⟩
abbrev PS_FLAGS_regen_active (n : Nat) : Fld := ⟨PS_FLAGS n, 11, 11⟩
abbrev PS_FLAGS_chop_stuck (n : Nat) : Fld := ⟨PS_FLAGS n, 10, 10⟩
abbrev PS_FLAGS_chop_fault (n : Nat) : Fld := ⟨PS_FLAGS n, 9, 9⟩
abbrev PS_FLAGS_chop_check_fail (n : Nat) : Fld := ⟨PS_FLAGS n, 8, 8⟩
abbrev PS_FLAGS_dc_uv (n : Nat) : Fld := ⟨PS_FLAGS n, 7, 7⟩
abbrev PS_FLAGS_open_phase (n : Nat) : Fld := ⟨PS_FLAGS n, 6, 6⟩
abbrev PS_FLAGS_boot_low (n : Nat) : Fld := ⟨PS_FLAGS n, 5, 5⟩
abbrev PS_FLAGS_vg_low (n : Nat) : Fld := ⟨PS_FLAGS n, 4, 4⟩
abbrev PS_FLAGS_gate_mismatch (n : Nat) : Fld := ⟨PS_FLAGS n, 3, 3⟩
abbrev PS_FLAGS_overcurrent (n : Nat) : Fld := ⟨PS_FLAGS n, 2, 2⟩
abbrev PS_FLAGS_desat (n : Nat) : Fld := ⟨PS_FLAGS n, 1, 1⟩
abbrev PS_FLAGS_sto_test_fail (n : Nat) : Fld := ⟨PS_FLAGS n, 0, 0⟩
/-- PS_FLAG_EN (R262, 07). -/
abbrev PS_FLAG_EN (n : Nat) : Nat := 0x40028008 + 0x4000 * n
abbrev PS_FLAG_EN_bridge_fault (n : Nat) : Fld := ⟨PS_FLAG_EN n, 15, 15⟩
abbrev PS_FLAG_EN_asc_fail (n : Nat) : Fld := ⟨PS_FLAG_EN n, 14, 14⟩
abbrev PS_FLAG_EN_asc_entered (n : Nat) : Fld := ⟨PS_FLAG_EN n, 13, 13⟩
abbrev PS_FLAG_EN_ovp (n : Nat) : Fld := ⟨PS_FLAG_EN n, 12, 12⟩
abbrev PS_FLAG_EN_regen_active (n : Nat) : Fld := ⟨PS_FLAG_EN n, 11, 11⟩
abbrev PS_FLAG_EN_chop_stuck (n : Nat) : Fld := ⟨PS_FLAG_EN n, 10, 10⟩
abbrev PS_FLAG_EN_chop_fault (n : Nat) : Fld := ⟨PS_FLAG_EN n, 9, 9⟩
abbrev PS_FLAG_EN_chop_check_fail (n : Nat) : Fld := ⟨PS_FLAG_EN n, 8, 8⟩
abbrev PS_FLAG_EN_dc_uv (n : Nat) : Fld := ⟨PS_FLAG_EN n, 7, 7⟩
abbrev PS_FLAG_EN_open_phase (n : Nat) : Fld := ⟨PS_FLAG_EN n, 6, 6⟩
abbrev PS_FLAG_EN_boot_low (n : Nat) : Fld := ⟨PS_FLAG_EN n, 5, 5⟩
abbrev PS_FLAG_EN_vg_low (n : Nat) : Fld := ⟨PS_FLAG_EN n, 4, 4⟩
abbrev PS_FLAG_EN_gate_mismatch (n : Nat) : Fld := ⟨PS_FLAG_EN n, 3, 3⟩
abbrev PS_FLAG_EN_overcurrent (n : Nat) : Fld := ⟨PS_FLAG_EN n, 2, 2⟩
abbrev PS_FLAG_EN_desat (n : Nat) : Fld := ⟨PS_FLAG_EN n, 1, 1⟩
abbrev PS_FLAG_EN_sto_test_fail (n : Nat) : Fld := ⟨PS_FLAG_EN n, 0, 0⟩
/-- PS_EVT_SEL (R262, 07). -/
abbrev PS_EVT_SEL (n : Nat) : Nat := 0x4002800C + 0x4000 * n
abbrev PS_EVT_SEL_index (n : Nat) : Fld := ⟨PS_EVT_SEL n, 3, 0⟩
/-- PS_EVT_CNT (R262, 07). -/
abbrev PS_EVT_CNT (n : Nat) : Nat := 0x40028010 + 0x4000 * n
abbrev PS_EVT_CNT_count (n : Nat) : Fld := ⟨PS_EVT_CNT n, 31, 0⟩
/-- PS_CFG (R262, 07). -/
abbrev PS_CFG (n : Nat) : Nat := 0x40028014 + 0x4000 * n
abbrev PS_CFG_asc_high (n : Nat) : Fld := ⟨PS_CFG n, 16, 16⟩
abbrev PS_CFG_sink_sel (n : Nat) : Fld := ⟨PS_CFG n, 15, 14⟩
abbrev PS_CFG_source_sel (n : Nat) : Fld := ⟨PS_CFG n, 13, 12⟩
abbrev PS_CFG_dead_ns (n : Nat) : Fld := ⟨PS_CFG n, 10, 0⟩
/-- PS_CTRL (R262, 07). -/
abbrev PS_CTRL (n : Nat) : Nat := 0x40028018 + 0x4000 * n
abbrev PS_CTRL_asc_test (n : Nat) : Fld := ⟨PS_CTRL n, 1, 1⟩
abbrev PS_CTRL_sto_req (n : Nat) : Fld := ⟨PS_CTRL n, 0, 0⟩
/-- PS_STO (R262, 07). -/
abbrev PS_STO (n : Nat) : Nat := 0x4002801C + 0x4000 * n
abbrev PS_STO_fail_count (n : Nat) : Fld := ⟨PS_STO n, 31, 16⟩
abbrev PS_STO_cut_ok (n : Nat) : Fld := ⟨PS_STO n, 1, 1⟩
abbrev PS_STO_logic_ok (n : Nat) : Fld := ⟨PS_STO n, 0, 0⟩
/-- PS_VG (R262, 07). -/
abbrev PS_VG (n : Nat) : Nat := 0x40028020 + 0x4000 * n
abbrev PS_VG_mv (n : Nat) : Fld := ⟨PS_VG n, 15, 0⟩
/-- PS_BOOT (R262, 07). -/
abbrev PS_BOOT (n : Nat) : Nat := 0x40028024 + 0x4000 * n
abbrev PS_BOOT_boot_c (n : Nat) : Fld := ⟨PS_BOOT n, 23, 16⟩
abbrev PS_BOOT_boot_b (n : Nat) : Fld := ⟨PS_BOOT n, 15, 8⟩
abbrev PS_BOOT_boot_a (n : Nat) : Fld := ⟨PS_BOOT n, 7, 0⟩
/-- PS_V_CHOP_ON (R262, 07, a _LO/_HI pair). -/
abbrev PS_V_CHOP_ON (n : Nat) : Nat := 0x40028028 + 0x4000 * n
/-- PS_V_CHOP_HYST (R262, 07, a _LO/_HI pair). -/
abbrev PS_V_CHOP_HYST (n : Nat) : Nat := 0x40028030 + 0x4000 * n
/-- PS_V_REGEN (R262, 07, a _LO/_HI pair). -/
abbrev PS_V_REGEN (n : Nat) : Nat := 0x40028038 + 0x4000 * n
/-- PS_V_SPAN (R262, 07, a _LO/_HI pair). -/
abbrev PS_V_SPAN (n : Nat) : Nat := 0x40028040 + 0x4000 * n
/-- PS_V_OVP (R262, 07, a _LO/_HI pair). -/
abbrev PS_V_OVP (n : Nat) : Nat := 0x40028048 + 0x4000 * n
/-- PS_I_TRIP (R262, 07, a _LO/_HI pair). -/
abbrev PS_I_TRIP (n : Nat) : Nat := 0x40028050 + 0x4000 * n
/-- PS_SHUNT (R262, 07, a _LO/_HI pair). -/
abbrev PS_SHUNT (n : Nat) : Nat := 0x40028058 + 0x4000 * n
/-- PS_R_CHOP (R262, 07, a _LO/_HI pair). -/
abbrev PS_R_CHOP (n : Nat) : Nat := 0x40028060 + 0x4000 * n
/-- PS_CHOP_SHUNT (R262, 07, a _LO/_HI pair). -/
abbrev PS_CHOP_SHUNT (n : Nat) : Nat := 0x40028068 + 0x4000 * n
/-- PS_I_CHOP_MIN (R262, 07, a _LO/_HI pair). -/
abbrev PS_I_CHOP_MIN (n : Nat) : Nat := 0x40028070 + 0x4000 * n
/-- PS_VDC (R262, 07, a _LO/_HI pair). -/
abbrev PS_VDC (n : Nat) : Nat := 0x40028078 + 0x4000 * n
/-- PS_REGEN_LIM (R262, 07, a _LO/_HI pair). -/
abbrev PS_REGEN_LIM (n : Nat) : Nat := 0x40028080 + 0x4000 * n
/-- PS_CHOP_I (R262, 07, a _LO/_HI pair). -/
abbrev PS_CHOP_I (n : Nat) : Nat := 0x40028088 + 0x4000 * n
/-- PS_CHOP_STAT (R262, 07). -/
abbrev PS_CHOP_STAT (n : Nat) : Nat := 0x40028090 + 0x4000 * n
abbrev PS_CHOP_STAT_failed (n : Nat) : Fld := ⟨PS_CHOP_STAT n, 31, 16⟩
abbrev PS_CHOP_STAT_permille (n : Nat) : Fld := ⟨PS_CHOP_STAT n, 9, 0⟩
/-- PS_FAULT (R262, 07). -/
abbrev PS_FAULT (n : Nat) : Nat := 0x40028094 + 0x4000 * n
abbrev PS_FAULT_valid (n : Nat) : Fld := ⟨PS_FAULT n, 31, 31⟩
abbrev PS_FAULT_kind (n : Nat) : Fld := ⟨PS_FAULT n, 7, 4⟩
abbrev PS_FAULT_asc (n : Nat) : Fld := ⟨PS_FAULT n, 3, 3⟩
abbrev PS_FAULT_switch (n : Nat) : Fld := ⟨PS_FAULT n, 2, 0⟩
/-- PS_FAULT_TIME (R262, 07). -/
abbrev PS_FAULT_TIME (n : Nat) : Nat := 0x40028098 + 0x4000 * n
abbrev PS_FAULT_TIME_stamp (n : Nat) : Fld := ⟨PS_FAULT_TIME n, 31, 0⟩
/-- BK_STATUS (R294, 08). -/
abbrev BK_STATUS : Nat := 0x40030000
abbrev BK_STATUS_engaged : Fld := ⟨BK_STATUS, 9, 9⟩
abbrev BK_STATUS_permit : Fld := ⟨BK_STATUS, 8, 8⟩
abbrev BK_STATUS_speed_valid : Fld := ⟨BK_STATUS, 7, 7⟩
abbrev BK_STATUS_feel_active : Fld := ⟨BK_STATUS, 6, 6⟩
abbrev BK_STATUS_step : Fld := ⟨BK_STATUS, 5, 4⟩
abbrev BK_STATUS_mode : Fld := ⟨BK_STATUS, 3, 0⟩
/-- BK_FLAGS (R294, 08). -/
abbrev BK_FLAGS : Nat := 0x40030004
abbrev BK_FLAGS_p_track : Fld := ⟨BK_FLAGS, 11, 11⟩
abbrev BK_FLAGS_dither_conflict : Fld := ⟨BK_FLAGS, 10, 10⟩
abbrev BK_FLAGS_short : Fld := ⟨BK_FLAGS, 9, 9⟩
abbrev BK_FLAGS_open_load : Fld := ⟨BK_FLAGS, 8, 8⟩
abbrev BK_FLAGS_takeover_req : Fld := ⟨BK_FLAGS, 7, 7⟩
abbrev BK_FLAGS_park_fault : Fld := ⟨BK_FLAGS, 6, 6⟩
abbrev BK_FLAGS_park_applied : Fld := ⟨BK_FLAGS, 5, 5⟩
abbrev BK_FLAGS_park_released : Fld := ⟨BK_FLAGS, 4, 4⟩
abbrev BK_FLAGS_speed_stale : Fld := ⟨BK_FLAGS, 3, 3⟩
abbrev BK_FLAGS_target_clamped : Fld := ⟨BK_FLAGS, 2, 2⟩
abbrev BK_FLAGS_demand_refused : Fld := ⟨BK_FLAGS, 1, 1⟩
abbrev BK_FLAGS_demand_invalid : Fld := ⟨BK_FLAGS, 0, 0⟩
/-- BK_FLAG_EN (R294, 08). -/
abbrev BK_FLAG_EN : Nat := 0x40030008
abbrev BK_FLAG_EN_p_track : Fld := ⟨BK_FLAG_EN, 11, 11⟩
abbrev BK_FLAG_EN_dither_conflict : Fld := ⟨BK_FLAG_EN, 10, 10⟩
abbrev BK_FLAG_EN_short : Fld := ⟨BK_FLAG_EN, 9, 9⟩
abbrev BK_FLAG_EN_open_load : Fld := ⟨BK_FLAG_EN, 8, 8⟩
abbrev BK_FLAG_EN_takeover_req : Fld := ⟨BK_FLAG_EN, 7, 7⟩
abbrev BK_FLAG_EN_park_fault : Fld := ⟨BK_FLAG_EN, 6, 6⟩
abbrev BK_FLAG_EN_park_applied : Fld := ⟨BK_FLAG_EN, 5, 5⟩
abbrev BK_FLAG_EN_park_released : Fld := ⟨BK_FLAG_EN, 4, 4⟩
abbrev BK_FLAG_EN_speed_stale : Fld := ⟨BK_FLAG_EN, 3, 3⟩
abbrev BK_FLAG_EN_target_clamped : Fld := ⟨BK_FLAG_EN, 2, 2⟩
abbrev BK_FLAG_EN_demand_refused : Fld := ⟨BK_FLAG_EN, 1, 1⟩
abbrev BK_FLAG_EN_demand_invalid : Fld := ⟨BK_FLAG_EN, 0, 0⟩
/-- BK_EVT_SEL (R294, 08). -/
abbrev BK_EVT_SEL : Nat := 0x4003000C
abbrev BK_EVT_SEL_index : Fld := ⟨BK_EVT_SEL, 3, 0⟩
/-- BK_EVT_CNT (R294, 08). -/
abbrev BK_EVT_CNT : Nat := 0x40030010
abbrev BK_EVT_CNT_count : Fld := ⟨BK_EVT_CNT, 31, 0⟩
/-- BK_PARK (R294, 08). -/
abbrev BK_PARK : Nat := 0x40030014
abbrev BK_PARK_attempts : Fld := ⟨BK_PARK, 31, 16⟩
abbrev BK_PARK_driver : Fld := ⟨BK_PARK, 15, 8⟩
abbrev BK_PARK_parked : Fld := ⟨BK_PARK, 4, 4⟩
abbrev BK_PARK_sensor : Fld := ⟨BK_PARK, 3, 3⟩
abbrev BK_PARK_state : Fld := ⟨BK_PARK, 2, 0⟩
/-- BK_PARK_TIME (R294, 08). -/
abbrev BK_PARK_TIME : Nat := 0x40030018
abbrev BK_PARK_TIME_stamp : Fld := ⟨BK_PARK_TIME, 31, 0⟩
/-- BK_DEMAND (R294, 08). -/
abbrev BK_DEMAND : Nat := 0x4003001C
abbrev BK_DEMAND_seq : Fld := ⟨BK_DEMAND, 31, 16⟩
abbrev BK_DEMAND_release_park : Fld := ⟨BK_DEMAND, 6, 6⟩
abbrev BK_DEMAND_brake_kind : Fld := ⟨BK_DEMAND, 5, 5⟩
abbrev BK_DEMAND_steer_kind : Fld := ⟨BK_DEMAND, 4, 4⟩
abbrev BK_DEMAND_mode : Fld := ⟨BK_DEMAND, 3, 0⟩
/-- BK_DEM_AGE (R294, 08). -/
abbrev BK_DEM_AGE : Nat := 0x40030020
abbrev BK_DEM_AGE_ns : Fld := ⟨BK_DEM_AGE, 31, 0⟩
/-- BK_DECEL (R294, 08, a _LO/_HI pair). -/
abbrev BK_DECEL : Nat := 0x40030028
/-- BK_SPEED (R294, 08, a _LO/_HI pair). -/
abbrev BK_SPEED : Nat := 0x40030030
/-- BKn_CFG (R294, 08). -/
abbrev BKn_CFG (n : Nat) : Nat := 0x40030100 + 0x40 * n
abbrev BKn_CFG_dither_hz (n : Nat) : Fld := ⟨BKn_CFG n, 24, 16⟩
abbrev BKn_CFG_pwm_khz (n : Nat) : Fld := ⟨BKn_CFG n, 12, 8⟩
abbrev BKn_CFG_role (n : Nat) : Fld := ⟨BKn_CFG n, 2, 0⟩
/-- BKn_STATUS (R294, 08). -/
abbrev BKn_STATUS (n : Nat) : Nat := 0x40030104 + 0x40 * n
abbrev BKn_STATUS_pinned (n : Nat) : Fld := ⟨BKn_STATUS n, 4, 4⟩
abbrev BKn_STATUS_test_ok (n : Nat) : Fld := ⟨BKn_STATUS n, 3, 3⟩
abbrev BKn_STATUS_fault (n : Nat) : Fld := ⟨BKn_STATUS n, 2, 2⟩
abbrev BKn_STATUS_holding (n : Nat) : Fld := ⟨BKn_STATUS n, 1, 1⟩
abbrev BKn_STATUS_driving (n : Nat) : Fld := ⟨BKn_STATUS n, 0, 0⟩
/-- BKn_I_REF (R294, 08, a _LO/_HI pair). -/
abbrev BKn_I_REF (n : Nat) : Nat := 0x40030108 + 0x40 * n
/-- BKn_I_MEAS (R294, 08, a _LO/_HI pair). -/
abbrev BKn_I_MEAS (n : Nat) : Nat := 0x40030110 + 0x40 * n
/-- BKn_P_REF (R294, 08, a _LO/_HI pair). -/
abbrev BKn_P_REF (n : Nat) : Nat := 0x40030118 + 0x40 * n
/-- BKn_P_MEAS (R294, 08, a _LO/_HI pair). -/
abbrev BKn_P_MEAS (n : Nat) : Nat := 0x40030120 + 0x40 * n
/-- BKn_DITHER_ENV (R294, 08). -/
abbrev BKn_DITHER_ENV (n : Nat) : Nat := 0x40030128 + 0x40 * n
abbrev BKn_DITHER_ENV_amp_hi (n : Nat) : Fld := ⟨BKn_DITHER_ENV n, 31, 16⟩
abbrev BKn_DITHER_ENV_amp_lo (n : Nat) : Fld := ⟨BKn_DITHER_ENV n, 15, 0⟩
/-- BKn_DITHER (R294, 08). -/
abbrev BKn_DITHER (n : Nat) : Nat := 0x4003012C + 0x40 * n
abbrev BKn_DITHER_a_cmd (n : Nat) : Fld := ⟨BKn_DITHER n, 31, 16⟩
abbrev BKn_DITHER_a_meas (n : Nat) : Fld := ⟨BKn_DITHER n, 15, 0⟩
/-- BKn_CONFLICT (R294, 08). -/
abbrev BKn_CONFLICT (n : Nat) : Nat := 0x40030130 + 0x40 * n
abbrev BKn_CONFLICT_count (n : Nat) : Fld := ⟨BKn_CONFLICT n, 31, 0⟩
/-- BKn_FAULT (R294, 08). -/
abbrev BKn_FAULT (n : Nat) : Nat := 0x40030134 + 0x40 * n
abbrev BKn_FAULT_valid (n : Nat) : Fld := ⟨BKn_FAULT n, 31, 31⟩
abbrev BKn_FAULT_kind (n : Nat) : Fld := ⟨BKn_FAULT n, 2, 0⟩
/-- BKn_FAULT_TIME (R294, 08). -/
abbrev BKn_FAULT_TIME (n : Nat) : Nat := 0x40030138 + 0x40 * n
abbrev BKn_FAULT_TIME_stamp (n : Nat) : Fld := ⟨BKn_FAULT_TIME n, 31, 0⟩
/-- BKn_DITHER_TGT (R294, 08). -/
abbrev BKn_DITHER_TGT (n : Nat) : Nat := 0x4003013C + 0x40 * n
abbrev BKn_DITHER_TGT_a_tgt (n : Nat) : Fld := ⟨BKn_DITHER_TGT n, 15, 0⟩
/-- SP_STATUS (R323, 09). -/
abbrev SP_STATUS : Nat := 0x40034000
abbrev SP_STATUS_fault : Fld := ⟨SP_STATUS, 11, 8⟩
abbrev SP_STATUS_homing_required : Fld := ⟨SP_STATUS, 7, 4⟩
abbrev SP_STATUS_moving : Fld := ⟨SP_STATUS, 3, 0⟩
/-- SP_EVT_SEL (R323, 09). -/
abbrev SP_EVT_SEL : Nat := 0x40034004
abbrev SP_EVT_SEL_channel : Fld := ⟨SP_EVT_SEL, 5, 4⟩
abbrev SP_EVT_SEL_index : Fld := ⟨SP_EVT_SEL, 3, 0⟩
/-- SP_EVT_CNT (R323, 09). -/
abbrev SP_EVT_CNT : Nat := 0x40034008
abbrev SP_EVT_CNT_count : Fld := ⟨SP_EVT_CNT, 31, 0⟩
/-- SPn_CFG (R323, 09). -/
abbrev SPn_CFG (n : Nat) : Nat := 0x40034100 + 0x100 * n
abbrev SPn_CFG_res_log2 (n : Nat) : Fld := ⟨SPn_CFG n, 11, 8⟩
abbrev SPn_CFG_shape (n : Nat) : Fld := ⟨SPn_CFG n, 4, 4⟩
abbrev SPn_CFG_role (n : Nat) : Fld := ⟨SPn_CFG n, 1, 0⟩
/-- SPn_STATUS (R323, 09). -/
abbrev SPn_STATUS (n : Nat) : Nat := 0x40034104 + 0x100 * n
abbrev SPn_STATUS_cmp_armed (n : Nat) : Fld := ⟨SPn_STATUS n, 10, 10⟩
abbrev SPn_STATUS_fault (n : Nat) : Fld := ⟨SPn_STATUS n, 9, 9⟩
abbrev SPn_STATUS_limit_active (n : Nat) : Fld := ⟨SPn_STATUS n, 8, 8⟩
abbrev SPn_STATUS_homing (n : Nat) : Fld := ⟨SPn_STATUS n, 7, 7⟩
abbrev SPn_STATUS_homing_required (n : Nat) : Fld := ⟨SPn_STATUS n, 6, 6⟩
abbrev SPn_STATUS_holding (n : Nat) : Fld := ⟨SPn_STATUS n, 5, 5⟩
abbrev SPn_STATUS_driving (n : Nat) : Fld := ⟨SPn_STATUS n, 4, 4⟩
abbrev SPn_STATUS_hold_current (n : Nat) : Fld := ⟨SPn_STATUS n, 3, 3⟩
abbrev SPn_STATUS_at_target (n : Nat) : Fld := ⟨SPn_STATUS n, 2, 2⟩
abbrev SPn_STATUS_dir (n : Nat) : Fld := ⟨SPn_STATUS n, 1, 1⟩
abbrev SPn_STATUS_moving (n : Nat) : Fld := ⟨SPn_STATUS n, 0, 0⟩
/-- SPn_FLAGS (R323, 09). -/
abbrev SPn_FLAGS (n : Nat) : Nat := 0x40034108 + 0x100 * n
abbrev SPn_FLAGS_cmd_ignored (n : Nat) : Fld := ⟨SPn_FLAGS n, 15, 15⟩
abbrev SPn_FLAGS_homing_required (n : Nat) : Fld := ⟨SPn_FLAGS n, 14, 14⟩
abbrev SPn_FLAGS_overtemp (n : Nat) : Fld := ⟨SPn_FLAGS n, 13, 13⟩
abbrev SPn_FLAGS_open_load (n : Nat) : Fld := ⟨SPn_FLAGS n, 12, 12⟩
abbrev SPn_FLAGS_short (n : Nat) : Fld := ⟨SPn_FLAGS n, 11, 11⟩
abbrev SPn_FLAGS_cur_conflict (n : Nat) : Fld := ⟨SPn_FLAGS n, 10, 10⟩
abbrev SPn_FLAGS_stall (n : Nat) : Fld := ⟨SPn_FLAGS n, 9, 9⟩
abbrev SPn_FLAGS_limit_hit (n : Nat) : Fld := ⟨SPn_FLAGS n, 8, 8⟩
abbrev SPn_FLAGS_chatter (n : Nat) : Fld := ⟨SPn_FLAGS n, 7, 7⟩
abbrev SPn_FLAGS_home_fail (n : Nat) : Fld := ⟨SPn_FLAGS n, 6, 6⟩
abbrev SPn_FLAGS_limit_abort (n : Nat) : Fld := ⟨SPn_FLAGS n, 5, 5⟩
abbrev SPn_FLAGS_home_done (n : Nat) : Fld := ⟨SPn_FLAGS n, 4, 4⟩
abbrev SPn_FLAGS_behind (n : Nat) : Fld := ⟨SPn_FLAGS n, 3, 3⟩
abbrev SPn_FLAGS_cmp_fired (n : Nat) : Fld := ⟨SPn_FLAGS n, 2, 2⟩
abbrev SPn_FLAGS_stride_clip (n : Nat) : Fld := ⟨SPn_FLAGS n, 1, 1⟩
abbrev SPn_FLAGS_arrived (n : Nat) : Fld := ⟨SPn_FLAGS n, 0, 0⟩
/-- SPn_FLAG_EN (R323, 09). -/
abbrev SPn_FLAG_EN (n : Nat) : Nat := 0x4003410C + 0x100 * n
abbrev SPn_FLAG_EN_cmd_ignored (n : Nat) : Fld := ⟨SPn_FLAG_EN n, 15, 15⟩
abbrev SPn_FLAG_EN_homing_required (n : Nat) : Fld := ⟨SPn_FLAG_EN n, 14, 14⟩
abbrev SPn_FLAG_EN_overtemp (n : Nat) : Fld := ⟨SPn_FLAG_EN n, 13, 13⟩
abbrev SPn_FLAG_EN_open_load (n : Nat) : Fld := ⟨SPn_FLAG_EN n, 12, 12⟩
abbrev SPn_FLAG_EN_short (n : Nat) : Fld := ⟨SPn_FLAG_EN n, 11, 11⟩
abbrev SPn_FLAG_EN_cur_conflict (n : Nat) : Fld := ⟨SPn_FLAG_EN n, 10, 10⟩
abbrev SPn_FLAG_EN_stall (n : Nat) : Fld := ⟨SPn_FLAG_EN n, 9, 9⟩
abbrev SPn_FLAG_EN_limit_hit (n : Nat) : Fld := ⟨SPn_FLAG_EN n, 8, 8⟩
abbrev SPn_FLAG_EN_chatter (n : Nat) : Fld := ⟨SPn_FLAG_EN n, 7, 7⟩
abbrev SPn_FLAG_EN_home_fail (n : Nat) : Fld := ⟨SPn_FLAG_EN n, 6, 6⟩
abbrev SPn_FLAG_EN_limit_abort (n : Nat) : Fld := ⟨SPn_FLAG_EN n, 5, 5⟩
abbrev SPn_FLAG_EN_home_done (n : Nat) : Fld := ⟨SPn_FLAG_EN n, 4, 4⟩
abbrev SPn_FLAG_EN_behind (n : Nat) : Fld := ⟨SPn_FLAG_EN n, 3, 3⟩
abbrev SPn_FLAG_EN_cmp_fired (n : Nat) : Fld := ⟨SPn_FLAG_EN n, 2, 2⟩
abbrev SPn_FLAG_EN_stride_clip (n : Nat) : Fld := ⟨SPn_FLAG_EN n, 1, 1⟩
abbrev SPn_FLAG_EN_arrived (n : Nat) : Fld := ⟨SPn_FLAG_EN n, 0, 0⟩
/-- SPn_CTRL (R323, 09). -/
abbrev SPn_CTRL (n : Nat) : Nat := 0x40034110 + 0x100 * n
abbrev SPn_CTRL_stop (n : Nat) : Fld := ⟨SPn_CTRL n, 2, 2⟩
abbrev SPn_CTRL_home (n : Nat) : Fld := ⟨SPn_CTRL n, 1, 1⟩
/-- SPn_POS (R323, 09, a _LO/_HI pair). -/
abbrev SPn_POS (n : Nat) : Nat := 0x40034118 + 0x100 * n
/-- SPn_TARGET (R323, 09, a _LO/_HI pair). -/
abbrev SPn_TARGET (n : Nat) : Nat := 0x40034120 + 0x100 * n
/-- SPn_CMP (R323, 09, a _LO/_HI pair). -/
abbrev SPn_CMP (n : Nat) : Nat := 0x40034128 + 0x100 * n
/-- SPn_CMP_CFG (R323, 09). -/
abbrev SPn_CMP_CFG (n : Nat) : Nat := 0x40034130 + 0x100 * n
abbrev SPn_CMP_CFG_disarm (n : Nat) : Fld := ⟨SPn_CMP_CFG n, 3, 3⟩
abbrev SPn_CMP_CFG_late (n : Nat) : Fld := ⟨SPn_CMP_CFG n, 2, 2⟩
abbrev SPn_CMP_CFG_fire_if_passed (n : Nat) : Fld := ⟨SPn_CMP_CFG n, 1, 1⟩
abbrev SPn_CMP_CFG_armed (n : Nat) : Fld := ⟨SPn_CMP_CFG n, 0, 0⟩
/-- SPn_CMP_TIME (R323, 09). -/
abbrev SPn_CMP_TIME (n : Nat) : Nat := 0x40034134 + 0x100 * n
abbrev SPn_CMP_TIME_stamp (n : Nat) : Fld := ⟨SPn_CMP_TIME n, 31, 0⟩
/-- SPn_V_MAX (R323, 09). -/
abbrev SPn_V_MAX (n : Nat) : Nat := 0x40034138 + 0x100 * n
abbrev SPn_V_MAX_counts_s (n : Nat) : Fld := ⟨SPn_V_MAX n, 23, 0⟩
/-- SPn_ACCEL (R323, 09). -/
abbrev SPn_ACCEL (n : Nat) : Nat := 0x4003413C + 0x100 * n
abbrev SPn_ACCEL_fs_s2 (n : Nat) : Fld := ⟨SPn_ACCEL n, 31, 0⟩
/-- SPn_DECEL (R323, 09). -/
abbrev SPn_DECEL (n : Nat) : Nat := 0x40034140 + 0x100 * n
abbrev SPn_DECEL_fs_s2 (n : Nat) : Fld := ⟨SPn_DECEL n, 31, 0⟩
/-- SPn_JERK (R323, 09). -/
abbrev SPn_JERK (n : Nat) : Nat := 0x40034144 + 0x100 * n
abbrev SPn_JERK_fs_s3 (n : Nat) : Fld := ⟨SPn_JERK n, 31, 0⟩
/-- SPn_V_HOME (R323, 09). -/
abbrev SPn_V_HOME (n : Nat) : Nat := 0x40034148 + 0x100 * n
abbrev SPn_V_HOME_counts_s (n : Nat) : Fld := ⟨SPn_V_HOME n, 23, 0⟩
/-- SPn_STRIDE_MIN (R323, 09). -/
abbrev SPn_STRIDE_MIN (n : Nat) : Nat := 0x4003414C + 0x100 * n
abbrev SPn_STRIDE_MIN_ns (n : Nat) : Fld := ⟨SPn_STRIDE_MIN n, 31, 0⟩
/-- SPn_SPEED (R323, 09). -/
abbrev SPn_SPEED (n : Nat) : Nat := 0x40034150 + 0x100 * n
abbrev SPn_SPEED_counts_s (n : Nat) : Fld := ⟨SPn_SPEED n, 23, 0⟩
/-- SPn_STRIDE (R323, 09). -/
abbrev SPn_STRIDE (n : Nat) : Nat := 0x40034154 + 0x100 * n
abbrev SPn_STRIDE_ns (n : Nat) : Fld := ⟨SPn_STRIDE n, 31, 0⟩
/-- SPn_I_LIMITS (R323, 09). -/
abbrev SPn_I_LIMITS (n : Nat) : Nat := 0x40034158 + 0x100 * n
abbrev SPn_I_LIMITS_i_ceil (n : Nat) : Fld := ⟨SPn_I_LIMITS n, 31, 16⟩
abbrev SPn_I_LIMITS_i_hold (n : Nat) : Fld := ⟨SPn_I_LIMITS n, 15, 0⟩
/-- SPn_CUR_ENV (R323, 09). -/
abbrev SPn_CUR_ENV (n : Nat) : Nat := 0x4003415C + 0x100 * n
abbrev SPn_CUR_ENV_cur_hi (n : Nat) : Fld := ⟨SPn_CUR_ENV n, 31, 16⟩
abbrev SPn_CUR_ENV_cur_lo (n : Nat) : Fld := ⟨SPn_CUR_ENV n, 15, 0⟩
/-- SPn_CUR (R323, 09). -/
abbrev SPn_CUR (n : Nat) : Nat := 0x40034160 + 0x100 * n
abbrev SPn_CUR_i_now (n : Nat) : Fld := ⟨SPn_CUR n, 31, 16⟩
abbrev SPn_CUR_i_run (n : Nat) : Fld := ⟨SPn_CUR n, 15, 0⟩
/-- SPn_LOAD_CFG (R323, 09). -/
abbrev SPn_LOAD_CFG (n : Nat) : Nat := 0x40034164 + 0x100 * n
abbrev SPn_LOAD_CFG_lv_hi (n : Nat) : Fld := ⟨SPn_LOAD_CFG n, 29, 20⟩
abbrev SPn_LOAD_CFG_lv_lo (n : Nat) : Fld := ⟨SPn_LOAD_CFG n, 19, 10⟩
abbrev SPn_LOAD_CFG_stall_thr (n : Nat) : Fld := ⟨SPn_LOAD_CFG n, 9, 0⟩
/-- SPn_LOAD (R323, 09). -/
abbrev SPn_LOAD (n : Nat) : Nat := 0x40034168 + 0x100 * n
abbrev SPn_LOAD_lv (n : Nat) : Fld := ⟨SPn_LOAD n, 9, 0⟩
/-- SPn_V_SG (R323, 09). -/
abbrev SPn_V_SG (n : Nat) : Nat := 0x4003416C + 0x100 * n
abbrev SPn_V_SG_counts_s (n : Nat) : Fld := ⟨SPn_V_SG n, 23, 0⟩
/-- SPn_HOME_CFG (R323, 09). -/
abbrev SPn_HOME_CFG (n : Nat) : Nat := 0x40034170 + 0x100 * n
abbrev SPn_HOME_CFG_d_win (n : Nat) : Fld := ⟨SPn_HOME_CFG n, 31, 24⟩
abbrev SPn_HOME_CFG_target_in (n : Nat) : Fld := ⟨SPn_HOME_CFG n, 23, 19⟩
abbrev SPn_HOME_CFG_neg_in (n : Nat) : Fld := ⟨SPn_HOME_CFG n, 18, 14⟩
abbrev SPn_HOME_CFG_pos_in (n : Nat) : Fld := ⟨SPn_HOME_CFG n, 13, 9⟩
abbrev SPn_HOME_CFG_home_dir (n : Nat) : Fld := ⟨SPn_HOME_CFG n, 8, 8⟩
/-- SPn_HOME_MAX (R323, 09). -/
abbrev SPn_HOME_MAX (n : Nat) : Nat := 0x40034174 + 0x100 * n
abbrev SPn_HOME_MAX_counts (n : Nat) : Fld := ⟨SPn_HOME_MAX n, 31, 0⟩
/-- SPn_HOME_POS (R323, 09, a _LO/_HI pair). -/
abbrev SPn_HOME_POS (n : Nat) : Nat := 0x40034178 + 0x100 * n
/-- SPn_HOME_STAT (R323, 09). -/
abbrev SPn_HOME_STAT (n : Nat) : Nat := 0x40034180 + 0x100 * n
abbrev SPn_HOME_STAT_chatter (n : Nat) : Fld := ⟨SPn_HOME_STAT n, 31, 16⟩
abbrev SPn_HOME_STAT_state (n : Nat) : Fld := ⟨SPn_HOME_STAT n, 2, 0⟩
/-- SPn_CONFLICT (R323, 09). -/
abbrev SPn_CONFLICT (n : Nat) : Nat := 0x40034184 + 0x100 * n
abbrev SPn_CONFLICT_count (n : Nat) : Fld := ⟨SPn_CONFLICT n, 31, 0⟩
/-- SPn_FAULT (R323, 09). -/
abbrev SPn_FAULT (n : Nat) : Nat := 0x40034188 + 0x100 * n
abbrev SPn_FAULT_valid (n : Nat) : Fld := ⟨SPn_FAULT n, 31, 31⟩
abbrev SPn_FAULT_kind (n : Nat) : Fld := ⟨SPn_FAULT n, 2, 0⟩
/-- SPn_FAULT_TIME (R323, 09). -/
abbrev SPn_FAULT_TIME (n : Nat) : Nat := 0x4003418C + 0x100 * n
abbrev SPn_FAULT_TIME_stamp (n : Nat) : Fld := ⟨SPn_FAULT_TIME n, 31, 0⟩
/-- SPn_SPOOL_SCALE (R323, 09). -/
abbrev SPn_SPOOL_SCALE (n : Nat) : Nat := 0x40034190 + 0x100 * n
abbrev SPn_SPOOL_SCALE_counts_m (n : Nat) : Fld := ⟨SPn_SPOOL_SCALE n, 31, 0⟩
/-- SPn_SPOOL_CENTRE (R323, 09, a _LO/_HI pair). -/
abbrev SPn_SPOOL_CENTRE (n : Nat) : Nat := 0x40034198 + 0x100 * n
/-- AF_STATUS (R343, 10). -/
abbrev AF_STATUS : Nat := 0x40038000
abbrev AF_STATUS_sa_fault : Fld := ⟨AF_STATUS, 9, 8⟩
abbrev AF_STATUS_valid : Fld := ⟨AF_STATUS, 5, 4⟩
abbrev AF_STATUS_started : Fld := ⟨AF_STATUS, 1, 0⟩
/-- AF_FLAGS (R343, 10). -/
abbrev AF_FLAGS : Nat := 0x40038004
abbrev AF_FLAGS_mode_change (n : Nat) : Fld := ⟨0x40038004, 8 * n + 7, 8 * n + 7⟩
abbrev AF_FLAGS_disagree (n : Nat) : Fld := ⟨0x40038004, 8 * n + 6, 8 * n + 6⟩
abbrev AF_FLAGS_sa_fault (n : Nat) : Fld := ⟨0x40038004, 8 * n + 5, 8 * n + 5⟩
abbrev AF_FLAGS_quality (n : Nat) : Fld := ⟨0x40038004, 8 * n + 4, 8 * n + 4⟩
abbrev AF_FLAGS_track (n : Nat) : Fld := ⟨0x40038004, 8 * n + 3, 8 * n + 3⟩
abbrev AF_FLAGS_range (n : Nat) : Fld := ⟨0x40038004, 8 * n + 2, 8 * n + 2⟩
abbrev AF_FLAGS_amp_high (n : Nat) : Fld := ⟨0x40038004, 8 * n + 1, 8 * n + 1⟩
abbrev AF_FLAGS_amp_low (n : Nat) : Fld := ⟨0x40038004, 8 * n + 0, 8 * n + 0⟩
/-- AF_FLAG_EN (R343, 10). -/
abbrev AF_FLAG_EN : Nat := 0x40038008
abbrev AF_FLAG_EN_mode_change (n : Nat) : Fld := ⟨0x40038008, 8 * n + 7, 8 * n + 7⟩
abbrev AF_FLAG_EN_disagree (n : Nat) : Fld := ⟨0x40038008, 8 * n + 6, 8 * n + 6⟩
abbrev AF_FLAG_EN_sa_fault (n : Nat) : Fld := ⟨0x40038008, 8 * n + 5, 8 * n + 5⟩
abbrev AF_FLAG_EN_quality (n : Nat) : Fld := ⟨0x40038008, 8 * n + 4, 8 * n + 4⟩
abbrev AF_FLAG_EN_track (n : Nat) : Fld := ⟨0x40038008, 8 * n + 3, 8 * n + 3⟩
abbrev AF_FLAG_EN_range (n : Nat) : Fld := ⟨0x40038008, 8 * n + 2, 8 * n + 2⟩
abbrev AF_FLAG_EN_amp_high (n : Nat) : Fld := ⟨0x40038008, 8 * n + 1, 8 * n + 1⟩
abbrev AF_FLAG_EN_amp_low (n : Nat) : Fld := ⟨0x40038008, 8 * n + 0, 8 * n + 0⟩
/-- AF_EVT_SEL (R343, 10). -/
abbrev AF_EVT_SEL : Nat := 0x4003800C
abbrev AF_EVT_SEL_index : Fld := ⟨AF_EVT_SEL, 3, 0⟩
/-- AF_EVT_CNT (R343, 10). -/
abbrev AF_EVT_CNT : Nat := 0x40038010
abbrev AF_EVT_CNT_count : Fld := ⟨AF_EVT_CNT, 31, 0⟩
/-- AFn_CFG (R343, 10). -/
abbrev AFn_CFG (n : Nat) : Nat := 0x40038100 + 0x80 * n
abbrev AFn_CFG_ppr (n : Nat) : Fld := ⟨AFn_CFG n, 26, 16⟩
abbrev AFn_CFG_bin_log2 (n : Nat) : Fld := ⟨AFn_CFG n, 15, 12⟩
abbrev AFn_CFG_start_mode (n : Nat) : Fld := ⟨AFn_CFG n, 7, 6⟩
abbrev AFn_CFG_supply (n : Nat) : Fld := ⟨AFn_CFG n, 5, 5⟩
abbrev AFn_CFG_term (n : Nat) : Fld := ⟨AFn_CFG n, 4, 4⟩
abbrev AFn_CFG_dir_inv (n : Nat) : Fld := ⟨AFn_CFG n, 3, 3⟩
abbrev AFn_CFG_mode (n : Nat) : Fld := ⟨AFn_CFG n, 1, 0⟩
/-- AFn_STATUS (R343, 10). -/
abbrev AFn_STATUS (n : Nat) : Nat := 0x40038104 + 0x80 * n
abbrev AFn_STATUS_direction (n : Nat) : Fld := ⟨AFn_STATUS n, 8, 8⟩
abbrev AFn_STATUS_quality (n : Nat) : Fld := ⟨AFn_STATUS n, 7, 7⟩
abbrev AFn_STATUS_disagree (n : Nat) : Fld := ⟨AFn_STATUS n, 6, 6⟩
abbrev AFn_STATUS_substituted (n : Nat) : Fld := ⟨AFn_STATUS n, 5, 5⟩
abbrev AFn_STATUS_sa_fault (n : Nat) : Fld := ⟨AFn_STATUS n, 4, 4⟩
abbrev AFn_STATUS_coasting (n : Nat) : Fld := ⟨AFn_STATUS n, 3, 3⟩
abbrev AFn_STATUS_method (n : Nat) : Fld := ⟨AFn_STATUS n, 2, 2⟩
abbrev AFn_STATUS_valid (n : Nat) : Fld := ⟨AFn_STATUS n, 1, 1⟩
abbrev AFn_STATUS_started (n : Nat) : Fld := ⟨AFn_STATUS n, 0, 0⟩
/-- AFn_CAL_OFS (R343, 10). -/
abbrev AFn_CAL_OFS (n : Nat) : Nat := 0x40038108 + 0x80 * n
abbrev AFn_CAL_OFS_ofs_s (n : Nat) : Fld := ⟨AFn_CAL_OFS n, 31, 16⟩
abbrev AFn_CAL_OFS_ofs_c (n : Nat) : Fld := ⟨AFn_CAL_OFS n, 15, 0⟩
/-- AFn_CAL_GP (R343, 10). -/
abbrev AFn_CAL_GP (n : Nat) : Nat := 0x4003810C + 0x80 * n
abbrev AFn_CAL_GP_g_c (n : Nat) : Fld := ⟨AFn_CAL_GP n, 31, 16⟩
abbrev AFn_CAL_GP_k_ph (n : Nat) : Fld := ⟨AFn_CAL_GP n, 15, 0⟩
/-- AFn_CAL_ZERO (R343, 10). -/
abbrev AFn_CAL_ZERO (n : Nat) : Nat := 0x40038110 + 0x80 * n
abbrev AFn_CAL_ZERO_zero_phase (n : Nat) : Fld := ⟨AFn_CAL_ZERO n, 11, 0⟩
/-- AFn_MON_CFG (R343, 10). -/
abbrev AFn_MON_CFG (n : Nat) : Nat := 0x40038114 + 0x80 * n
abbrev AFn_MON_CFG_q_max (n : Nat) : Fld := ⟨AFn_MON_CFG n, 31, 26⟩
abbrev AFn_MON_CFG_n_q (n : Nat) : Fld := ⟨AFn_MON_CFG n, 25, 18⟩
abbrev AFn_MON_CFG_amp_hi (n : Nat) : Fld := ⟨AFn_MON_CFG n, 17, 9⟩
abbrev AFn_MON_CFG_amp_lo (n : Nat) : Fld := ⟨AFn_MON_CFG n, 8, 0⟩
/-- AFn_NOMINAL (R343, 10). -/
abbrev AFn_NOMINAL (n : Nat) : Nat := 0x40038118 + 0x80 * n
abbrev AFn_NOMINAL_a_nom (n : Nat) : Fld := ⟨AFn_NOMINAL n, 15, 0⟩
/-- AFn_FAULT_CFG (R343, 10). -/
abbrev AFn_FAULT_CFG (n : Nat) : Nat := 0x4003811C + 0x80 * n
abbrev AFn_FAULT_CFG_fault_us (n : Nat) : Fld := ⟨AFn_FAULT_CFG n, 15, 0⟩
/-- AFn_POS (R343, 10, a _LO/_HI pair). -/
abbrev AFn_POS (n : Nat) : Nat := 0x40038120 + 0x80 * n
/-- AFn_POS_HEAT (R343, 10, a _LO/_HI pair). -/
abbrev AFn_POS_HEAT (n : Nat) : Nat := 0x40038128 + 0x80 * n
/-- AFn_ANGLE (R343, 10). -/
abbrev AFn_ANGLE (n : Nat) : Nat := 0x40038130 + 0x80 * n
abbrev AFn_ANGLE_turn32 (n : Nat) : Fld := ⟨AFn_ANGLE n, 31, 0⟩
/-- AFn_SPEED_CPS (R343, 10). -/
abbrev AFn_SPEED_CPS (n : Nat) : Nat := 0x40038134 + 0x80 * n
abbrev AFn_SPEED_CPS_counts_s (n : Nat) : Fld := ⟨AFn_SPEED_CPS n, 31, 0⟩
/-- AFn_ANGLE_RAD (R343, 10, a _LO/_HI pair). -/
abbrev AFn_ANGLE_RAD (n : Nat) : Nat := 0x40038138 + 0x80 * n
/-- AFn_SPEED_RAD (R343, 10, a _LO/_HI pair). -/
abbrev AFn_SPEED_RAD (n : Nat) : Nat := 0x40038140 + 0x80 * n
/-- AFn_REF_GAIN (R343, 10, a _LO/_HI pair). -/
abbrev AFn_REF_GAIN (n : Nat) : Nat := 0x40038148 + 0x80 * n
/-- AFn_SW_LO (R343, 10). -/
abbrev AFn_SW_LO (n : Nat) : Nat := 0x40038150 + 0x80 * n
abbrev AFn_SW_LO_counts_s (n : Nat) : Fld := ⟨AFn_SW_LO n, 31, 0⟩
/-- AFn_SW_HI (R343, 10). -/
abbrev AFn_SW_HI (n : Nat) : Nat := 0x40038154 + 0x80 * n
abbrev AFn_SW_HI_counts_s (n : Nat) : Fld := ⟨AFn_SW_HI n, 31, 0⟩
/-- AFn_ZERO_TIME (R343, 10). -/
abbrev AFn_ZERO_TIME (n : Nat) : Nat := 0x40038158 + 0x80 * n
abbrev AFn_ZERO_TIME_ns (n : Nat) : Fld := ⟨AFn_ZERO_TIME n, 31, 0⟩
/-- AFn_PLAUS_TOL (R343, 10). -/
abbrev AFn_PLAUS_TOL (n : Nat) : Nat := 0x4003815C + 0x80 * n
abbrev AFn_PLAUS_TOL_counts (n : Nat) : Fld := ⟨AFn_PLAUS_TOL n, 15, 0⟩
/-- AFn_RAW (R343, 10). -/
abbrev AFn_RAW (n : Nat) : Nat := 0x40038160 + 0x80 * n
abbrev AFn_RAW_sin (n : Nat) : Fld := ⟨AFn_RAW n, 31, 16⟩
abbrev AFn_RAW_cos (n : Nat) : Fld := ⟨AFn_RAW n, 15, 0⟩
/-- AFn_AMP (R343, 10). -/
abbrev AFn_AMP (n : Nat) : Nat := 0x40038164 + 0x80 * n
abbrev AFn_AMP_r_pp (n : Nat) : Fld := ⟨AFn_AMP n, 27, 16⟩
abbrev AFn_AMP_r (n : Nat) : Fld := ⟨AFn_AMP n, 11, 0⟩
/-- AFn_DISAGREE (R343, 10). -/
abbrev AFn_DISAGREE (n : Nat) : Nat := 0x40038168 + 0x80 * n
abbrev AFn_DISAGREE_diff (n : Nat) : Fld := ⟨AFn_DISAGREE n, 31, 16⟩
abbrev AFn_DISAGREE_lanes (n : Nat) : Fld := ⟨AFn_DISAGREE n, 10, 8⟩
abbrev AFn_DISAGREE_heats (n : Nat) : Fld := ⟨AFn_DISAGREE n, 1, 0⟩
/-- AFn_FAULT (R343, 10). -/
abbrev AFn_FAULT (n : Nat) : Nat := 0x4003816C + 0x80 * n
abbrev AFn_FAULT_valid (n : Nat) : Fld := ⟨AFn_FAULT n, 31, 31⟩
abbrev AFn_FAULT_kind (n : Nat) : Fld := ⟨AFn_FAULT n, 2, 0⟩
/-- AFn_FAULT_TIME (R343, 10). -/
abbrev AFn_FAULT_TIME (n : Nat) : Nat := 0x40038170 + 0x80 * n
abbrev AFn_FAULT_TIME_stamp (n : Nat) : Fld := ⟨AFn_FAULT_TIME n, 31, 0⟩
/-- AFn_INVALID (R343, 10). -/
abbrev AFn_INVALID (n : Nat) : Nat := 0x40038174 + 0x80 * n
abbrev AFn_INVALID_count (n : Nat) : Fld := ⟨AFn_INVALID n, 31, 0⟩
/-- SI_STATUS (R369, 11). -/
abbrev SI_STATUS : Nat := 0x4003C000
abbrev SI_STATUS_sup_ok : Fld := ⟨SI_STATUS, 25, 24⟩
abbrev SI_STATUS_ai_valid : Fld := ⟨SI_STATUS, 23, 16⟩
abbrev SI_STATUS_do_fault : Fld := ⟨SI_STATUS, 15, 8⟩
abbrev SI_STATUS_sp_fault : Fld := ⟨SI_STATUS, 7, 0⟩
/-- SI_FLAGS (R369, 11). -/
abbrev SI_FLAGS : Nat := 0x4003C004
abbrev SI_FLAGS_sup_latched : Fld := ⟨SI_FLAGS, 15, 15⟩
abbrev SI_FLAGS_sup_fault : Fld := ⟨SI_FLAGS, 14, 14⟩
abbrev SI_FLAGS_ai_disagree : Fld := ⟨SI_FLAGS, 13, 13⟩
abbrev SI_FLAGS_sp_fault : Fld := ⟨SI_FLAGS, 12, 12⟩
abbrev SI_FLAGS_ai_invalid : Fld := ⟨SI_FLAGS, 11, 11⟩
abbrev SI_FLAGS_do_overtemp : Fld := ⟨SI_FLAGS, 10, 10⟩
abbrev SI_FLAGS_do_open : Fld := ⟨SI_FLAGS, 9, 9⟩
abbrev SI_FLAGS_op_fail : Fld := ⟨SI_FLAGS, 8, 8⟩
abbrev SI_FLAGS_do_external : Fld := ⟨SI_FLAGS, 7, 7⟩
abbrev SI_FLAGS_do_stuck : Fld := ⟨SI_FLAGS, 6, 6⟩
abbrev SI_FLAGS_do_overcurrent : Fld := ⟨SI_FLAGS, 5, 5⟩
abbrev SI_FLAGS_tp_fault : Fld := ⟨SI_FLAGS, 4, 4⟩
abbrev SI_FLAGS_cross_short : Fld := ⟨SI_FLAGS, 3, 3⟩
abbrev SI_FLAGS_short_high : Fld := ⟨SI_FLAGS, 2, 2⟩
abbrev SI_FLAGS_discrepancy : Fld := ⟨SI_FLAGS, 1, 1⟩
abbrev SI_FLAGS_di_change : Fld := ⟨SI_FLAGS, 0, 0⟩
/-- SI_FLAG_EN (R369, 11). -/
abbrev SI_FLAG_EN : Nat := 0x4003C008
abbrev SI_FLAG_EN_sup_latched : Fld := ⟨SI_FLAG_EN, 15, 15⟩
abbrev SI_FLAG_EN_sup_fault : Fld := ⟨SI_FLAG_EN, 14, 14⟩
abbrev SI_FLAG_EN_ai_disagree : Fld := ⟨SI_FLAG_EN, 13, 13⟩
abbrev SI_FLAG_EN_sp_fault : Fld := ⟨SI_FLAG_EN, 12, 12⟩
abbrev SI_FLAG_EN_ai_invalid : Fld := ⟨SI_FLAG_EN, 11, 11⟩
abbrev SI_FLAG_EN_do_overtemp : Fld := ⟨SI_FLAG_EN, 10, 10⟩
abbrev SI_FLAG_EN_do_open : Fld := ⟨SI_FLAG_EN, 9, 9⟩
abbrev SI_FLAG_EN_op_fail : Fld := ⟨SI_FLAG_EN, 8, 8⟩
abbrev SI_FLAG_EN_do_external : Fld := ⟨SI_FLAG_EN, 7, 7⟩
abbrev SI_FLAG_EN_do_stuck : Fld := ⟨SI_FLAG_EN, 6, 6⟩
abbrev SI_FLAG_EN_do_overcurrent : Fld := ⟨SI_FLAG_EN, 5, 5⟩
abbrev SI_FLAG_EN_tp_fault : Fld := ⟨SI_FLAG_EN, 4, 4⟩
abbrev SI_FLAG_EN_cross_short : Fld := ⟨SI_FLAG_EN, 3, 3⟩
abbrev SI_FLAG_EN_short_high : Fld := ⟨SI_FLAG_EN, 2, 2⟩
abbrev SI_FLAG_EN_discrepancy : Fld := ⟨SI_FLAG_EN, 1, 1⟩
abbrev SI_FLAG_EN_di_change : Fld := ⟨SI_FLAG_EN, 0, 0⟩
/-- SI_EVT_SEL (R369, 11). -/
abbrev SI_EVT_SEL : Nat := 0x4003C00C
abbrev SI_EVT_SEL_index : Fld := ⟨SI_EVT_SEL, 3, 0⟩
/-- SI_EVT_CNT (R369, 11). -/
abbrev SI_EVT_CNT : Nat := 0x4003C010
abbrev SI_EVT_CNT_count : Fld := ⟨SI_EVT_CNT, 31, 0⟩
/-- SI_DI_STATE (R369, 11). -/
abbrev SI_DI_STATE : Nat := 0x4003C014
abbrev SI_DI_STATE_fault : Fld := ⟨SI_DI_STATE, 27, 16⟩
abbrev SI_DI_STATE_state : Fld := ⟨SI_DI_STATE, 11, 0⟩
/-- SI_DI_RAW (R369, 11). -/
abbrev SI_DI_RAW : Nat := 0x4003C018
abbrev SI_DI_RAW_contact2 : Fld := ⟨SI_DI_RAW, 27, 16⟩
abbrev SI_DI_RAW_contact1 : Fld := ⟨SI_DI_RAW, 11, 0⟩
/-- SI_TP_CFG (R369, 11). -/
abbrev SI_TP_CFG : Nat := 0x4003C01C
abbrev SI_TP_CFG_period_ms : Fld := ⟨SI_TP_CFG, 31, 16⟩
abbrev SI_TP_CFG_pulse_us : Fld := ⟨SI_TP_CFG, 15, 0⟩
/-- SI_TP_STAT (R369, 11). -/
abbrev SI_TP_STAT : Nat := 0x4003C020
abbrev SI_TP_STAT_pulsing : Fld := ⟨SI_TP_STAT, 3, 2⟩
abbrev SI_TP_STAT_fault : Fld := ⟨SI_TP_STAT, 1, 0⟩
/-- SI_DO_STATE (R369, 11). -/
abbrev SI_DO_STATE : Nat := 0x4003C024
abbrev SI_DO_STATE_pin : Fld := ⟨SI_DO_STATE, 23, 16⟩
abbrev SI_DO_STATE_switch : Fld := ⟨SI_DO_STATE, 15, 8⟩
abbrev SI_DO_STATE_cmd : Fld := ⟨SI_DO_STATE, 7, 0⟩
/-- SI_DO_SET (R369, 11). -/
abbrev SI_DO_SET : Nat := 0x4003C028
abbrev SI_DO_SET_out : Fld := ⟨SI_DO_SET, 7, 0⟩
/-- SI_OP_CFG (R369, 11). -/
abbrev SI_OP_CFG : Nat := 0x4003C02C
abbrev SI_OP_CFG_period_ms : Fld := ⟨SI_OP_CFG, 31, 16⟩
abbrev SI_OP_CFG_pulse_us : Fld := ⟨SI_OP_CFG, 15, 0⟩
/-- SI_SUP (R369, 11). -/
abbrev SI_SUP (n : Nat) : Nat := 0x4003C030 + 0x4 * n
abbrev SI_SUP_mv (n : Nat) : Fld := ⟨SI_SUP n, 31, 16⟩
abbrev SI_SUP_ma (n : Nat) : Fld := ⟨SI_SUP n, 15, 8⟩
abbrev SI_SUP_faults (n : Nat) : Fld := ⟨SI_SUP n, 5, 4⟩
abbrev SI_SUP_latched (n : Nat) : Fld := ⟨SI_SUP n, 3, 3⟩
abbrev SI_SUP_limit (n : Nat) : Fld := ⟨SI_SUP n, 2, 2⟩
abbrev SI_SUP_fault (n : Nat) : Fld := ⟨SI_SUP n, 1, 1⟩
abbrev SI_SUP_on (n : Nat) : Fld := ⟨SI_SUP n, 0, 0⟩
/-- SI_DIn_CFG (R369, 11). -/
abbrev SI_DIn_CFG (n : Nat) : Nat := 0x4003C100 + 0x10 * n
abbrev SI_DIn_CFG_t_disc (n : Nat) : Fld := ⟨SI_DIn_CFG n, 31, 24⟩
abbrev SI_DIn_CFG_t_filt (n : Nat) : Fld := ⟨SI_DIn_CFG n, 23, 16⟩
abbrev SI_DIn_CFG_fault_state (n : Nat) : Fld := ⟨SI_DIn_CFG n, 4, 4⟩
abbrev SI_DIn_CFG_tp_check (n : Nat) : Fld := ⟨SI_DIn_CFG n, 3, 3⟩
abbrev SI_DIn_CFG_mode (n : Nat) : Fld := ⟨SI_DIn_CFG n, 1, 0⟩
/-- SI_DIn_STAT (R369, 11). -/
abbrev SI_DIn_STAT (n : Nat) : Nat := 0x4003C104 + 0x10 * n
abbrev SI_DIn_STAT_fault (n : Nat) : Fld := ⟨SI_DIn_STAT n, 6, 4⟩
abbrev SI_DIn_STAT_wait_both (n : Nat) : Fld := ⟨SI_DIn_STAT n, 3, 3⟩
abbrev SI_DIn_STAT_mixed (n : Nat) : Fld := ⟨SI_DIn_STAT n, 2, 2⟩
abbrev SI_DIn_STAT_masked (n : Nat) : Fld := ⟨SI_DIn_STAT n, 1, 1⟩
abbrev SI_DIn_STAT_state (n : Nat) : Fld := ⟨SI_DIn_STAT n, 0, 0⟩
/-- SI_DIn_TIME (R369, 11). -/
abbrev SI_DIn_TIME (n : Nat) : Nat := 0x4003C108 + 0x10 * n
abbrev SI_DIn_TIME_stamp (n : Nat) : Fld := ⟨SI_DIn_TIME n, 31, 0⟩
/-- SI_DIn_FAULT_TIME (R369, 11). -/
abbrev SI_DIn_FAULT_TIME (n : Nat) : Nat := 0x4003C10C + 0x10 * n
abbrev SI_DIn_FAULT_TIME_stamp (n : Nat) : Fld := ⟨SI_DIn_FAULT_TIME n, 31, 0⟩
/-- SI_DOk_CFG (R369, 11). -/
abbrev SI_DOk_CFG (n : Nat) : Nat := 0x4003C200 + 0x10 * n
abbrev SI_DOk_CFG_open_chk (n : Nat) : Fld := ⟨SI_DOk_CFG n, 2, 2⟩
abbrev SI_DOk_CFG_role (n : Nat) : Fld := ⟨SI_DOk_CFG n, 1, 0⟩
/-- SI_DOk_STAT (R369, 11). -/
abbrev SI_DOk_STAT (n : Nat) : Nat := 0x4003C204 + 0x10 * n
abbrev SI_DOk_STAT_valid (n : Nat) : Fld := ⟨SI_DOk_STAT n, 31, 31⟩
abbrev SI_DOk_STAT_kind (n : Nat) : Fld := ⟨SI_DOk_STAT n, 7, 5⟩
abbrev SI_DOk_STAT_holding (n : Nat) : Fld := ⟨SI_DOk_STAT n, 4, 4⟩
abbrev SI_DOk_STAT_driving (n : Nat) : Fld := ⟨SI_DOk_STAT n, 3, 3⟩
abbrev SI_DOk_STAT_pin (n : Nat) : Fld := ⟨SI_DOk_STAT n, 2, 2⟩
abbrev SI_DOk_STAT_switch (n : Nat) : Fld := ⟨SI_DOk_STAT n, 1, 1⟩
abbrev SI_DOk_STAT_cmd (n : Nat) : Fld := ⟨SI_DOk_STAT n, 0, 0⟩
/-- SI_DOk_I (R369, 11). -/
abbrev SI_DOk_I (n : Nat) : Nat := 0x4003C208 + 0x10 * n
abbrev SI_DOk_I_ma (n : Nat) : Fld := ⟨SI_DOk_I n, 15, 0⟩
/-- SI_DOk_FAULT_TIME (R369, 11). -/
abbrev SI_DOk_FAULT_TIME (n : Nat) : Nat := 0x4003C20C + 0x10 * n
abbrev SI_DOk_FAULT_TIME_stamp (n : Nat) : Fld := ⟨SI_DOk_FAULT_TIME n, 31, 0⟩
/-- SI_AIm_CFG (R369, 11). -/
abbrev SI_AIm_CFG (n : Nat) : Nat := 0x4003C300 + 0x40 * n
abbrev SI_AIm_CFG_navg_m1 (n : Nat) : Fld := ⟨SI_AIm_CFG n, 15, 12⟩
abbrev SI_AIm_CFG_role (n : Nat) : Fld := ⟨SI_AIm_CFG n, 7, 5⟩
abbrev SI_AIm_CFG_supply (n : Nat) : Fld := ⟨SI_AIm_CFG n, 4, 4⟩
abbrev SI_AIm_CFG_mode (n : Nat) : Fld := ⟨SI_AIm_CFG n, 1, 0⟩
/-- SI_AIm_STAT (R369, 11). -/
abbrev SI_AIm_STAT (n : Nat) : Nat := 0x4003C304 + 0x40 * n
abbrev SI_AIm_STAT_kind (n : Nat) : Fld := ⟨SI_AIm_STAT n, 7, 5⟩
abbrev SI_AIm_STAT_substituted (n : Nat) : Fld := ⟨SI_AIm_STAT n, 4, 4⟩
abbrev SI_AIm_STAT_disagree (n : Nat) : Fld := ⟨SI_AIm_STAT n, 3, 3⟩
abbrev SI_AIm_STAT_sp_fault (n : Nat) : Fld := ⟨SI_AIm_STAT n, 2, 2⟩
abbrev SI_AIm_STAT_valid (n : Nat) : Fld := ⟨SI_AIm_STAT n, 1, 1⟩
abbrev SI_AIm_STAT_sample_ok (n : Nat) : Fld := ⟨SI_AIm_STAT n, 0, 0⟩
/-- SI_AIm_SIG (R369, 11, a _LO/_HI pair). -/
abbrev SI_AIm_SIG (n : Nat) : Nat := 0x4003C308 + 0x40 * n
/-- SI_AIm_VALUE (R369, 11, a _LO/_HI pair). -/
abbrev SI_AIm_VALUE (n : Nat) : Nat := 0x4003C310 + 0x40 * n
/-- SI_AIm_SCALE (R369, 11, a _LO/_HI pair). -/
abbrev SI_AIm_SCALE (n : Nat) : Nat := 0x4003C318 + 0x40 * n
/-- SI_AIm_OFFSET (R369, 11, a _LO/_HI pair). -/
abbrev SI_AIm_OFFSET (n : Nat) : Nat := 0x4003C320 + 0x40 * n
/-- SI_AIm_BAND (R369, 11). -/
abbrev SI_AIm_BAND (n : Nat) : Nat := 0x4003C328 + 0x40 * n
abbrev SI_AIm_BAND_hi (n : Nat) : Fld := ⟨SI_AIm_BAND n, 31, 16⟩
abbrev SI_AIm_BAND_lo (n : Nat) : Fld := ⟨SI_AIm_BAND n, 15, 0⟩
/-- SI_AIm_FAULT_CFG (R369, 11). -/
abbrev SI_AIm_FAULT_CFG (n : Nat) : Nat := 0x4003C32C + 0x40 * n
abbrev SI_AIm_FAULT_CFG_fault_us (n : Nat) : Fld := ⟨SI_AIm_FAULT_CFG n, 15, 0⟩
/-- SI_AIm_PLAUS_TOL (R369, 11, a _LO/_HI pair). -/
abbrev SI_AIm_PLAUS_TOL (n : Nat) : Nat := 0x4003C330 + 0x40 * n
/-- SI_AIm_FAULT_TIME (R369, 11). -/
abbrev SI_AIm_FAULT_TIME (n : Nat) : Nat := 0x4003C338 + 0x40 * n
abbrev SI_AIm_FAULT_TIME_stamp (n : Nat) : Fld := ⟨SI_AIm_FAULT_TIME n, 31, 0⟩
/-- SI_AIm_RAW (R369, 11). -/
abbrev SI_AIm_RAW (n : Nat) : Nat := 0x4003C33C + 0x40 * n
abbrev SI_AIm_RAW_code (n : Nat) : Fld := ⟨SI_AIm_RAW n, 15, 0⟩
/-- NX_STATUS (R408, 12). -/
abbrev NX_STATUS : Nat := 0x40040000
abbrev NX_STATUS_followed : Fld := ⟨NX_STATUS, 26, 16⟩
abbrev NX_STATUS_followed_rank : Fld := ⟨NX_STATUS, 13, 12⟩
abbrev NX_STATUS_master : Fld := ⟨NX_STATUS, 11, 11⟩
abbrev NX_STATUS_port_y_ok : Fld := ⟨NX_STATUS, 10, 10⟩
abbrev NX_STATUS_port_x_ok : Fld := ⟨NX_STATUS, 9, 9⟩
abbrev NX_STATUS_granted : Fld := ⟨NX_STATUS, 8, 8⟩
abbrev NX_STATUS_state : Fld := ⟨NX_STATUS, 2, 0⟩
/-- NX_FLAGS (R408, 12). -/
abbrev NX_FLAGS : Nat := 0x40040004
abbrev NX_FLAGS_stale_rx : Fld := ⟨NX_FLAGS, 14, 14⟩
abbrev NX_FLAGS_cycle_start : Fld := ⟨NX_FLAGS, 13, 13⟩
abbrev NX_FLAGS_released : Fld := ⟨NX_FLAGS, 12, 12⟩
abbrev NX_FLAGS_granted : Fld := ⟨NX_FLAGS, 11, 11⟩
abbrev NX_FLAGS_claim_sent : Fld := ⟨NX_FLAGS, 10, 10⟩
abbrev NX_FLAGS_port_lost : Fld := ⟨NX_FLAGS, 9, 9⟩
abbrev NX_FLAGS_timing_error : Fld := ⟨NX_FLAGS, 8, 8⟩
abbrev NX_FLAGS_invalid_frame : Fld := ⟨NX_FLAGS, 7, 7⟩
abbrev NX_FLAGS_image_mismatch : Fld := ⟨NX_FLAGS, 6, 6⟩
abbrev NX_FLAGS_false_start : Fld := ⟨NX_FLAGS, 5, 5⟩
abbrev NX_FLAGS_pacer_switch : Fld := ⟨NX_FLAGS, 4, 4⟩
abbrev NX_FLAGS_ch_skew : Fld := ⟨NX_FLAGS, 3, 3⟩
abbrev NX_FLAGS_rate_fault : Fld := ⟨NX_FLAGS, 2, 2⟩
abbrev NX_FLAGS_sync_lost : Fld := ⟨NX_FLAGS, 1, 1⟩
abbrev NX_FLAGS_state_change : Fld := ⟨NX_FLAGS, 0, 0⟩
/-- NX_FLAG_EN (R408, 12). -/
abbrev NX_FLAG_EN : Nat := 0x40040008
abbrev NX_FLAG_EN_stale_rx : Fld := ⟨NX_FLAG_EN, 14, 14⟩
abbrev NX_FLAG_EN_cycle_start : Fld := ⟨NX_FLAG_EN, 13, 13⟩
abbrev NX_FLAG_EN_released : Fld := ⟨NX_FLAG_EN, 12, 12⟩
abbrev NX_FLAG_EN_granted : Fld := ⟨NX_FLAG_EN, 11, 11⟩
abbrev NX_FLAG_EN_claim_sent : Fld := ⟨NX_FLAG_EN, 10, 10⟩
abbrev NX_FLAG_EN_port_lost : Fld := ⟨NX_FLAG_EN, 9, 9⟩
abbrev NX_FLAG_EN_timing_error : Fld := ⟨NX_FLAG_EN, 8, 8⟩
abbrev NX_FLAG_EN_invalid_frame : Fld := ⟨NX_FLAG_EN, 7, 7⟩
abbrev NX_FLAG_EN_image_mismatch : Fld := ⟨NX_FLAG_EN, 6, 6⟩
abbrev NX_FLAG_EN_false_start : Fld := ⟨NX_FLAG_EN, 5, 5⟩
abbrev NX_FLAG_EN_pacer_switch : Fld := ⟨NX_FLAG_EN, 4, 4⟩
abbrev NX_FLAG_EN_ch_skew : Fld := ⟨NX_FLAG_EN, 3, 3⟩
abbrev NX_FLAG_EN_rate_fault : Fld := ⟨NX_FLAG_EN, 2, 2⟩
abbrev NX_FLAG_EN_sync_lost : Fld := ⟨NX_FLAG_EN, 1, 1⟩
abbrev NX_FLAG_EN_state_change : Fld := ⟨NX_FLAG_EN, 0, 0⟩
/-- NX_EVT_SEL (R408, 12). -/
abbrev NX_EVT_SEL : Nat := 0x4004000C
abbrev NX_EVT_SEL_index : Fld := ⟨NX_EVT_SEL, 3, 0⟩
/-- NX_EVT_CNT (R408, 12). -/
abbrev NX_EVT_CNT : Nat := 0x40040010
abbrev NX_EVT_CNT_count : Fld := ⟨NX_EVT_CNT, 31, 0⟩
/-- NX_NODE (R408, 12). -/
abbrev NX_NODE : Nat := 0x40040014
abbrev NX_NODE_node_id : Fld := ⟨NX_NODE, 26, 16⟩
abbrev NX_NODE_claim_only : Fld := ⟨NX_NODE, 4, 4⟩
abbrev NX_NODE_coldstart : Fld := ⟨NX_NODE, 3, 3⟩
abbrev NX_NODE_pacer : Fld := ⟨NX_NODE, 2, 2⟩
abbrev NX_NODE_rank : Fld := ⟨NX_NODE, 1, 0⟩
/-- NX_CYCLE_LEN (R408, 12). -/
abbrev NX_CYCLE_LEN : Nat := 0x40040018
abbrev NX_CYCLE_LEN_ns : Fld := ⟨NX_CYCLE_LEN, 31, 0⟩
/-- NX_STATIC (R408, 12). -/
abbrev NX_STATIC : Nat := 0x4004001C
abbrev NX_STATIC_slots : Fld := ⟨NX_STATIC, 26, 16⟩
abbrev NX_STATIC_slot_ns : Fld := ⟨NX_STATIC, 15, 0⟩
/-- NX_DYNAMIC (R408, 12). -/
abbrev NX_DYNAMIC : Nat := 0x40040020
abbrev NX_DYNAMIC_minislots : Fld := ⟨NX_DYNAMIC, 27, 16⟩
abbrev NX_DYNAMIC_minislot_ns : Fld := ⟨NX_DYNAMIC, 15, 0⟩
/-- NX_SYMBOL (R408, 12). -/
abbrev NX_SYMBOL : Nat := 0x40040024
abbrev NX_SYMBOL_ns : Fld := ⟨NX_SYMBOL, 15, 0⟩
/-- NX_PRECISION (R408, 12). -/
abbrev NX_PRECISION : Nat := 0x40040028
abbrev NX_PRECISION_ns : Fld := ⟨NX_PRECISION, 15, 0⟩
/-- NX_CYCLE (R408, 12). -/
abbrev NX_CYCLE : Nat := 0x4004002C
abbrev NX_CYCLE_count : Fld := ⟨NX_CYCLE, 5, 0⟩
/-- NX_CYCLE_STAMP (R408, 12). -/
abbrev NX_CYCLE_STAMP : Nat := 0x40040030
abbrev NX_CYCLE_STAMP_stamp : Fld := ⟨NX_CYCLE_STAMP, 31, 0⟩
/-- NX_DEV (R408, 12). -/
abbrev NX_DEV : Nat := 0x40040034
abbrev NX_DEV_ns : Fld := ⟨NX_DEV, 31, 0⟩
/-- NX_RATE (R408, 12). -/
abbrev NX_RATE : Nat := 0x40040038
abbrev NX_RATE_ppb : Fld := ⟨NX_RATE, 31, 0⟩
/-- NX_RATE_LIM (R408, 12). -/
abbrev NX_RATE_LIM : Nat := 0x4004003C
abbrev NX_RATE_LIM_ppb : Fld := ⟨NX_RATE_LIM, 31, 0⟩
/-- NX_DCOMP_X01 (R408, 12). -/
abbrev NX_DCOMP_X01 : Nat := 0x40040040
abbrev NX_DCOMP_X01_rank1 : Fld := ⟨NX_DCOMP_X01, 31, 16⟩
abbrev NX_DCOMP_X01_rank0 : Fld := ⟨NX_DCOMP_X01, 15, 0⟩
/-- NX_DCOMP_X23 (R408, 12). -/
abbrev NX_DCOMP_X23 : Nat := 0x40040044
abbrev NX_DCOMP_X23_rank3 : Fld := ⟨NX_DCOMP_X23, 31, 16⟩
abbrev NX_DCOMP_X23_rank2 : Fld := ⟨NX_DCOMP_X23, 15, 0⟩
/-- NX_DCOMP_Y01 (R408, 12). -/
abbrev NX_DCOMP_Y01 : Nat := 0x40040048
abbrev NX_DCOMP_Y01_rank1 : Fld := ⟨NX_DCOMP_Y01, 31, 16⟩
abbrev NX_DCOMP_Y01_rank0 : Fld := ⟨NX_DCOMP_Y01, 15, 0⟩
/-- NX_DCOMP_Y23 (R408, 12). -/
abbrev NX_DCOMP_Y23 : Nat := 0x4004004C
abbrev NX_DCOMP_Y23_rank3 : Fld := ⟨NX_DCOMP_Y23, 31, 16⟩
abbrev NX_DCOMP_Y23_rank2 : Fld := ⟨NX_DCOMP_Y23, 15, 0⟩
/-- NX_ERR_X (R408, 12). -/
abbrev NX_ERR_X : Nat := 0x40040050
abbrev NX_ERR_X_invalid : Fld := ⟨NX_ERR_X, 31, 16⟩
abbrev NX_ERR_X_timing : Fld := ⟨NX_ERR_X, 15, 0⟩
/-- NX_ERR_Y (R408, 12). -/
abbrev NX_ERR_Y : Nat := 0x40040054
abbrev NX_ERR_Y_invalid : Fld := ⟨NX_ERR_Y, 31, 16⟩
abbrev NX_ERR_Y_timing : Fld := ⟨NX_ERR_Y, 15, 0⟩
/-- NX_COLL (R408, 12). -/
abbrev NX_COLL : Nat := 0x40040058
abbrev NX_COLL_coll_y : Fld := ⟨NX_COLL, 31, 16⟩
abbrev NX_COLL_coll_x : Fld := ⟨NX_COLL, 15, 0⟩
/-- NX_COLD (R408, 12). -/
abbrev NX_COLD : Nat := 0x4004005C
abbrev NX_COLD_false_starts : Fld := ⟨NX_COLD, 31, 16⟩
abbrev NX_COLD_attempts : Fld := ⟨NX_COLD, 15, 0⟩
/-- NX_CLAIM (R408, 12). -/
abbrev NX_CLAIM : Nat := 0x40040060
abbrev NX_CLAIM_slot : Fld := ⟨NX_CLAIM, 26, 16⟩
abbrev NX_CLAIM_state : Fld := ⟨NX_CLAIM, 1, 0⟩
/-- NX_CTRL (R408, 12). -/
abbrev NX_CTRL : Nat := 0x40040064
abbrev NX_CTRL_passive_req : Fld := ⟨NX_CTRL, 1, 1⟩
abbrev NX_CTRL_enable : Fld := ⟨NX_CTRL, 0, 0⟩
/-- NX_RELEASE (R408, 12). -/
abbrev NX_RELEASE : Nat := 0x40040068
abbrev NX_RELEASE_cycles : Fld := ⟨NX_RELEASE, 7, 0⟩
/-- NX_RXn_STAT (R408, 12). -/
abbrev NX_RXn_STAT (n : Nat) : Nat := 0x40040400 + 0x4 * n
abbrev NX_RXn_STAT_age (n : Nat) : Fld := ⟨NX_RXn_STAT n, 31, 24⟩
abbrev NX_RXn_STAT_seq (n : Nat) : Fld := ⟨NX_RXn_STAT n, 23, 16⟩
abbrev NX_RXn_STAT_null (n : Nat) : Fld := ⟨NX_RXn_STAT n, 3, 3⟩
abbrev NX_RXn_STAT_stale (n : Nat) : Fld := ⟨NX_RXn_STAT n, 2, 2⟩
abbrev NX_RXn_STAT_valid (n : Nat) : Fld := ⟨NX_RXn_STAT n, 1, 1⟩
abbrev NX_RXn_STAT_defined (n : Nat) : Fld := ⟨NX_RXn_STAT n, 0, 0⟩
/-- NX_RXn_CFG (R408, 12). -/
abbrev NX_RXn_CFG (n : Nat) : Nat := 0x40040480 + 0x4 * n
abbrev NX_RXn_CFG_frame_id (n : Nat) : Fld := ⟨NX_RXn_CFG n, 26, 16⟩
abbrev NX_RXn_CFG_length (n : Nat) : Fld := ⟨NX_RXn_CFG n, 7, 1⟩
abbrev NX_RXn_CFG_channel (n : Nat) : Fld := ⟨NX_RXn_CFG n, 0, 0⟩
/-- NX_RXn_TIME (R408, 12). -/
abbrev NX_RXn_TIME (n : Nat) : Nat := 0x40040500 + 0x4 * n
abbrev NX_RXn_TIME_stamp (n : Nat) : Fld := ⟨NX_RXn_TIME n, 31, 0⟩
/-- NX_TXn_CFG (R408, 12). -/
abbrev NX_TXn_CFG (n : Nat) : Nat := 0x40040580 + 0x4 * n
abbrev NX_TXn_CFG_frame_id (n : Nat) : Fld := ⟨NX_TXn_CFG n, 26, 16⟩
abbrev NX_TXn_CFG_source (n : Nat) : Fld := ⟨NX_TXn_CFG n, 9, 9⟩
abbrev NX_TXn_CFG_length (n : Nat) : Fld := ⟨NX_TXn_CFG n, 8, 2⟩
abbrev NX_TXn_CFG_ch_y (n : Nat) : Fld := ⟨NX_TXn_CFG n, 1, 1⟩
abbrev NX_TXn_CFG_ch_x (n : Nat) : Fld := ⟨NX_TXn_CFG n, 0, 0⟩
/-- NX_TXn_CTRL (R408, 12). -/
abbrev NX_TXn_CTRL (n : Nat) : Nat := 0x400405C0 + 0x4 * n
abbrev NX_TXn_CTRL_fresh (n : Nat) : Fld := ⟨NX_TXn_CTRL n, 2, 2⟩
abbrev NX_TXn_CTRL_ever (n : Nat) : Fld := ⟨NX_TXn_CTRL n, 1, 1⟩
abbrev NX_TXn_CTRL_commit (n : Nat) : Fld := ⟨NX_TXn_CTRL n, 0, 0⟩
/-- MS_STATUS (R409, 12). -/
abbrev MS_STATUS : Nat := 0x40048000
abbrev MS_STATUS_followed : Fld := ⟨MS_STATUS, 26, 16⟩
abbrev MS_STATUS_tables_valid : Fld := ⟨MS_STATUS, 7, 7⟩
abbrev MS_STATUS_channel : Fld := ⟨MS_STATUS, 6, 6⟩
abbrev MS_STATUS_state : Fld := ⟨MS_STATUS, 1, 0⟩
/-- MS_FLAGS (R409, 12). -/
abbrev MS_FLAGS : Nat := 0x40048004
abbrev MS_FLAGS_mgmt_lost : Fld := ⟨MS_FLAGS, 9, 9⟩
abbrev MS_FLAGS_pacer_switch : Fld := ⟨MS_FLAGS, 8, 8⟩
abbrev MS_FLAGS_table_refused : Fld := ⟨MS_FLAGS, 7, 7⟩
abbrev MS_FLAGS_table_loaded : Fld := ⟨MS_FLAGS, 6, 6⟩
abbrev MS_FLAGS_collision : Fld := ⟨MS_FLAGS, 5, 5⟩
abbrev MS_FLAGS_perm_disq : Fld := ⟨MS_FLAGS, 4, 4⟩
abbrev MS_FLAGS_requalified : Fld := ⟨MS_FLAGS, 3, 3⟩
abbrev MS_FLAGS_disqualified : Fld := ⟨MS_FLAGS, 2, 2⟩
abbrev MS_FLAGS_violation : Fld := ⟨MS_FLAGS, 1, 1⟩
abbrev MS_FLAGS_state_change : Fld := ⟨MS_FLAGS, 0, 0⟩
/-- MS_FLAG_EN (R409, 12). -/
abbrev MS_FLAG_EN : Nat := 0x40048008
abbrev MS_FLAG_EN_mgmt_lost : Fld := ⟨MS_FLAG_EN, 9, 9⟩
abbrev MS_FLAG_EN_pacer_switch : Fld := ⟨MS_FLAG_EN, 8, 8⟩
abbrev MS_FLAG_EN_table_refused : Fld := ⟨MS_FLAG_EN, 7, 7⟩
abbrev MS_FLAG_EN_table_loaded : Fld := ⟨MS_FLAG_EN, 6, 6⟩
abbrev MS_FLAG_EN_collision : Fld := ⟨MS_FLAG_EN, 5, 5⟩
abbrev MS_FLAG_EN_perm_disq : Fld := ⟨MS_FLAG_EN, 4, 4⟩
abbrev MS_FLAG_EN_requalified : Fld := ⟨MS_FLAG_EN, 3, 3⟩
abbrev MS_FLAG_EN_disqualified : Fld := ⟨MS_FLAG_EN, 2, 2⟩
abbrev MS_FLAG_EN_violation : Fld := ⟨MS_FLAG_EN, 1, 1⟩
abbrev MS_FLAG_EN_state_change : Fld := ⟨MS_FLAG_EN, 0, 0⟩
/-- MS_EVT_SEL (R409, 12). -/
abbrev MS_EVT_SEL : Nat := 0x4004800C
abbrev MS_EVT_SEL_index : Fld := ⟨MS_EVT_SEL, 3, 0⟩
/-- MS_EVT_CNT (R409, 12). -/
abbrev MS_EVT_CNT : Nat := 0x40048010
abbrev MS_EVT_CNT_count : Fld := ⟨MS_EVT_CNT, 31, 0⟩
/-- MS_TABLE_ID0 (R409, 12). -/
abbrev MS_TABLE_ID0 : Nat := 0x40048014
abbrev MS_TABLE_ID0_id_lo : Fld := ⟨MS_TABLE_ID0, 31, 0⟩
/-- MS_TABLE_ID1 (R409, 12). -/
abbrev MS_TABLE_ID1 : Nat := 0x40048018
abbrev MS_TABLE_ID1_id_hi : Fld := ⟨MS_TABLE_ID1, 31, 0⟩
/-- MS_CFG (R409, 12). -/
abbrev MS_CFG : Nat := 0x4004801C
abbrev MS_CFG_disq_limit : Fld := ⟨MS_CFG, 31, 24⟩
abbrev MS_CFG_disq_cycles : Fld := ⟨MS_CFG, 23, 8⟩
abbrev MS_CFG_level : Fld := ⟨MS_CFG, 3, 2⟩
/-- MS_DEV (R409, 12). -/
abbrev MS_DEV : Nat := 0x40048020
abbrev MS_DEV_ns : Fld := ⟨MS_DEV, 31, 0⟩
/-- MS_BR_ACT (R409, 12). -/
abbrev MS_BR_ACT : Nat := 0x40048024
abbrev MS_BR_ACT_coldstart : Fld := ⟨MS_BR_ACT, 31, 16⟩
abbrev MS_BR_ACT_active : Fld := ⟨MS_BR_ACT, 15, 0⟩
/-- MS_BR_DISQ (R409, 12). -/
abbrev MS_BR_DISQ : Nat := 0x40048028
abbrev MS_BR_DISQ_permanent : Fld := ⟨MS_BR_DISQ, 31, 16⟩
abbrev MS_BR_DISQ_disqualified : Fld := ⟨MS_BR_DISQ, 15, 0⟩
/-- MS_REQUAL (R409, 12). -/
abbrev MS_REQUAL : Nat := 0x4004802C
abbrev MS_REQUAL_branches : Fld := ⟨MS_REQUAL, 15, 0⟩
/-- MS_TABLE (R409, 12). -/
abbrev MS_TABLE : Nat := 0x40048030
abbrev MS_TABLE_refused : Fld := ⟨MS_TABLE, 31, 16⟩
abbrev MS_TABLE_offer_b : Fld := ⟨MS_TABLE, 1, 1⟩
abbrev MS_TABLE_offer_a : Fld := ⟨MS_TABLE, 0, 0⟩
/-- MS_BRb_CFG (R409, 12). -/
abbrev MS_BRb_CFG (n : Nat) : Nat := 0x40048100 + 0x10 * n
abbrev MS_BRb_CFG_delay_ns (n : Nat) : Fld := ⟨MS_BRb_CFG n, 31, 16⟩
abbrev MS_BRb_CFG_lane_port (n : Nat) : Fld := ⟨MS_BRb_CFG n, 3, 3⟩
abbrev MS_BRb_CFG_lane (n : Nat) : Fld := ⟨MS_BRb_CFG n, 2, 1⟩
abbrev MS_BRb_CFG_coldstart (n : Nat) : Fld := ⟨MS_BRb_CFG n, 0, 0⟩
/-- MS_BRb_VIOL (R409, 12). -/
abbrev MS_BRb_VIOL (n : Nat) : Nat := 0x40048104 + 0x10 * n
abbrev MS_BRb_VIOL_count (n : Nat) : Fld := ⟨MS_BRb_VIOL n, 31, 0⟩
/-- MS_BRb_STAT (R409, 12). -/
abbrev MS_BRb_STAT (n : Nat) : Nat := 0x40048108 + 0x10 * n
abbrev MS_BRb_STAT_level (n : Nat) : Fld := ⟨MS_BRb_STAT n, 31, 24⟩
abbrev MS_BRb_STAT_disq_count (n : Nat) : Fld := ⟨MS_BRb_STAT n, 23, 16⟩
abbrev MS_BRb_STAT_last_kind (n : Nat) : Fld := ⟨MS_BRb_STAT n, 10, 8⟩
abbrev MS_BRb_STAT_permanent (n : Nat) : Fld := ⟨MS_BRb_STAT n, 1, 1⟩
abbrev MS_BRb_STAT_disqualified (n : Nat) : Fld := ⟨MS_BRb_STAT n, 0, 0⟩
/-- MS_BRb_TIME (R409, 12). -/
abbrev MS_BRb_TIME (n : Nat) : Nat := 0x4004810C + 0x10 * n
abbrev MS_BRb_TIME_stamp (n : Nat) : Fld := ⟨MS_BRb_TIME n, 31, 0⟩
/-- TM_STATUS (R427, 13). -/
abbrev TM_STATUS : Nat := 0x40050000
abbrev TM_STATUS_armed : Fld := ⟨TM_STATUS, 22, 16⟩
abbrev TM_STATUS_set : Fld := ⟨TM_STATUS, 3, 3⟩
abbrev TM_STATUS_slewing : Fld := ⟨TM_STATUS, 2, 2⟩
abbrev TM_STATUS_corrected : Fld := ⟨TM_STATUS, 1, 1⟩
abbrev TM_STATUS_synced : Fld := ⟨TM_STATUS, 0, 0⟩
/-- TM_FLAGS (R427, 13). -/
abbrev TM_FLAGS : Nat := 0x40050004
abbrev TM_FLAGS_act_ignored : Fld := ⟨TM_FLAGS, 9, 9⟩
abbrev TM_FLAGS_watch_timeout : Fld := ⟨TM_FLAGS, 8, 8⟩
abbrev TM_FLAGS_watch_met : Fld := ⟨TM_FLAGS, 7, 7⟩
abbrev TM_FLAGS_act_skip : Fld := ⟨TM_FLAGS, 6, 6⟩
abbrev TM_FLAGS_act_late : Fld := ⟨TM_FLAGS, 5, 5⟩
abbrev TM_FLAGS_act_due : Fld := ⟨TM_FLAGS, 4, 4⟩
abbrev TM_FLAGS_time_set : Fld := ⟨TM_FLAGS, 3, 3⟩
abbrev TM_FLAGS_jump_persist : Fld := ⟨TM_FLAGS, 2, 2⟩
abbrev TM_FLAGS_jump_refused : Fld := ⟨TM_FLAGS, 1, 1⟩
abbrev TM_FLAGS_lap : Fld := ⟨TM_FLAGS, 0, 0⟩
/-- TM_FLAG_EN (R427, 13). -/
abbrev TM_FLAG_EN : Nat := 0x40050008
abbrev TM_FLAG_EN_act_ignored : Fld := ⟨TM_FLAG_EN, 9, 9⟩
abbrev TM_FLAG_EN_watch_timeout : Fld := ⟨TM_FLAG_EN, 8, 8⟩
abbrev TM_FLAG_EN_watch_met : Fld := ⟨TM_FLAG_EN, 7, 7⟩
abbrev TM_FLAG_EN_act_skip : Fld := ⟨TM_FLAG_EN, 6, 6⟩
abbrev TM_FLAG_EN_act_late : Fld := ⟨TM_FLAG_EN, 5, 5⟩
abbrev TM_FLAG_EN_act_due : Fld := ⟨TM_FLAG_EN, 4, 4⟩
abbrev TM_FLAG_EN_time_set : Fld := ⟨TM_FLAG_EN, 3, 3⟩
abbrev TM_FLAG_EN_jump_persist : Fld := ⟨TM_FLAG_EN, 2, 2⟩
abbrev TM_FLAG_EN_jump_refused : Fld := ⟨TM_FLAG_EN, 1, 1⟩
abbrev TM_FLAG_EN_lap : Fld := ⟨TM_FLAG_EN, 0, 0⟩
/-- TM_EVT_SEL (R427, 13). -/
abbrev TM_EVT_SEL : Nat := 0x4005000C
abbrev TM_EVT_SEL_index : Fld := ⟨TM_EVT_SEL, 3, 0⟩
/-- TM_EVT_CNT (R427, 13). -/
abbrev TM_EVT_CNT : Nat := 0x40050010
abbrev TM_EVT_CNT_count : Fld := ⟨TM_EVT_CNT, 31, 0⟩
/-- TM_NOW (R427, 13). -/
abbrev TM_NOW : Nat := 0x40050014
abbrev TM_NOW_ns : Fld := ⟨TM_NOW, 31, 0⟩
/-- TM_JUMP_LIMIT (R427, 13). -/
abbrev TM_JUMP_LIMIT : Nat := 0x40050018
abbrev TM_JUMP_LIMIT_ns : Fld := ⟨TM_JUMP_LIMIT, 12, 0⟩
/-- TM_JUMP_STAT (R427, 13). -/
abbrev TM_JUMP_STAT : Nat := 0x4005001C
abbrev TM_JUMP_STAT_refused : Fld := ⟨TM_JUMP_STAT, 31, 16⟩
abbrev TM_JUMP_STAT_persist : Fld := ⟨TM_JUMP_STAT, 15, 8⟩
abbrev TM_JUMP_STAT_run : Fld := ⟨TM_JUMP_STAT, 7, 0⟩
/-- TM_STEP_LAST (R427, 13). -/
abbrev TM_STEP_LAST : Nat := 0x40050020
abbrev TM_STEP_LAST_ns : Fld := ⟨TM_STEP_LAST, 31, 0⟩
/-- TM_STEP_REFUSED (R427, 13). -/
abbrev TM_STEP_REFUSED : Nat := 0x40050024
abbrev TM_STEP_REFUSED_ns : Fld := ⟨TM_STEP_REFUSED, 31, 0⟩
/-- TM_SET_DELTA (R427, 13). -/
abbrev TM_SET_DELTA : Nat := 0x40050028
abbrev TM_SET_DELTA_ns : Fld := ⟨TM_SET_DELTA, 31, 0⟩
/-- TM_SET_STAMP (R427, 13). -/
abbrev TM_SET_STAMP : Nat := 0x4005002C
abbrev TM_SET_STAMP_stamp : Fld := ⟨TM_SET_STAMP, 31, 0⟩
/-- TM_IRQ_SEL (R427, 13). -/
abbrev TM_IRQ_SEL : Nat := 0x40050030
abbrev TM_IRQ_SEL_line : Fld := ⟨TM_IRQ_SEL, 4, 0⟩
/-- TM_IRQ_RAISE (R427, 13). -/
abbrev TM_IRQ_RAISE : Nat := 0x40050034
abbrev TM_IRQ_RAISE_stamp : Fld := ⟨TM_IRQ_RAISE, 31, 0⟩
/-- TM_IRQ_ENTRY (R427, 13). -/
abbrev TM_IRQ_ENTRY : Nat := 0x40050038
abbrev TM_IRQ_ENTRY_stamp : Fld := ⟨TM_IRQ_ENTRY, 31, 0⟩
/-- TM_IRQ_LAST (R427, 13). -/
abbrev TM_IRQ_LAST : Nat := 0x4005003C
abbrev TM_IRQ_LAST_line : Fld := ⟨TM_IRQ_LAST, 4, 0⟩
/-- TM_IRQ_LAST_RAISE (R427, 13). -/
abbrev TM_IRQ_LAST_RAISE : Nat := 0x40050040
abbrev TM_IRQ_LAST_RAISE_stamp : Fld := ⟨TM_IRQ_LAST_RAISE, 31, 0⟩
/-- TM_IRQ_LAST_ENTRY (R427, 13). -/
abbrev TM_IRQ_LAST_ENTRY : Nat := 0x40050044
abbrev TM_IRQ_LAST_ENTRY_stamp : Fld := ⟨TM_IRQ_LAST_ENTRY, 31, 0⟩
/-- TM_ACT_PEND0 (R427, 13). -/
abbrev TM_ACT_PEND0 : Nat := 0x40050048
abbrev TM_ACT_PEND0_pend : Fld := ⟨TM_ACT_PEND0, 31, 0⟩
/-- TM_ACT_PEND1 (R427, 13). -/
abbrev TM_ACT_PEND1 : Nat := 0x4005004C
abbrev TM_ACT_PEND1_pend : Fld := ⟨TM_ACT_PEND1, 31, 0⟩
/-- TM_ACT_ARMED0 (R427, 13). -/
abbrev TM_ACT_ARMED0 : Nat := 0x40050050
abbrev TM_ACT_ARMED0_armed : Fld := ⟨TM_ACT_ARMED0, 31, 0⟩
/-- TM_ACT_ARMED1 (R427, 13). -/
abbrev TM_ACT_ARMED1 : Nat := 0x40050054
abbrev TM_ACT_ARMED1_armed : Fld := ⟨TM_ACT_ARMED1, 31, 0⟩
/-- TMt_DUE (R427, 13). -/
abbrev TMt_DUE (n : Nat) : Nat := 0x40050100 + 0x20 * n
abbrev TMt_DUE_stamp (n : Nat) : Fld := ⟨TMt_DUE n, 31, 0⟩
/-- TMt_CFG (R427, 13). -/
abbrev TMt_CFG (n : Nat) : Nat := 0x40050104 + 0x20 * n
abbrev TMt_CFG_armed (n : Nat) : Fld := ⟨TMt_CFG n, 31, 31⟩
abbrev TMt_CFG_late (n : Nat) : Fld := ⟨TMt_CFG n, 30, 30⟩
abbrev TMt_CFG_met (n : Nat) : Fld := ⟨TMt_CFG n, 29, 29⟩
abbrev TMt_CFG_watch_class (n : Nat) : Fld := ⟨TMt_CFG n, 23, 22⟩
abbrev TMt_CFG_watch_index (n : Nat) : Fld := ⟨TMt_CFG n, 21, 16⟩
abbrev TMt_CFG_target (n : Nat) : Fld := ⟨TMt_CFG n, 15, 8⟩
abbrev TMt_CFG_watch_en (n : Nat) : Fld := ⟨TMt_CFG n, 4, 4⟩
abbrev TMt_CFG_disarm (n : Nat) : Fld := ⟨TMt_CFG n, 3, 3⟩
abbrev TMt_CFG_kind (n : Nat) : Fld := ⟨TMt_CFG n, 2, 0⟩
/-- TMt_PERIOD (R427, 13). -/
abbrev TMt_PERIOD (n : Nat) : Nat := 0x40050108 + 0x20 * n
abbrev TMt_PERIOD_ns (n : Nat) : Fld := ⟨TMt_PERIOD n, 31, 0⟩
/-- TMt_STAMP (R427, 13). -/
abbrev TMt_STAMP (n : Nat) : Nat := 0x4005010C + 0x20 * n
abbrev TMt_STAMP_stamp (n : Nat) : Fld := ⟨TMt_STAMP n, 31, 0⟩
/-- TMt_COUNT (R427, 13). -/
abbrev TMt_COUNT (n : Nat) : Nat := 0x40050110 + 0x20 * n
abbrev TMt_COUNT_count (n : Nat) : Fld := ⟨TMt_COUNT n, 31, 0⟩
/-- SE_STATUS (R442, 14). -/
abbrev SE_STATUS : Nat := 0x40054000
abbrev SE_STATUS_defined : Fld := ⟨SE_STATUS, 23, 16⟩
abbrev SE_STATUS_blocked : Fld := ⟨SE_STATUS, 15, 8⟩
abbrev SE_STATUS_producing : Fld := ⟨SE_STATUS, 0, 0⟩
/-- SE_FLAGS (R442, 14). -/
abbrev SE_FLAGS : Nat := 0x40054004
abbrev SE_FLAGS_accepted : Fld := ⟨SE_FLAGS, 13, 13⟩
abbrev SE_FLAGS_produce_skip : Fld := ⟨SE_FLAGS, 12, 12⟩
abbrev SE_FLAGS_path_fail : Fld := ⟨SE_FLAGS, 11, 11⟩
abbrev SE_FLAGS_perm_blocked : Fld := ⟨SE_FLAGS, 10, 10⟩
abbrev SE_FLAGS_unblocked : Fld := ⟨SE_FLAGS, 9, 9⟩
abbrev SE_FLAGS_blocked : Fld := ⟨SE_FLAGS, 8, 8⟩
abbrev SE_FLAGS_repeat : Fld := ⟨SE_FLAGS, 7, 7⟩
abbrev SE_FLAGS_loss : Fld := ⟨SE_FLAGS, 6, 6⟩
abbrev SE_FLAGS_format : Fld := ⟨SE_FLAGS, 5, 5⟩
abbrev SE_FLAGS_stamp_conflict : Fld := ⟨SE_FLAGS, 4, 4⟩
abbrev SE_FLAGS_wrong_order : Fld := ⟨SE_FLAGS, 3, 3⟩
abbrev SE_FLAGS_early : Fld := ⟨SE_FLAGS, 2, 2⟩
abbrev SE_FLAGS_delay : Fld := ⟨SE_FLAGS, 1, 1⟩
abbrev SE_FLAGS_check_fail : Fld := ⟨SE_FLAGS, 0, 0⟩
/-- SE_FLAG_EN (R442, 14). -/
abbrev SE_FLAG_EN : Nat := 0x40054008
abbrev SE_FLAG_EN_accepted : Fld := ⟨SE_FLAG_EN, 13, 13⟩
abbrev SE_FLAG_EN_produce_skip : Fld := ⟨SE_FLAG_EN, 12, 12⟩
abbrev SE_FLAG_EN_path_fail : Fld := ⟨SE_FLAG_EN, 11, 11⟩
abbrev SE_FLAG_EN_perm_blocked : Fld := ⟨SE_FLAG_EN, 10, 10⟩
abbrev SE_FLAG_EN_unblocked : Fld := ⟨SE_FLAG_EN, 9, 9⟩
abbrev SE_FLAG_EN_blocked : Fld := ⟨SE_FLAG_EN, 8, 8⟩
abbrev SE_FLAG_EN_repeat : Fld := ⟨SE_FLAG_EN, 7, 7⟩
abbrev SE_FLAG_EN_loss : Fld := ⟨SE_FLAG_EN, 6, 6⟩
abbrev SE_FLAG_EN_format : Fld := ⟨SE_FLAG_EN, 5, 5⟩
abbrev SE_FLAG_EN_stamp_conflict : Fld := ⟨SE_FLAG_EN, 4, 4⟩
abbrev SE_FLAG_EN_wrong_order : Fld := ⟨SE_FLAG_EN, 3, 3⟩
abbrev SE_FLAG_EN_early : Fld := ⟨SE_FLAG_EN, 2, 2⟩
abbrev SE_FLAG_EN_delay : Fld := ⟨SE_FLAG_EN, 1, 1⟩
abbrev SE_FLAG_EN_check_fail : Fld := ⟨SE_FLAG_EN, 0, 0⟩
/-- SE_EVT_SEL (R442, 14). -/
abbrev SE_EVT_SEL : Nat := 0x4005400C
abbrev SE_EVT_SEL_index : Fld := ⟨SE_EVT_SEL, 3, 0⟩
/-- SE_EVT_CNT (R442, 14). -/
abbrev SE_EVT_CNT : Nat := 0x40054010
abbrev SE_EVT_CNT_count : Fld := ⟨SE_EVT_CNT, 31, 0⟩
/-- SE_LIMITS (R442, 14). -/
abbrev SE_LIMITS : Nat := 0x40054014
abbrev SE_LIMITS_block_ms : Fld := ⟨SE_LIMITS, 31, 16⟩
abbrev SE_LIMITS_err_limit : Fld := ⟨SE_LIMITS, 7, 0⟩
/-- SE_LAST (R442, 14). -/
abbrev SE_LAST : Nat := 0x40054018
abbrev SE_LAST_conn : Fld := ⟨SE_LAST, 13, 8⟩
abbrev SE_LAST_flag : Fld := ⟨SE_LAST, 3, 0⟩
/-- SE_PL_SEL (R442, 14). -/
abbrev SE_PL_SEL : Nat := 0x40054020
abbrev SE_PL_SEL_conn : Fld := ⟨SE_PL_SEL, 5, 0⟩
/-- SE_PL_STAT (R442, 14). -/
abbrev SE_PL_STAT : Nat := 0x40054024
abbrev SE_PL_STAT_seq : Fld := ⟨SE_PL_STAT, 31, 16⟩
abbrev SE_PL_STAT_length : Fld := ⟨SE_PL_STAT, 13, 8⟩
abbrev SE_PL_STAT_held : Fld := ⟨SE_PL_STAT, 0, 0⟩
/-- SE_PL_STAMP (R442, 14). -/
abbrev SE_PL_STAMP : Nat := 0x40054028
abbrev SE_PL_STAMP_stamp : Fld := ⟨SE_PL_STAMP, 31, 0⟩
/-- SE_PL_ARRIVAL (R442, 14). -/
abbrev SE_PL_ARRIVAL : Nat := 0x4005402C
abbrev SE_PL_ARRIVAL_stamp : Fld := ⟨SE_PL_ARRIVAL, 31, 0⟩
/-- SE_TX_SEL (R442, 14). -/
abbrev SE_TX_SEL : Nat := 0x40054030
abbrev SE_TX_SEL_conn : Fld := ⟨SE_TX_SEL, 5, 0⟩
/-- SE_TX_CTRL (R442, 14). -/
abbrev SE_TX_CTRL : Nat := 0x40054034
abbrev SE_TX_CTRL_commit : Fld := ⟨SE_TX_CTRL, 0, 0⟩
/-- SE_PL_DATAw (R442, 14). -/
abbrev SE_PL_DATAw (n : Nat) : Nat := 0x40054100 + 0x4 * n
abbrev SE_PL_DATAw_word (n : Nat) : Fld := ⟨SE_PL_DATAw n, 31, 0⟩
/-- SE_TX_DATAw (R442, 14). -/
abbrev SE_TX_DATAw (n : Nat) : Nat := 0x40054200 + 0x4 * n
abbrev SE_TX_DATAw_word (n : Nat) : Fld := ⟨SE_TX_DATAw n, 31, 0⟩
/-- SE_Cc_CFG (R442, 14). -/
abbrev SE_Cc_CFG (n : Nat) : Nat := 0x40055000 + 0x20 * n
abbrev SE_Cc_CFG_defined (n : Nat) : Fld := ⟨SE_Cc_CFG n, 31, 31⟩
abbrev SE_Cc_CFG_role (n : Nat) : Fld := ⟨SE_Cc_CFG n, 30, 30⟩
abbrev SE_Cc_CFG_medium (n : Nat) : Fld := ⟨SE_Cc_CFG n, 29, 28⟩
abbrev SE_Cc_CFG_source (n : Nat) : Fld := ⟨SE_Cc_CFG n, 27, 27⟩
abbrev SE_Cc_CFG_length (n : Nat) : Fld := ⟨SE_Cc_CFG n, 23, 18⟩
abbrev SE_Cc_CFG_path_b (n : Nat) : Fld := ⟨SE_Cc_CFG n, 17, 17⟩
abbrev SE_Cc_CFG_path_a (n : Nat) : Fld := ⟨SE_Cc_CFG n, 16, 16⟩
abbrev SE_Cc_CFG_conn_no (n : Nat) : Fld := ⟨SE_Cc_CFG n, 15, 0⟩
/-- SE_Cc_BIND (R442, 14). -/
abbrev SE_Cc_BIND (n : Nat) : Nat := 0x40055004 + 0x20 * n
abbrev SE_Cc_BIND_node (n : Nat) : Fld := ⟨SE_Cc_BIND n, 26, 16⟩
abbrev SE_Cc_BIND_buf_b (n : Nat) : Fld := ⟨SE_Cc_BIND n, 15, 8⟩
abbrev SE_Cc_BIND_buf_a (n : Nat) : Fld := ⟨SE_Cc_BIND n, 7, 0⟩
/-- SE_Cc_ID (R442, 14). -/
abbrev SE_Cc_ID (n : Nat) : Nat := 0x40055008 + 0x20 * n
abbrev SE_Cc_ID_identity (n : Nat) : Fld := ⟨SE_Cc_ID n, 31, 0⟩
/-- SE_Cc_MAX_AGE (R442, 14). -/
abbrev SE_Cc_MAX_AGE (n : Nat) : Nat := 0x4005500C + 0x20 * n
abbrev SE_Cc_MAX_AGE_ns (n : Nat) : Fld := ⟨SE_Cc_MAX_AGE n, 31, 0⟩
/-- SE_Cc_STAT (R442, 14). -/
abbrev SE_Cc_STAT (n : Nat) : Nat := 0x40055010 + 0x20 * n
abbrev SE_Cc_STAT_seq (n : Nat) : Fld := ⟨SE_Cc_STAT n, 31, 16⟩
abbrev SE_Cc_STAT_level (n : Nat) : Fld := ⟨SE_Cc_STAT n, 15, 8⟩
abbrev SE_Cc_STAT_blocks (n : Nat) : Fld := ⟨SE_Cc_STAT n, 7, 4⟩
abbrev SE_Cc_STAT_state (n : Nat) : Fld := ⟨SE_Cc_STAT n, 1, 0⟩
/-- SE_Cc_STAMP (R442, 14). -/
abbrev SE_Cc_STAMP (n : Nat) : Nat := 0x40055014 + 0x20 * n
abbrev SE_Cc_STAMP_stamp (n : Nat) : Fld := ⟨SE_Cc_STAMP n, 31, 0⟩
/-- SE_Cc_COUNT (R442, 14). -/
abbrev SE_Cc_COUNT (n : Nat) : Nat := 0x40055018 + 0x20 * n
abbrev SE_Cc_COUNT_count (n : Nat) : Fld := ⟨SE_Cc_COUNT n, 31, 0⟩
/-- SE_Cc_REJ (R442, 14). -/
abbrev SE_Cc_REJ (n : Nat) : Nat := 0x4005501C + 0x20 * n
abbrev SE_Cc_REJ_charged (n : Nat) : Fld := ⟨SE_Cc_REJ n, 31, 16⟩
abbrev SE_Cc_REJ_lost (n : Nat) : Fld := ⟨SE_Cc_REJ n, 15, 0⟩
/-- PW_STATUS (R469, 15). -/
abbrev PW_STATUS : Nat := 0x40060000
abbrev PW_STATUS_req : Fld := ⟨PW_STATUS, 31, 16⟩
abbrev PW_STATUS_new_cycle : Fld := ⟨PW_STATUS, 11, 11⟩
abbrev PW_STATUS_presence : Fld := ⟨PW_STATUS, 10, 10⟩
abbrev PW_STATUS_pads_held : Fld := ⟨PW_STATUS, 9, 9⟩
abbrev PW_STATUS_listener : Fld := ⟨PW_STATUS, 8, 8⟩
abbrev PW_STATUS_target : Fld := ⟨PW_STATUS, 5, 3⟩
abbrev PW_STATUS_state : Fld := ⟨PW_STATUS, 2, 0⟩
/-- PW_FLAGS (R469, 15). -/
abbrev PW_FLAGS : Nat := 0x40060004
abbrev PW_FLAGS_ret_ce : Fld := ⟨PW_FLAGS, 14, 14⟩
abbrev PW_FLAGS_removal : Fld := ⟨PW_FLAGS, 13, 13⟩
abbrev PW_FLAGS_presence_close : Fld := ⟨PW_FLAGS, 12, 12⟩
abbrev PW_FLAGS_presence_open : Fld := ⟨PW_FLAGS, 11, 11⟩
abbrev PW_FLAGS_pad_timeout : Fld := ⟨PW_FLAGS, 10, 10⟩
abbrev PW_FLAGS_bank_fail : Fld := ⟨PW_FLAGS, 9, 9⟩
abbrev PW_FLAGS_peer_wake : Fld := ⟨PW_FLAGS, 8, 8⟩
abbrev PW_FLAGS_replay : Fld := ⟨PW_FLAGS, 7, 7⟩
abbrev PW_FLAGS_wake : Fld := ⟨PW_FLAGS, 6, 6⟩
abbrev PW_FLAGS_entered : Fld := ⟨PW_FLAGS, 5, 5⟩
abbrev PW_FLAGS_vote_timeout : Fld := ⟨PW_FLAGS, 4, 4⟩
abbrev PW_FLAGS_vote_aborted : Fld := ⟨PW_FLAGS, 3, 3⟩
abbrev PW_FLAGS_vote_refused : Fld := ⟨PW_FLAGS, 2, 2⟩
abbrev PW_FLAGS_request_refused : Fld := ⟨PW_FLAGS, 1, 1⟩
abbrev PW_FLAGS_state_change : Fld := ⟨PW_FLAGS, 0, 0⟩
/-- PW_FLAG_EN (R469, 15). -/
abbrev PW_FLAG_EN : Nat := 0x40060008
abbrev PW_FLAG_EN_ret_ce : Fld := ⟨PW_FLAG_EN, 14, 14⟩
abbrev PW_FLAG_EN_removal : Fld := ⟨PW_FLAG_EN, 13, 13⟩
abbrev PW_FLAG_EN_presence_close : Fld := ⟨PW_FLAG_EN, 12, 12⟩
abbrev PW_FLAG_EN_presence_open : Fld := ⟨PW_FLAG_EN, 11, 11⟩
abbrev PW_FLAG_EN_pad_timeout : Fld := ⟨PW_FLAG_EN, 10, 10⟩
abbrev PW_FLAG_EN_bank_fail : Fld := ⟨PW_FLAG_EN, 9, 9⟩
abbrev PW_FLAG_EN_peer_wake : Fld := ⟨PW_FLAG_EN, 8, 8⟩
abbrev PW_FLAG_EN_replay : Fld := ⟨PW_FLAG_EN, 7, 7⟩
abbrev PW_FLAG_EN_wake : Fld := ⟨PW_FLAG_EN, 6, 6⟩
abbrev PW_FLAG_EN_entered : Fld := ⟨PW_FLAG_EN, 5, 5⟩
abbrev PW_FLAG_EN_vote_timeout : Fld := ⟨PW_FLAG_EN, 4, 4⟩
abbrev PW_FLAG_EN_vote_aborted : Fld := ⟨PW_FLAG_EN, 3, 3⟩
abbrev PW_FLAG_EN_vote_refused : Fld := ⟨PW_FLAG_EN, 2, 2⟩
abbrev PW_FLAG_EN_request_refused : Fld := ⟨PW_FLAG_EN, 1, 1⟩
abbrev PW_FLAG_EN_state_change : Fld := ⟨PW_FLAG_EN, 0, 0⟩
/-- PW_EVT_SEL (R469, 15). -/
abbrev PW_EVT_SEL : Nat := 0x4006000C
abbrev PW_EVT_SEL_index : Fld := ⟨PW_EVT_SEL, 3, 0⟩
/-- PW_EVT_CNT (R469, 15). -/
abbrev PW_EVT_CNT : Nat := 0x40060010
abbrev PW_EVT_CNT_count : Fld := ⟨PW_EVT_CNT, 31, 0⟩
/-- PW_REQ (R469, 15). -/
abbrev PW_REQ : Nat := 0x40060014
abbrev PW_REQ_number : Fld := ⟨PW_REQ, 31, 16⟩
abbrev PW_REQ_wake_en : Fld := ⟨PW_REQ, 15, 8⟩
abbrev PW_REQ_target : Fld := ⟨PW_REQ, 2, 0⟩
/-- PW_REQ_DELAY (R469, 15). -/
abbrev PW_REQ_DELAY : Nat := 0x40060018
abbrev PW_REQ_DELAY_seconds : Fld := ⟨PW_REQ_DELAY, 31, 0⟩
/-- PW_VOTE_CFG (R469, 15). -/
abbrev PW_VOTE_CFG : Nat := 0x4006001C
abbrev PW_VOTE_CFG_window_ms : Fld := ⟨PW_VOTE_CFG, 7, 0⟩
/-- PW_FW_VOTE (R469, 15). -/
abbrev PW_FW_VOTE : Nat := 0x40060020
abbrev PW_FW_VOTE_refuse : Fld := ⟨PW_FW_VOTE, 0, 0⟩
/-- PW_REFUSAL (R469, 15). -/
abbrev PW_REFUSAL : Nat := 0x40060024
abbrev PW_REFUSAL_number : Fld := ⟨PW_REFUSAL, 31, 16⟩
abbrev PW_REFUSAL_lane : Fld := ⟨PW_REFUSAL, 13, 12⟩
abbrev PW_REFUSAL_reason : Fld := ⟨PW_REFUSAL, 11, 8⟩
abbrev PW_REFUSAL_unit : Fld := ⟨PW_REFUSAL, 4, 0⟩
/-- PW_REFUSAL_TIME (R469, 15). -/
abbrev PW_REFUSAL_TIME : Nat := 0x40060028
abbrev PW_REFUSAL_TIME_stamp : Fld := ⟨PW_REFUSAL_TIME, 31, 0⟩
/-- PW_WAKE_EN (R469, 15). -/
abbrev PW_WAKE_EN : Nat := 0x4006002C
abbrev PW_WAKE_EN_sources : Fld := ⟨PW_WAKE_EN, 4, 0⟩
/-- PW_WAKE_CAUSE (R469, 15). -/
abbrev PW_WAKE_CAUSE : Nat := 0x40060030
abbrev PW_WAKE_CAUSE_bank_fail : Fld := ⟨PW_WAKE_CAUSE, 31, 28⟩
abbrev PW_WAKE_CAUSE_bank_empty : Fld := ⟨PW_WAKE_CAUSE, 27, 24⟩
abbrev PW_WAKE_CAUSE_from : Fld := ⟨PW_WAKE_CAUSE, 19, 18⟩
abbrev PW_WAKE_CAUSE_replayed : Fld := ⟨PW_WAKE_CAUSE, 17, 17⟩
abbrev PW_WAKE_CAUSE_extrapolated : Fld := ⟨PW_WAKE_CAUSE, 16, 16⟩
abbrev PW_WAKE_CAUSE_sources : Fld := ⟨PW_WAKE_CAUSE, 4, 0⟩
/-- PW_WAKE_STAMP (R469, 15). -/
abbrev PW_WAKE_STAMP : Nat := 0x40060034
abbrev PW_WAKE_STAMP_stamp : Fld := ⟨PW_WAKE_STAMP, 31, 0⟩
/-- PW_AON_NOW (R469, 15, a _LO/_HI pair). -/
abbrev PW_AON_NOW : Nat := 0x40060038
/-- PW_WAKE_AT (R469, 15, a _LO/_HI pair). -/
abbrev PW_WAKE_AT : Nat := 0x40060040
/-- PW_SLEEP_STAMP (R469, 15). -/
abbrev PW_SLEEP_STAMP : Nat := 0x40060048
abbrev PW_SLEEP_STAMP_stamp : Fld := ⟨PW_SLEEP_STAMP, 31, 0⟩
/-- PW_SLEEP_AON (R469, 15, a _LO/_HI pair). -/
abbrev PW_SLEEP_AON : Nat := 0x40060050
/-- PW_PAD_RELEASE (R469, 15). -/
abbrev PW_PAD_RELEASE : Nat := 0x40060058
abbrev PW_PAD_RELEASE_key : Fld := ⟨PW_PAD_RELEASE, 7, 0⟩
/-- PW_RET_STAT (R469, 15). -/
abbrev PW_RET_STAT : Nat := 0x4006005C
abbrev PW_RET_STAT_ce : Fld := ⟨PW_RET_STAT, 31, 16⟩
abbrev PW_RET_STAT_entries : Fld := ⟨PW_RET_STAT, 15, 8⟩
abbrev PW_RET_STAT_valid : Fld := ⟨PW_RET_STAT, 7, 4⟩
/-- PW_PRES_TIME (R469, 15). -/
abbrev PW_PRES_TIME : Nat := 0x40060060
abbrev PW_PRES_TIME_stamp : Fld := ⟨PW_PRES_TIME, 31, 0⟩
/-- PW_RETFWw (R469, 15). -/
abbrev PW_RETFWw (n : Nat) : Nat := 0x40060100 + 0x4 * n
abbrev PW_RETFWw_word (n : Nat) : Fld := ⟨PW_RETFWw n, 31, 0⟩
/-- CF_STATUS (R494, 16). -/
abbrev CF_STATUS : Nat := 0x40064000
abbrev CF_STATUS_session : Fld := ⟨CF_STATUS, 7, 7⟩
abbrev CF_STATUS_write_ok : Fld := ⟨CF_STATUS, 6, 6⟩
abbrev CF_STATUS_parked_ok : Fld := ⟨CF_STATUS, 5, 5⟩
abbrev CF_STATUS_enable_ok : Fld := ⟨CF_STATUS, 4, 4⟩
abbrev CF_STATUS_out_of_service : Fld := ⟨CF_STATUS, 3, 3⟩
abbrev CF_STATUS_fallback : Fld := ⟨CF_STATUS, 2, 2⟩
abbrev CF_STATUS_slot : Fld := ⟨CF_STATUS, 1, 1⟩
abbrev CF_STATUS_agreed : Fld := ⟨CF_STATUS, 0, 0⟩
/-- CF_FLAGS (R494, 16). -/
abbrev CF_FLAGS : Nat := 0x40064004
abbrev CF_FLAGS_session_timeout : Fld := ⟨CF_FLAGS, 10, 10⟩
abbrev CF_FLAGS_session_open : Fld := ⟨CF_FLAGS, 9, 9⟩
abbrev CF_FLAGS_journal_gap : Fld := ⟨CF_FLAGS, 8, 8⟩
abbrev CF_FLAGS_verify_fail : Fld := ⟨CF_FLAGS, 7, 7⟩
abbrev CF_FLAGS_write_aborted : Fld := ⟨CF_FLAGS, 6, 6⟩
abbrev CF_FLAGS_write_done : Fld := ⟨CF_FLAGS, 5, 5⟩
abbrev CF_FLAGS_write_refused : Fld := ⟨CF_FLAGS, 4, 4⟩
abbrev CF_FLAGS_agree_fail : Fld := ⟨CF_FLAGS, 3, 3⟩
abbrev CF_FLAGS_trial_rejected : Fld := ⟨CF_FLAGS, 2, 2⟩
abbrev CF_FLAGS_minority : Fld := ⟨CF_FLAGS, 1, 1⟩
abbrev CF_FLAGS_agree_done : Fld := ⟨CF_FLAGS, 0, 0⟩
/-- CF_FLAG_EN (R494, 16). -/
abbrev CF_FLAG_EN : Nat := 0x40064008
abbrev CF_FLAG_EN_session_timeout : Fld := ⟨CF_FLAG_EN, 10, 10⟩
abbrev CF_FLAG_EN_session_open : Fld := ⟨CF_FLAG_EN, 9, 9⟩
abbrev CF_FLAG_EN_journal_gap : Fld := ⟨CF_FLAG_EN, 8, 8⟩
abbrev CF_FLAG_EN_verify_fail : Fld := ⟨CF_FLAG_EN, 7, 7⟩
abbrev CF_FLAG_EN_write_aborted : Fld := ⟨CF_FLAG_EN, 6, 6⟩
abbrev CF_FLAG_EN_write_done : Fld := ⟨CF_FLAG_EN, 5, 5⟩
abbrev CF_FLAG_EN_write_refused : Fld := ⟨CF_FLAG_EN, 4, 4⟩
abbrev CF_FLAG_EN_agree_fail : Fld := ⟨CF_FLAG_EN, 3, 3⟩
abbrev CF_FLAG_EN_trial_rejected : Fld := ⟨CF_FLAG_EN, 2, 2⟩
abbrev CF_FLAG_EN_minority : Fld := ⟨CF_FLAG_EN, 1, 1⟩
abbrev CF_FLAG_EN_agree_done : Fld := ⟨CF_FLAG_EN, 0, 0⟩
/-- CF_EVT_SEL (R494, 16). -/
abbrev CF_EVT_SEL : Nat := 0x4006400C
abbrev CF_EVT_SEL_index : Fld := ⟨CF_EVT_SEL, 3, 0⟩
/-- CF_EVT_CNT (R494, 16). -/
abbrev CF_EVT_CNT : Nat := 0x40064010
abbrev CF_EVT_CNT_count : Fld := ⟨CF_EVT_CNT, 31, 0⟩
/-- CF_ID0 (R494, 16). -/
abbrev CF_ID0 : Nat := 0x40064014
abbrev CF_ID0_id : Fld := ⟨CF_ID0, 31, 0⟩
/-- CF_ID1 (R494, 16). -/
abbrev CF_ID1 : Nat := 0x40064018
abbrev CF_ID1_id : Fld := ⟨CF_ID1, 31, 0⟩
/-- CF_SLOT_P (R494, 16). -/
abbrev CF_SLOT_P : Nat := 0x4006401C
abbrev CF_SLOT_P_generation : Fld := ⟨CF_SLOT_P, 31, 16⟩
abbrev CF_SLOT_P_valid : Fld := ⟨CF_SLOT_P, 3, 3⟩
abbrev CF_SLOT_P_state : Fld := ⟨CF_SLOT_P, 2, 0⟩
/-- CF_SLOT_A (R494, 16). -/
abbrev CF_SLOT_A : Nat := 0x40064020
abbrev CF_SLOT_A_generation : Fld := ⟨CF_SLOT_A, 31, 16⟩
abbrev CF_SLOT_A_valid : Fld := ⟨CF_SLOT_A, 3, 3⟩
abbrev CF_SLOT_A_state : Fld := ⟨CF_SLOT_A, 2, 0⟩
/-- CF_AGREE (R494, 16). -/
abbrev CF_AGREE : Nat := 0x40064024
abbrev CF_AGREE_lanes : Fld := ⟨CF_AGREE, 10, 8⟩
abbrev CF_AGREE_outcome : Fld := ⟨CF_AGREE, 6, 4⟩
abbrev CF_AGREE_rounds : Fld := ⟨CF_AGREE, 1, 0⟩
/-- CF_JNL_HEAD (R494, 16). -/
abbrev CF_JNL_HEAD : Nat := 0x40064028
abbrev CF_JNL_HEAD_index : Fld := ⟨CF_JNL_HEAD, 31, 0⟩
/-- CF_JNL_OLDEST (R494, 16). -/
abbrev CF_JNL_OLDEST : Nat := 0x4006402C
abbrev CF_JNL_OLDEST_index : Fld := ⟨CF_JNL_OLDEST, 31, 0⟩
/-- CF_SVC_CFG (R494, 16). -/
abbrev CF_SVC_CFG : Nat := 0x40064030
abbrev CF_SVC_CFG_idle_s : Fld := ⟨CF_SVC_CFG, 15, 8⟩
abbrev CF_SVC_CFG_pair : Fld := ⟨CF_SVC_CFG, 4, 0⟩
/-- CF_SESSION (R494, 16). -/
abbrev CF_SESSION : Nat := 0x40064034
abbrev CF_SESSION_id : Fld := ⟨CF_SESSION, 31, 16⟩
abbrev CF_SESSION_port : Fld := ⟨CF_SESSION, 15, 0⟩
/-- CF_SESSION_IP (R494, 16). -/
abbrev CF_SESSION_IP : Nat := 0x40064038
abbrev CF_SESSION_IP_ip : Fld := ⟨CF_SESSION_IP, 31, 0⟩
/-- HA_STATUS (R518, 17). -/
abbrev HA_STATUS : Nat := 0x40068000
abbrev HA_STATUS_enabled : Fld := ⟨HA_STATUS, 23, 16⟩
abbrev HA_STATUS_baseline_ok : Fld := ⟨HA_STATUS, 15, 8⟩
abbrev HA_STATUS_prior : Fld := ⟨HA_STATUS, 3, 3⟩
abbrev HA_STATUS_learning : Fld := ⟨HA_STATUS, 2, 2⟩
abbrev HA_STATUS_age_warning : Fld := ⟨HA_STATUS, 1, 1⟩
abbrev HA_STATUS_writing : Fld := ⟨HA_STATUS, 0, 0⟩
/-- HA_FLAGS (R518, 17). -/
abbrev HA_FLAGS : Nat := 0x40068004
abbrev HA_FLAGS_ce_high : Fld := ⟨HA_FLAGS, 9, 9⟩
abbrev HA_FLAGS_baseline_reset : Fld := ⟨HA_FLAGS, 8, 8⟩
abbrev HA_FLAGS_baseline_learned : Fld := ⟨HA_FLAGS, 7, 7⟩
abbrev HA_FLAGS_conflict_hour : Fld := ⟨HA_FLAGS, 6, 6⟩
abbrev HA_FLAGS_record_fail : Fld := ⟨HA_FLAGS, 5, 5⟩
abbrev HA_FLAGS_record_written : Fld := ⟨HA_FLAGS, 4, 4⟩
abbrev HA_FLAGS_monitor_limit : Fld := ⟨HA_FLAGS, 3, 3⟩
abbrev HA_FLAGS_age_warning : Fld := ⟨HA_FLAGS, 2, 2⟩
abbrev HA_FLAGS_temp_high : Fld := ⟨HA_FLAGS, 1, 1⟩
abbrev HA_FLAGS_life_update : Fld := ⟨HA_FLAGS, 0, 0⟩
/-- HA_FLAG_EN (R518, 17). -/
abbrev HA_FLAG_EN : Nat := 0x40068008
abbrev HA_FLAG_EN_ce_high : Fld := ⟨HA_FLAG_EN, 9, 9⟩
abbrev HA_FLAG_EN_baseline_reset : Fld := ⟨HA_FLAG_EN, 8, 8⟩
abbrev HA_FLAG_EN_baseline_learned : Fld := ⟨HA_FLAG_EN, 7, 7⟩
abbrev HA_FLAG_EN_conflict_hour : Fld := ⟨HA_FLAG_EN, 6, 6⟩
abbrev HA_FLAG_EN_record_fail : Fld := ⟨HA_FLAG_EN, 5, 5⟩
abbrev HA_FLAG_EN_record_written : Fld := ⟨HA_FLAG_EN, 4, 4⟩
abbrev HA_FLAG_EN_monitor_limit : Fld := ⟨HA_FLAG_EN, 3, 3⟩
abbrev HA_FLAG_EN_age_warning : Fld := ⟨HA_FLAG_EN, 2, 2⟩
abbrev HA_FLAG_EN_temp_high : Fld := ⟨HA_FLAG_EN, 1, 1⟩
abbrev HA_FLAG_EN_life_update : Fld := ⟨HA_FLAG_EN, 0, 0⟩
/-- HA_EVT_SEL (R518, 17). -/
abbrev HA_EVT_SEL : Nat := 0x4006800C
abbrev HA_EVT_SEL_index : Fld := ⟨HA_EVT_SEL, 3, 0⟩
/-- HA_EVT_CNT (R518, 17). -/
abbrev HA_EVT_CNT : Nat := 0x40068010
abbrev HA_EVT_CNT_count : Fld := ⟨HA_EVT_CNT, 31, 0⟩
/-- HA_CFG (R518, 17). -/
abbrev HA_CFG : Nat := 0x40068014
abbrev HA_CFG_prior_life_h : Fld := ⟨HA_CFG, 31, 16⟩
abbrev HA_CFG_age_thr_h : Fld := ⟨HA_CFG, 15, 0⟩
/-- HA_LIMITS (R518, 17). -/
abbrev HA_LIMITS : Nat := 0x40068018
abbrev HA_LIMITS_ce_limit : Fld := ⟨HA_LIMITS, 31, 16⟩
abbrev HA_LIMITS_temp_max : Fld := ⟨HA_LIMITS, 15, 0⟩
/-- HA_LIFE (R518, 17). -/
abbrev HA_LIFE : Nat := 0x4006801C
abbrev HA_LIFE_prior : Fld := ⟨HA_LIFE, 24, 24⟩
abbrev HA_LIFE_limiting : Fld := ⟨HA_LIFE, 19, 16⟩
abbrev HA_LIFE_life_h : Fld := ⟨HA_LIFE, 15, 0⟩
/-- HA_HOURS (R518, 17). -/
abbrev HA_HOURS : Nat := 0x40068020
abbrev HA_HOURS_hours : Fld := ⟨HA_HOURS, 31, 0⟩
/-- HA_HOUR_SEC (R518, 17). -/
abbrev HA_HOUR_SEC : Nat := 0x40068024
abbrev HA_HOUR_SEC_seconds : Fld := ⟨HA_HOUR_SEC, 11, 0⟩
/-- HA_TEMP (R518, 17). -/
abbrev HA_TEMP : Nat := 0x40068028
abbrev HA_TEMP_max : Fld := ⟨HA_TEMP, 31, 16⟩
abbrev HA_TEMP_now : Fld := ⟨HA_TEMP, 15, 0⟩
/-- HA_CE_HOUR (R518, 17). -/
abbrev HA_CE_HOUR : Nat := 0x4006802C
abbrev HA_CE_HOUR_count : Fld := ⟨HA_CE_HOUR, 31, 0⟩
/-- HA_CONFLICT (R518, 17). -/
abbrev HA_CONFLICT : Nat := 0x40068030
abbrev HA_CONFLICT_hours : Fld := ⟨HA_CONFLICT, 31, 16⟩
abbrev HA_CONFLICT_stepper : Fld := ⟨HA_CONFLICT, 4, 4⟩
abbrev HA_CONFLICT_dither : Fld := ⟨HA_CONFLICT, 3, 3⟩
abbrev HA_CONFLICT_obs_mc1 : Fld := ⟨HA_CONFLICT, 2, 2⟩
abbrev HA_CONFLICT_obs_mc0 : Fld := ⟨HA_CONFLICT, 1, 1⟩
abbrev HA_CONFLICT_rotation : Fld := ⟨HA_CONFLICT, 0, 0⟩
/-- HA_REC (R518, 17). -/
abbrev HA_REC : Nat := 0x40068034
abbrev HA_REC_index : Fld := ⟨HA_REC, 31, 0⟩
/-- HA_BASELINE_RESET (R518, 17). -/
abbrev HA_BASELINE_RESET : Nat := 0x40068038
abbrev HA_BASELINE_RESET_mask : Fld := ⟨HA_BASELINE_RESET, 15, 8⟩
abbrev HA_BASELINE_RESET_key : Fld := ⟨HA_BASELINE_RESET, 7, 0⟩
/-- HA_MONi_VAL (R518, 17). -/
abbrev HA_MONi_VAL (n : Nat) : Nat := 0x40068040 + 0x10 * n
abbrev HA_MONi_VAL_x (n : Nat) : Fld := ⟨HA_MONi_VAL n, 31, 0⟩
/-- HA_MONi_DMG (R518, 17). -/
abbrev HA_MONi_DMG (n : Nat) : Nat := 0x40068044 + 0x10 * n
abbrev HA_MONi_DMG_life_h (n : Nat) : Fld := ⟨HA_MONi_DMG n, 31, 16⟩
abbrev HA_MONi_DMG_damage (n : Nat) : Fld := ⟨HA_MONi_DMG n, 15, 0⟩
/-- HA_MONi_BASE (R518, 17). -/
abbrev HA_MONi_BASE (n : Nat) : Nat := 0x40068048 + 0x10 * n
abbrev HA_MONi_BASE_x0 (n : Nat) : Fld := ⟨HA_MONi_BASE n, 31, 0⟩
/-- HA_MONi_LIM (R518, 17). -/
abbrev HA_MONi_LIM (n : Nat) : Nat := 0x4006804C + 0x10 * n
abbrev HA_MONi_LIM_x_lim (n : Nat) : Fld := ⟨HA_MONi_LIM n, 31, 0⟩
/-- CNk_STATUS (R496, 16). -/
abbrev CNk_STATUS (n : Nat) : Nat := 0x40070000 + 0x1000 * n
abbrev CNk_STATUS_rec (n : Nat) : Fld := ⟨CNk_STATUS n, 31, 24⟩
abbrev CNk_STATUS_tec (n : Nat) : Fld := ⟨CNk_STATUS n, 23, 16⟩
abbrev CNk_STATUS_rx_level (n : Nat) : Fld := ⟨CNk_STATUS n, 15, 8⟩
abbrev CNk_STATUS_state (n : Nat) : Fld := ⟨CNk_STATUS n, 1, 0⟩
/-- CNk_FLAGS (R496, 16). -/
abbrev CNk_FLAGS (n : Nat) : Nat := 0x40070004 + 0x1000 * n
abbrev CNk_FLAGS_rx (n : Nat) : Fld := ⟨CNk_FLAGS n, 0, 0⟩
abbrev CNk_FLAGS_tx_done (n : Nat) : Fld := ⟨CNk_FLAGS n, 1, 1⟩
abbrev CNk_FLAGS_tx_cancel (n : Nat) : Fld := ⟨CNk_FLAGS n, 2, 2⟩
abbrev CNk_FLAGS_bus_off (n : Nat) : Fld := ⟨CNk_FLAGS n, 3, 3⟩
abbrev CNk_FLAGS_passive (n : Nat) : Fld := ⟨CNk_FLAGS n, 4, 4⟩
abbrev CNk_FLAGS_rx_overrun (n : Nat) : Fld := ⟨CNk_FLAGS n, 5, 5⟩
abbrev CNk_FLAGS_wake (n : Nat) : Fld := ⟨CNk_FLAGS n, 6, 6⟩
abbrev CNk_FLAGS_proto_err (n : Nat) : Fld := ⟨CNk_FLAGS n, 7, 7⟩
abbrev CNk_FLAGS_remote_rx (n : Nat) : Fld := ⟨CNk_FLAGS n, 8, 8⟩
/-- CNk_FLAG_EN (R496, 16). -/
abbrev CNk_FLAG_EN (n : Nat) : Nat := 0x40070008 + 0x1000 * n
abbrev CNk_FLAG_EN_rx (n : Nat) : Fld := ⟨CNk_FLAG_EN n, 0, 0⟩
abbrev CNk_FLAG_EN_tx_done (n : Nat) : Fld := ⟨CNk_FLAG_EN n, 1, 1⟩
abbrev CNk_FLAG_EN_tx_cancel (n : Nat) : Fld := ⟨CNk_FLAG_EN n, 2, 2⟩
abbrev CNk_FLAG_EN_bus_off (n : Nat) : Fld := ⟨CNk_FLAG_EN n, 3, 3⟩
abbrev CNk_FLAG_EN_passive (n : Nat) : Fld := ⟨CNk_FLAG_EN n, 4, 4⟩
abbrev CNk_FLAG_EN_rx_overrun (n : Nat) : Fld := ⟨CNk_FLAG_EN n, 5, 5⟩
abbrev CNk_FLAG_EN_wake (n : Nat) : Fld := ⟨CNk_FLAG_EN n, 6, 6⟩
abbrev CNk_FLAG_EN_proto_err (n : Nat) : Fld := ⟨CNk_FLAG_EN n, 7, 7⟩
abbrev CNk_FLAG_EN_remote_rx (n : Nat) : Fld := ⟨CNk_FLAG_EN n, 8, 8⟩
/-- CNk_EVT_SEL (R496, 16). -/
abbrev CNk_EVT_SEL (n : Nat) : Nat := 0x4007000C + 0x1000 * n
abbrev CNk_EVT_SEL_index (n : Nat) : Fld := ⟨CNk_EVT_SEL n, 3, 0⟩
/-- CNk_EVT_CNT (R496, 16). -/
abbrev CNk_EVT_CNT (n : Nat) : Nat := 0x40070010 + 0x1000 * n
abbrev CNk_EVT_CNT_count (n : Nat) : Fld := ⟨CNk_EVT_CNT n, 31, 0⟩
/-- CNk_NBT (R496, 16). -/
abbrev CNk_NBT (n : Nat) : Nat := 0x40070014 + 0x1000 * n
abbrev CNk_NBT_brp_m1 (n : Nat) : Fld := ⟨CNk_NBT n, 31, 24⟩
abbrev CNk_NBT_tseg1_m1 (n : Nat) : Fld := ⟨CNk_NBT n, 23, 16⟩
abbrev CNk_NBT_tseg2_m1 (n : Nat) : Fld := ⟨CNk_NBT n, 15, 8⟩
abbrev CNk_NBT_sjw_m1 (n : Nat) : Fld := ⟨CNk_NBT n, 7, 0⟩
/-- CNk_DBT (R496, 16). -/
abbrev CNk_DBT (n : Nat) : Nat := 0x40070018 + 0x1000 * n
abbrev CNk_DBT_brp_m1 (n : Nat) : Fld := ⟨CNk_DBT n, 31, 24⟩
abbrev CNk_DBT_tseg1_m1 (n : Nat) : Fld := ⟨CNk_DBT n, 23, 16⟩
abbrev CNk_DBT_tseg2_m1 (n : Nat) : Fld := ⟨CNk_DBT n, 15, 8⟩
abbrev CNk_DBT_sjw_m1 (n : Nat) : Fld := ⟨CNk_DBT n, 7, 0⟩
/-- CNk_CFG (R496, 16). -/
abbrev CNk_CFG (n : Nat) : Nat := 0x4007001C + 0x1000 * n
abbrev CNk_CFG_tdc_offset (n : Nat) : Fld := ⟨CNk_CFG n, 13, 8⟩
abbrev CNk_CFG_listen_only (n : Nat) : Fld := ⟨CNk_CFG n, 4, 4⟩
abbrev CNk_CFG_auto_recover (n : Nat) : Fld := ⟨CNk_CFG n, 3, 3⟩
abbrev CNk_CFG_tdc_en (n : Nat) : Fld := ⟨CNk_CFG n, 2, 2⟩
abbrev CNk_CFG_brs_en (n : Nat) : Fld := ⟨CNk_CFG n, 1, 1⟩
abbrev CNk_CFG_enable (n : Nat) : Fld := ⟨CNk_CFG n, 0, 0⟩
/-- CNk_CTRL (R496, 16). -/
abbrev CNk_CTRL (n : Nat) : Nat := 0x40070020 + 0x1000 * n
abbrev CNk_CTRL_recover (n : Nat) : Fld := ⟨CNk_CTRL n, 0, 0⟩
/-- CNk_FLTf_ID (R496, 16). -/
abbrev CNk_FLTf_ID (n : Nat) (m : Nat) : Nat := 0x40070100 + 0x1000 * n + 0x8 * m
abbrev CNk_FLTf_ID_ide (n : Nat) (m : Nat) : Fld := ⟨CNk_FLTf_ID n m, 31, 31⟩
abbrev CNk_FLTf_ID_en (n : Nat) (m : Nat) : Fld := ⟨CNk_FLTf_ID n m, 30, 30⟩
abbrev CNk_FLTf_ID_id (n : Nat) (m : Nat) : Fld := ⟨CNk_FLTf_ID n m, 28, 0⟩
/-- CNk_FLTf_MASK (R496, 16). -/
abbrev CNk_FLTf_MASK (n : Nat) (m : Nat) : Nat := 0x40070104 + 0x1000 * n + 0x8 * m
abbrev CNk_FLTf_MASK_mask (n : Nat) (m : Nat) : Fld := ⟨CNk_FLTf_MASK n m, 28, 0⟩
/-- CNk_RX_HDR (R496, 16). -/
abbrev CNk_RX_HDR (n : Nat) : Nat := 0x40070200 + 0x1000 * n
abbrev CNk_RX_HDR_ide (n : Nat) : Fld := ⟨CNk_RX_HDR n, 31, 31⟩
abbrev CNk_RX_HDR_fdf (n : Nat) : Fld := ⟨CNk_RX_HDR n, 30, 30⟩
abbrev CNk_RX_HDR_brs (n : Nat) : Fld := ⟨CNk_RX_HDR n, 29, 29⟩
abbrev CNk_RX_HDR_id (n : Nat) : Fld := ⟨CNk_RX_HDR n, 28, 0⟩
/-- CNk_RX_INFO (R496, 16). -/
abbrev CNk_RX_INFO (n : Nat) : Nat := 0x40070204 + 0x1000 * n
abbrev CNk_RX_INFO_filter (n : Nat) : Fld := ⟨CNk_RX_INFO n, 9, 5⟩
abbrev CNk_RX_INFO_valid (n : Nat) : Fld := ⟨CNk_RX_INFO n, 4, 4⟩
abbrev CNk_RX_INFO_dlc (n : Nat) : Fld := ⟨CNk_RX_INFO n, 3, 0⟩
/-- CNk_RX_STAMP (R496, 16). -/
abbrev CNk_RX_STAMP (n : Nat) : Nat := 0x40070208 + 0x1000 * n
abbrev CNk_RX_STAMP_stamp (n : Nat) : Fld := ⟨CNk_RX_STAMP n, 31, 0⟩
/-- CNk_RX_DATAw (R496, 16). -/
abbrev CNk_RX_DATAw (n : Nat) (m : Nat) : Nat := 0x40070210 + 0x1000 * n + 0x4 * m
abbrev CNk_RX_DATAw_word (n : Nat) (m : Nat) : Fld := ⟨CNk_RX_DATAw n m, 31, 0⟩
/-- CNk_RX_POP (R496, 16). -/
abbrev CNk_RX_POP (n : Nat) : Nat := 0x40070250 + 0x1000 * n
abbrev CNk_RX_POP_pop (n : Nat) : Fld := ⟨CNk_RX_POP n, 0, 0⟩
/-- CNk_TXm_HDR (R496, 16). -/
abbrev CNk_TXm_HDR (n : Nat) (m : Nat) : Nat := 0x40070400 + 0x1000 * n + 0x50 * m
abbrev CNk_TXm_HDR_ide (n : Nat) (m : Nat) : Fld := ⟨CNk_TXm_HDR n m, 31, 31⟩
abbrev CNk_TXm_HDR_fdf (n : Nat) (m : Nat) : Fld := ⟨CNk_TXm_HDR n m, 30, 30⟩
abbrev CNk_TXm_HDR_brs (n : Nat) (m : Nat) : Fld := ⟨CNk_TXm_HDR n m, 29, 29⟩
abbrev CNk_TXm_HDR_id (n : Nat) (m : Nat) : Fld := ⟨CNk_TXm_HDR n m, 28, 0⟩
/-- CNk_TXm_CTRL (R496, 16). -/
abbrev CNk_TXm_CTRL (n : Nat) (m : Nat) : Nat := 0x40070404 + 0x1000 * n + 0x50 * m
abbrev CNk_TXm_CTRL_dlc (n : Nat) (m : Nat) : Fld := ⟨CNk_TXm_CTRL n m, 7, 4⟩
abbrev CNk_TXm_CTRL_active_only (n : Nat) (m : Nat) : Fld := ⟨CNk_TXm_CTRL n m, 3, 3⟩
abbrev CNk_TXm_CTRL_pending (n : Nat) (m : Nat) : Fld := ⟨CNk_TXm_CTRL n m, 2, 2⟩
abbrev CNk_TXm_CTRL_cancel (n : Nat) (m : Nat) : Fld := ⟨CNk_TXm_CTRL n m, 1, 1⟩
abbrev CNk_TXm_CTRL_send (n : Nat) (m : Nat) : Fld := ⟨CNk_TXm_CTRL n m, 0, 0⟩
/-- CNk_TXm_STAMP (R496, 16). -/
abbrev CNk_TXm_STAMP (n : Nat) (m : Nat) : Nat := 0x40070408 + 0x1000 * n + 0x50 * m
abbrev CNk_TXm_STAMP_stamp (n : Nat) (m : Nat) : Fld := ⟨CNk_TXm_STAMP n m, 31, 0⟩
/-- CNk_TXm_DATAw (R496, 16). -/
abbrev CNk_TXm_DATAw (n : Nat) (m : Nat) (w : Nat) : Nat := 0x40070410 + 0x1000 * n + 0x50 * m + 0x4 * w
abbrev CNk_TXm_DATAw_word (n : Nat) (m : Nat) (w : Nat) : Fld := ⟨CNk_TXm_DATAw n m w, 31, 0⟩
/-- ET_STATUS (R495, 16). -/
abbrev ET_STATUS : Nat := 0x40074000
abbrev ET_STATUS_sqi : Fld := ⟨ET_STATUS, 4, 2⟩
abbrev ET_STATUS_master : Fld := ⟨ET_STATUS, 1, 1⟩
abbrev ET_STATUS_link_up : Fld := ⟨ET_STATUS, 0, 0⟩
/-- ET_FLAGS (R495, 16). -/
abbrev ET_FLAGS : Nat := 0x40074004
abbrev ET_FLAGS_link_change : Fld := ⟨ET_FLAGS, 0, 0⟩
abbrev ET_FLAGS_rx_drop : Fld := ⟨ET_FLAGS, 1, 1⟩
abbrev ET_FLAGS_crc_err : Fld := ⟨ET_FLAGS, 2, 2⟩
abbrev ET_FLAGS_tx_drop : Fld := ⟨ET_FLAGS, 3, 3⟩
abbrev ET_FLAGS_svc_rx : Fld := ⟨ET_FLAGS, 4, 4⟩
/-- ET_FLAG_EN (R495, 16). -/
abbrev ET_FLAG_EN : Nat := 0x40074008
abbrev ET_FLAG_EN_link_change : Fld := ⟨ET_FLAG_EN, 0, 0⟩
abbrev ET_FLAG_EN_rx_drop : Fld := ⟨ET_FLAG_EN, 1, 1⟩
abbrev ET_FLAG_EN_crc_err : Fld := ⟨ET_FLAG_EN, 2, 2⟩
abbrev ET_FLAG_EN_tx_drop : Fld := ⟨ET_FLAG_EN, 3, 3⟩
abbrev ET_FLAG_EN_svc_rx : Fld := ⟨ET_FLAG_EN, 4, 4⟩
/-- ET_EVT_SEL (R495, 16). -/
abbrev ET_EVT_SEL : Nat := 0x4007400C
abbrev ET_EVT_SEL_index : Fld := ⟨ET_EVT_SEL, 3, 0⟩
/-- ET_EVT_CNT (R495, 16). -/
abbrev ET_EVT_CNT : Nat := 0x40074010
abbrev ET_EVT_CNT_count : Fld := ⟨ET_EVT_CNT, 31, 0⟩
/-- ET_MAC_LO (R495, 16). -/
abbrev ET_MAC_LO : Nat := 0x40074014
abbrev ET_MAC_LO_mac : Fld := ⟨ET_MAC_LO, 31, 0⟩
/-- ET_MAC_HI (R495, 16). -/
abbrev ET_MAC_HI : Nat := 0x40074018
abbrev ET_MAC_HI_mac : Fld := ⟨ET_MAC_HI, 15, 0⟩
/-- ET_IP (R495, 16). -/
abbrev ET_IP : Nat := 0x4007401C
abbrev ET_IP_ip : Fld := ⟨ET_IP, 31, 0⟩
/-- ET_PORTS (R495, 16). -/
abbrev ET_PORTS : Nat := 0x40074020
abbrev ET_PORTS_service : Fld := ⟨ET_PORTS, 31, 16⟩
abbrev ET_PORTS_envelope : Fld := ⟨ET_PORTS, 15, 0⟩
/-- ET_TEL (R495, 16). -/
abbrev ET_TEL : Nat := 0x40074024
abbrev ET_TEL_port : Fld := ⟨ET_TEL, 31, 16⟩
abbrev ET_TEL_period_ms : Fld := ⟨ET_TEL, 15, 0⟩
/-- ET_TEL_DEST (R495, 16). -/
abbrev ET_TEL_DEST : Nat := 0x40074028
abbrev ET_TEL_DEST_ip : Fld := ⟨ET_TEL_DEST, 31, 0⟩
/-- ET_ERR (R495, 16). -/
abbrev ET_ERR : Nat := 0x4007402C
abbrev ET_ERR_crc : Fld := ⟨ET_ERR, 31, 16⟩
abbrev ET_ERR_dropped : Fld := ⟨ET_ERR, 15, 0⟩

end R

/-- One row of the register table: `count` registers from `base`, `stride` apart, each repeated `count2` times
`stride2` apart and `count3` times 4 apart; whether it is a _LO/_HI pair (R18) and whether the pair is q40; and the bits
that are rw, w1c, wo and filled from the image (R16, R479). -/
structure RegRow where
  base : Nat
  stride : Nat
  count : Nat
  stride2 : Nat
  count2 : Nat
  count3 : Nat
  pair : Bool
  q40 : Bool
  rw : Nat
  w1c : Nat
  wo : Nat
  image : Nat
  deriving DecidableEq, Repr

/-- Rows of the register table from 0x40000000. -/
def regRows0_0 : List RegRow := [
  ⟨0x40000000, 0, 1, 0, 1, 1, false, false, 0x0, 0x0, 0x0, 0x0⟩,
  ⟨0x40000004, 0, 1, 0, 1, 1, false, false, 0x0, 0x0, 0x0, 0x3000⟩,
  ⟨0x40000008, 0, 1, 0, 1, 1, false, false, 0x0, 0x0, 0x0, 0x0⟩,
  ⟨0x4000000C, 0, 1, 0, 1, 1, false, false, 0x0, 0xFFFF, 0x0, 0x0⟩,
  ⟨0x40000010, 0, 1, 0, 1, 1, false, false, 0xFFFF, 0x0, 0x0, 0x0⟩,
  ⟨0x40000014, 0, 1, 0, 1, 1, false, false, 0xF, 0x0, 0x0, 0x0⟩,
  ⟨0x40000018, 0, 1, 0, 1, 1, false, false, 0x0, 0x0, 0x0, 0x0⟩,
  ⟨0x4000001C, 0, 1, 0, 1, 1, false, false, 0x0, 0x0, 0xFF, 0x0⟩,
  ⟨0x40000020, 0, 1, 0, 1, 1, false, false, 0x1FFFF, 0x0, 0x0, 0x1FFFF⟩,
  ⟨0x40000024, 0, 1, 0, 1, 1, false, false, 0x1FF01FF, 0x0, 0x0, 0x0⟩,
  ⟨0x40000028, 0, 1, 0, 1, 1, false, false, 0x0, 0x0, 0x0, 0x0⟩,
  ⟨0x4000002C, 0, 1, 0, 1, 1, false, false, 0x0, 0x0, 0x0, 0x0⟩,
  ⟨0x40000030, 0, 1, 0, 1, 1, false, false, 0x0, 0x0, 0x0, 0x0⟩,
  ⟨0x40000034, 0, 1, 0, 1, 1, false, false, 0x0, 0x0, 0x0, 0x0⟩,
  ⟨0x40000038, 0, 1, 0, 1, 1, false, false, 0x7FF0003, 0x0, 0x0, 0x0⟩,
  ⟨0x4000003C, 0, 1, 0, 1, 1, false, false, 0x0, 0x0, 0x0, 0x0⟩,
  ⟨0x40000040, 0, 1, 0, 1, 1, false, false, 0x0, 0x0, 0x7, 0x0⟩,
  ⟨0x40000044, 0, 1, 0, 1, 1, false, false, 0x0, 0x0, 0x0, 0x0⟩,
  ⟨0x40000048, 0, 1, 0, 1, 1, false, false, 0x0, 0x0, 0x0, 0x0⟩,
  ⟨0x4000004C, 0, 1, 0, 1, 1, false, false, 0x0, 0x0, 0x0, 0x0⟩]

/-- Rows of the register table from 0x40000050. -/
def regRows0_1 : List RegRow := [
  ⟨0x40000050, 0, 1, 0, 1, 1, false, false, 0x0, 0x0, 0x0, 0x0⟩,
  ⟨0x40000054, 0, 1, 0, 1, 1, false, false, 0x0, 0x0, 0x0, 0x0⟩,
  ⟨0x40000058, 0, 1, 0, 1, 1, false, false, 0x0, 0x0, 0x0, 0x0⟩,
  ⟨0x4000005C, 0, 1, 0, 1, 1, false, false, 0x0, 0x0, 0x0, 0x0⟩,
  ⟨0x40000060, 0, 1, 0, 1, 1, false, false, 0x0, 0x0, 0x0, 0x0⟩,
  ⟨0x40000064, 0, 1, 0, 1, 1, false, false, 0x0, 0x0, 0x0, 0x0⟩,
  ⟨0x40000068, 0, 1, 0, 1, 1, false, false, 0x0, 0x0, 0x0, 0x0⟩,
  ⟨0x4000006C, 0, 1, 0, 1, 1, false, false, 0x0, 0x0, 0x0, 0x0⟩,
  ⟨0x40000070, 0, 1, 0, 1, 1, false, false, 0x0, 0x0, 0x0, 0x0⟩,
  ⟨0x40000074, 0, 1, 0, 1, 1, false, false, 0x0, 0x0, 0x0, 0x0⟩,
  ⟨0x40004000, 0, 1, 0, 1, 1, false, false, 0x0, 0x0, 0x0, 0x0⟩,
  ⟨0x40004004, 0, 1, 0, 1, 1, false, false, 0x0, 0xFFFF, 0x0, 0x0⟩,
  ⟨0x40004008, 0, 1, 0, 1, 1, false, false, 0xFFFF, 0x0, 0x0, 0x0⟩,
  ⟨0x4000400C, 0, 1, 0, 1, 1, false, false, 0xF, 0x0, 0x0, 0x0⟩,
  ⟨0x40004010, 0, 1, 0, 1, 1, false, false, 0x0, 0x0, 0x0, 0x0⟩,
  ⟨0x40004014, 0, 1, 0, 1, 1, false, false, 0x0, 0x0, 0x0, 0x0⟩,
  ⟨0x40004018, 0, 1, 0, 1, 1, false, false, 0x0, 0x0, 0x0, 0x0⟩,
  ⟨0x4000401C, 0, 1, 0, 1, 1, false, false, 0x0, 0x0, 0x0, 0x0⟩,
  ⟨0x40004020, 0, 1, 0, 1, 1, false, false, 0x0, 0x0, 0x0, 0x0⟩,
  ⟨0x40004024, 0, 1, 0, 1, 1, false, false, 0x0, 0x0, 0x0, 0x0⟩]

/-- Rows of the register table from 0x40004028. -/
def regRows0_2 : List RegRow := [
  ⟨0x40004028, 0, 1, 0, 1, 1, false, false, 0x0, 0x0, 0x0, 0x0⟩,
  ⟨0x4000402C, 0, 1, 0, 1, 1, false, false, 0x0, 0x0, 0x0, 0x0⟩,
  ⟨0x40004030, 0, 1, 0, 1, 1, false, false, 0x0, 0x0, 0x0, 0x0⟩,
  ⟨0x40004034, 0, 1, 0, 1, 1, false, false, 0x0, 0x0, 0x0, 0x0⟩,
  ⟨0x40004038, 0, 1, 0, 1, 1, false, false, 0x0, 0x0, 0x0, 0x0⟩,
  ⟨0x4000403C, 0, 1, 0, 1, 1, false, false, 0x7, 0x0, 0x0, 0x0⟩,
  ⟨0x40004040, 0, 1, 0, 1, 1, false, false, 0x0, 0x0, 0x0, 0x0⟩,
  ⟨0x40004044, 0, 1, 0, 1, 1, false, false, 0x0, 0x0, 0x0, 0x0⟩,
  ⟨0x40004048, 0, 1, 0, 1, 1, false, false, 0x0, 0x0, 0x0, 0x0⟩,
  ⟨0x4000404C, 0, 1, 0, 1, 1, false, false, 0x3FF, 0x0, 0x0, 0x0⟩,
  ⟨0x40004050, 0, 1, 0, 1, 1, false, false, 0x0, 0x0, 0x0, 0x0⟩,
  ⟨0x40004054, 0, 1, 0, 1, 1, false, false, 0xFF03, 0x0, 0x0, 0x0⟩,
  ⟨0x40004058, 0, 1, 0, 1, 1, false, false, 0x0, 0x0, 0x0, 0x0⟩,
  ⟨0x4000405C, 0, 1, 0, 1, 1, false, false, 0x0, 0x0, 0x0, 0x0⟩,
  ⟨0x40004060, 0, 1, 0, 1, 1, false, false, 0x0, 0x0, 0x0, 0xFFFFFFFF⟩,
  ⟨0x40004064, 0, 1, 0, 1, 1, true, true, 0x0, 0x0, 0x0, 0xFFFFFFFF⟩,
  ⟨0x4000406C, 0, 1, 0, 1, 1, true, true, 0x0, 0x0, 0x0, 0xFFFFFFFF⟩,
  ⟨0x40004074, 0, 1, 0, 1, 1, true, true, 0x0, 0x0, 0x0, 0xFFFFFFFF⟩,
  ⟨0x4000407C, 0, 1, 0, 1, 1, false, false, 0x0, 0x0, 0x0, 0xFFFFFFFF⟩,
  ⟨0x40004080, 0, 1, 0, 1, 1, false, false, 0x0, 0x0, 0x0, 0x31⟩]

/-- Rows of the register table from 0x40010000. -/
def regRows1_0 : List RegRow := [
  ⟨0x40010000, 0, 1, 0, 1, 1, false, false, 0x0, 0x0, 0x0, 0x0⟩,
  ⟨0x40010004, 0, 1, 0, 1, 1, false, false, 0x0, 0xFFF, 0x0, 0x0⟩,
  ⟨0x40010008, 0, 1, 0, 1, 1, false, false, 0xFFF, 0x0, 0x0, 0x0⟩,
  ⟨0x4001000C, 0, 1, 0, 1, 1, false, false, 0xF, 0x0, 0x0, 0x0⟩,
  ⟨0x40010010, 0, 1, 0, 1, 1, false, false, 0x0, 0x0, 0x0, 0x0⟩,
  ⟨0x40010014, 0, 1, 0, 1, 1, false, false, 0x0, 0x0, 0x0, 0xFFFFFFFF⟩,
  ⟨0x40010018, 0, 1, 0, 1, 1, false, false, 0x0, 0x0, 0x0, 0x0⟩,
  ⟨0x4001001C, 0, 1, 0, 1, 1, false, false, 0x0, 0x0, 0x0, 0x0⟩,
  ⟨0x40010020, 0, 1, 0, 1, 1, false, false, 0x0, 0x0, 0x0, 0xFF⟩,
  ⟨0x40010024, 0, 1, 0, 1, 1, false, false, 0x0, 0x0, 0x0, 0x0⟩,
  ⟨0x40010028, 0, 1, 0, 1, 1, false, false, 0x0, 0x0, 0x0, 0x0⟩,
  ⟨0x4001002C, 0, 1, 0, 1, 1, false, false, 0x0, 0x0, 0x0, 0x0⟩,
  ⟨0x40010030, 0, 1, 0, 1, 1, false, false, 0x0, 0x0, 0x0, 0x0⟩,
  ⟨0x40010034, 0, 1, 0, 1, 1, false, false, 0x0, 0x0, 0x0, 0x0⟩,
  ⟨0x40010038, 0, 1, 0, 1, 1, false, false, 0x0, 0x0, 0x0, 0x0⟩,
  ⟨0x4001003C, 0, 1, 0, 1, 1, false, false, 0xFF, 0x0, 0x0, 0x0⟩,
  ⟨0x40010040, 0, 1, 0, 1, 1, false, false, 0x0, 0x0, 0x0, 0x3E001⟩,
  ⟨0x40010044, 0, 1, 0, 1, 1, false, false, 0x0, 0x0, 0x0, 0x0⟩,
  ⟨0x40010048, 0, 1, 0, 1, 1, false, false, 0x1F, 0x0, 0x0, 0x0⟩,
  ⟨0x4001004C, 0, 1, 0, 1, 1, false, false, 0x0, 0x0, 0x0, 0x0⟩]

/-- Rows of the register table from 0x40010050. -/
def regRows1_1 : List RegRow := [
  ⟨0x40010050, 0, 1, 0, 1, 1, false, false, 0x0, 0x0, 0x0, 0x0⟩,
  ⟨0x40010054, 0, 1, 0, 1, 1, false, false, 0x0, 0x0, 0x0, 0x0⟩,
  ⟨0x40010058, 0, 1, 0, 1, 1, false, false, 0x0, 0x0, 0x0, 0x0⟩,
  ⟨0x40010060, 4, 8, 0, 1, 1, false, false, 0x0, 0x0, 0x0, 0xFFFFFFFF⟩]

/-- Rows of the register table from 0x40020000. -/
def regRows2_0 : List RegRow := [
  ⟨0x40020000, 16384, 2, 0, 1, 1, false, false, 0x0, 0x0, 0x0, 0x0⟩,
  ⟨0x40020004, 16384, 2, 0, 1, 1, false, false, 0x0, 0xFFF, 0x0, 0x0⟩,
  ⟨0x40020008, 16384, 2, 0, 1, 1, false, false, 0xFFF, 0x0, 0x0, 0x0⟩,
  ⟨0x4002000C, 16384, 2, 0, 1, 1, false, false, 0xF, 0x0, 0x0, 0x0⟩,
  ⟨0x40020010, 16384, 2, 0, 1, 1, false, false, 0x0, 0x0, 0x0, 0x0⟩,
  ⟨0x40020014, 16384, 2, 0, 1, 1, false, false, 0x0, 0x0, 0x0, 0xFF00FF03⟩,
  ⟨0x40020018, 16384, 2, 0, 1, 1, false, false, 0x0, 0x0, 0x0, 0xFFFFFFFF⟩,
  ⟨0x4002001C, 16384, 2, 0, 1, 1, false, false, 0x0, 0x0, 0x0, 0xFFFF⟩,
  ⟨0x40020020, 16384, 2, 0, 1, 1, false, false, 0x0, 0x0, 0x0, 0x0⟩,
  ⟨0x40020030, 16384, 2, 0, 1, 1, true, true, 0x0, 0x0, 0x0, 0xFFFFFFFF⟩,
  ⟨0x40020038, 16384, 2, 0, 1, 1, true, true, 0x0, 0x0, 0x0, 0xFFFFFFFF⟩,
  ⟨0x40020040, 16384, 2, 0, 1, 1, true, true, 0x0, 0x0, 0x0, 0xFFFFFFFF⟩,
  ⟨0x40020048, 16384, 2, 0, 1, 1, true, true, 0x0, 0x0, 0x0, 0xFFFFFFFF⟩,
  ⟨0x40020050, 16384, 2, 0, 1, 1, true, true, 0x0, 0x0, 0x0, 0xFFFFFFFF⟩,
  ⟨0x40020058, 16384, 2, 0, 1, 1, true, true, 0x0, 0x0, 0x0, 0xFFFFFFFF⟩,
  ⟨0x40020060, 16384, 2, 0, 1, 1, true, true, 0x0, 0x0, 0x0, 0xFFFFFFFF⟩,
  ⟨0x40020068, 16384, 2, 0, 1, 1, true, true, 0x0, 0x0, 0x0, 0xFFFFFFFF⟩,
  ⟨0x40020070, 16384, 2, 0, 1, 1, true, true, 0x0, 0x0, 0x0, 0xFFFFFFFF⟩,
  ⟨0x40020078, 16384, 2, 0, 1, 1, true, true, 0x0, 0x0, 0x0, 0xFFFFFFFF⟩,
  ⟨0x40020080, 16384, 2, 0, 1, 1, true, true, 0x0, 0x0, 0x0, 0xFFFFFFFF⟩]

/-- Rows of the register table from 0x40020088. -/
def regRows2_1 : List RegRow := [
  ⟨0x40020088, 16384, 2, 0, 1, 1, true, true, 0x0, 0x0, 0x0, 0xFFFFFFFF⟩,
  ⟨0x40020090, 16384, 2, 0, 1, 1, true, true, 0x0, 0x0, 0x0, 0xFFFFFFFF⟩,
  ⟨0x40020098, 16384, 2, 0, 1, 1, true, true, 0x0, 0x0, 0x0, 0xFFFFFFFF⟩,
  ⟨0x400200A0, 16384, 2, 0, 1, 1, true, true, 0x0, 0x0, 0x0, 0xFFFFFFFF⟩,
  ⟨0x400200A8, 16384, 2, 0, 1, 1, true, true, 0x0, 0x0, 0x0, 0xFFFFFFFF⟩,
  ⟨0x400200B0, 16384, 2, 0, 1, 1, true, true, 0x0, 0x0, 0x0, 0xFFFFFFFF⟩,
  ⟨0x400200B8, 16384, 2, 0, 1, 1, true, true, 0x0, 0x0, 0x0, 0xFFFFFFFF⟩,
  ⟨0x400200C0, 16384, 2, 0, 1, 1, true, true, 0x0, 0x0, 0x0, 0xFFFFFFFF⟩,
  ⟨0x400200C8, 16384, 2, 0, 1, 1, true, true, 0x0, 0x0, 0x0, 0xFFFFFFFF⟩,
  ⟨0x400200D0, 16384, 2, 0, 1, 1, true, true, 0x0, 0x0, 0x0, 0xFFFFFFFF⟩,
  ⟨0x400200D8, 16384, 2, 0, 1, 1, true, true, 0x0, 0x0, 0x0, 0xFFFFFFFF⟩,
  ⟨0x400200E0, 16384, 2, 0, 1, 1, true, true, 0x0, 0x0, 0x0, 0xFFFFFFFF⟩,
  ⟨0x400200E8, 16384, 2, 0, 1, 1, true, true, 0x0, 0x0, 0x0, 0xFFFFFFFF⟩,
  ⟨0x400200F0, 16384, 2, 0, 1, 1, true, true, 0x0, 0x0, 0x0, 0xFFFFFFFF⟩,
  ⟨0x400200F8, 16384, 2, 0, 1, 1, true, true, 0x0, 0x0, 0x0, 0xFFFFFFFF⟩,
  ⟨0x40020100, 16384, 2, 0, 1, 1, true, true, 0x0, 0x0, 0x0, 0xFFFFFFFF⟩,
  ⟨0x40020108, 16384, 2, 0, 1, 1, true, true, 0x0, 0x0, 0x0, 0xFFFFFFFF⟩,
  ⟨0x40020110, 16384, 2, 0, 1, 1, true, true, 0x0, 0x0, 0x0, 0xFFFFFFFF⟩,
  ⟨0x40020118, 16384, 2, 0, 1, 1, true, true, 0x0, 0x0, 0x0, 0xFFFFFFFF⟩,
  ⟨0x40020120, 16384, 2, 0, 1, 1, true, true, 0x0, 0x0, 0x0, 0xFFFFFFFF⟩]

/-- Rows of the register table from 0x4002012C. -/
def regRows2_2 : List RegRow := [
  ⟨0x4002012C, 16384, 2, 0, 1, 1, false, false, 0x0, 0x0, 0x0, 0xFFFFFFFF⟩,
  ⟨0x40020130, 16384, 2, 0, 1, 1, false, false, 0x0, 0x0, 0x0, 0xFF⟩,
  ⟨0x40020134, 16384, 2, 0, 1, 1, false, false, 0x0, 0x0, 0x0, 0xFFFFFF⟩,
  ⟨0x40020138, 16384, 2, 0, 1, 1, false, false, 0x0, 0x0, 0x0, 0xFFFFFFFF⟩,
  ⟨0x4002013C, 16384, 2, 0, 1, 1, false, false, 0xFFFF, 0x0, 0x0, 0x0⟩,
  ⟨0x40020140, 16384, 2, 0, 1, 1, true, true, 0x0, 0x0, 0x0, 0xFFFFFFFF⟩,
  ⟨0x40020148, 16384, 2, 0, 1, 1, false, false, 0x0, 0x0, 0x0, 0x0⟩,
  ⟨0x40020150, 16384, 2, 0, 1, 1, true, true, 0x0, 0x0, 0x0, 0x0⟩,
  ⟨0x40020158, 16384, 2, 0, 1, 1, true, true, 0x0, 0x0, 0x0, 0x0⟩,
  ⟨0x40020160, 16384, 2, 0, 1, 1, true, true, 0x0, 0x0, 0x0, 0x0⟩,
  ⟨0x40020168, 16384, 2, 0, 1, 1, true, true, 0x0, 0x0, 0x0, 0x0⟩,
  ⟨0x40020170, 16384, 2, 0, 1, 1, true, true, 0x0, 0x0, 0x0, 0x0⟩,
  ⟨0x40020178, 16384, 2, 0, 1, 1, true, true, 0x0, 0x0, 0x0, 0x0⟩,
  ⟨0x40020180, 16384, 2, 0, 1, 1, true, true, 0x0, 0x0, 0x0, 0x0⟩,
  ⟨0x40020188, 16384, 2, 0, 1, 1, true, true, 0x0, 0x0, 0x0, 0x0⟩,
  ⟨0x40020190, 16384, 2, 0, 1, 1, false, false, 0x0, 0x0, 0x0, 0x0⟩,
  ⟨0x40020194, 16384, 2, 0, 1, 1, false, false, 0x0, 0x0, 0x0, 0x0⟩,
  ⟨0x40020198, 16384, 2, 0, 1, 1, false, false, 0x0, 0x0, 0x0, 0x0⟩,
  ⟨0x4002019C, 16384, 2, 0, 1, 1, false, false, 0x0, 0x0, 0x0, 0x0⟩,
  ⟨0x400201A0, 16384, 2, 0, 1, 1, false, false, 0x0, 0x0, 0x0, 0x0⟩]

/-- Rows of the register table from 0x40028000. -/
def regRows3_0 : List RegRow := [
  ⟨0x40028000, 16384, 2, 0, 1, 1, false, false, 0x0, 0x0, 0x0, 0x0⟩,
  ⟨0x40028004, 16384, 2, 0, 1, 1, false, false, 0x0, 0xFFFF, 0x0, 0x0⟩,
  ⟨0x40028008, 16384, 2, 0, 1, 1, false, false, 0xFFFF, 0x0, 0x0, 0x0⟩,
  ⟨0x4002800C, 16384, 2, 0, 1, 1, false, false, 0xF, 0x0, 0x0, 0x0⟩,
  ⟨0x40028010, 16384, 2, 0, 1, 1, false, false, 0x0, 0x0, 0x0, 0x0⟩,
  ⟨0x40028014, 16384, 2, 0, 1, 1, false, false, 0x0, 0x0, 0x0, 0x1F7FF⟩,
  ⟨0x40028018, 16384, 2, 0, 1, 1, false, false, 0x3, 0x0, 0x0, 0x0⟩,
  ⟨0x4002801C, 16384, 2, 0, 1, 1, false, false, 0x0, 0x0, 0x0, 0x0⟩,
  ⟨0x40028020, 16384, 2, 0, 1, 1, false, false, 0x0, 0x0, 0x0, 0x0⟩,
  ⟨0x40028024, 16384, 2, 0, 1, 1, false, false, 0x0, 0x0, 0x0, 0x0⟩,
  ⟨0x40028028, 16384, 2, 0, 1, 1, true, true, 0x0, 0x0, 0x0, 0xFFFFFFFF⟩,
  ⟨0x40028030, 16384, 2, 0, 1, 1, true, true, 0x0, 0x0, 0x0, 0xFFFFFFFF⟩,
  ⟨0x40028038, 16384, 2, 0, 1, 1, true, true, 0x0, 0x0, 0x0, 0xFFFFFFFF⟩,
  ⟨0x40028040, 16384, 2, 0, 1, 1, true, true, 0x0, 0x0, 0x0, 0xFFFFFFFF⟩,
  ⟨0x40028048, 16384, 2, 0, 1, 1, true, true, 0x0, 0x0, 0x0, 0xFFFFFFFF⟩,
  ⟨0x40028050, 16384, 2, 0, 1, 1, true, true, 0x0, 0x0, 0x0, 0xFFFFFFFF⟩,
  ⟨0x40028058, 16384, 2, 0, 1, 1, true, true, 0x0, 0x0, 0x0, 0xFFFFFFFF⟩,
  ⟨0x40028060, 16384, 2, 0, 1, 1, true, true, 0x0, 0x0, 0x0, 0xFFFFFFFF⟩,
  ⟨0x40028068, 16384, 2, 0, 1, 1, true, true, 0x0, 0x0, 0x0, 0xFFFFFFFF⟩,
  ⟨0x40028070, 16384, 2, 0, 1, 1, true, true, 0x0, 0x0, 0x0, 0xFFFFFFFF⟩]

/-- Rows of the register table from 0x40028078. -/
def regRows3_1 : List RegRow := [
  ⟨0x40028078, 16384, 2, 0, 1, 1, true, true, 0x0, 0x0, 0x0, 0x0⟩,
  ⟨0x40028080, 16384, 2, 0, 1, 1, true, true, 0x0, 0x0, 0x0, 0x0⟩,
  ⟨0x40028088, 16384, 2, 0, 1, 1, true, true, 0x0, 0x0, 0x0, 0x0⟩,
  ⟨0x40028090, 16384, 2, 0, 1, 1, false, false, 0x0, 0x0, 0x0, 0x0⟩,
  ⟨0x40028094, 16384, 2, 0, 1, 1, false, false, 0x0, 0x0, 0x0, 0x0⟩,
  ⟨0x40028098, 16384, 2, 0, 1, 1, false, false, 0x0, 0x0, 0x0, 0x0⟩]

/-- Rows of the register table from 0x40030000. -/
def regRows4_0 : List RegRow := [
  ⟨0x40030000, 0, 1, 0, 1, 1, false, false, 0x0, 0x0, 0x0, 0x0⟩,
  ⟨0x40030004, 0, 1, 0, 1, 1, false, false, 0x0, 0xFFF, 0x0, 0x0⟩,
  ⟨0x40030008, 0, 1, 0, 1, 1, false, false, 0xFFF, 0x0, 0x0, 0x0⟩,
  ⟨0x4003000C, 0, 1, 0, 1, 1, false, false, 0xF, 0x0, 0x0, 0x0⟩,
  ⟨0x40030010, 0, 1, 0, 1, 1, false, false, 0x0, 0x0, 0x0, 0x0⟩,
  ⟨0x40030014, 0, 1, 0, 1, 1, false, false, 0x0, 0x0, 0x0, 0xFF08⟩,
  ⟨0x40030018, 0, 1, 0, 1, 1, false, false, 0x0, 0x0, 0x0, 0x0⟩,
  ⟨0x4003001C, 0, 1, 0, 1, 1, false, false, 0x0, 0x0, 0x0, 0x0⟩,
  ⟨0x40030020, 0, 1, 0, 1, 1, false, false, 0x0, 0x0, 0x0, 0x0⟩,
  ⟨0x40030028, 0, 1, 0, 1, 1, true, true, 0x0, 0x0, 0x0, 0x0⟩,
  ⟨0x40030030, 0, 1, 0, 1, 1, true, true, 0x0, 0x0, 0x0, 0x0⟩,
  ⟨0x40030100, 64, 6, 0, 1, 1, false, false, 0x0, 0x0, 0x0, 0x1FF1F07⟩,
  ⟨0x40030104, 64, 6, 0, 1, 1, false, false, 0x0, 0x0, 0x0, 0x0⟩,
  ⟨0x40030108, 64, 6, 0, 1, 1, true, true, 0x0, 0x0, 0x0, 0x0⟩,
  ⟨0x40030110, 64, 6, 0, 1, 1, true, true, 0x0, 0x0, 0x0, 0x0⟩,
  ⟨0x40030118, 64, 6, 0, 1, 1, true, true, 0x0, 0x0, 0x0, 0x0⟩,
  ⟨0x40030120, 64, 6, 0, 1, 1, true, true, 0x0, 0x0, 0x0, 0x0⟩,
  ⟨0x40030128, 64, 6, 0, 1, 1, false, false, 0xFFFFFFFF, 0x0, 0x0, 0x0⟩,
  ⟨0x4003012C, 64, 6, 0, 1, 1, false, false, 0x0, 0x0, 0x0, 0x0⟩,
  ⟨0x40030130, 64, 6, 0, 1, 1, false, false, 0x0, 0x0, 0x0, 0x0⟩]

/-- Rows of the register table from 0x40030134. -/
def regRows4_1 : List RegRow := [
  ⟨0x40030134, 64, 6, 0, 1, 1, false, false, 0x0, 0x0, 0x0, 0x0⟩,
  ⟨0x40030138, 64, 6, 0, 1, 1, false, false, 0x0, 0x0, 0x0, 0x0⟩,
  ⟨0x4003013C, 64, 6, 0, 1, 1, false, false, 0x0, 0x0, 0x0, 0xFFFF⟩,
  ⟨0x40034000, 0, 1, 0, 1, 1, false, false, 0x0, 0x0, 0x0, 0x0⟩,
  ⟨0x40034004, 0, 1, 0, 1, 1, false, false, 0x3F, 0x0, 0x0, 0x0⟩,
  ⟨0x40034008, 0, 1, 0, 1, 1, false, false, 0x0, 0x0, 0x0, 0x0⟩,
  ⟨0x40034100, 256, 4, 0, 1, 1, false, false, 0x0, 0x0, 0x0, 0xF13⟩,
  ⟨0x40034104, 256, 4, 0, 1, 1, false, false, 0x0, 0x0, 0x0, 0x0⟩,
  ⟨0x40034108, 256, 4, 0, 1, 1, false, false, 0x0, 0xFFFF, 0x0, 0x0⟩,
  ⟨0x4003410C, 256, 4, 0, 1, 1, false, false, 0xFFFF, 0x0, 0x0, 0x0⟩,
  ⟨0x40034110, 256, 4, 0, 1, 1, false, false, 0x0, 0x0, 0x6, 0x0⟩,
  ⟨0x40034118, 256, 4, 0, 1, 1, true, false, 0x0, 0x0, 0x0, 0x0⟩,
  ⟨0x40034120, 256, 4, 0, 1, 1, true, false, 0xFFFFFFFF, 0x0, 0x0, 0x0⟩,
  ⟨0x40034128, 256, 4, 0, 1, 1, true, false, 0xFFFFFFFF, 0x0, 0x0, 0x0⟩,
  ⟨0x40034130, 256, 4, 0, 1, 1, false, false, 0x2, 0x0, 0x8, 0x0⟩,
  ⟨0x40034134, 256, 4, 0, 1, 1, false, false, 0x0, 0x0, 0x0, 0x0⟩,
  ⟨0x40034138, 256, 4, 0, 1, 1, false, false, 0x0, 0x0, 0x0, 0xFFFFFF⟩,
  ⟨0x4003413C, 256, 4, 0, 1, 1, false, false, 0x0, 0x0, 0x0, 0xFFFFFFFF⟩,
  ⟨0x40034140, 256, 4, 0, 1, 1, false, false, 0x0, 0x0, 0x0, 0xFFFFFFFF⟩,
  ⟨0x40034144, 256, 4, 0, 1, 1, false, false, 0x0, 0x0, 0x0, 0xFFFFFFFF⟩]

/-- Rows of the register table from 0x40034148. -/
def regRows4_2 : List RegRow := [
  ⟨0x40034148, 256, 4, 0, 1, 1, false, false, 0x0, 0x0, 0x0, 0xFFFFFF⟩,
  ⟨0x4003414C, 256, 4, 0, 1, 1, false, false, 0x0, 0x0, 0x0, 0xFFFFFFFF⟩,
  ⟨0x40034150, 256, 4, 0, 1, 1, false, false, 0x0, 0x0, 0x0, 0x0⟩,
  ⟨0x40034154, 256, 4, 0, 1, 1, false, false, 0x0, 0x0, 0x0, 0x0⟩,
  ⟨0x40034158, 256, 4, 0, 1, 1, false, false, 0x0, 0x0, 0x0, 0xFFFFFFFF⟩,
  ⟨0x4003415C, 256, 4, 0, 1, 1, false, false, 0xFFFFFFFF, 0x0, 0x0, 0x0⟩,
  ⟨0x40034160, 256, 4, 0, 1, 1, false, false, 0x0, 0x0, 0x0, 0x0⟩,
  ⟨0x40034164, 256, 4, 0, 1, 1, false, false, 0x0, 0x0, 0x0, 0x3FFFFFFF⟩,
  ⟨0x40034168, 256, 4, 0, 1, 1, false, false, 0x0, 0x0, 0x0, 0x0⟩,
  ⟨0x4003416C, 256, 4, 0, 1, 1, false, false, 0x0, 0x0, 0x0, 0xFFFFFF⟩,
  ⟨0x40034170, 256, 4, 0, 1, 1, false, false, 0x0, 0x0, 0x0, 0xFFFFFF00⟩,
  ⟨0x40034174, 256, 4, 0, 1, 1, false, false, 0x0, 0x0, 0x0, 0xFFFFFFFF⟩,
  ⟨0x40034178, 256, 4, 0, 1, 1, true, false, 0x0, 0x0, 0x0, 0xFFFFFFFF⟩,
  ⟨0x40034180, 256, 4, 0, 1, 1, false, false, 0x0, 0x0, 0x0, 0x0⟩,
  ⟨0x40034184, 256, 4, 0, 1, 1, false, false, 0x0, 0x0, 0x0, 0x0⟩,
  ⟨0x40034188, 256, 4, 0, 1, 1, false, false, 0x0, 0x0, 0x0, 0x0⟩,
  ⟨0x4003418C, 256, 4, 0, 1, 1, false, false, 0x0, 0x0, 0x0, 0x0⟩,
  ⟨0x40034190, 256, 4, 0, 1, 1, false, false, 0x0, 0x0, 0x0, 0xFFFFFFFF⟩,
  ⟨0x40034198, 256, 4, 0, 1, 1, true, false, 0x0, 0x0, 0x0, 0xFFFFFFFF⟩]

/-- Rows of the register table from 0x40038000. -/
def regRows5_0 : List RegRow := [
  ⟨0x40038000, 0, 1, 0, 1, 1, false, false, 0x0, 0x0, 0x0, 0x0⟩,
  ⟨0x40038004, 0, 1, 0, 1, 1, false, false, 0x0, 0xFFFF, 0x0, 0x0⟩,
  ⟨0x40038008, 0, 1, 0, 1, 1, false, false, 0xFFFF, 0x0, 0x0, 0x0⟩,
  ⟨0x4003800C, 0, 1, 0, 1, 1, false, false, 0xF, 0x0, 0x0, 0x0⟩,
  ⟨0x40038010, 0, 1, 0, 1, 1, false, false, 0x0, 0x0, 0x0, 0x0⟩,
  ⟨0x40038100, 128, 2, 0, 1, 1, false, false, 0x0, 0x0, 0x0, 0x7FFF0FB⟩,
  ⟨0x40038104, 128, 2, 0, 1, 1, false, false, 0x0, 0x0, 0x0, 0x0⟩,
  ⟨0x40038108, 128, 2, 0, 1, 1, false, false, 0x0, 0x0, 0x0, 0x0⟩,
  ⟨0x4003810C, 128, 2, 0, 1, 1, false, false, 0x0, 0x0, 0x0, 0x0⟩,
  ⟨0x40038110, 128, 2, 0, 1, 1, false, false, 0x0, 0x0, 0x0, 0x0⟩,
  ⟨0x40038114, 128, 2, 0, 1, 1, false, false, 0x0, 0x0, 0x0, 0xFFFFFFFF⟩,
  ⟨0x40038118, 128, 2, 0, 1, 1, false, false, 0x0, 0x0, 0x0, 0xFFFF⟩,
  ⟨0x4003811C, 128, 2, 0, 1, 1, false, false, 0x0, 0x0, 0x0, 0xFFFF⟩,
  ⟨0x40038120, 128, 2, 0, 1, 1, true, false, 0x0, 0x0, 0x0, 0x0⟩,
  ⟨0x40038128, 128, 2, 0, 1, 1, true, false, 0x0, 0x0, 0x0, 0x0⟩,
  ⟨0x40038130, 128, 2, 0, 1, 1, false, false, 0x0, 0x0, 0x0, 0x0⟩,
  ⟨0x40038134, 128, 2, 0, 1, 1, false, false, 0x0, 0x0, 0x0, 0x0⟩,
  ⟨0x40038138, 128, 2, 0, 1, 1, true, true, 0x0, 0x0, 0x0, 0x0⟩,
  ⟨0x40038140, 128, 2, 0, 1, 1, true, true, 0x0, 0x0, 0x0, 0x0⟩,
  ⟨0x40038148, 128, 2, 0, 1, 1, true, true, 0x0, 0x0, 0x0, 0xFFFFFFFF⟩]

/-- Rows of the register table from 0x40038150. -/
def regRows5_1 : List RegRow := [
  ⟨0x40038150, 128, 2, 0, 1, 1, false, false, 0x0, 0x0, 0x0, 0xFFFFFFFF⟩,
  ⟨0x40038154, 128, 2, 0, 1, 1, false, false, 0x0, 0x0, 0x0, 0xFFFFFFFF⟩,
  ⟨0x40038158, 128, 2, 0, 1, 1, false, false, 0x0, 0x0, 0x0, 0xFFFFFFFF⟩,
  ⟨0x4003815C, 128, 2, 0, 1, 1, false, false, 0x0, 0x0, 0x0, 0xFFFF⟩,
  ⟨0x40038160, 128, 2, 0, 1, 1, false, false, 0x0, 0x0, 0x0, 0x0⟩,
  ⟨0x40038164, 128, 2, 0, 1, 1, false, false, 0x0, 0x0, 0x0, 0x0⟩,
  ⟨0x40038168, 128, 2, 0, 1, 1, false, false, 0x0, 0x0, 0x0, 0x0⟩,
  ⟨0x4003816C, 128, 2, 0, 1, 1, false, false, 0x0, 0x0, 0x0, 0x0⟩,
  ⟨0x40038170, 128, 2, 0, 1, 1, false, false, 0x0, 0x0, 0x0, 0x0⟩,
  ⟨0x40038174, 128, 2, 0, 1, 1, false, false, 0x0, 0x0, 0x0, 0x0⟩,
  ⟨0x4003C000, 0, 1, 0, 1, 1, false, false, 0x0, 0x0, 0x0, 0x0⟩,
  ⟨0x4003C004, 0, 1, 0, 1, 1, false, false, 0x0, 0xFFFF, 0x0, 0x0⟩,
  ⟨0x4003C008, 0, 1, 0, 1, 1, false, false, 0xFFFF, 0x0, 0x0, 0x0⟩,
  ⟨0x4003C00C, 0, 1, 0, 1, 1, false, false, 0xF, 0x0, 0x0, 0x0⟩,
  ⟨0x4003C010, 0, 1, 0, 1, 1, false, false, 0x0, 0x0, 0x0, 0x0⟩,
  ⟨0x4003C014, 0, 1, 0, 1, 1, false, false, 0x0, 0x0, 0x0, 0x0⟩,
  ⟨0x4003C018, 0, 1, 0, 1, 1, false, false, 0x0, 0x0, 0x0, 0x0⟩,
  ⟨0x4003C01C, 0, 1, 0, 1, 1, false, false, 0x0, 0x0, 0x0, 0xFFFFFFFF⟩,
  ⟨0x4003C020, 0, 1, 0, 1, 1, false, false, 0x0, 0x0, 0x0, 0x0⟩,
  ⟨0x4003C024, 0, 1, 0, 1, 1, false, false, 0x0, 0x0, 0x0, 0x0⟩]

/-- Rows of the register table from 0x4003C028. -/
def regRows5_2 : List RegRow := [
  ⟨0x4003C028, 0, 1, 0, 1, 1, false, false, 0xFF, 0x0, 0x0, 0x0⟩,
  ⟨0x4003C02C, 0, 1, 0, 1, 1, false, false, 0x0, 0x0, 0x0, 0xFFFFFFFF⟩,
  ⟨0x4003C030, 4, 2, 0, 1, 1, false, false, 0x0, 0x0, 0x0, 0x0⟩,
  ⟨0x4003C100, 16, 12, 0, 1, 1, false, false, 0x0, 0x0, 0x0, 0xFFFF001B⟩,
  ⟨0x4003C104, 16, 12, 0, 1, 1, false, false, 0x0, 0x0, 0x0, 0x0⟩,
  ⟨0x4003C108, 16, 12, 0, 1, 1, false, false, 0x0, 0x0, 0x0, 0x0⟩,
  ⟨0x4003C10C, 16, 12, 0, 1, 1, false, false, 0x0, 0x0, 0x0, 0x0⟩,
  ⟨0x4003C200, 16, 8, 0, 1, 1, false, false, 0x0, 0x0, 0x0, 0x7⟩,
  ⟨0x4003C204, 16, 8, 0, 1, 1, false, false, 0x0, 0x0, 0x0, 0x0⟩,
  ⟨0x4003C208, 16, 8, 0, 1, 1, false, false, 0x0, 0x0, 0x0, 0x0⟩,
  ⟨0x4003C20C, 16, 8, 0, 1, 1, false, false, 0x0, 0x0, 0x0, 0x0⟩,
  ⟨0x4003C300, 64, 8, 0, 1, 1, false, false, 0x0, 0x0, 0x0, 0xF0F3⟩,
  ⟨0x4003C304, 64, 8, 0, 1, 1, false, false, 0x0, 0x0, 0x0, 0x0⟩,
  ⟨0x4003C308, 64, 8, 0, 1, 1, true, true, 0x0, 0x0, 0x0, 0x0⟩,
  ⟨0x4003C310, 64, 8, 0, 1, 1, true, true, 0x0, 0x0, 0x0, 0x0⟩,
  ⟨0x4003C318, 64, 8, 0, 1, 1, true, true, 0x0, 0x0, 0x0, 0xFFFFFFFF⟩,
  ⟨0x4003C320, 64, 8, 0, 1, 1, true, true, 0x0, 0x0, 0x0, 0xFFFFFFFF⟩,
  ⟨0x4003C328, 64, 8, 0, 1, 1, false, false, 0x0, 0x0, 0x0, 0xFFFFFFFF⟩,
  ⟨0x4003C32C, 64, 8, 0, 1, 1, false, false, 0x0, 0x0, 0x0, 0xFFFF⟩,
  ⟨0x4003C330, 64, 8, 0, 1, 1, true, true, 0x0, 0x0, 0x0, 0xFFFFFFFF⟩]

/-- Rows of the register table from 0x4003C338. -/
def regRows5_3 : List RegRow := [
  ⟨0x4003C338, 64, 8, 0, 1, 1, false, false, 0x0, 0x0, 0x0, 0x0⟩,
  ⟨0x4003C33C, 64, 8, 0, 1, 1, false, false, 0x0, 0x0, 0x0, 0x0⟩]

/-- Rows of the register table from 0x40040000. -/
def regRows6_0 : List RegRow := [
  ⟨0x40040000, 0, 1, 0, 1, 1, false, false, 0x0, 0x0, 0x0, 0x0⟩,
  ⟨0x40040004, 0, 1, 0, 1, 1, false, false, 0x0, 0x7FFF, 0x0, 0x0⟩,
  ⟨0x40040008, 0, 1, 0, 1, 1, false, false, 0x7FFF, 0x0, 0x0, 0x0⟩,
  ⟨0x4004000C, 0, 1, 0, 1, 1, false, false, 0xF, 0x0, 0x0, 0x0⟩,
  ⟨0x40040010, 0, 1, 0, 1, 1, false, false, 0x0, 0x0, 0x0, 0x0⟩,
  ⟨0x40040014, 0, 1, 0, 1, 1, false, false, 0x0, 0x0, 0x0, 0x7FF001F⟩,
  ⟨0x40040018, 0, 1, 0, 1, 1, false, false, 0x0, 0x0, 0x0, 0xFFFFFFFF⟩,
  ⟨0x4004001C, 0, 1, 0, 1, 1, false, false, 0x0, 0x0, 0x0, 0x7FFFFFF⟩,
  ⟨0x40040020, 0, 1, 0, 1, 1, false, false, 0x0, 0x0, 0x0, 0xFFFFFFF⟩,
  ⟨0x40040024, 0, 1, 0, 1, 1, false, false, 0x0, 0x0, 0x0, 0xFFFF⟩,
  ⟨0x40040028, 0, 1, 0, 1, 1, false, false, 0x0, 0x0, 0x0, 0xFFFF⟩,
  ⟨0x4004002C, 0, 1, 0, 1, 1, false, false, 0x0, 0x0, 0x0, 0x0⟩,
  ⟨0x40040030, 0, 1, 0, 1, 1, false, false, 0x0, 0x0, 0x0, 0x0⟩,
  ⟨0x40040034, 0, 1, 0, 1, 1, false, false, 0x0, 0x0, 0x0, 0x0⟩,
  ⟨0x40040038, 0, 1, 0, 1, 1, false, false, 0x0, 0x0, 0x0, 0x0⟩,
  ⟨0x4004003C, 0, 1, 0, 1, 1, false, false, 0x0, 0x0, 0x0, 0xFFFFFFFF⟩,
  ⟨0x40040040, 0, 1, 0, 1, 1, false, false, 0x0, 0x0, 0x0, 0xFFFFFFFF⟩,
  ⟨0x40040044, 0, 1, 0, 1, 1, false, false, 0x0, 0x0, 0x0, 0xFFFFFFFF⟩,
  ⟨0x40040048, 0, 1, 0, 1, 1, false, false, 0x0, 0x0, 0x0, 0xFFFFFFFF⟩,
  ⟨0x4004004C, 0, 1, 0, 1, 1, false, false, 0x0, 0x0, 0x0, 0xFFFFFFFF⟩]

/-- Rows of the register table from 0x40040050. -/
def regRows6_1 : List RegRow := [
  ⟨0x40040050, 0, 1, 0, 1, 1, false, false, 0x0, 0x0, 0x0, 0x0⟩,
  ⟨0x40040054, 0, 1, 0, 1, 1, false, false, 0x0, 0x0, 0x0, 0x0⟩,
  ⟨0x40040058, 0, 1, 0, 1, 1, false, false, 0x0, 0x0, 0x0, 0x0⟩,
  ⟨0x4004005C, 0, 1, 0, 1, 1, false, false, 0x0, 0x0, 0x0, 0x0⟩,
  ⟨0x40040060, 0, 1, 0, 1, 1, false, false, 0x0, 0x0, 0x0, 0x7FF0000⟩,
  ⟨0x40040064, 0, 1, 0, 1, 1, false, false, 0x1, 0x0, 0x2, 0x0⟩,
  ⟨0x40040068, 0, 1, 0, 1, 1, false, false, 0x0, 0x0, 0x0, 0xFF⟩,
  ⟨0x40040400, 4, 32, 0, 1, 1, false, false, 0x0, 0x0, 0x0, 0x1⟩,
  ⟨0x40040480, 4, 32, 0, 1, 1, false, false, 0x0, 0x0, 0x0, 0x7FF00FF⟩,
  ⟨0x40040500, 4, 32, 0, 1, 1, false, false, 0x0, 0x0, 0x0, 0x0⟩,
  ⟨0x40040580, 4, 16, 0, 1, 1, false, false, 0x0, 0x0, 0x0, 0x7FF03FF⟩,
  ⟨0x400405C0, 4, 16, 0, 1, 1, false, false, 0x0, 0x0, 0x1, 0x0⟩]

/-- Rows of the register table from 0x40048000. -/
def regRows7_0 : List RegRow := [
  ⟨0x40048000, 0, 1, 0, 1, 1, false, false, 0x0, 0x0, 0x0, 0x40⟩,
  ⟨0x40048004, 0, 1, 0, 1, 1, false, false, 0x0, 0x3FF, 0x0, 0x0⟩,
  ⟨0x40048008, 0, 1, 0, 1, 1, false, false, 0x3FF, 0x0, 0x0, 0x0⟩,
  ⟨0x4004800C, 0, 1, 0, 1, 1, false, false, 0xF, 0x0, 0x0, 0x0⟩,
  ⟨0x40048010, 0, 1, 0, 1, 1, false, false, 0x0, 0x0, 0x0, 0x0⟩,
  ⟨0x40048014, 0, 1, 0, 1, 1, false, false, 0x0, 0x0, 0x0, 0x0⟩,
  ⟨0x40048018, 0, 1, 0, 1, 1, false, false, 0x0, 0x0, 0x0, 0x0⟩,
  ⟨0x4004801C, 0, 1, 0, 1, 1, false, false, 0x0, 0x0, 0x0, 0x0⟩,
  ⟨0x40048020, 0, 1, 0, 1, 1, false, false, 0x0, 0x0, 0x0, 0x0⟩,
  ⟨0x40048024, 0, 1, 0, 1, 1, false, false, 0x0, 0x0, 0x0, 0x0⟩,
  ⟨0x40048028, 0, 1, 0, 1, 1, false, false, 0x0, 0x0, 0x0, 0x0⟩,
  ⟨0x4004802C, 0, 1, 0, 1, 1, false, false, 0x0, 0x0, 0xFFFF, 0x0⟩,
  ⟨0x40048030, 0, 1, 0, 1, 1, false, false, 0x0, 0x0, 0x0, 0x0⟩,
  ⟨0x40048100, 16, 16, 0, 1, 1, false, false, 0x0, 0x0, 0x0, 0x0⟩,
  ⟨0x40048104, 16, 16, 0, 1, 1, false, false, 0x0, 0x0, 0x0, 0x0⟩,
  ⟨0x40048108, 16, 16, 0, 1, 1, false, false, 0x0, 0x0, 0x0, 0x0⟩,
  ⟨0x4004810C, 16, 16, 0, 1, 1, false, false, 0x0, 0x0, 0x0, 0x0⟩]

/-- Rows of the register table from 0x40050000. -/
def regRows8_0 : List RegRow := [
  ⟨0x40050000, 0, 1, 0, 1, 1, false, false, 0x0, 0x0, 0x0, 0x0⟩,
  ⟨0x40050004, 0, 1, 0, 1, 1, false, false, 0x0, 0x3FF, 0x0, 0x0⟩,
  ⟨0x40050008, 0, 1, 0, 1, 1, false, false, 0x3FF, 0x0, 0x0, 0x0⟩,
  ⟨0x4005000C, 0, 1, 0, 1, 1, false, false, 0xF, 0x0, 0x0, 0x0⟩,
  ⟨0x40050010, 0, 1, 0, 1, 1, false, false, 0x0, 0x0, 0x0, 0x0⟩,
  ⟨0x40050014, 0, 1, 0, 1, 1, false, false, 0x0, 0x0, 0x0, 0x0⟩,
  ⟨0x40050018, 0, 1, 0, 1, 1, false, false, 0x0, 0x0, 0x0, 0x1FFF⟩,
  ⟨0x4005001C, 0, 1, 0, 1, 1, false, false, 0x0, 0x0, 0x0, 0xFF00⟩,
  ⟨0x40050020, 0, 1, 0, 1, 1, false, false, 0x0, 0x0, 0x0, 0x0⟩,
  ⟨0x40050024, 0, 1, 0, 1, 1, false, false, 0x0, 0x0, 0x0, 0x0⟩,
  ⟨0x40050028, 0, 1, 0, 1, 1, false, false, 0x0, 0x0, 0x0, 0x0⟩,
  ⟨0x4005002C, 0, 1, 0, 1, 1, false, false, 0x0, 0x0, 0x0, 0x0⟩,
  ⟨0x40050030, 0, 1, 0, 1, 1, false, false, 0x1F, 0x0, 0x0, 0x0⟩,
  ⟨0x40050034, 0, 1, 0, 1, 1, false, false, 0x0, 0x0, 0x0, 0x0⟩,
  ⟨0x40050038, 0, 1, 0, 1, 1, false, false, 0x0, 0x0, 0x0, 0x0⟩,
  ⟨0x4005003C, 0, 1, 0, 1, 1, false, false, 0x0, 0x0, 0x0, 0x0⟩,
  ⟨0x40050040, 0, 1, 0, 1, 1, false, false, 0x0, 0x0, 0x0, 0x0⟩,
  ⟨0x40050044, 0, 1, 0, 1, 1, false, false, 0x0, 0x0, 0x0, 0x0⟩,
  ⟨0x40050048, 0, 1, 0, 1, 1, false, false, 0x0, 0xFFFFFFFF, 0x0, 0x0⟩,
  ⟨0x4005004C, 0, 1, 0, 1, 1, false, false, 0x0, 0xFFFFFFFF, 0x0, 0x0⟩]

/-- Rows of the register table from 0x40050050. -/
def regRows8_1 : List RegRow := [
  ⟨0x40050050, 0, 1, 0, 1, 1, false, false, 0x0, 0x0, 0x0, 0x0⟩,
  ⟨0x40050054, 0, 1, 0, 1, 1, false, false, 0x0, 0x0, 0x0, 0x0⟩,
  ⟨0x40050100, 32, 64, 0, 1, 1, false, false, 0xFFFFFFFF, 0x0, 0x0, 0x0⟩,
  ⟨0x40050104, 32, 64, 0, 1, 1, false, false, 0xFFFF17, 0x0, 0x8, 0x0⟩,
  ⟨0x40050108, 32, 64, 0, 1, 1, false, false, 0xFFFFFFFF, 0x0, 0x0, 0x0⟩,
  ⟨0x4005010C, 32, 64, 0, 1, 1, false, false, 0x0, 0x0, 0x0, 0x0⟩,
  ⟨0x40050110, 32, 64, 0, 1, 1, false, false, 0x0, 0x0, 0x0, 0x0⟩,
  ⟨0x40054000, 0, 1, 0, 1, 1, false, false, 0x0, 0x0, 0x0, 0xFF0000⟩,
  ⟨0x40054004, 0, 1, 0, 1, 1, false, false, 0x0, 0x3FFF, 0x0, 0x0⟩,
  ⟨0x40054008, 0, 1, 0, 1, 1, false, false, 0x3FFF, 0x0, 0x0, 0x0⟩,
  ⟨0x4005400C, 0, 1, 0, 1, 1, false, false, 0xF, 0x0, 0x0, 0x0⟩,
  ⟨0x40054010, 0, 1, 0, 1, 1, false, false, 0x0, 0x0, 0x0, 0x0⟩,
  ⟨0x40054014, 0, 1, 0, 1, 1, false, false, 0x0, 0x0, 0x0, 0xFFFF00FF⟩,
  ⟨0x40054018, 0, 1, 0, 1, 1, false, false, 0x0, 0x0, 0x0, 0x0⟩,
  ⟨0x40054020, 0, 1, 0, 1, 1, false, false, 0x3F, 0x0, 0x0, 0x0⟩,
  ⟨0x40054024, 0, 1, 0, 1, 1, false, false, 0x0, 0x0, 0x0, 0x3F00⟩,
  ⟨0x40054028, 0, 1, 0, 1, 1, false, false, 0x0, 0x0, 0x0, 0x0⟩,
  ⟨0x4005402C, 0, 1, 0, 1, 1, false, false, 0x0, 0x0, 0x0, 0x0⟩,
  ⟨0x40054030, 0, 1, 0, 1, 1, false, false, 0x3F, 0x0, 0x0, 0x0⟩,
  ⟨0x40054034, 0, 1, 0, 1, 1, false, false, 0x0, 0x0, 0x1, 0x0⟩]

/-- Rows of the register table from 0x40054100. -/
def regRows8_2 : List RegRow := [
  ⟨0x40054100, 4, 61, 0, 1, 1, false, false, 0x0, 0x0, 0x0, 0x0⟩,
  ⟨0x40054200, 4, 61, 0, 1, 1, false, false, 0x0, 0x0, 0xFFFFFFFF, 0x0⟩,
  ⟨0x40055000, 32, 64, 0, 1, 1, false, false, 0x0, 0x0, 0x0, 0xF8FFFFFF⟩,
  ⟨0x40055004, 32, 64, 0, 1, 1, false, false, 0x0, 0x0, 0x0, 0x7FFFFFF⟩,
  ⟨0x40055008, 32, 64, 0, 1, 1, false, false, 0x0, 0x0, 0x0, 0xFFFFFFFF⟩,
  ⟨0x4005500C, 32, 64, 0, 1, 1, false, false, 0x0, 0x0, 0x0, 0xFFFFFFFF⟩,
  ⟨0x40055010, 32, 64, 0, 1, 1, false, false, 0x0, 0x0, 0x0, 0x0⟩,
  ⟨0x40055014, 32, 64, 0, 1, 1, false, false, 0x0, 0x0, 0x0, 0x0⟩,
  ⟨0x40055018, 32, 64, 0, 1, 1, false, false, 0x0, 0x0, 0x0, 0x0⟩,
  ⟨0x4005501C, 32, 64, 0, 1, 1, false, false, 0x0, 0x0, 0x0, 0x0⟩]

/-- Rows of the register table from 0x40060000. -/
def regRows9_0 : List RegRow := [
  ⟨0x40060000, 0, 1, 0, 1, 1, false, false, 0x0, 0x0, 0x0, 0x0⟩,
  ⟨0x40060004, 0, 1, 0, 1, 1, false, false, 0x0, 0x7FFF, 0x0, 0x0⟩,
  ⟨0x40060008, 0, 1, 0, 1, 1, false, false, 0x7FFF, 0x0, 0x0, 0x0⟩,
  ⟨0x4006000C, 0, 1, 0, 1, 1, false, false, 0xF, 0x0, 0x0, 0x0⟩,
  ⟨0x40060010, 0, 1, 0, 1, 1, false, false, 0x0, 0x0, 0x0, 0x0⟩,
  ⟨0x40060014, 0, 1, 0, 1, 1, false, false, 0x0, 0x0, 0x0, 0x0⟩,
  ⟨0x40060018, 0, 1, 0, 1, 1, false, false, 0x0, 0x0, 0x0, 0x0⟩,
  ⟨0x4006001C, 0, 1, 0, 1, 1, false, false, 0x0, 0x0, 0x0, 0xFF⟩,
  ⟨0x40060020, 0, 1, 0, 1, 1, false, false, 0x1, 0x0, 0x0, 0x0⟩,
  ⟨0x40060024, 0, 1, 0, 1, 1, false, false, 0x0, 0x0, 0x0, 0x0⟩,
  ⟨0x40060028, 0, 1, 0, 1, 1, false, false, 0x0, 0x0, 0x0, 0x0⟩,
  ⟨0x4006002C, 0, 1, 0, 1, 1, false, false, 0x0, 0x0, 0x0, 0x0⟩,
  ⟨0x40060030, 0, 1, 0, 1, 1, false, false, 0x0, 0x0, 0x0, 0x0⟩,
  ⟨0x40060034, 0, 1, 0, 1, 1, false, false, 0x0, 0x0, 0x0, 0x0⟩,
  ⟨0x40060038, 0, 1, 0, 1, 1, true, false, 0x0, 0x0, 0x0, 0x0⟩,
  ⟨0x40060040, 0, 1, 0, 1, 1, true, false, 0x0, 0x0, 0x0, 0x0⟩,
  ⟨0x40060048, 0, 1, 0, 1, 1, false, false, 0x0, 0x0, 0x0, 0x0⟩,
  ⟨0x40060050, 0, 1, 0, 1, 1, true, false, 0x0, 0x0, 0x0, 0x0⟩,
  ⟨0x40060058, 0, 1, 0, 1, 1, false, false, 0x0, 0x0, 0xFF, 0x0⟩,
  ⟨0x4006005C, 0, 1, 0, 1, 1, false, false, 0x0, 0x0, 0x0, 0x0⟩]

/-- Rows of the register table from 0x40060060. -/
def regRows9_1 : List RegRow := [
  ⟨0x40060060, 0, 1, 0, 1, 1, false, false, 0x0, 0x0, 0x0, 0x0⟩,
  ⟨0x40060100, 4, 128, 0, 1, 1, false, false, 0xFFFFFFFF, 0x0, 0x0, 0x0⟩,
  ⟨0x40064000, 0, 1, 0, 1, 1, false, false, 0x0, 0x0, 0x0, 0x0⟩,
  ⟨0x40064004, 0, 1, 0, 1, 1, false, false, 0x0, 0x7FF, 0x0, 0x0⟩,
  ⟨0x40064008, 0, 1, 0, 1, 1, false, false, 0x7FF, 0x0, 0x0, 0x0⟩,
  ⟨0x4006400C, 0, 1, 0, 1, 1, false, false, 0xF, 0x0, 0x0, 0x0⟩,
  ⟨0x40064010, 0, 1, 0, 1, 1, false, false, 0x0, 0x0, 0x0, 0x0⟩,
  ⟨0x40064014, 0, 1, 0, 1, 1, false, false, 0x0, 0x0, 0x0, 0x0⟩,
  ⟨0x40064018, 0, 1, 0, 1, 1, false, false, 0x0, 0x0, 0x0, 0x0⟩,
  ⟨0x4006401C, 0, 1, 0, 1, 1, false, false, 0x0, 0x0, 0x0, 0x0⟩,
  ⟨0x40064020, 0, 1, 0, 1, 1, false, false, 0x0, 0x0, 0x0, 0x0⟩,
  ⟨0x40064024, 0, 1, 0, 1, 1, false, false, 0x0, 0x0, 0x0, 0x0⟩,
  ⟨0x40064028, 0, 1, 0, 1, 1, false, false, 0x0, 0x0, 0x0, 0x0⟩,
  ⟨0x4006402C, 0, 1, 0, 1, 1, false, false, 0x0, 0x0, 0x0, 0x0⟩,
  ⟨0x40064030, 0, 1, 0, 1, 1, false, false, 0x0, 0x0, 0x0, 0xFF00⟩,
  ⟨0x40064034, 0, 1, 0, 1, 1, false, false, 0x0, 0x0, 0x0, 0x0⟩,
  ⟨0x40064038, 0, 1, 0, 1, 1, false, false, 0x0, 0x0, 0x0, 0x0⟩]

/-- Rows of the register table from 0x40068000. -/
def regRows10_0 : List RegRow := [
  ⟨0x40068000, 0, 1, 0, 1, 1, false, false, 0x0, 0x0, 0x0, 0xFF0000⟩,
  ⟨0x40068004, 0, 1, 0, 1, 1, false, false, 0x0, 0x3FF, 0x0, 0x0⟩,
  ⟨0x40068008, 0, 1, 0, 1, 1, false, false, 0x3FF, 0x0, 0x0, 0x0⟩,
  ⟨0x4006800C, 0, 1, 0, 1, 1, false, false, 0xF, 0x0, 0x0, 0x0⟩,
  ⟨0x40068010, 0, 1, 0, 1, 1, false, false, 0x0, 0x0, 0x0, 0x0⟩,
  ⟨0x40068014, 0, 1, 0, 1, 1, false, false, 0x0, 0x0, 0x0, 0xFFFFFFFF⟩,
  ⟨0x40068018, 0, 1, 0, 1, 1, false, false, 0x0, 0x0, 0x0, 0xFFFFFFFF⟩,
  ⟨0x4006801C, 0, 1, 0, 1, 1, false, false, 0x0, 0x0, 0x0, 0x0⟩,
  ⟨0x40068020, 0, 1, 0, 1, 1, false, false, 0x0, 0x0, 0x0, 0x0⟩,
  ⟨0x40068024, 0, 1, 0, 1, 1, false, false, 0x0, 0x0, 0x0, 0x0⟩,
  ⟨0x40068028, 0, 1, 0, 1, 1, false, false, 0x0, 0x0, 0x0, 0x0⟩,
  ⟨0x4006802C, 0, 1, 0, 1, 1, false, false, 0x0, 0x0, 0x0, 0x0⟩,
  ⟨0x40068030, 0, 1, 0, 1, 1, false, false, 0x0, 0x0, 0x0, 0x0⟩,
  ⟨0x40068034, 0, 1, 0, 1, 1, false, false, 0x0, 0x0, 0x0, 0x0⟩,
  ⟨0x40068038, 0, 1, 0, 1, 1, false, false, 0x0, 0x0, 0xFFFF, 0x0⟩,
  ⟨0x40068040, 16, 8, 0, 1, 1, false, false, 0x0, 0x0, 0x0, 0x0⟩,
  ⟨0x40068044, 16, 8, 0, 1, 1, false, false, 0x0, 0x0, 0x0, 0x0⟩,
  ⟨0x40068048, 16, 8, 0, 1, 1, false, false, 0x0, 0x0, 0x0, 0x0⟩,
  ⟨0x4006804C, 16, 8, 0, 1, 1, false, false, 0x0, 0x0, 0x0, 0xFFFFFFFF⟩]

/-- Rows of the register table from 0x40070000. -/
def regRows11_0 : List RegRow := [
  ⟨0x40070000, 4096, 2, 0, 1, 1, false, false, 0x0, 0x0, 0x0, 0x0⟩,
  ⟨0x40070004, 4096, 2, 0, 1, 1, false, false, 0x0, 0x1FF, 0x0, 0x0⟩,
  ⟨0x40070008, 4096, 2, 0, 1, 1, false, false, 0x1FF, 0x0, 0x0, 0x0⟩,
  ⟨0x4007000C, 4096, 2, 0, 1, 1, false, false, 0xF, 0x0, 0x0, 0x0⟩,
  ⟨0x40070010, 4096, 2, 0, 1, 1, false, false, 0x0, 0x0, 0x0, 0x0⟩,
  ⟨0x40070014, 4096, 2, 0, 1, 1, false, false, 0x0, 0x0, 0x0, 0xFFFFFFFF⟩,
  ⟨0x40070018, 4096, 2, 0, 1, 1, false, false, 0x0, 0x0, 0x0, 0xFFFFFFFF⟩,
  ⟨0x4007001C, 4096, 2, 0, 1, 1, false, false, 0x0, 0x0, 0x0, 0x3F1F⟩,
  ⟨0x40070020, 4096, 2, 0, 1, 1, false, false, 0x0, 0x0, 0x1, 0x0⟩,
  ⟨0x40070100, 4096, 2, 8, 32, 1, false, false, 0xDFFFFFFF, 0x0, 0x0, 0x0⟩,
  ⟨0x40070104, 4096, 2, 8, 32, 1, false, false, 0x1FFFFFFF, 0x0, 0x0, 0x0⟩,
  ⟨0x40070200, 4096, 2, 0, 1, 1, false, false, 0x0, 0x0, 0x0, 0x0⟩,
  ⟨0x40070204, 4096, 2, 0, 1, 1, false, false, 0x0, 0x0, 0x0, 0x0⟩,
  ⟨0x40070208, 4096, 2, 0, 1, 1, false, false, 0x0, 0x0, 0x0, 0x0⟩,
  ⟨0x40070210, 4096, 2, 4, 16, 1, false, false, 0x0, 0x0, 0x0, 0x0⟩,
  ⟨0x40070250, 4096, 2, 0, 1, 1, false, false, 0x0, 0x0, 0x1, 0x0⟩,
  ⟨0x40070400, 4096, 2, 80, 16, 1, false, false, 0xFFFFFFFF, 0x0, 0x0, 0x0⟩,
  ⟨0x40070404, 4096, 2, 80, 16, 1, false, false, 0xF8, 0x0, 0x3, 0x0⟩,
  ⟨0x40070408, 4096, 2, 80, 16, 1, false, false, 0x0, 0x0, 0x0, 0x0⟩,
  ⟨0x40070410, 4096, 2, 80, 16, 16, false, false, 0xFFFFFFFF, 0x0, 0x0, 0x0⟩]

/-- Rows of the register table from 0x40074000. -/
def regRows11_1 : List RegRow := [
  ⟨0x40074000, 0, 1, 0, 1, 1, false, false, 0x0, 0x0, 0x0, 0x0⟩,
  ⟨0x40074004, 0, 1, 0, 1, 1, false, false, 0x0, 0x1F, 0x0, 0x0⟩,
  ⟨0x40074008, 0, 1, 0, 1, 1, false, false, 0x1F, 0x0, 0x0, 0x0⟩,
  ⟨0x4007400C, 0, 1, 0, 1, 1, false, false, 0xF, 0x0, 0x0, 0x0⟩,
  ⟨0x40074010, 0, 1, 0, 1, 1, false, false, 0x0, 0x0, 0x0, 0x0⟩,
  ⟨0x40074014, 0, 1, 0, 1, 1, false, false, 0x0, 0x0, 0x0, 0x0⟩,
  ⟨0x40074018, 0, 1, 0, 1, 1, false, false, 0x0, 0x0, 0x0, 0x0⟩,
  ⟨0x4007401C, 0, 1, 0, 1, 1, false, false, 0x0, 0x0, 0x0, 0x0⟩,
  ⟨0x40074020, 0, 1, 0, 1, 1, false, false, 0x0, 0x0, 0x0, 0xFFFF⟩,
  ⟨0x40074024, 0, 1, 0, 1, 1, false, false, 0x0, 0x0, 0x0, 0xFFFFFFFF⟩,
  ⟨0x40074028, 0, 1, 0, 1, 1, false, false, 0x0, 0x0, 0x0, 0xFFFFFFFF⟩,
  ⟨0x4007402C, 0, 1, 0, 1, 1, false, false, 0x0, 0x0, 0x0, 0x0⟩]

/-- The register table, every register of every unit. -/
def regTable : List RegRow :=
  regRows0_0 ++
  regRows0_1 ++
  regRows0_2 ++
  regRows1_0 ++
  regRows1_1 ++
  regRows2_0 ++
  regRows2_1 ++
  regRows2_2 ++
  regRows3_0 ++
  regRows3_1 ++
  regRows4_0 ++
  regRows4_1 ++
  regRows4_2 ++
  regRows5_0 ++
  regRows5_1 ++
  regRows5_2 ++
  regRows5_3 ++
  regRows6_0 ++
  regRows6_1 ++
  regRows7_0 ++
  regRows8_0 ++
  regRows8_1 ++
  regRows8_2 ++
  regRows9_0 ++
  regRows9_1 ++
  regRows10_0 ++
  regRows11_0 ++
  regRows11_1

end Sys2Proof.Machine
end

