-- ==== Sys2Proof/Machine/Data.lean ====
section
/-! DEFINITION. Sorted tables with Nat keys: the plain data that registers, counters and memory are held in. -/

namespace Sys2Proof.Machine

/-- A table with Nat keys, kept with keys strictly rising. -/
abbrev Tab (α : Type) := List (Nat × α)

/-- Keys strictly rising. -/
def tabSorted {α : Type} : Tab α → Bool
  | [] => true
  | [_] => true
  | a :: b :: t => decide (a.1 < b.1) && tabSorted (b :: t)

/-- The entry at a key. -/
def tabGet {α : Type} : Tab α → Nat → Option α
  | [], _ => none
  | (k, v) :: t, i => if i = k then some v else tabGet t i

/-- The table with an entry put or replaced. -/
def tabPut {α : Type} : Tab α → Nat → α → Tab α
  | [], i, x => [(i, x)]
  | (k, v) :: t, i, x =>
    if i < k then (i, x) :: (k, v) :: t
    else if i = k then (i, x) :: t
    else (k, v) :: tabPut t i x

/-- The table without an entry. -/
def tabDel {α : Type} : Tab α → Nat → Tab α
  | [], _ => []
  | (k, v) :: t, i => if i = k then tabDel t i else (k, v) :: tabDel t i

/-- Registers by address; an unlisted register reads 0, and no listed one is 0. -/
abbrev Bank := Tab Word

/-- A register of a bank. -/
def bankGet (b : Bank) (a : Nat) : Word := (tabGet b a).getD 0

/-- A bank with a register set, in canonical form. -/
def bankSet (b : Bank) (a : Nat) (w : Word) : Bank :=
  if w = 0 then tabDel b a else tabPut b a w

/-- The canonical form of a bank: keys strictly rising and no entry 0. -/
def bankWf (b : Bank) : Bool := tabSorted b && b.all (fun e => decide (e.2 ≠ 0))

/-- What an unlisted byte of the lane address map reads as: an erased flash byte is 0xFF, a RAM byte 0. -/
def blankByte (a : Nat) : Byte :=
  if 0x30000000 ≤ a ∧ a < 0x32000000 then 0xFF else 0x00

/-- One byte of memory. -/
def memGet (m : List Host.Cell) (a : Nat) : Byte := (tabGet m a).getD (blankByte a)

/-- Memory with one byte set, in canonical form. -/
def memSet (m : List Host.Cell) (a : Nat) (x : Byte) : List Host.Cell :=
  if x = blankByte a then tabDel m a else tabPut m a x

/-- The canonical form of memory: addresses strictly rising, no entry equal to what an unlisted byte reads as. -/
def Memory.wf (m : List Host.Cell) : Bool := tabSorted m && m.all (fun e => decide (e.2 ≠ blankByte e.1))

end Sys2Proof.Machine
end

