-- ==== Sys2Proof/Machine/State.lean ====
section
/-! DEFINITION. The state of the module as plain data: up to three lanes, the marshal, the model's clock and the queue of
waiting commands; and the reasons a command can stop. -/

namespace Sys2Proof.Machine

/-- The members of the family (R3). -/
inductive Member where
  | ts8610 | ts8620 | ts8630
  deriving DecidableEq, Repr, Inhabited

/-- An orderable part (R4): the member and whether it has a marshal. -/
structure Part where
  member : Member
  marshal : Bool
  deriving DecidableEq, Repr, Inhabited

/-- What the last access of a lane's supervisor core to its address map ended in (R8, R16): nothing yet, a write done,
a value read, or a bus error. -/
inductive BusEnd where
  | none
  | done
  | value (w : Word)
  | error
  deriving DecidableEq, Repr, Inhabited

/-- How far a lane is on its way from supply to READY (R519), and its low-power states (R444). -/
inductive Phase where
  | off | boot | hashing | testing | agreeing | agreed | sensing | awarding | ready | asleepNap | asleepDormant | halted
  deriving DecidableEq, Repr, Inhabited

/-- A counted fault of the two-fault matrix (R115, R116), with the stamp of its detection. -/
structure FaultRec where
  cls : Nat
  lane : Nat
  detail : Nat
  stamp : Word
  deriving DecidableEq, Repr, Inhabited

/-- A frame waiting at a link transmitter (R38): its type and payload. -/
structure OutFrame where
  ftype : BitVec 4
  payload : List Word
  deriving DecidableEq, Repr, Inhabited

/-- The segments of one heat's mirror received so far (R41). -/
structure MirrorRx where
  heat : BitVec 16
  count : Nat
  segs : Tab (List Word)
  broken : Bool
  deriving DecidableEq, Repr, Inhabited

/-- A LEAVING message received (R563). -/
structure LeavingRec where
  cause : Nat
  cls : Nat
  atNs : Nat
  deriving DecidableEq, Repr, Inhabited

/-- What a lane holds of another lane: the state of its link channel, the frames waiting for it, and what it last heard
from it (R34 to R47, R563); `ran` is its last heartbeat with role active or standby (R527), and `moved` when the last one of those came
that did not report parked (R482). -/
structure Peer where
  txSeq : BitVec 16
  txq : List OutFrame
  txNow : Option LinkFrame
  rxSeq : Option (BitVec 16)
  badRun : Nat
  downAt : Option Nat
  judged : Bool
  farUnfitAtDown : Bool
  hb : Option (List Word)
  hbAt : Nat
  missed : Nat
  silentAt : Option Nat
  life : Option (BitVec 16)
  leaving : Option LeavingRec
  awaitLeaving : Option Nat
  line : Bool
  lineAt : Nat
  decisionAt : Option Nat
  voteAt : Option Nat
  voteShown : Bool
  pulseMiss : Nat
  mirrorRx : Option MirrorRx
  mirrorReady : Option MirrorRx
  plaus : Option (BitVec 16 × List Word)
  plausPrev : Option (BitVec 16 × List Word)
  judgedHeat : Option (BitVec 16)
  disagree : Nat
  offer : Option (BitVec 64 × Bool)
  offerAt : Nat
  said : Option (LaneId × Nat)
  ran : Option (Nat × List Word)
  moved : Option Nat
  inAt : Option Nat
  outAt : Option Nat
  deriving DecidableEq, Repr, Inhabited

/-- A baton decision in progress in a lane (R70 to R75): the failed lane, the successor, when the deassertion counted,
and when this lane sent CLAIM. -/
structure Decision where
  failed : LaneId
  successor : LaneId
  countedAt : Nat
  stamp : Word
  boundFrom : Nat
  claimAt : Option Nat
  deriving DecidableEq, Repr, Inhabited

/-- Where a relay pass stands in a lane that takes part in it (R63 to R69). -/
inductive PassPhase where
  | offered | checking | accepted | confirmed | zone | returning
  deriving DecidableEq, Repr, Inhabited

/-- A relay pass as one of its two lanes holds it. -/
structure Pass where
  outgoing : LaneId
  incoming : LaneId
  cause : Nat
  urgent : Bool
  heat : BitVec 16
  phase : PassPhase
  zoneAt : Nat
  zoneStamp : Word
  rampAt : Nat
  share : Nat
  returnFrom : Nat
  deriving DecidableEq, Repr, Inhabited

/-- An announced changeover zone of two other lanes (R67): its two lanes and its interval. -/
structure ZoneNote where
  outgoing : LaneId
  incoming : LaneId
  fromNs : Nat
  toNs : Nat
  deriving DecidableEq, Repr, Inhabited

/-- A takeover window (R74): the incoming lane, its end, and the failed lane. -/
structure Window where
  incoming : LaneId
  failed : LaneId
  endsAt : Nat
  countedAt : Nat
  stamp : Word
  checked : Bool
  deriving DecidableEq, Repr, Inhabited

/-- The baton, rotation and pin record of a lane (R62 to R90), with a pin written during a pass (R69), its runs of disagreeing heats by pair, by outvoted lane and by
sensor quantity (R85 to R87, R342), until when the last zone counts as one (R67), and what it adopted of the driving lane's demand and channel states (R57, R78, R229). , with how a return of share ends and the pass that waits for its incoming channel to recover (R228). -/
structure Baton where
  decision : Option Decision
  window : Option Window
  pass : Option Pass
  note : Option ZoneNote
  request : Option (Nat × Option LaneId)
  pinEnds : Option Nat
  dwellEnds : Option Nat
  freshDwell : Bool
  rotTarget : Option LaneId
  deferredAt : Option Nat
  skipped : List LaneId
  handoverWait : Option (LaneId × LaneId × Nat × Word)
  pinHeld : Option (LaneId × Nat)
  inhibited : Bool
  zoneTil : Nat
  gateOffAt : Option Nat
  pairRun : Tab Nat
  outRun : Tab Nat
  sensorRun : Tab Nat
  allRun : Nat
  mirDemand : List Word
  ownDemand : Option (List Word)
  mirMotor : Tab Nat
  sampleBack : Bool
  retry : Option Pass
  deriving DecidableEq, Repr, Inhabited

/-- The saved context of a yielded leg (R190), with the instant at which its run started. -/
structure Saved where
  w : Tab W40
  acc0 : W80
  acc1 : W80
  p : BitVec 4
  pc : Word
  sat : Nat
  spawn : List Nat
  buffer : List Byte
  state : List Byte
  firstAt : Nat
  deriving DecidableEq, Repr, Inhabited

/-- An entry of a deque (R139, R141): its leg, whether it may be taken (R156), whether it runs one heat early, whether it
has been re-spawned in this heat (R152), and the context of a yielded leg. -/
structure Entry where
  leg : Nat
  ready : Bool
  ahead : Bool
  second : Bool
  saved : Option Saved
  deriving DecidableEq, Repr, Inhabited

/-- The run in progress on an engine: when this engine took it up, and when it started, which a yield does not change. -/
structure Run where
  leg : Nat
  ahead : Bool
  second : Bool
  startAt : Nat
  firstAt : Nat
  deriving DecidableEq, Repr, Inhabited

/-- A CORDIC operation an engine waits for (R185): crot or catan, its inputs, the destination pair and the source pair. -/
structure CordicOp where
  atan : Bool
  x : W40
  y : W40
  angle : Word
  rd : Reg
  readyAt : Nat
  deriving DecidableEq, Repr, Inhabited

/-- One engine: its program state (R168), the run it executes, its deque (first entry at the bottom), whether it is
clock-gated, and what its digest port last took (R100). -/
structure Engine where
  w : Tab W40
  acc0 : W80
  acc1 : W80
  p : BitVec 4
  pc : Word
  snapBase : BitVec 16
  bufBase : BitVec 16
  sat : Nat
  spawn : List Nat
  run : Option Run
  gated : Bool
  deque : List Entry
  maxDepth : Nat
  digest : BitVec 64
  cordic : Option CordicOp
  busy : Nat
  deriving DecidableEq, Repr, Inhabited

/-- The done area of a leg whose commit instruction has executed (R146, R158): the engine it ran on, its buffer and
state, its saturation count and its spawn list; and whether that run was a re-spawned one (R152). -/
structure Done where
  leg : Nat
  engine : Nat
  ahead : Bool
  second : Bool
  buffer : List Byte
  state : List Byte
  sat : Nat
  spawn : List Nat
  deriving DecidableEq, Repr, Inhabited

/-- What the scheduler keeps of one leg (R135, R148, R156): its home engine, misses, last end, its frozen snapshot, the
snapshots predicted for this boundary and for the next, where its instance of this heat and the one run ahead stand, and the
hurdle whose commit window its last commit opened (8: the early commit). -/
structure LegRun where
  home : Nat
  misses : Nat
  consecutive : Nat
  lastEngine : Nat
  lastEnd : Nat
  lastTime : Nat
  due : Bool
  spawned : Bool
  ranAhead : Bool
  squashed : Bool
  squashCause : Option Nat
  snap : List W40
  pred : List W40
  predNext : List W40
  satTotal : Nat
  window : Option Nat
  deriving DecidableEq, Repr, Inhabited

/-- Where a snapshot slot takes its value from (R133, R137, R438): a connection's delivered record (two words of its payload, its
arrival stamp) and its valid bit, a register pair, a 32-bit register, a word of the demand in
force, a slot of lane SRAM, or a constant of the image. -/
inductive SnapSrc where
  | pair (addr : Nat)
  | reg (addr : Nat)
  | demand (word : Nat)
  | record (conn word : Nat)
  | recordArrival (conn : Nat)
  | recordValid (conn : Nat)
  | sram (addr : Nat)
  | const (v : W40)
  deriving DecidableEq, Repr, Inhabited

/-- What a predicted snapshot slot predicts (R157). -/
inductive PredKind where
  | rotorAngle (ch : Nat)
  | rotorSpeed (ch : Nat)
  | position (n : Nat)
  | angleTurn (n : Nat)
  | angleRad (n : Nat)
  | speedRad (n : Nat)
  | speedCps (n : Nat)
  | analog (m : Nat)
  deriving DecidableEq, Repr, Inhabited

/-- A predicted snapshot slot with its tolerance band in the input's unit (R155, R159). -/
structure PredSlot where
  slot : Nat
  kind : PredKind
  band : Nat
  deriving DecidableEq, Repr, Inhabited

/-- A corrected word of a run-ahead leg (R155, R160): a buffer or state slot, and the sensitivity slots in the order of
the predicted inputs. -/
structure CorrWord where
  inState : Bool
  slot : Nat
  sens : List Nat
  deriving DecidableEq, Repr, Inhabited

/-- Where a buffer slot is routed (R133): an output stage, a network transmit buffer, lane SRAM, or nowhere (a
sensitivity slot, R184). -/
inductive Route where
  | torque (ch : Nat)
  | solenoid (n : Nat)
  | stepper (n : Nat)
  | outputs
  | nxTx (buf : Nat) (word : Nat)
  | canTx (k : Nat) (m : Nat) (word : Nat)
  | seTx (c : Nat) (word : Nat)
  | sram (addr : Nat)
  | sens
  deriving DecidableEq, Repr, Inhabited

/-- A leg descriptor (R133), with what the compiler adds to it: the entry address, the predicted slots and corrected
words of a run-ahead leg, where lane SRAM holds its committed state, its last committed buffer and its status, and where in
the memory of its home block its committed state lies (R165). -/
structure LegDesc where
  period : Nat
  phase : Nat
  hurdle : Nat
  home : Nat
  entry : Word
  snapshot : List SnapSrc
  buffer : List Route
  stateSlots : Nat
  wcet : Nat
  privileged : Bool
  runAhead : Bool
  mirrored : Bool
  onDemand : Bool
  still : Bool
  pred : List PredSlot
  corr : List CorrWord
  stateAt : Nat
  bufferAt : Nat
  statusAt : Nat
  blockAt : Nat
  deriving DecidableEq, Repr, Inhabited

/-- An output word staged by a commit until its hurdle's window ends (R149); hurdle 8 stands for the early commit. -/
structure Staged where
  hurdle : Nat
  route : Route
  value : W40
  deriving DecidableEq, Repr, Inhabited

/-- The scheduler and commit unit of a lane beyond their registers (R133 to R164), with the index of the heat in its Nolxis
cycle and that cycle's start (R52, R136), the start of the present PWM period by the schedule and by the lane's clock, and its length
where a setting of time has changed it (R199, R415), the end of the boundary's pushes (R139), and the digest that the supervisor core last
wrote (R100). -/
structure Sched where
  engines : List Engine
  legs : Tab LegRun
  done : List Done
  staged : List Staged
  heatAt : Nat
  localSteals : Nat
  remoteSteals : Nat
  missThisHeat : Bool
  started : Bool
  index : Nat
  cycle : Word
  spawnTil : Nat
  perStamp : Option Word
  perFrom : Nat
  perLen : Nat
  coreDigest : BitVec 64
  deriving DecidableEq, Repr, Inhabited

/-- What the first action of a cell or a block at an instant found (R110): the registers FC_SCRATCH, FC_BLOCKS and FC_LAST_SCRATCH, the
scheduler, and the scheduler as the last such action left it. -/
structure Lower where
  at_ : Nat
  scratch : Word
  blocks : Word
  last : Word
  before : Sched
  after : Sched
  deriving DecidableEq, Repr, Inhabited

/-- The fault-containment unit beyond its registers (R93 to R118): the counted faults in order, the corrected errors per
memory, where the scrubber stands and when its pass began, injections missed in this heat, the outcome already reached, the
channels lost here with their classes, the highest level that acted on a fault last, with its instant, and what a cell or block
that acted at an instant found in FC_SCRATCH, FC_BLOCKS and FC_LAST_SCRATCH before (R110). -/
structure Contain where
  faults : List FaultRec
  ce : Tab Nat
  scrubAt : Nat
  scrubFlash : Nat
  periods : Nat
  injMissedNow : Bool
  starving : Bool
  gone : Tab Nat
  actedAt : Option (Nat × Nat)
  lower : Option Lower
  scrubFrom : Option Nat
  deriving DecidableEq, Repr, Inhabited

/-- The integrators and ramps of the library steering leg of one channel (R230 to R233). -/
structure SteerLoop where
  wRef : Int
  aRef : Int
  xW : Int
  wTgt : Int
  thCmd : Word
  deriving DecidableEq, Repr, Inhabited

/-- A motor channel and its power stage beyond their registers (R203 to R261): the observer, the integrators, the compare
values in force, those of the next load, those that the latest sample gives with shares 0.5 and 1.0, and those of a handover update with the
instant of their effect (R209), the lock and catch timers,
the attempt of a pulse test with the time by which its pulses ended early (R223), the shunt gains and offsets with when the bridge last
went off and whether it drives (R239), until when the gates go on after a loss of synchronism (R226), a set held open by a fault and one
held open by a test whose supply is missing (R248, R249), the active short circuit with the instant of its command, and the chopper with its checks in the last heat and in this one (R261). -/
structure Motor where
  thPred : Word
  wInt : Int
  wE : Int
  wHeat : Int
  aE : Int
  xD : Int
  xQ : Int
  idFw : Int
  psiAl : Int
  psiBe : Int
  idRef : Int
  iqRef : Int
  idLast : Int
  iqLast : Int
  odd : Bool
  lockRun : Nat
  lockAt : Option Nat
  catchFrom : Option Nat
  catchWaits : Bool
  losAt : Option Nat
  losOpen : Bool
  nResid : Nat
  nFlux : Nat
  nInj : Nat
  nOpen : Nat
  tests : Nat
  pulseFrom : Nat
  pulseCut : Nat
  gateFrom : Option Nat
  cmp : List Int
  cmpNext : List Int
  cmpHalf : List Int
  cmpFull : List Int
  cmpLate : Option (Nat × List Int)
  steer : SteerLoop
  gains : List W40
  offs : List Int
  offAt : Nat
  driven : Bool
  gatesTil : Nat
  sumSa : Int
  sumSb : Int
  sumSc : Int
  sumN : Nat
  env : BitVec 16
  mirId : Int
  mirIq : Int
  mirXd : Int
  mirXq : Int
  mirFw : Int
  heldOpen : Bool
  testOpen : Bool
  ascHigh : Bool
  ascAt : Nat
  ascKind9 : Bool
  chopTest : Bool
  chopAt : Nat
  chopBadOn : Nat
  chopBadOff : Nat
  chopOkOff : Bool
  chopOkNow : Bool
  chopUntested : Bool
  chopOnNs : Nat
  badCut : Nat
  badLogic : Nat
  deriving DecidableEq, Repr, Inhabited

/-- A stepper channel beyond its registers (R297 to R322): the speed and acceleration with 16 fraction bits, the step being
counted, the filtered homing inputs, the last steps with their stamps and the positions before and after them, newest first, whether it stands after a
stall or stops by dec after a homing that failed, what the last run of the generator started from, a compare written in the
cycle of a step, and the edge to which the position was referenced last with the shift and with homing_required as it was. -/
structure Stepper where
  v : Nat
  a : Int
  dlt : Nat
  vNext : Nat
  stride : Nat
  stepAt : Option Nat
  lastStep : Nat
  homeFrom : Nat
  hist : List (Word × Nat × Nat)
  onTarget : Bool
  onNeg : Bool
  onPos : Bool
  stallRun : Nat
  fullSteps : Nat
  stalled : Bool
  braking : Bool
  prior : Int × Nat
  cmpLate : Option W40
  edged : Option (Word × W40)
  needed : Bool
  deriving DecidableEq, Repr, Inhabited

/-- An angle interface beyond its registers (R326 to R342): run lengths of valid samples and breaches, the lowest breach of
the last sample, the coasting fraction, the speeds in counts/s, the last bin crossing, the radii of the heat in codes, the
angle forms latched with its last valid sample, the substituted angle of the last heat, the instants of the last sample and of the last
valid one, and whether the angle latched at the last boundary was valid. -/
structure Angle where
  good : Nat
  nLow : Nat
  nHigh : Nat
  nRange : Nat
  kind : Nat
  invalidAt : Option Nat
  frac : Rat
  period : Rat
  freq : Rat
  cross : Option (Nat × Bool)
  gap : Option Nat
  radLo : Option Nat
  radHi : Option Nat
  okAngle : Word
  okPos : W40
  okRad : Int
  subst : Option Word
  seenAt : Nat
  okAt : Nat
  heatOk : Bool
  deriving DecidableEq, Repr, Inhabited

/-- A dual-contact pair beyond its registers (R345 to R353): for how many ns each contact has shown a new level, the stamps
of its raw edges, whether both contacts have been inactive together since the pair left 1, since when it is mixed, and the
last raw samples with their instant. -/
structure Contacts where
  n1 : Option Nat
  n2 : Option Nat
  e1 : Word
  e2 : Word
  bothOff : Bool
  mixedAt : Option Nat
  raw1 : Bool
  raw2 : Bool
  sampleAt : Nat
  deriving DecidableEq, Repr, Inhabited

/-- A test-pulse source beyond its registers (R349 to R351). -/
structure PulseSource where
  startAt : Option Nat
  maskEnd : Nat
  checked : Bool
  pre1 : BitVec 12
  pre2 : BitVec 12
  deriving DecidableEq, Repr, Inhabited

/-- An analog input beyond its registers (R362 to R366): its last samples in V or A, newest first, none where invalid;
the value latched one heat earlier (R157); the instant of the last sample, and whether the present invalidity has been reported. -/
structure Analog where
  hist : List (Option Rat)
  last : Int
  kind : Nat
  invalidAt : Option Nat
  seenAt : Nat
  told : Bool
  deriving DecidableEq, Repr, Inhabited

/-- The safety I/O of a lane beyond its registers (R344 to R368); `outAt` is when an output's commanded state last changed or its stage came on, and
`slotsFrom` since when the slots of its off-pulses count (R359). -/
structure SafeIo where
  pairs : Tab Contacts
  tp : Tab PulseSource
  analog : Tab Analog
  supOffAt : Tab Nat
  supOkAt : Tab Nat
  checkFrom : Option Nat
  outAt : Tab Nat
  slotsFrom : Nat
  deriving DecidableEq, Repr, Inhabited

/-- A valid demand that waits for its snapshot (R53): its words, envelope sequence number and production stamp, and the
first TM_NOW its freeze point may lie at. -/
structure DemandRec where
  words : List Word
  seq : Nat
  stamp : Word
  notBefore : Word
  deriving DecidableEq, Repr, Inhabited

/-- The brake loop of one circuit (R282): its integrator and since when its error is too large. -/
structure BrakeLoop where
  x : Int
  errAt : Option Nat
  deriving DecidableEq, Repr, Inhabited

/-- What one run of a library leg gives: its reference, its state words, and whether it reports a clamped target or a tracking error,
the pressure reference of a brake leg, the saturations of its run and of its correction, and whether its reference is 0 whatever its
inputs are (R176, R198, R275, R276, R282). -/
structure LegOut where
  out : Int
  steer : SteerLoop
  loop : BrakeLoop
  report : Bool
  pRef : Int
  sat : Nat
  fixed : Bool
  deriving DecidableEq, Repr, Inhabited

/-- A library leg that has run ahead (R155 to R158): its predicted inputs and what the run gave, with what its snapshot was frozen from
at the push: the registers, the demand, standstill and the parked brake, starvation, and the rotors that are held. -/
structure AheadRun where
  inputs : List W40
  res : LegOut
  regs : Bank
  demand : List Word
  still : Bool
  parkedAt : Option Nat
  starving : Bool
  rotorHold : Tab Word
  deriving DecidableEq, Repr, Inhabited

/-- The steering, feel and brake functions of a lane beyond their registers (R263 to R293), with the production stamp of the speed in
use (R267), the demand's age as last shown (R266), the rotor positions held while an angle is lost in STOP (R127), the library legs that have run ahead and those of them that
wait for the early commit (R156, R160). -/
structure Brake where
  queue : List DemandRec
  seen : Bool
  seenStamp : Word
  decision : Option Nat
  validRun : Nat
  validCycle : Option Nat
  vLast : Int
  movingAt : Option Nat
  slowAt : Option Nat
  decelAt : Option Nat
  zeroAt : Option Nat
  parkAt : Nat
  parkSeen : Option Nat
  released : Bool
  parkedAt : Option Nat
  still : Bool
  overAt : Option Nat
  underAt : Option Nat
  takeover : Bool
  loop0 : BrakeLoop
  loop1 : BrakeLoop
  iLeg : Tab Int
  lastTest : Tab Nat
  speedStamp : Word
  ageWas : Nat
  rotorHold : Tab Word
  ahead : Tab AheadRun
  waiting : Tab LegOut
  deriving DecidableEq, Repr, Inhabited

/-- The leg parameters of the library legs that no register holds (R264 to R289), as the image gives them: q40 in LSB,
times in ns; with the IDs of the legs and the tolerance bands of their predicted inputs (R155, R159). -/
structure Library where
  demandConn : Nat
  speedConn : Nat
  statusConn : Nat
  voteConn : Nat
  rainM : Nat
  rainN : Nat
  decMax : Int
  pMax0 : Int
  pMax1 : Int
  pHold0 : Int
  pHold1 : Int
  gain0 : Int
  gain1 : Int
  circuits : Nat
  tOffMax : Int
  kappaMax : Int
  bases : List Int
  axle1 : Bool
  axle1Gain : Int
  handWheel : Bool
  hydraulic : Bool
  spoolGain : Int
  spoolMax : Int
  spools : List (Nat × Nat)
  tempIn : List Nat
  tcFet : Int
  tEsr : Int
  kSpr : Int
  kDmp : Int
  kCtr : Int
  kFol : Int
  kEnd : Int
  ratio : Int
  tFeelMax : Int
  eOvr : Int
  brakeKi : Int
  brakeKp : Int
  xMax : Int
  ffA : Int
  ffB : Int
  iCoilMax : Int
  pTrackMax : Int
  tRamp : Nat
  tRelMax : Nat
  iRelease : Int
  pReleased : Int
  pApplied : Int
  vLimit : Int
  legIds : List Nat
  bands : Tab (List Nat)
  deriving DecidableEq, Repr, Inhabited

/-- A Nolxis transmit buffer beyond its registers (R380, R383): the committed payload, and whether it is fresh on each
channel. -/
structure TxBuf where
  payload : List Word
  freshX : Bool
  freshY : Bool
  deriving DecidableEq, Repr, Inhabited

/-- What a node has heard of the pacer of one rank (R385): whether in this cycle, and for how many cycles in a row it was
heard or missing on both channels. -/
structure Heard where
  now : Bool
  valid : Nat
  missing : Nat
  deriving DecidableEq, Repr, Inhabited

/-- A grant of a spare slot in a master's list (R396, R397), with the cycles it has been silent. -/
structure Grant where
  slot : Nat
  node : Nat
  silent : Nat
  deriving DecidableEq, Repr, Inhabited

/-- The Nolxis controller of a lane beyond its registers (R380 to R397); `outX` and `outY` are the last frames it sent. `adopted`
and `adoptedCold`: in this cycle it adopted a pacer's time, the latter that of a COLD frame from COLD_ANNOUNCE (R389, R407);
`busyX` and `busyY`: the start and the length in ns of what it sent last in this cycle (R370); `validX` and `validY`: when the last valid
frame came, or the node began to listen, and `lostX` and `lostY`: the port is lost and no valid frame has come since (R394); `rxLen`: how many payload words each receive buffer's front copy took (R381, R435); `grantNew`: its grant came in this cycle (R397); `recount`: the heat count is to be taken from a heartbeat (R415). -/
structure Nolxis where
  tx : Tab TxBuf
  heard : Tab Heard
  devX : Option Int
  devY : Option Int
  corrected : Bool
  verified : Bool
  verify : Nat
  adopted : Bool
  adoptedCold : Bool
  grantNew : Bool
  recount : Bool
  rateRun : Nat
  noSync : Nat
  listenAt : Nat
  coldCycles : Nat
  backoffAt : Nat
  idX : Nat
  idY : Nat
  gotX : Bool
  gotY : Bool
  silentX : Nat
  silentY : Nat
  validX : Nat
  validY : Nat
  rxGot : List Nat
  rxLen : Tab Nat
  slotSeen : List Nat
  grants : List Grant
  claims : List (Nat × Nat)
  tookOver : Bool
  claimWait : Nat
  claimCycle : Option Nat
  correction : Option (Int × Option Int)
  slewLeft : Nat
  slewStep : Int
  timeSetAt : Option Nat
  outX : Option NxFrame
  outY : Option NxFrame
  busyX : Option (Word × Nat)
  busyY : Option (Word × Nat)
  lostX : Bool
  lostY : Bool
  deriving DecidableEq, Repr, Inhabited

/-- A charged rejection that waits for its decision (R436). -/
structure Charge where
  pathB : Bool
  arrival : Word
  atNs : Nat
  cycle : Word
  excused : Bool
  deriving DecidableEq, Repr, Inhabited

/-- A connection of the safety envelope unit beyond its registers (R432 to R438): the delivered payload with its arrival,
the run of acceptances, the last acceptance on each path, rejections that wait, and the start of its block; the copy judged last (its
arrival stamp, whether it came on path B, and when), the channel counters of the two paths, and the payload that firmware stages. -/
structure SeConn where
  payload : List Word
  arrival : Word
  held : Bool
  valid : Bool
  okRun : Nat
  accA : Option (Word × Word)
  accB : Option (Word × Word)
  charges : List Charge
  blockAt : Nat
  judged : Option (Word × Bool × Nat)
  failA : Nat
  failB : Nat
  tx : Tab Word
  deriving DecidableEq, Repr, Inhabited

/-- A datagram that a lane sent on Ethernet: destination address and port, its bytes as words, and the port it comes from. -/
structure Datagram where
  ip : Word
  port : Nat
  words : List Word
  src : Nat
  deriving DecidableEq, Repr, Inhabited

/-- The Nolxis tables of the image that have no register (R385, R395): the pacers by rank with their node IDs and slots, the
spare slots with their claim IDs and eligible nodes, and this lane's branch of the embedded marshal. -/
structure NxImage where
  pacers : List (Nat × Nat)
  spares : List (Nat × Nat × List Nat)
  branch : Nat
  deriving DecidableEq, Repr, Inhabited

/-- A branch of the marshal beyond its registers (R403, R405): when it last broke a rule, when it was disqualified, and when
it last transmitted while the marshal was UNSYNCED. -/
structure Branch where
  violAt : Nat
  disqAt : Nat
  halfAt : Option Nat
  deriving DecidableEq, Repr, Inhabited

/-- A transmission that a branch brings to the marshal (R371, R400 to R403), with the instant of its start and the branches that the
marshal forwards it to: none where it is blocked, or stopped. -/
structure Forwarded where
  branch : Nat
  place : TxPlace
  frame : Option NxFrame
  start : Nat
  dest : List Nat
  deriving DecidableEq, Repr, Inhabited

/-- The marshal of an -M part (R398 to R406): its stored tables, MS_ registers and event counters, branches, the claims it
received by branch, slot and claimant, the grants it read by slot, holder and the instant from which they open (R406), the rank
of the pacer it follows and of each rank when it was last heard and in how many cycles in a row (R385), its TM_NOW at an
instant, offers, the load in progress, the cycles it has verified, the transmissions it forwards, whether it has loaded tables since
its power-up and when it last went to SYNCED (R526), and whether M_VAUX, its OR-ed supply and each management link are up; the start of
its cycle by its own time with its cycle count (R379), its rate in ppb, a deviation that waits for the NIT (R386), the cycle start that
brings SYNCED (R389), the counter at which its last dynamic frame started with the cycle and the offset up to which the counter holds
(R382, R402), whether two forwarded transmissions have overlapped (R403), and when an offer came
last. -/
structure Marshal where
  powered : Bool
  tables : Option MarshalTables
  regs : Bank
  evt : Tab Nat
  branches : Tab Branch
  claims : List (Nat × Nat × Nat)
  grants : List (Nat × Nat × Nat)
  follows : Option Nat
  heard : Tab (Nat × Nat)
  base : Word
  baseAt : Nat
  vaux : Bool
  offerA : Option MarshalTables
  offerB : Option MarshalTables
  loading : Option MarshalTables
  verified : Nat
  verifiedAt : Option Word
  forwarding : List Forwarded
  loaded : Bool
  syncedAt : Option Nat
  linkA : Bool
  linkB : Bool
  linkC : Bool
  cycStamp : Word
  rate : Int
  pendingDev : Option (Nat × Int)
  cycCount : Nat
  syncAt : Option Nat
  dynCyc : Word
  dynId : Nat
  dynOff : Int
  collided : Bool
  offerAt : Nat
  deriving DecidableEq, Repr, Inhabited

/-- An open sleep vote in a lane (R447, R449): the request, when it started, the fit lanes then, and whether the local vote
was refused. -/
structure Vote where
  number : Nat
  target : Nat
  startedAt : Nat
  fit : Nat
  refused : Bool
  sent : Nat
  deriving DecidableEq, Repr, Inhabited

/-- An ageing monitor beyond its registers (R500 to R506): the samples of this hour, the hourly points of the learning, the
number of points, whether its baseline is learned, the operating hours from which it counts its time, the six sums, whether a reset
waits for the update, and whether its damage has reached 1. -/
structure Monitor where
  hour : List Nat
  points : List Nat
  n : Nat
  learned : Bool
  since : Nat
  acc : List Rat
  reset : Bool
  hit : Bool
  deriving DecidableEq, Repr, Inhabited

/-- A bank of the retention store (R458 to R460): its 512 bytes as granules in address order, and its check word, 0 where it is
cleared. The health unit's accumulators of bank 3 stand beside them as the model keeps them (DESIGN CHOICE, log 52): R460 gives no
layout for them. -/
structure RetBank where
  words : List Word
  check : Word
  mons : Tab Monitor
  reversals : List Int
  miner : Rat
  opNs : Nat
  counts : LifeCounts
  deriving DecidableEq, Repr, Inhabited

/-- The power unit of a lane beyond its registers (R443 to R469): the open vote, when a vote last ended, the point of no
return, what was latched after it, the retention store, when the always-on count started, the pads, the presence
contact, whether a withdrawal is a removal (R466), the wake from which the stepper currents rise (R318), whether the units stand still
after a rollback (R448), and the instant of the last wake pin event (R447). -/
structure Power where
  vote : Option Vote
  endedAt : Option Nat
  ponrAt : Option Nat
  dwellLeft : Option Nat
  saved : Bool
  pulses : List LaneId
  banks : Tab RetBank
  aonFrom : Nat
  bootAt : Option Nat
  closedAt : Option Nat
  leavingAt : Option Nat
  removal : Bool
  wokeAt : Option Nat
  rampDue : Bool
  halted : Bool
  pinAt : Option Nat
  deriving DecidableEq, Repr, Inhabited

/-- An open write transaction of the service port (R486): its target base address, offset, length, the next offset
expected, the digest announced, and whether it writes an image slot. -/
structure WriteTxn where
  slot : Bool
  base : Nat
  len : Nat
  next : Nat
  sha : BitVec 256
  deriving DecidableEq, Repr, Inhabited

/-- The configuration and service unit of a lane beyond its registers (R470 to R491): the digests of the hash check, the
candidate and fallback slots, the agreement round, and the service session; `boot` is the candidate of the boot (R475), `scanned` that
the journal was scanned since the lane's reset (R490), and `lost` that a session was lost with the supply (R491). -/
structure Service where
  digestP : BitVec 256
  digestA : BitVec 256
  cand : Option Nat
  fall : Option Nat
  offer : Option (BitVec 64)
  round : Nat
  roundAt : Nat
  running : Option Nat
  nextId : Nat
  reqAt : Nat
  txn : Option WriteTxn
  lastTxn : Option (BitVec 16)
  lastReply : List Word
  gap : Bool
  refusals : List (Word × Nat × Nat)
  boot : Option Nat
  scanned : Bool
  lost : Bool
  deriving DecidableEq, Repr, Inhabited

/-- A received CAN frame in a receive FIFO (R496). -/
structure CanRx where
  frame : CanFrame
  filter : Nat
  stamp : Word
  deriving DecidableEq, Repr, Inhabited

/-- A CAN controller beyond its registers (R492, R493): its receive FIFO, the mailbox whose frame is on the bus, whether
bus-off recovery has been started, and the last frame that each filter took, with its receive stamp (R440). -/
structure Can where
  fifo : List CanRx
  onBus : Option Nat
  recovering : Bool
  heard : Tab (Word × List Word)
  deriving DecidableEq, Repr, Inhabited

/-- The health unit of a lane beyond its registers (R497 to R518): the monitors, the open reversals and the Miner sum of
monitor 6, operating time into the hour, the life counters, the counters at the last update, telemetry, the words of the last record, and what
stands in flash beside the records: of each monitor the hours from which its time counts and the hourly values learned from so far
(log 31). -/
structure Health where
  mons : Tab Monitor
  reversals : List Int
  miner : Rat
  opNs : Nat
  counts : LifeCounts
  powerCycles : Nat
  ceBase : Nat
  conflictBase : List Nat
  recordAt : Option Nat
  telSeq : Word
  telAt : Option Nat
  lastRecord : List Word
  passFrom : Option Nat
  chopNs : Nat
  kept : Tab (Nat × List Nat)
  deriving DecidableEq, Repr, Inhabited

/-- Where a lane stands in its start (R519 to R538): S, whether it is a late lane, when the award came, whether the module
was READY, homing attempts of the spools, lanes heard since the start, the joint lanes among them, the disagreement run of the sensor check, and the
faults that wait for the award (R533). -/
structure Start where
  schedAt : Option Nat
  late : Bool
  awardAt : Option Nat
  awardFailed : Option LaneId
  ready : Bool
  homeTry : Tab Nat
  heard : List LaneId
  joint : List LaneId
  noMajority : Nat
  afterDormant : Bool
  waiting : List FaultRec
  deriving DecidableEq, Repr, Inhabited

/-- A quantity of a PLAUS frame (R85, R229, R341, R366): a committed command, an angle with its speed, or an analog value. -/
inductive PlausSrc where
  | torque (ch : Nat)
  | solenoid (n : Nat)
  | stepper (n : Nat)
  | outputs
  | angle (n : Nat)
  | analog (m : Nat)
  deriving DecidableEq, Repr, Inhabited

/-- A quantity of the PLAUS layout of an image (R38, R85): its source, its first word, its tolerance in LSB where it is a
command, and the sensor quantities (angle n, or analog m as 8 + m) that the image marks as feeding it. -/
structure PlausQty where
  src : PlausSrc
  word : Nat
  tol : Nat
  fedBy : List Nat
  deriving DecidableEq, Repr, Inhabited

/-- An item of the mirror (R56, R320), in the order in which an image lays it out. -/
inductive MirrorItem where
  | demand (w : Nat)
  | motor (ch : Nat)
  | solenoid (n : Nat)
  | stepper (n : Nat)
  | outputs
  | legState (leg : Nat) (slot : Nat)
  | brakeLoop (i : Nat)
  deriving DecidableEq, Repr, Inhabited

/-- The Kamune configuration image as a lane holds it after agreement (R470, R479): the registers it fills, the tables
that have no register, the leg code, what it places in lane SRAM, and its marshal section (type 6), which only an image for an -M part
has. -/
structure Image where
  regs : Bank
  legs : Tab LegDesc
  marshalOn : Chan
  lib : Library
  id : BitVec 64
  nx : NxImage
  plaus : List PlausQty
  mirror : List MirrorItem
  code : List Byte
  sram : List Host.Cell
  marshal : Option MarshalTables
  deriving DecidableEq, Repr, Inhabited

/-- One lane (R24 to R36): its registers, memory and units, and the errors planted by FC_MEM_INJ (R109), by granule: 1 for one
bit, 2 for two; the stamp of the last arrival of each watched source, by class and index, and of the arrival that met each watch timer
since it was armed (R425); and by how much its clock has run ahead of the model's, in 2^-32 ns (R410). -/
structure Lane where
  phase : Phase
  regs : Bank
  staging : Tab Word
  snap : Tab Word
  evt : Tab Nat
  setAt : Nat × List Nat
  bus : BusEnd
  irqWait : Nat
  irqRaise : Bank
  irqEntry : Bank
  mem : List Host.Cell
  tm : Nat
  free : Nat
  image : Image
  peerA : Peer
  peerB : Peer
  peerC : Peer
  takeover : Bool
  refresh : Bool
  stageOn : BitVec 32
  latchHold : BitVec 32
  latchAt : Tab Nat
  baton : Baton
  fc : Contain
  ea : Sched
  mc0 : Motor
  mc1 : Motor
  demand : List Word
  sp : Tab Stepper
  af0 : Angle
  af1 : Angle
  si : SafeIo
  bk : Brake
  nx : Nolxis
  se : Tab SeConn
  pw : Power
  cf : Service
  can : Tab Can
  ha : Health
  st : Start
  armedAt : Tab Word
  arrived : Tab Word
  watchGot : Tab Word
  drift : Int
  ownPlaus : Option (BitVec 16 × List Word)
  ownPlausPrev : Option (BitVec 16 × List Word)
  mailOut : List Datagram
  planted : Tab Nat
  deriving DecidableEq, Repr, Inhabited

/-- The state of the module: the part, the model's clock in ns, its lanes and the commands that wait, first in first
out. -/
structure State where
  part : Part
  now : Nat
  laneA : Lane
  laneB : Lane
  laneC : Lane
  marshal : Marshal
  pending : List Instr
  deriving DecidableEq, Repr

/-- No rule of the spec makes a command of this module a fault of the machine: what goes wrong is part of its state. -/
inductive Fault where
  /-- Raised by no meaning of this model: every command has a next state. -/
  | noFault
  deriving DecidableEq, Repr

/-- Why a command has no next state. -/
inductive Refusal where
  /-- Raised by the dispatch for a command that has no meaning yet; safe. -/
  | notModelled (mnemonic : String)
  deriving DecidableEq, Repr

/-! ### Reset -/

/-- The registers that do not read 0 after a lane reset, by the spec's reset columns: a lane's own identification in LM_ID,
role starting with no baton holder, and the fields that name another value than 0. -/
def resetRegs (p : Part) (code : Nat) : Bank :=
  let member : Nat := match p.member with
    | .ts8610 => 0x10
    | .ts8620 => 0x20
    | .ts8630 => 0x30
  let lanes : Nat := if p.member = .ts8630 then 3 else 2
  let steppers : List Nat := if p.member = .ts8610 then [0, 1] else [0, 1, 2, 3]
  let coils : List Nat := if p.member = .ts8610 then [0, 1, 2, 3] else [0, 1, 2, 3, 4, 5]
  let chans : List Nat := if p.member = .ts8630 then [0, 1] else [0]
  let b0 : Bank := bankSet [] R.LM_ID (BitVec.ofNat 32 (0x01000000 + code * 0x10000 + cond p.marshal 0x1000 0 + lanes * 0x100 + member))
  let b1 := bankSet b0 R.LM_ROLE 0xF
  let b2 := bankSet b1 R.LM_ROT_ENV (BitVec.ofNat 32 (384 * 65536 + 128))
  let b3 := bankSet b2 R.LM_ROT_NEXT 0xFFFFFFFF
  let b4 := bankSet b3 R.FC_SCRUB_PERIOD 10
  let b5 := bankSet b4 (R.EA_HURDLE 0) 3300
  let b6 := if p.member = .ts8630 then bankSet b5 R.EA_STATUS (BitVec.ofNat 32 (2 ^ R.EA_STATUS_ra_present.lo)) else b5
  let b7 := chans.foldl (fun b ch => bankSet b (R.MC_OBS_ENV ch) (BitVec.ofNat 32 (64 * 256 + 16))) b6
  let b8 := bankSet b7 R.BK_DEM_AGE 0xFFFFFFFF
  let b9 := coils.foldl (fun b n => bankSet b (R.BKn_DITHER_ENV n) (BitVec.ofNat 32 (500 * 65536))) b8
  let spOne := fun (b : Bank) (n : Nat) =>
    let a := bankSet b (R.SPn_STATUS n) (BitVec.ofNat 32 (2 ^ (R.SPn_STATUS_homing_required n).lo))
    let d := bankSet a (R.SPn_CUR_ENV n) (BitVec.ofNat 32 (100 * 2 ^ (R.SPn_CUR_ENV_cur_lo n).lo))
    bankSet d (R.SPn_LOAD n) (BitVec.ofNat 32 (1023 * 2 ^ (R.SPn_LOAD_lv n).lo))
  let b10 := steppers.foldl spOne b9
  let b11 := (List.range 32).foldl (fun b n => bankSet b (R.NX_RXn_STAT n) (BitVec.ofNat 32 (255 * 2 ^ (R.NX_RXn_STAT_age n).lo))) b10
  let b12 := bankSet b11 R.PW_WAKE_EN 0x11
  let b13 := bankSet b12 R.PW_WAKE_CAUSE (BitVec.ofNat 32 (2 * 2 ^ R.PW_WAKE_CAUSE_from.lo))
  let can := fun (b : Bank) (k : Nat) =>
    let a := bankSet b (R.CNk_STATUS k) 3
    (List.range 16).foldl (fun x m => bankSet x (R.CNk_TXm_CTRL k m) 8) a
  can (can b13 0) 1

/-- An engine without a run: registers 0 and the windows at their bases (R165, R169). -/
def freshEngine : Engine :=
  { (default : Engine) with snapBase := 0xC000, bufBase := 0xC100, gated := true }

/-- A motor channel right after its reset: the envelope in force is that of MC_OBS_ENV (R234), its catch window starts with the
lane's supply (R222), here at the clock's 0, and its chopper is still to be tested (R524). -/
def freshMotor : Motor := { (default : Motor) with env := 0x4010, catchFrom := some 0, chopUntested := true }

/-- A lane right after its reset (R519): nothing has run, every list is empty, and `free` is where its free values go on. -/
def Lane.fresh (p : Part) (code : Nat) (free : Nat) : Lane :=
  let m : Nat := match p.member with
    | .ts8610 => 8
    | .ts8620 => 16
    | .ts8630 => 24
  let d : Lane := default
  { d with phase := .off, regs := resetRegs p code, free := free, mc0 := freshMotor, mc1 := freshMotor, ea := { d.ea with engines := List.replicate m freshEngine } }

/-- A lane whose supply has just risen: its sensor supplies are on (R368). DESIGN CHOICE (log 79): the reset column of SI_SUPs.on gives
0, R368 has the supplies on from lane power-up; R368 holds. -/
def Lane.risen (p : Part) (code : Nat) : Lane :=
  let l := Lane.fresh p code 0
  { l with phase := .boot, stageOn := 0x03000000, regs := bankSet (bankSet l.regs (R.SI_SUP 0) 1) (R.SI_SUP 1) 1 }

/-- The part that State.reset describes: a TS-8630-M, the member with every unit (DESIGN CHOICE). -/
def resetPart : Part := ⟨.ts8630, true⟩

/-- A marshal without tables, with power and its management links up, all MS_ registers 0 (R398, R409). -/
def Marshal.fresh : Marshal := { (default : Marshal) with powered := true, linkA := true, linkB := true, linkC := true }

/-- The module right after reset: every lane supply has just risen (step 1 of R519), nothing is in memory, and no command
waits. -/
def State.reset : State :=
  ⟨resetPart, 0, Lane.risen resetPart 0, Lane.risen resetPart 1, Lane.risen resetPart 2, Marshal.fresh, []⟩

end Sys2Proof.Machine
end

