-- ==== Sys2Proof/Machine/Ops.lean ====
section
/-! DEFINITION. The named operations over a lane: registers, fields and pairs (R16 to R20), memory, stamps, the members'
structure (R3), and where a command acts. -/

namespace Sys2Proof.Machine

/-- What a command knows beside the lane it acts on: the part, the lane's name and the lane's clock in ns. -/
structure Ctx where
  part : Part
  id : LaneId
  now : Nat
  deriving DecidableEq, Repr, Inhabited

/-! ### Members and lanes (R3) -/

/-- Lane code of LM_ID.this_lane (R92). -/
def laneCode : LaneId → Nat
  | .a => 0
  | .b => 1
  | .c => 2

/-- The lane of a code; other codes name none. -/
def laneOf : Nat → Option LaneId
  | 0 => some .a
  | 1 => some .b
  | 2 => some .c
  | _ => none

/-- Whether a member has three lanes (R3). -/
def isTriple (m : Member) : Bool := decide (m = .ts8630)

/-- Lanes of a member (R3). -/
def lanesOf (m : Member) : List LaneId := if isTriple m then [.a, .b, .c] else [.a, .b]

/-- Engines per lane (R3). -/
def engineCount : Member → Nat
  | .ts8610 => 8
  | .ts8620 => 16
  | .ts8630 => 24

/-- Blocks per lane (R3). -/
def blockCount (m : Member) : Nat := engineCount m / 4

/-- Motor channels per lane (R3). -/
def motorCount (m : Member) : Nat := if isTriple m then 2 else 1

/-- Stepper channels per lane (R3). -/
def stepperCount : Member → Nat
  | .ts8610 => 2
  | _ => 4

/-- Solenoid drivers per lane (R3). -/
def solenoidCount : Member → Nat
  | .ts8610 => 4
  | _ => 6

/-- The next lane in the cyclic order A, B, C, A of the member. -/
def nextLane (m : Member) : LaneId → LaneId
  | .a => .b
  | .b => if isTriple m then .c else .a
  | .c => .a

/-- The previous lane in the cyclic order. -/
def prevLane (m : Member) : LaneId → LaneId
  | .a => if isTriple m then .c else .b
  | .b => .a
  | .c => .b

/-- The other lanes of the member, in the order A, B, C. -/
def othersOf (c : Ctx) : List LaneId := (lanesOf c.part.member).filter (fun x => decide (x ≠ c.id))

/-! ### Registers, fields and pairs -/

/-- A register. -/
def Lane.rd (l : Lane) (a : Nat) : Word := bankGet l.regs a

/-- A register set. -/
def Lane.wr (l : Lane) (a : Nat) (w : Word) : Lane := { l with regs := bankSet l.regs a w }

/-- The value of a field within a word. -/
def fldOf (f : Fld) (w : Word) : Nat := w.toNat / 2 ^ f.lo % 2 ^ (f.hi - f.lo + 1)

/-- A word with a field replaced. -/
def fldPut (f : Fld) (w : Word) (v : Nat) : Word :=
  BitVec.ofNat 32 (w.toNat - fldOf f w * 2 ^ f.lo + v % 2 ^ (f.hi - f.lo + 1) * 2 ^ f.lo)

/-- A field of a register. -/
def Lane.get (l : Lane) (f : Fld) : Nat := fldOf f (l.rd f.addr)

/-- A one-bit field. -/
def Lane.bit (l : Lane) (f : Fld) : Bool := decide (l.get f ≠ 0)

/-- A field set. -/
def Lane.put (l : Lane) (f : Fld) (v : Nat) : Lane := l.wr f.addr (fldPut f (l.rd f.addr) v)

/-- A one-bit field set. -/
def Lane.putB (l : Lane) (f : Fld) (b : Bool) : Lane := l.put f (cond b 1 0)

/-- A counter field raised by 1, saturating. -/
def Lane.inc (l : Lane) (f : Fld) : Lane := l.put f (min (l.get f + 1) (2 ^ (f.hi - f.lo + 1) - 1))

/-- A counter field raised by n, saturating. -/
def Lane.incBy (l : Lane) (f : Fld) (n : Nat) : Lane := l.put f (min (l.get f + n) (2 ^ (f.hi - f.lo + 1) - 1))

/-- The signed value of a field (two's complement). -/
def Lane.getS (l : Lane) (f : Fld) : Int := (BitVec.ofNat (f.hi - f.lo + 1) (l.get f)).toInt

/-- The 40 bits of a _LO/_HI pair (R18). -/
def Lane.pair (l : Lane) (a : Nat) : W40 := (l.rd (a + 4)).setWidth 8 ++ l.rd a

/-- The signed value of a q40 pair, in LSB. -/
def Lane.q (l : Lane) (a : Nat) : Int := qv (l.pair a)

/-- The unsigned value of a u40 pair. -/
def Lane.u (l : Lane) (a : Nat) : Nat := (l.pair a).toNat

/-- A q40 pair set: the upper bits of _HI are copies of bit 39 (R18). -/
def Lane.putQ (l : Lane) (a : Nat) (v : Int) : Lane :=
  (l.wr a ((qw v).setWidth 32)).wr (a + 4) ((((qw v).extractLsb' 32 8)).signExtend 32)

/-- A u40 pair set: the upper bits of _HI are 0 (R18). -/
def Lane.putU (l : Lane) (a : Nat) (v : Nat) : Lane :=
  (l.wr a (BitVec.ofNat 32 v)).wr (a + 4) (((BitVec.ofNat 40 v).extractLsb' 32 8).setWidth 32)

/-! ### Time and free values -/

/-- TM_NOW, the upper 32 bits of the lane's time counter (R410). -/
def Lane.stamp (l : Lane) : Word := BitVec.ofNat 32 (l.tm / 2 ^ 32)

/-- Register `a` takes the present TM_NOW. -/
def Lane.stampAt (l : Lane) (a : Nat) : Lane := l.wr a l.stamp

/-- The lane after a free value has been drawn. -/
def Lane.draw (l : Lane) : Lane := { l with free := l.free + 1 }

/-! ### Memory -/

/-- A byte of the lane address map. -/
def Lane.byte (l : Lane) (a : Nat) : Byte := memGet l.mem a

/-- A byte of the lane address map set; the write forms the check code of its granule anew (R105, R109). -/
def Lane.setByte (l : Lane) (a : Nat) (x : Byte) : Lane :=
  { l with mem := memSet l.mem a x, planted := tabDel l.planted (a / 4 * 4) }

/-- `n` bytes from address `a`. -/
def Lane.bytes (l : Lane) (a : Nat) : Nat → List Byte
  | 0 => []
  | n + 1 => l.byte a :: l.bytes (a + 1) n

/-- Bytes stored from address `a`. -/
def Lane.setBytes (l : Lane) (a : Nat) : List Byte → Lane
  | [] => l
  | x :: t => (l.setByte a x).setBytes (a + 1) t

/-- A 32-bit granule, least significant byte first. -/
def Lane.granule (l : Lane) (a : Nat) : Word :=
  l.byte (a + 3) ++ l.byte (a + 2) ++ l.byte (a + 1) ++ l.byte a

/-- A 32-bit granule stored, least significant byte first. -/
def Lane.setGranule (l : Lane) (a : Nat) (w : Word) : Lane := l.setBytes a (wordBytes w)

/-- The eight bytes of a 40-bit value in its slot (R170). -/
def slotBytes (v : W40) : List Byte :=
  wordBytes (v.setWidth 32) ++ wordBytes ((v.extractLsb' 32 8).signExtend 32)

/-- A 40-bit slot read (R170): the high granule's bits 31:8 are ignored. -/
def Lane.slot (l : Lane) (a : Nat) : W40 := l.byte (a + 4) ++ l.granule a

/-- A 40-bit slot stored (R170). -/
def Lane.setSlot (l : Lane) (a : Nat) (v : W40) : Lane := l.setBytes a (slotBytes v)

/-! ### Peers -/

/-- What the lane holds of another lane. -/
def Lane.peer (l : Lane) : LaneId → Peer
  | .a => l.peerA
  | .b => l.peerB
  | .c => l.peerC

/-- The record of another lane replaced. -/
def Lane.setPeer (l : Lane) (x : LaneId) (p : Peer) : Lane :=
  match x with
  | .a => { l with peerA := p }
  | .b => { l with peerB := p }
  | .c => { l with peerC := p }

/-! ### Motor channels -/

/-- Motor channel `ch` beyond its registers. -/
def Lane.mc (l : Lane) (ch : Nat) : Motor := if ch = 0 then l.mc0 else l.mc1

/-- Motor channel `ch` replaced. -/
def Lane.setMc (l : Lane) (ch : Nat) (m : Motor) : Lane :=
  if ch = 0 then { l with mc0 := m } else { l with mc1 := m }

/-! ### Roles -/

/-- Role codes of R39. -/
def roleStandby : Nat := 0
/-- Role active. -/
def roleActive : Nat := 1
/-- Role unfit. -/
def roleUnfit : Nat := 2
/-- Role starting. -/
def roleStarting : Nat := 3

/-- The lane's role. -/
def Lane.role (l : Lane) : Nat := l.get R.LM_ROLE_role

/-- The lane is active. -/
def Lane.active (l : Lane) : Bool := decide (l.role = roleActive)

/-- The lane is a standby. -/
def Lane.standby (l : Lane) : Bool := decide (l.role = roleStandby)

/-- The lane is fit: active or standby (R11). -/
def Lane.fit (l : Lane) : Bool := l.active || l.standby

/-- The bit of a lane in a three-lane mask whose highest bit is A (R39, R92). -/
def laneBit (x : LaneId) : Nat := 2 - laneCode x

/-- Whether a mask names a lane. -/
def maskHas (m : Nat) (x : LaneId) : Bool := Nat.testBit m (laneBit x)

/-- A mask with one lane's bit set or cleared. -/
def maskSet (m : Nat) (x : LaneId) (b : Bool) : Nat :=
  let k := 2 ^ laneBit x
  let r := if Nat.testBit m (laneBit x) then m - k else m
  if b then r + k else r

/-- Whether this lane counts lane `x` as fit. -/
def Lane.knowsFit (l : Lane) (x : LaneId) : Bool := maskHas (l.get R.LM_ROLE_fit_lanes) x

/-- The lane's record of another lane's fitness. -/
def Lane.setFit (l : Lane) (x : LaneId) (b : Bool) : Lane :=
  l.put R.LM_ROLE_fit_lanes (maskSet (l.get R.LM_ROLE_fit_lanes) x b)

/-- The lanes counted as fit, in the order A, B, C. -/
def Lane.fitLanes (c : Ctx) (l : Lane) : List LaneId := (lanesOf c.part.member).filter l.knowsFit

/-- The lane that holds the baton in this lane's record. -/
def Lane.batonLane (l : Lane) : Option LaneId := laneOf (l.get R.LM_ROLE_baton_lane)

/-- The remaining life of a lane as this lane knows it, in hours (R507). -/
def Lane.lifeOf (l : Lane) : LaneId → Nat
  | .a => l.get R.LM_LIFE_AB_life_a
  | .b => l.get R.LM_LIFE_AB_life_b
  | .c => l.get R.LM_LIFE_C_life_c

/-- The remaining life of a lane noted. -/
def Lane.setLifeOf (l : Lane) (x : LaneId) (h : Nat) : Lane :=
  match x with
  | .a => l.put R.LM_LIFE_AB_life_a h
  | .b => l.put R.LM_LIFE_AB_life_b h
  | .c => l.put R.LM_LIFE_C_life_c h

/-- Park is applied at standstill. -/
def Lane.parked (l : Lane) : Bool := l.bit R.FC_MODE_parked

/-- A lane has power and is not asleep. -/
def Lane.powered (l : Lane) : Bool :=
  match l.phase with
  | .off => false
  | .asleepNap => false
  | .asleepDormant => false
  | _ => true

/-- A lane whose units run: it has power, is not asleep, and has not passed the point of no return, where every unit but the power
unit stops (R451). -/
def Lane.alive (l : Lane) : Bool := l.powered && decide (l.get R.PW_STATUS_state ≠ 4)

/-- The units stand still for a sleep vote (R448): while it is open, and after a rollback until the next heat boundary. -/
def Lane.unitsHalt (l : Lane) : Bool := l.pw.vote.isSome || l.pw.halted

/-- The heat number of link frames: bits 15:0 of the heat count (R136). -/
def Lane.heat16 (l : Lane) : BitVec 16 := (l.rd R.EA_HEAT_CNT).setWidth 16

/-- The heat length in ns. -/
def Lane.heatLen (l : Lane) : Nat := (l.rd R.EA_HEAT_LEN).toNat

/-! ### Where a command acts -/

/-- What a command answers. -/
abbrev Answer := Host.Outcome State Fault Refusal

/-- A lane of the module. -/
def State.lane (s : State) : LaneId → Lane
  | .a => s.laneA
  | .b => s.laneB
  | .c => s.laneC

/-- A lane of the module replaced. -/
def State.setLane (s : State) (ln : LaneId) (l : Lane) : State :=
  match ln with
  | .a => { s with laneA := l }
  | .b => { s with laneB := l }
  | .c => { s with laneC := l }

/-- A lane's clock at an instant of the model's: it counts as TM_NOW does, at the corrected rate and with the slews, and takes no part
in a setting of time, so that every interval of the lane is counted in TM_NOW (R410). -/
def Lane.clock (l : Lane) (now : Nat) : Nat := (((now * 2 ^ 32 : Nat) + l.drift) / (2 ^ 32 : Int)).toNat

/-- What a command in a lane knows. -/
def State.ctx (s : State) (ln : LaneId) : Ctx := ⟨s.part, ln, (s.lane ln).clock s.now⟩

/-- Whether the member has the lane (R3, R7). -/
def State.has (s : State) (ln : LaneId) : Bool := isTriple s.part.member || decide (ln ≠ .c)

/-- A command's effect on one lane; in a lane the member does not have it cannot occur, and nothing changes. -/
def onLane (ln : LaneId) (f : Ctx → Lane → Lane) (s : State) : Answer :=
  if s.has ln then .next (s.setLane ln (f (s.ctx ln) (s.lane ln))) else .next s

/-- A command's effect on one lane that has power and is not asleep; otherwise it cannot occur, and nothing changes. -/
def onPowered (ln : LaneId) (f : Ctx → Lane → Lane) (s : State) : Answer :=
  onLane ln (fun c l => if l.powered then f c l else l) s

/-- A command's effect on one lane whose units run; otherwise it cannot occur, and nothing changes. -/
def onAlive (ln : LaneId) (f : Ctx → Lane → Lane) (s : State) : Answer :=
  onLane ln (fun c l => if l.alive then f c l else l) s

end Sys2Proof.Machine
end

