-- ==== Sys2Proof/Machine/Flags.lean ====
section
/-! DEFINITION. Flags and their consequences: set-wins flags with an event counter each (R114), and the raise stamps of
the interrupt lines (R419). -/

namespace Sys2Proof.Machine

/-- The interrupt line of a unit's flag register (R419); every channel of the solenoid, stepper, angle and CAN units
shares its unit's line. -/
def irqLine (flags : Nat) : Nat :=
  if flags < 0x40004000 then 0
  else if flags < 0x40010000 then 1
  else if flags < 0x40020000 then 2
  else if flags < 0x40024000 then 3
  else if flags < 0x40028000 then 4
  else if flags < 0x4002C000 then 5
  else if flags < 0x40030000 then 6
  else if flags < 0x40034000 then 7
  else if flags < 0x40038000 then 8
  else if flags < 0x4003C000 then 9
  else if flags < 0x40040000 then 10
  else if flags < 0x40048000 then 11
  else if flags < 0x40050000 then 12
  else if flags < 0x40054000 then 13
  else if flags < 0x40060000 then 14
  else if flags < 0x40064000 then 15
  else if flags < 0x40068000 then 16
  else if flags < 0x40070000 then 17
  else if flags < 0x40074000 then 18
  else 19

/-- Every flag register of a lane. The enable register stands 4 bytes after its flag register in every unit. -/
def flagRegs : List Nat :=
  [R.LM_FLAGS, R.FC_FLAGS, R.EA_FLAGS, R.MC_FLAGS 0, R.MC_FLAGS 1, R.PS_FLAGS 0, R.PS_FLAGS 1, R.BK_FLAGS] ++
  [R.SPn_FLAGS 0, R.SPn_FLAGS 1, R.SPn_FLAGS 2, R.SPn_FLAGS 3, R.AF_FLAGS, R.SI_FLAGS, R.NX_FLAGS, R.MS_FLAGS] ++
  [R.TM_FLAGS, R.SE_FLAGS, R.PW_FLAGS, R.CF_FLAGS, R.HA_FLAGS, R.CNk_FLAGS 0, R.CNk_FLAGS 1, R.ET_FLAGS]

/-- Whether one flag register asserts its line: a set flag whose enable bit is set. -/
def Lane.asserts (l : Lane) (flags : Nat) : Bool := decide (l.rd flags &&& l.rd (flags + 4) ≠ 0)

/-- Whether an interrupt line is asserted. -/
def Lane.irqUp (l : Lane) (line : Nat) : Bool := flagRegs.any (fun a => decide (irqLine a = line) && l.asserts a)

/-- The raise stamp of a line that has just become asserted; a line asserted again before entry keeps its first (R419). -/
def Lane.irqNote (before : Lane) (l : Lane) (line : Nat) : Lane :=
  if l.irqUp line && !before.irqUp line && !Nat.testBit l.irqWait line then
    { l with irqWait := l.irqWait + 2 ^ line, irqRaise := bankSet l.irqRaise line l.stamp }
  else l

/-- The key of a flag's event counter. -/
def evtKey (f : Fld) : Nat := f.addr * 32 + f.lo

/-- The event counter of a flag (R114). -/
def Lane.evtCount (l : Lane) (f : Fld) : Nat := (tabGet l.evt (evtKey f)).getD 0

/-- The flags that hardware set at this instant (R114). -/
def Lane.setsNow (l : Lane) : List Nat := if l.setAt.1 = l.tm then l.setAt.2 else []

/-- Hardware sets a flag: the flag stays or becomes set, its counter rises by 1 and saturates (R114), and the unit's
interrupt line takes its raise stamp where it becomes asserted (R419). -/
def Lane.flag (l : Lane) (f : Fld) : Lane :=
  let l1 := l.put f 1
  let l2 := { l1 with evt := tabPut l1.evt (evtKey f) (min (l.evtCount f + 1) 0xFFFFFFFF), setAt := (l.tm, evtKey f :: l.setsNow) }
  Lane.irqNote l l2 (irqLine f.addr)

/-- The source that a watch timer guards, by class and index (R425). -/
def Lane.watchSource (l : Lane) (t : Nat) : Nat := 64 * l.get (R.TMt_CFG_watch_class t) + l.get (R.TMt_CFG_watch_index t)

/-- A watch that is armed. -/
def Lane.watching (l : Lane) (t : Nat) : Bool := l.bit (R.TMt_CFG_armed t) && l.bit (R.TMt_CFG_watch_en t)

/-- Whether an arrival's stamp counts for a watch (R425). -/
def Lane.watchCounts (l : Lane) (t : Nat) (s : Word) : Bool :=
  decide (0 ≤ sdiff s ((tabGet l.armedAt t).getD 0)) && decide (sdiff s (l.rd (R.TMt_DUE t)) ≤ 0)

/-- A watch takes an arrival at its source that counts, the first one since its arming. -/
def Lane.watchTakes (l : Lane) (src : Nat) (stamp : Word) (t : Nat) : Lane :=
  if l.watching t && decide (l.watchSource t = src) && l.watchCounts t stamp && (tabGet l.watchGot t).isNone then
    { l with watchGot := tabPut l.watchGot t stamp } else l

/-- An arrival at a source that watch timers guard, by class and index (R425). -/
def Lane.arrive (l : Lane) (cls i : Nat) (stamp : Word) : Lane :=
  (List.range 64).foldl (fun (y : Lane) t => y.watchTakes (64 * cls + i) stamp t) { l with arrived := tabPut l.arrived (64 * cls + i) stamp }

/-- A flag set where a condition holds. -/
def Lane.flagIf (l : Lane) (b : Bool) (f : Fld) : Lane := if b then l.flag f else l

/-- The flags of a register that hardware has set in this cycle of the timebase (R114). -/
def Lane.setNow (l : Lane) (a : Nat) : Word :=
  l.setsNow.foldl (fun (w : Word) k => if k / 32 = a then w ||| BitVec.ofNat 32 (2 ^ (k % 32)) else w) 0

/-- Writing 1 to flags clears them (R16), but those that hardware sets in the same cycle (R114). -/
def Lane.clearFlags (l : Lane) (a : Nat) (v : Word) (w1c : Word) : Lane := l.wr a (l.rd a &&& ~~~(v &&& w1c &&& ~~~l.setNow a))

end Sys2Proof.Machine
end

