-- ==== Sys2Proof/Machine/Journal.lean ====
section
/-! DEFINITION. The journal (R488, R489) and the end of a service session (R483, R486), as several rules use them. -/

namespace Sys2Proof.Machine

/-- Where journal entry `k` lies (R488). -/
def journalAt (k : Nat) : Nat := 0x31800000 + 128 * (k % 32768)

/-- The 32 bytes of a digest in output order. -/
def digestBytes32 (d : BitVec 256) : List Byte := bytesMsb 32 d

/-- A digest from 32 bytes in output order. -/
def digestOf (bs : List Byte) : BitVec 256 := BitVec.ofNat 256 (bs.foldl (fun a b => a * 256 + b.toNat) 0)

/-- Bytes of flash erased: they read as blank flash. -/
def Lane.erase (l : Lane) (base len : Nat) : Lane :=
  { l with mem := l.mem.filter (fun e => !decide (base ≤ e.1 ∧ e.1 < base + len)) }

/-- What a journal entry records beside its index, stamp and hashes (R488). -/
structure JournalRec where
  op : Nat
  status : Nat
  addr : Word
  len : Word
  ip : Word
  session : Nat
  port : Nat
  suppressed : Nat
  sha : BitVec 256
  deriving DecidableEq, Repr, Inhabited

/-- The bytes of an entry before its hash (R488). -/
def journalBytes (k : Nat) (now : Word) (lane : Nat) (gap : Bool) (prev : List Byte) (r : JournalRec) : List Byte :=
  let ctl := r.op * 2 ^ 24 + r.status * 2 ^ 16 + lane * 2 ^ 14 + cond gap 1 0 * 2 ^ 13
  let ws : List Word := [BitVec.ofNat 32 k, now, BitVec.ofNat 32 ctl, r.addr, r.len, r.ip] ++
    [BitVec.ofNat 32 (r.session * 65536 + r.port), BitVec.ofNat 32 r.suppressed]
  ws.flatMap wordBytes ++ digestBytes32 r.sha ++ prev

/-- JOURNAL_ENTRY_WRITE (R488, R489): the sector is erased first where the index starts one; the entry is chained to the one
before it. -/
def Lane.journal (c : Ctx) (l : Lane) (r : JournalRec) : Lane :=
  let k := (l.rd R.CF_JNL_HEAD).toNat
  let prev := if k = 0 then List.replicate 32 0 else l.bytes (journalAt (k - 1) + 96) 32
  let l0 := if k % 512 = 0 then (l.erase (journalAt k) 65536).wr R.CF_JNL_OLDEST (BitVec.ofNat 32 (k - 32256)) else l
  let body := journalBytes k l.stamp (laneCode c.id) l.cf.gap prev r
  let l1 := l0.setBytes (journalAt k) (body ++ digestBytes32 (sha256 body))
  { l1.wr R.CF_JNL_HEAD (BitVec.ofNat 32 (k + 1)) with cf := { l1.cf with gap := false } }

/-- The peer of the open session, with a code and status, as a journal record. -/
def Lane.sessionRec (l : Lane) (op status : Nat) : JournalRec :=
  ⟨op, status, 0, 0, l.rd R.CF_SESSION_IP, l.get R.CF_SESSION_id, l.get R.CF_SESSION_port, 0, 0⟩

/-- How many refusals of a peer have not been journalled since its last entry (R488). -/
def Lane.suppressed (l : Lane) (ip : Word) : Nat :=
  match l.cf.refusals.find? (fun r => decide (r.1 = ip)) with
  | some (_, _, n) => n
  | none => 0

/-- An entry of a peer (R488): its word 7 has the refusals suppressed since the last one. -/
def Lane.peerEntry (c : Ctx) (l : Lane) (r : JournalRec) : Lane :=
  let l1 := l.journal c { r with suppressed := l.suppressed r.ip }
  { l1 with cf := { l1.cf with refusals := l1.cf.refusals.map (fun x => if x.1 = r.ip then (x.1, x.2.1, 0) else x) } }

/-- The open transaction ends as ABORTED (R483, R486), journalled where it is called for: a calibration range stays erased, what
was programmed of it included. -/
def Lane.abortTxn (c : Ctx) (l : Lane) (log : Bool) : Lane :=
  match l.cf.txn with
  | none => l
  | some t =>
    let l0 := if t.slot then l else l.erase t.base t.len
    let l1 := { l0 with cf := { l0.cf with txn := none } }.flag R.CF_FLAGS_write_aborted
    if log then l1.peerEntry c (l1.sessionRec 0x09 9) else l1

/-- The session closes. -/
def Lane.closeSession (l : Lane) : Lane := (((l.put R.CF_STATUS_session 0).wr R.CF_SESSION 0).wr R.CF_SESSION_IP 0)

/-- The session of a lane that drops the baton is discarded (R77, R491): ABORTED is journalled where supply is left, else the next
start sets gap, and what was programmed stays as it is. -/
def Lane.discardSession (c : Ctx) (l : Lane) (supply : Bool) : Lane :=
  if !l.bit R.CF_STATUS_session then l
  else if supply then
    let l1 := l.flagIf l.cf.txn.isSome R.CF_FLAGS_write_aborted
    { l1 with cf := { l1.cf with txn := none, lost := true } }.closeSession
  else
    let l1 := l.abortTxn c false
    (l1.peerEntry c (l1.sessionRec 0x09 9)).closeSession

end Sys2Proof.Machine
end

