-- ==== Sys2Proof/Machine/Outputs.lean ====
section
/-! DEFINITION. Operations on a lane's output stages that several rules share: the states of a motor channel (R219, R220),
its share (R208, R210), the safe torque off paths (R240, R241), active short circuit (R248), the hold latches (R58 to R60)
and the takeover lines (R44). -/

namespace Sys2Proof.Machine

/-- Channel states of R219. -/
def mcOff : Nat := 0
/-- CATCH. -/
def mcCatch : Nat := 1
/-- PULSE. -/
def mcPulse : Nat := 2
/-- RUN. -/
def mcRun : Nat := 3
/-- ASC. -/
def mcAsc : Nat := 4
/-- FAULT. -/
def mcFault : Nat := 5

/-- The state of a motor channel. -/
def Lane.mcState (l : Lane) (ch : Nat) : Nat := l.get (R.MC_STATUS_state ch)

/-- A change of a channel's state; every change sets state_change (R220). -/
def Lane.mcSet (l : Lane) (ch st : Nat) : Lane :=
  if l.mcState ch = st then l else (l.put (R.MC_STATUS_state ch) st).flag (R.MC_FLAGS_state_change ch)

/-- The mode is SAFE and the channel's safe state is not an active short circuit (R130, R241). -/
def Lane.safeOpen (l : Lane) (ch : Nat) : Bool :=
  decide (l.get R.FC_MODE_mode = 6) &&
    !(if ch = 0 then l.bit R.FC_PROFILE_CFG_mc0_asc else l.bit R.FC_PROFILE_CFG_mc1_asc)

/-- The lane is the outgoing lane of a zone whose share has gone to 0 (R66, R241). -/
def Lane.muted (c : Ctx) (l : Lane) : Bool :=
  match l.baton.pass with
  | some p => decide (p.phase = .zone) && decide (p.outgoing = c.id) && decide (l.get (R.MC_SHARE_share 0) = 0)
  | none => false

/-- The requests of R241 that assert both paths. -/
def Lane.wantsCut (l : Lane) (ch : Nat) : Bool :=
  l.bit R.FC_STATUS_inhibited || l.baton.inhibited || l.safeOpen ch || (l.mc ch).heldOpen || (l.mc ch).testOpen ||
    (l.bit (R.PS_CTRL_sto_req ch) && !l.bit (R.PS_CTRL_asc_test ch))

/-- The requests of R241 that assert the logic-disable path whatever the channel's state is. The set that an outgoing lane keeps in
active short circuit after a DC-link overvoltage is not disabled by the zone (R256). -/
def Lane.wantsOther (c : Ctx) (l : Lane) (ch : Nat) : Bool := l.wantsCut ch || (l.muted c && !l.bit (R.PS_STATUS_asc ch))

/-- The requests of R241 that assert the logic-disable path. In CATCH after a loss of synchronism it is asserted from the compare-load
instant of the detecting sample on (R226). -/
def Lane.wantsLogic (c : Ctx) (l : Lane) (ch : Nat) : Bool :=
  l.wantsOther c ch || decide (l.mcState ch = mcOff) ||
    (decide (l.mcState ch = mcCatch) && decide ((l.mc ch).gatesTil ≤ c.now)) || decide (l.mcState ch = mcPulse)

/-- The bridge of a channel is off: it neither switches, nor holds an active short circuit, nor applies the pulse test (R239). -/
def Lane.bridgeOff (l : Lane) (ch : Nat) : Bool :=
  !l.bit (R.PS_STATUS_switching ch) && !l.bit (R.PS_STATUS_asc ch) && decide (l.mcState ch ≠ mcPulse)

/-- Since when the bridge has been off (R239). -/
def Lane.noteBridge (c : Ctx) (l : Lane) (ch : Nat) : Lane :=
  let m := l.mc ch
  let off := l.bridgeOff ch
  l.setMc ch { m with driven := !off, offAt := if m.driven && off then c.now else m.offAt }

/-- An active short circuit ends, and a bridge fault no longer shows it (R262). -/
def Lane.ascOff (l : Lane) (ch : Nat) : Lane := (l.put (R.PS_STATUS_asc ch) 0).put (R.PS_FAULT_asc ch) 0

/-- The two paths and the bridge follow their requests (R241): the gate-supply cut ends an active short circuit, and the
gates switch while the channel is in RUN with no path asserted and its gate start has come, and after a loss of synchronism until the
path is asserted (R226). -/
def Lane.stoPaths (c : Ctx) (l : Lane) (ch : Nat) : Lane :=
  let cut := l.wantsCut ch
  let logic := l.wantsLogic c ch
  let l1 := (l.putB (R.PS_STATUS_supply_cut ch) cut).putB (R.PS_STATUS_logic_disable ch) logic
  let l2 := if cut then l1.ascOff ch else l1
  (l2.putB (R.PS_STATUS_switching ch) (!logic && (decide (l.mcState ch = mcRun) || decide (l.mcState ch = mcCatch)) &&
    decide ((l.mc ch).gateFrom = none))).noteBridge c ch

/-- The pipeline switches the gates at this instant: no path has come to be asserted since (R226, R241). -/
def Lane.switchesNow (c : Ctx) (l : Lane) (ch : Nat) : Bool := l.bit (R.PS_STATUS_switching ch) && !l.wantsLogic c ch

/-- The power stage follows its requests (R241); a channel whose active short circuit a cut has ended is released into CATCH
(R220), where its catch window starts (R222). -/
def Lane.sto (c : Ctx) (l : Lane) (ch : Nat) : Lane :=
  let l1 := l.stoPaths c ch
  if l.wantsCut ch && decide (l.mcState ch = mcAsc) then
    ((l1.setMc ch { l1.mc ch with catchFrom := some c.now, gateFrom := none }).mcSet ch mcCatch).stoPaths c ch
  else l1

/-- Both power stages of the member follow their requests. -/
def Lane.stoAll (c : Ctx) (l : Lane) : Lane :=
  if isTriple c.part.member then (l.sto c 0).sto c 1 else l.sto c 0

/-- Whether the supply an active short circuit needs is there (R248): VG of 10.5 V for the low side, every bootstrap at
9.5 V for the high side. -/
def Lane.ascPowered (l : Lane) (ch : Nat) (high : Bool) : Bool :=
  if high then
    decide (95 ≤ l.get (R.PS_BOOT_boot_a ch)) && decide (95 ≤ l.get (R.PS_BOOT_boot_b ch)) &&
      decide (95 ≤ l.get (R.PS_BOOT_boot_c ch))
  else decide (10500 ≤ l.get (R.PS_VG_mv ch))

/-- A set held open: both paths asserted (R244). -/
def Lane.holdOpen (c : Ctx) (l : Lane) (ch : Nat) : Lane :=
  (l.setMc ch { l.mc ch with heldOpen := true, ascKind9 := false }).sto c ch

/-- Active short circuit commanded on a side (R248); where its supply is missing, or a request cuts it, the set is held
open and asc_fail is set. DESIGN CHOICE (log 80): the supply is looked at when the command comes, and not again while it holds. -/
def Lane.ascEnter (c : Ctx) (l : Lane) (ch : Nat) (high : Bool) : Lane :=
  if l.ascPowered ch high && !l.wantsCut ch then
    let l1 := l.setMc ch { l.mc ch with ascHigh := high, ascAt := c.now }
    let l2 := (l1.put (R.PS_STATUS_asc ch) 1).flag (R.PS_FLAGS_asc_entered ch)
    let l3 := if l2.mcState ch = mcFault then l2 else l2.mcSet ch mcAsc
    l3.sto c ch
  else (l.flag (R.PS_FLAGS_asc_fail ch)).holdOpen c ch

/-- The catch window of a channel in ns (R222). -/
def Lane.catchWindow (l : Lane) (ch : Nat) : Nat := l.get (R.MC_CATCH_CFG_window_us ch) * 1000

/-- A channel enters CATCH (R220). -/
def Lane.toCatch (c : Ctx) (l : Lane) (ch : Nat) : Lane :=
  ((l.setMc ch { l.mc ch with gateFrom := none }).mcSet ch mcCatch).sto c ch

/-- The catch window starts now (R222). -/
def Lane.startWindow (c : Ctx) (l : Lane) (ch : Nat) : Lane :=
  l.setMc ch { l.mc ch with catchFrom := some c.now, catchWaits := false }

/-- The catch window waits for the currents to decay after a loss of synchronism (R222). -/
def Lane.holdWindow (l : Lane) (ch : Nat) : Lane := l.setMc ch { l.mc ch with catchFrom := none, catchWaits := true }

/-- A channel's enable is removed (R220): any state except FAULT goes to OFF, unless the power stage holds an active
short circuit, which takes precedence over every other state (R206). -/
def Lane.disable (c : Ctx) (l : Lane) (ch : Nat) : Lane :=
  let l1 := l.put (R.MC_STATUS_enabled ch) 0
  let l2 := l1.setMc ch { l1.mc ch with gateFrom := none, losOpen := false }
  let l3 := if l2.mcState ch = mcFault ∨ l2.bit (R.PS_STATUS_asc ch) then l2 else l2.mcSet ch mcOff
  l3.sto c ch

/-- Every channel of the member loses its enable. -/
def Lane.disableAll (c : Ctx) (l : Lane) : Lane :=
  if isTriple c.part.member then (l.disable c 0).disable c 1 else l.disable c 0

/-- The share of both channels (R208), in 1/256. -/
def Lane.setShare (c : Ctx) (l : Lane) (s : Nat) : Lane :=
  let l1 := l.put (R.MC_SHARE_share 0) s
  if isTriple c.part.member then l1.put (R.MC_SHARE_share 1) s else l1

/-- The integrators x_d and x_q of a channel whose share changes (R210): scaled, from share 0 the mirrored values times the new
share, and with share 0 those values as they were mirrored. -/
def Motor.scaled (m : Motor) (old new : Nat) : Int × Int :=
  if old = new then (m.xD, m.xQ)
  else if new = 0 then (m.mirXd, m.mirXq)
  else if old = 0 then (rq (qr m.mirXd * mkRat new 256), rq (qr m.mirXq * mkRat new 256))
  else (rq (qr m.xD * mkRat new old), rq (qr m.xQ * mkRat new old))

/-- A channel's integrators are scaled in the cycle in which its share changes (R210); from and with share 0 the mirrored id_fw counts. -/
def Lane.rescale (l : Lane) (ch old new : Nat) : Lane :=
  let m := l.mc ch
  if old = new then l
  else
    let x := m.scaled old new
    l.setMc ch { m with xD := x.1, xQ := x.2, idFw := if old = 0 ∨ new = 0 then m.mirFw else m.idFw }

/-- One channel takes a share with its integrators (R208, R210). -/
def Lane.shareOf (c : Ctx) (l : Lane) (ch s : Nat) : Lane :=
  ((l.rescale ch (l.get (R.MC_SHARE_share ch)) s).put (R.MC_SHARE_share ch) s).sto c ch

/-- Both channels take a share with their integrators (R208, R210). -/
def Lane.takeShare (c : Ctx) (l : Lane) (s : Nat) : Lane :=
  let l1 := (l.rescale 0 (l.get (R.MC_SHARE_share 0)) s).rescale 1 (l.get (R.MC_SHARE_share 1)) s
  (l1.setShare c s).stoAll c

/-! ### The park brake -/

/-- FC_MODE.parked follows: APPLIED at standstill (R289). -/
def Lane.showParked (c : Ctx) (l : Lane) : Lane :=
  let now := decide (l.get R.BK_PARK_state = 0) && l.bk.still
  if now = l.parked then l
  else { l.putB R.FC_MODE_parked now with bk := { l.bk with parkedAt := if now then some c.now else none } }

/-- A change of the park state (R289): 0 APPLIED, 1 RELEASING, 2 RELEASED, 3 APPLYING, 4 FAULT. -/
def Lane.setPark (c : Ctx) (l : Lane) (st : Nat) : Lane :=
  if l.get R.BK_PARK_state = st then l.showParked c
  else
    let l1 := (l.put R.BK_PARK_state st).stampAt R.BK_PARK_TIME
    let l2 := { l1 with bk := { l1.bk with parkAt := c.now, parkSeen := none } }
    let l3 := if st = 0 then l2.flag R.BK_FLAGS_park_applied else if st = 2 then l2.flag R.BK_FLAGS_park_released
      else if st = 4 then l2.flag R.BK_FLAGS_park_fault else l2
    l3.showParked c

/-- The drive permit and the engagement end (R270, R271). -/
def Lane.disengage (l : Lane) : Lane := (l.put R.BK_STATUS_engaged 0).put R.BK_STATUS_permit 0

/-! ### Hold latches -/

/-- The share of its own references that a lane drives its non-privileged stages with, in percent (R66): the ramp inside a
zone or after a broken one, else all of it. -/
def Lane.rampShare (l : Lane) : Nat :=
  match l.baton.pass with
  | some p => if p.phase = .zone ∨ p.phase = .returning then p.share else 100
  | none => 100

/-- The number of a stage that carries a hold latch. -/
def stageIx : Stage → Nat
  | .solenoid n => n.val
  | .stepper n => 8 + n.val
  | .output k => 16 + k.val
  | .supply s => 24 + s.val

/-- The stages of a lane with a hold latch (R58), by member: solenoids, steppers, outputs, supplies. -/
def stageMask (m : Member) : BitVec 32 :=
  BitVec.ofNat 32 (2 ^ solenoidCount m - 1 + (2 ^ stepperCount m - 1) * 2 ^ 8 + 0xFF * 2 ^ 16 + 3 * 2 ^ 24)

/-- The mask of the stages that are handed over; sensor supplies are not (R61). -/
def handedMask (m : Member) : BitVec 32 := stageMask m &&& 0x00FFFFFF

/-- Whether a takeover line from another lane into this lane is asserted. -/
def Lane.otherDrives (c : Ctx) (l : Lane) : Bool := (othersOf c).any (fun x => (l.peer x).line)

/-- Latches released: their stages switch off (R60), but for the sensor supplies, which the lane drives in every role and mode (R61,
R368; DEDUCED, log 79). -/
def Lane.releaseLatches (l : Lane) (which : BitVec 32) : Lane :=
  { l with stageOn := l.stageOn &&& ~~~(l.latchHold &&& which &&& 0x00FFFFFF), latchHold := l.latchHold &&& ~~~which }

/-- Latches enter holding now (R58); where another lane's takeover line is already asserted they release at once (R45), and a tripped
inhibit stage has them disabled until the lane's reset (R46). -/
def Lane.holdLatches (c : Ctx) (l : Lane) (which : BitVec 32) : Lane :=
  let l1 := { l with latchHold := l.latchHold ||| which,
                     latchAt := (List.range 32).foldl
                       (fun t i => if which.getLsbD i && !l.latchHold.getLsbD i then tabPut t i c.now else t) l.latchAt }
  if l.otherDrives c || l.baton.inhibited then l1.releaseLatches which else l1

/-- The stages of a mask switched off, their latches with them. -/
def Lane.stagesOff (l : Lane) (which : BitVec 32) : Lane :=
  { l with stageOn := l.stageOn &&& ~~~which, latchHold := l.latchHold &&& ~~~which }

/-- The stages that a latched fault keeps off until the next power cycle (R286, R308, R360, R367). -/
def Lane.badStages (l : Lane) : BitVec 32 :=
  let bit := fun (b : Bool) (i : Nat) => if b then BitVec.ofNat 32 (2 ^ i) else 0
  ((List.range 6).foldl (fun m n => m ||| bit (l.bit (R.BKn_STATUS_fault n)) n) 0) |||
  ((List.range 4).foldl (fun m n => m ||| bit (l.bit (R.SPn_STATUS_fault n)) (8 + n)) 0) |||
  ((List.range 8).foldl (fun m n => m ||| bit (l.bit (R.SI_DOk_STAT_valid n)) (16 + n)) 0) |||
  ((List.range 2).foldl (fun m n => m ||| bit (l.bit (R.SI_SUP_latched n)) (24 + n)) 0)

/-- The stages of the stepper channels that have no role: their drivers are off (R296). -/
def Lane.unusedStages (l : Lane) : BitVec 32 :=
  (List.range 4).foldl (fun m n => m ||| if l.get (R.SPn_CFG_role n) = 0 then BitVec.ofNat 32 (2 ^ (8 + n)) else 0) 0

/-- The stepper drivers are switched on for the first time after a wake from DORMANT: their currents rise from 0 (R318). -/
def Lane.startRamp (c : Ctx) (l : Lane) : Lane :=
  if l.pw.rampDue then { l with pw := { l.pw with rampDue := false, wokeAt := some c.now } } else l

/-- The stages of a mask switched on, but for those a fault keeps off and those of channels without a role. -/
def Lane.stagesOn (l : Lane) (which : BitVec 32) : Lane :=
  { l with stageOn := l.stageOn ||| (which &&& ~~~l.badStages &&& ~~~l.unusedStages) }

/-- The slots of the off-pulses count from now on: a zone has ended, or the lane has begun to drive (R359). -/
def Lane.slotsAnew (c : Ctx) (l : Lane) : Lane := { l with si := { l.si with slotsFrom := c.now } }

/-- The lane's takeover lines (R44). -/
def Lane.setLines (l : Lane) (b : Bool) : Lane := { l with takeover := b }

end Sys2Proof.Machine
end

