-- ==== Sys2Proof/Machine/Matrix.lean ====
section
/-! DEFINITION. Fault counting and the two-fault matrix (R115 to R126), and the modes it leads to (R121, R130). -/

namespace Sys2Proof.Machine

/-- A word of a frame. -/
def frameWord (ws : List Word) (i : Nat) : Word := (ws[i]?).getD 0

/-- The bit and the class of a lane's port on a channel. -/
def portOf : Chan → Fld × Nat
  | .x => (R.NX_STATUS_port_x_ok, 6)
  | .y => (R.NX_STATUS_port_y_ok, 7)

/-- Another fit lane has the channel by its last heartbeat (R116). -/
def Lane.portElsewhere (c : Ctx) (l : Lane) (ch : Chan) (x : LaneId) : Bool :=
  l.knowsFit x && decide (x ≠ c.id) && match (l.peer x).hb with
    | some ws => (frameWord ws 3).getLsbD (match ch with
        | .x => 22
        | .y => 23)
    | none => false

/-- A channel is lost (R115, R116): neither this lane nor another fit lane has it. -/
def Lane.channelGone (c : Ctx) (l : Lane) (ch : Chan) : Bool :=
  !l.bit (portOf ch).1 && !(othersOf c).any (l.portElsewhere c ch)

/-- Both channels are lost, so that no demand can come on Nolxis (R125, R128). -/
def Lane.dark (c : Ctx) (l : Lane) : Bool := l.channelGone c .x && l.channelGone c .y

/-- The symbols of R115. -/
inductive FaultSym where
  | l | w | c | x | y | m | sa | sp | d | u
  deriving DecidableEq, Repr, Inhabited

/-- The symbol of a class code (R115). -/
def symOf : Nat → FaultSym
  | 0x4 => .w
  | 0x5 => .c
  | 0x6 => .x
  | 0x7 => .y
  | 0x8 => .m
  | 0x9 => .sa
  | 0xA => .sp
  | 0xB => .d
  | 0xC => .u
  | _ => .l

/-- The outcomes of R125, with CH and OR resolved. -/
inductive FaultEnd where
  | sf | st | sv | a2s | a2
  deriving DecidableEq, Repr, Inhabited

/-- R126's ranking, most severe highest. -/
def severity : FaultEnd → Nat
  | .sf => 5
  | .st => 4
  | .sv => 3
  | .a2s => 2
  | .a2 => 1

/-- Whether a symbol takes a lane away (L, W, C). -/
def isLaneSym (s : FaultSym) : Bool := decide (s = .l) || decide (s = .w) || decide (s = .c)

/-- Whether a symbol is a channel or the marshal. -/
def isNetSym (s : FaultSym) : Bool := decide (s = .x) || decide (s = .y) || decide (s = .m)

/-- The grid of R123 for two faults in either order. -/
def grid3 (a b : FaultSym) : FaultEnd :=
  if a = .d ∨ b = .d then .sv
  else if a = .u ∨ b = .u then .a2s
  else if isNetSym a && isNetSym b then .sv
  else .a2

/-- The grid of R124, the earlier fault first. -/
def grid2 (a b : FaultSym) : FaultEnd :=
  if a = .d ∨ b = .d then .sv
  else if isNetSym a && isNetSym b then .sv
  else if a = .l ∧ b = .l then .sf
  else if b = .l ∧ (a = .w ∨ a = .c) then .sf
  else .st

/-- The outcome of the counted faults, in the order of R117: two by the grid of the member, a third on the TS-8630 by
R126, further ones without change. -/
def faultEnd (m : Member) : List FaultSym → Option FaultEnd
  | a :: b :: rest =>
    if isTriple m then
      match rest with
      | t :: _ => if severity (grid2 a t) < severity (grid2 b t) then some (grid2 b t) else some (grid2 a t)
      | [] => some (grid3 a b)
    else some (grid2 a b)
  | _ => none

/-- What SV resolves to after recovery (R125): as an ordinary count of two, where three faults are handled by the two-lane
grid (R126). -/
def svAfter (m : Member) (fs : List FaultSym) : FaultEnd :=
  if isTriple m && decide (fs.length ≤ 2) then (if FaultSym.u ∈ fs then .a2s else .a2) else .st

/-- The mode code of an outcome (R121, R125). -/
def modeOfEnd : FaultEnd → Nat
  | .sf => 6
  | .st => 4
  | .sv => 5
  | .a2s => 2
  | .a2 => 2

/-- The mode of a first counted fault (R122). -/
def firstMode : List FaultSym → Nat
  | [] => 0
  | s :: _ => if s = .u then 3 else 1

/-- The mode that the counted faults, starvation and the lost channels give (R121 to R126). A pair of outcome SV leads to
STARVATION when starvation begins (R128); until then it leaves the mode of the first fault while both channels are lost, and
is an ordinary count of two while demands can come. -/
def modeFor (m : Member) (starving dark : Bool) (fs : List FaultSym) : Nat :=
  match faultEnd m fs with
  | some .sf => 6
  | some .st => 4
  | some .sv => if starving then 5 else if dark then firstMode fs else modeOfEnd (svAfter m fs)
  | some e => if starving then 5 else modeOfEnd e
  | none => if starving then 5 else firstMode fs

/-- The request of a mode to the supervisor (R121): none, service, speed limit, stop. -/
def requestOf (mode : Nat) (disputed : Bool) : Nat :=
  match mode with
  | 0 => 0
  | 1 => 1
  | 2 => if disputed then 3 else 2
  | 6 => 0
  | _ => 3

/-- The counted symbols, in order. -/
def Lane.faultSyms (l : Lane) : List FaultSym := l.fc.faults.map (fun f => symOf f.cls)

/-- SAFE in one lane (R130): stages off, each bridge off or in active short circuit as FC_PROFILE_CFG selects. -/
def Lane.enterSafe (c : Ctx) (l : Lane) : Lane :=
  let l0 := ((l.stagesOff (handedMask c.part.member)).disengage).setPark c 0
  let l1 := (l0.setLines false).disableAll c
  let l2 := if l1.bit R.FC_PROFILE_CFG_mc0_asc then l1.ascEnter c 0 (l1.bit (R.PS_CFG_asc_high 0)) else l1.sto c 0
  if isTriple c.part.member then
    (if l2.bit R.FC_PROFILE_CFG_mc1_asc then l2.ascEnter c 1 (l2.bit (R.PS_CFG_asc_high 1)) else l2.sto c 1)
  else l2

/-- STOP takes the place of starvation (R125, R127). -/
def Lane.endStarving (l : Lane) : Lane :=
  { l with fc := { l.fc with starving := false }, bk := { l.bk with zeroAt := none } }

/-- No step of a profile runs (R293). -/
def Lane.endProfile (l : Lane) : Lane :=
  { l with fc := { l.fc with starving := false }, bk := { l.bk with zeroAt := none, decelAt := none } }.put R.BK_STATUS_step 0

/-- The mode follows its causes; STOP and SAFE last until the next power cycle (R131), and a change sets mode_change. -/
def Lane.setMode (c : Ctx) (l : Lane) (want : Nat) : Lane :=
  let old := l.get R.FC_MODE_mode
  let new := if old = 6 then 6 else if old = 4 then (if want = 6 then 6 else 4) else want
  let l0 := l.put R.FC_MODE_request (requestOf new (l.bit R.LM_ROLE_disputed))
  if new = old then l0
  else
    let l1 := (l0.put R.FC_MODE_mode new).flag R.FC_FLAGS_mode_change
    if new = 6 then l1.endProfile.enterSafe c
    else if new = 4 then (if l1.get R.BK_STATUS_step = 1 then l1.endProfile else l1.endStarving)
    else l1

/-- The mode worked out again from what the lane holds. -/
def Lane.remode (c : Ctx) (l : Lane) : Lane :=
  l.setMode c (modeFor c.part.member l.fc.starving (l.dark c) l.faultSyms)

/-- Whether a fault is already covered by those counted (R116): the same sensor, D or U once, a channel already lost, the same
class of one lane, or a lane that is unfit by its class. A lane that W or C left active (R118) can still be lost as L. -/
def covered (on : Chan) (fs : List FaultRec) (f : FaultRec) : Bool :=
  match symOf f.cls with
  | .d => fs.any (fun g => decide (symOf g.cls = .d))
  | .u => fs.any (fun g => decide (symOf g.cls = .u))
  | .x => fs.any (fun g => decide (symOf g.cls = .x) || (decide (symOf g.cls = .m) && decide (on = .x)))
  | .y => fs.any (fun g => decide (symOf g.cls = .y) || (decide (symOf g.cls = .m) && decide (on = .y)))
  | .m => fs.any (fun g => decide (symOf g.cls = .m) || (decide (symOf g.cls = .x) && decide (on = .x)) ||
            (decide (symOf g.cls = .y) && decide (on = .y)))
  | .sa => fs.any (fun g => decide (g.cls = f.cls ∧ g.lane = f.lane ∧ g.detail = f.detail))
  | .sp => fs.any (fun g => decide (g.cls = f.cls ∧ g.lane = f.lane ∧ g.detail = f.detail))
  | .w => fs.any (fun g => (decide (symOf g.cls = .w) || decide (symOf g.cls = .l)) && decide (g.lane = f.lane))
  | .c => fs.any (fun g => (decide (symOf g.cls = .c) || decide (symOf g.cls = .l)) && decide (g.lane = f.lane))
  | .l => fs.any (fun g => decide (symOf g.cls = .l) && decide (g.lane = f.lane))

/-- Where a fault stands among those counted (R117): by detection stamp, with L of class 0x1 or 0x2 first on equal
stamps. -/
def insertFault (f : FaultRec) : List FaultRec → List FaultRec
  | [] => [f]
  | g :: t =>
    if sdiff f.stamp g.stamp < 0 ∨ (f.stamp = g.stamp ∧ (f.cls = 1 ∨ f.cls = 2) ∧ g.cls ≠ 1 ∧ g.cls ≠ 2) then f :: g :: t
    else g :: insertFault f t

/-- The register form of a counted fault (R132). -/
def faultWord (f : FaultRec) : Word :=
  BitVec.ofNat 32 (2 ^ 31 + f.detail % 256 * 256 + f.lane % 4 * 16 + f.cls % 16)

/-- FC_FAULT0 and FC_FAULT1 show the first two counted faults. -/
def Lane.showFaults (l : Lane) : Lane :=
  match l.fc.faults with
  | [] => l
  | [f] => (l.wr R.FC_FAULT0 (faultWord f)).wr R.FC_FAULT0_TIME f.stamp
  | f :: g :: _ =>
    (((l.wr R.FC_FAULT0 (faultWord f)).wr R.FC_FAULT0_TIME f.stamp).wr R.FC_FAULT1 (faultWord g)).wr R.FC_FAULT1_TIME
      g.stamp

/-- A word of a list of life counters raised by 1. -/
def raiseAt (ws : List Word) (i : Nat) : List Word :=
  (List.range (max ws.length (i + 1))).map (fun k => let w := (ws[k]?).getD 0; if k = i then w + 1 else w)

/-- A fault added to those counted, but for one they cover (R116), and the mode and reaction follow (R122 to R126). DESIGN CHOICE
(log 79): FC_MODE.classes takes the class of counted faults only (R132). -/
def Lane.addFault (c : Ctx) (l : Lane) (f : FaultRec) : Lane :=
  if covered l.image.marshalOn l.fc.faults f then l
  else
    let counts := { l.ha.counts with faults := raiseAt l.ha.counts.faults (f.cls - 1) }
    let l1 := { l with fc := { l.fc with faults := insertFault f l.fc.faults }, ha := { l.ha with counts := counts } }
    let n := min l1.fc.faults.length 2
    let l2 := ((l1.showFaults.put R.FC_MODE_fault_count n).put R.LM_ROLE_fault_count n)
    let l3 := l2.put R.FC_MODE_classes
      (let k := l2.get R.FC_MODE_classes; if Nat.testBit k (f.cls - 1) then k else k + 2 ^ (f.cls - 1))
    (l3.flag R.FC_FLAGS_fault_counted).remode c

/-- A detected fault is counted (R116): once, and not in a lane already unfit. `lane` is 3 for a module-wide class. -/
def Lane.countFault (c : Ctx) (l : Lane) (f : FaultRec) : Lane :=
  match laneOf f.lane with
  | some x => if l.knowsFit x then l.addFault c f else l
  | none => l.addFault c f

/-- A fault of this module with the present stamp: before the award it waits for it (R533), then it is counted. -/
def Lane.countNow (c : Ctx) (l : Lane) (cls lane detail : Nat) : Lane :=
  let f : FaultRec := ⟨cls, lane, detail, l.stamp⟩
  if l.st.awardAt = none then { l with st := { l.st with waiting := l.st.waiting ++ [f] } }
  else l.countFault c f

/-- The sensor faults that a lane has counted or keeps for the award. -/
def Lane.sensorFaults (l : Lane) : List FaultRec :=
  (l.fc.faults ++ l.st.waiting).filter (fun f => decide (f.cls = 9 ∨ f.cls = 0xA))

/-- A sensor fault of another lane counted (R116), with the stamp of its detection. -/
def Lane.takeSensor (c : Ctx) (l : Lane) (f : FaultRec) : Lane :=
  if !l.alive then l
  else if l.st.awardAt = none then { l with st := { l.st with waiting := l.st.waiting ++ [f] } }
  else l.countFault c f

/-- A sensor fault that one lane has found is counted in every lane (R116). -/
def State.tellSensor (s : State) (ln : LaneId) (f : FaultRec) : State :=
  (othersOf (s.ctx ln)).foldl (fun t x => t.setLane x ((t.lane x).takeSensor (t.ctx x) f)) s

/-- The sensor faults that a command found in a lane, which takes the module from `s` to `t`, are counted in the other lanes (R116).
DESIGN CHOICE (log 79): at the same instant, since no frame of the spec carries one. -/
def State.tellNew (s : State) (ln : LaneId) (t : State) : State :=
  ((t.lane ln).sensorFaults.filter (fun f =>
    decide (f.lane = laneCode ln) && !(s.lane ln).sensorFaults.contains f)).foldl (fun u f => u.tellSensor ln f) t

/-- A command that may find a sensor fault in a lane. -/
def sharingSensors (ln : LaneId) (s : State) : Answer → Answer
  | .next t => .next (s.tellNew ln t)
  | a => a

/-- A channel lost at this lane's port is counted, under the class noted when it was lost, once no other fit lane has it
(R116). -/
def Lane.judgePort (c : Ctx) (l : Lane) (ch : Chan) : Lane :=
  let k := match ch with
    | .x => 0
    | .y => 1
  match tabGet l.fc.gone k with
  | some cls =>
    if l.channelGone c ch && l.fit && l.st.awardAt.isSome then
      ({ l with fc := { l.fc with gone := tabDel l.fc.gone k } }).countNow c cls 3 0
    else l
  | none => l

/-- Both channels judged. -/
def Lane.judgePorts (c : Ctx) (l : Lane) : Lane := (l.judgePort c .x).judgePort c .y

end Sys2Proof.Machine
end

