-- ==== Sys2Proof/Machine/Profile.lean ====
section
/-! DEFINITION. The profile generator of the stepper channels (R297 to R305), as several rules run it: the kinematics of a
step, stops, homing states and what sets homing_required. -/

namespace Sys2Proof.Machine

/-- A stepper channel beyond its registers. -/
def Lane.stepper (l : Lane) (n : Nat) : Stepper :=
  (tabGet l.sp n).getD ⟨0, 0, 0, 0, 0, none, 0, 0, [], false, false, false, 0, 0, false, false, (0, 0), none, none, false⟩

/-- A stepper channel replaced. -/
def Lane.setStepper (l : Lane) (n : Nat) (x : Stepper) : Lane := { l with sp := tabPut l.sp n x }

/-- Homing states of R323. -/
def homeIdle : Nat := 0
/-- BACKOFF. -/
def homeBackoff : Nat := 1
/-- SEEK. -/
def homeSeek : Nat := 2
/-- SETTLE. -/
def homeSettle : Nat := 3
/-- DONE. -/
def homeDone : Nat := 4
/-- ABORTED. -/
def homeAborted : Nat := 5
/-- FAILED. -/
def homeFailed : Nat := 6

/-- The homing state of a channel. -/
def Lane.homeState (l : Lane) (n : Nat) : Nat := l.get (R.SPn_HOME_STAT_state n)

/-- Homing is in progress (R309). -/
def Lane.homing (l : Lane) (n : Nat) : Bool :=
  decide (l.homeState n = homeBackoff) || decide (l.homeState n = homeSeek) || decide (l.homeState n = homeSettle)

/-- A changeover zone is open, of this lane or announced by two others (R66, R67). -/
def Lane.zoneNow (c : Ctx) (l : Lane) : Bool :=
  l.bit R.LM_ROLE_in_zone ||
    match l.baton.note with
    | some z => decide (z.fromNs ≤ c.now ∧ c.now < z.toNs)
    | none => false

/-- The changeover zone that this lane is in, comes to, or has last been told of, as an interval of the clock (R66, R69). -/
def Lane.zoneSpan (l : Lane) : Option (Nat × Nat) :=
  match l.baton.pass, l.baton.note with
  | some p, _ =>
    if p.phase = .confirmed ∨ p.phase = .zone then some (p.zoneAt, p.zoneAt + 100000)
    else if p.phase = .returning then some (p.zoneAt, p.rampAt + 100000)
    else none
  | none, some z => some (z.fromNs + 2000, z.toNs - 2000)
  | none, none => none

/-- When a stride that would elapse at `t` does elapse, with a zone from z to e (R66, R321): the stride timer stands inside the zone;
the step that falls due in it is issued at its end, one due later falls due later by the time for which the timer stood (DEDUCED,
log 81), and a stride that was loaded inside the zone is counted from its end. -/
def heldTo (z e stride t : Nat) : Nat :=
  if t < z ∨ e + stride ≤ t then t
  else if z + stride ≤ t then e + stride
  else if t < e then e
  else t + (e - z)

/-- When a stride that would elapse at `t` elapses in this lane. -/
def Lane.dueAt (l : Lane) (stride t : Nat) : Nat :=
  match l.zoneSpan with
  | none => t
  | some (z, e) => heldTo z e stride t

/-- A zone is over now: every stride that it held up is counted on (R321). -/
def Lane.resumeSteps (c : Ctx) (l : Lane) : Lane :=
  match l.zoneSpan with
  | none => l
  | some (z, e) =>
    if c.now ≤ z then l
    else { l with sp := l.sp.map (fun p => (p.1, { p.2 with stepAt := p.2.stepAt.map (heldTo z (min e c.now) p.2.stride) })) }

/-- 2^16, the unit of the generator's fixed-point numbers (R300). -/
def f16 : Int := 65536

/-- The integer cube root, rounded down, searched from bit `k` on. -/
def icbrtFrom (x : Nat) : Nat → Nat → Nat
  | 0, r => r
  | k + 1, r =>
    let t := r + 2 ^ k
    if t * t * t ≤ x then icbrtFrom x k t else icbrtFrom x k r

/-- The cube root, rounded down. -/
def icbrt (x : Nat) : Nat := icbrtFrom x (x.log2 / 3 + 1) 0

/-- The parameters of R299 in force: homing runs at v_home with the trapezoidal shape, and so does the stop after a homing that
failed (R310). -/
structure ProfilePar where
  vMax : Nat
  acc : Nat
  dec : Nat
  jerk : Nat
  sCurve : Bool
  strideMin : Nat
  stepMax : Nat
  deriving DecidableEq, Repr

/-- The profile parameters of a channel. -/
def Lane.profilePar (l : Lane) (n : Nat) : ProfilePar :=
  let home := l.homing n
  { vMax := if home then l.get (R.SPn_V_HOME_counts_s n) else l.get (R.SPn_V_MAX_counts_s n)
    acc := (l.rd (R.SPn_ACCEL n)).toNat * 256
    dec := (l.rd (R.SPn_DECEL n)).toNat * 256
    jerk := (l.rd (R.SPn_JERK n)).toNat * 256
    sCurve := l.bit (R.SPn_CFG_shape n) && !home && !(l.stepper n).braking
    strideMin := (l.rd (R.SPn_STRIDE_MIN n)).toNat
    stepMax := 256 / 2 ^ l.get (R.SPn_CFG_res_log2 n) }

/-- The stopping distance of R300, exactly, from a speed and an acceleration with 16 fraction bits. -/
def stopDistance (p : ProfilePar) (v : Nat) (a : Int) : Rat :=
  let vr := mkRat v 65536
  let ar := mkRat a 65536
  let base := vr * vr / (2 * (p.dec : Int))
  if p.sCurve && decide (-(p.dec : Rat) < ar) then base + vr * ((p.dec : Int) + ar) / (2 * (p.jerk : Int)) else base

/-- The acceleration that R300 asks for. -/
def accWanted (p : ProfilePar) (v : Nat) (ahead : Int) (dStop : Rat) : Int :=
  if (ahead : Rat) ≤ dStop then -(p.dec : Int)
  else if (v : Int) < p.vMax * f16 then p.acc
  else if (v : Int) = p.vMax * f16 then 0
  else -(p.dec : Int)

/-- A step that R300 decided: its size, stride in ns, the speed after it and the acceleration. -/
structure StepPlan where
  dlt : Nat
  stride : Nat
  vNext : Nat
  a : Int
  clip : Bool
  deriving DecidableEq, Repr

/-- The start from rest (R300). DESIGN CHOICE (log 85): the start stride's root is rounded down to whole ns before it is rounded, and a of
the S-curve to the nearest 2^-16. -/
def planRest (p : ProfilePar) (dlt : Nat) : StepPlan :=
  if p.sCurve then
    let st := icbrt (6 * dlt * 10 ^ 27 / p.jerk)
    let a := min (mkRat (p.jerk * st) (10 ^ 9)) p.acc
    ⟨dlt, st, (nearest (mkRat (3 * dlt * 10 ^ 9) st * f16)).toNat, nearest (a * f16), false⟩
  else
    let st := isqrt (2 * dlt * 10 ^ 18 / p.acc)
    ⟨dlt, st, (nearest (mkRat (2 * dlt * 10 ^ 9) st * f16)).toNat, p.acc * f16, false⟩

/-- A step in motion (R300). DESIGN CHOICE (log 85): the jerk limit is rounded to the nearest 2^-16. -/
def planMove (p : ProfilePar) (v : Nat) (a : Int) (dlt stridePrev : Nat) (aDes : Int) : StepPlan :=
  let lim := nearest (mkRat (p.jerk * stridePrev) (10 ^ 9) * f16)
  let a1 := if p.sCurve then a + clampInt (-lim) lim (aDes * f16 - a) else aDes * f16
  let v2 : Int := (v : Int) * v + 2 * a1 * dlt * f16
  let v3 := if v2 ≤ 0 then 0 else isqrt v2.toNat
  let v4 := if 0 < a1 then min v3 (p.vMax * 65536) else v3
  let st := nearest (mkRat (2 * dlt * 10 ^ 9 * 65536) (v + v4))
  ⟨dlt, st.toNat, v4, a1, false⟩

/-- The stride held within its bounds (R300). -/
def clipStride (p : ProfilePar) (v : Nat) (s : StepPlan) : StepPlan :=
  if s.stride < p.strideMin then
    let vn := nearest (mkRat (2 * s.dlt * 10 ^ 9) p.strideMin * f16) - v
    { s with stride := p.strideMin, vNext := (max vn 0).toNat, clip := true }
  else if 2 ^ 32 - 1 < s.stride then { s with stride := 2 ^ 32 - 1 } else s

/-- Position minus nothing: signed40(target − pos) of a channel. -/
def Lane.posError (l : Lane) (n : Nat) : Int := (l.pair (R.SPn_TARGET n) - l.pair (R.SPn_POS n)).toInt

/-- The direction of motion of a channel: 1 or −1. -/
def Lane.stepDir (l : Lane) (n : Nat) : Int := if l.bit (R.SPn_STATUS_dir n) then -1 else 1

/-- A channel that stopped by dec stands (R310): its position is its target, and it holds at i_hold. -/
def Lane.stopped (l : Lane) (n : Nat) : Lane :=
  let l1 := l.setStepper n { l.stepper n with a := 0, stepAt := none, braking := false }
  (l1.putU (R.SPn_TARGET n) (l1.pair (R.SPn_POS n)).toNat).put (R.SPn_STATUS_hold_current n) 1

/-- One run of the profile generator (R300): at rest on the target the channel idles; else the next step is planned and its
stride starts now. A channel that stops by dec (R310) is not accelerated again, and ends at rest. -/
def Lane.runProfile (c : Ctx) (l : Lane) (n : Nat) : Lane :=
  let x := l.stepper n
  let e := l.posError n
  if x.v = 0 ∧ x.braking = true then l.stopped n
  else if x.v = 0 ∧ e = 0 then l.setStepper n { x with a := 0, stepAt := none }
  else
    let p := l.profilePar n
    let l1 := if x.v = 0 then l.putB (R.SPn_STATUS_dir n) (decide (e < 0)) else l
    let a0 := if x.v = 0 then 0 else x.a
    let ahead := e * l1.stepDir n
    let dlt := if 0 < ahead then min p.stepMax ahead.toNat else p.stepMax
    let want := if x.braking then -(p.dec : Int) else accWanted p x.v ahead (stopDistance p x.v a0)
    let plan := clipStride p x.v (if x.v = 0 then planRest p dlt else planMove p x.v a0 dlt x.stride want)
    (l1.setStepper n { x with a := plan.a, dlt := plan.dlt, stride := plan.stride, vNext := plan.vNext, prior := (x.a, x.stride),
                              stepAt := some (c.now + plan.stride) }).flagIf plan.clip (R.SPn_FLAGS_stride_clip n)

/-- The generator runs once more from what its last run started from (R303). -/
def Lane.rerunProfile (c : Ctx) (l : Lane) (n : Nat) : Lane :=
  let x := l.stepper n
  (l.setStepper n { x with a := x.prior.1, stride := x.prior.2 }).runProfile c n

/-- The channel stops issuing steps at once (R307, R310, R311). -/
def Lane.stopSteps (l : Lane) (n : Nat) : Lane :=
  l.setStepper n { l.stepper n with v := 0, a := 0, stepAt := none, braking := false }

/-- The position at which a stop by dec from the present motion ends (R310, R312). -/
def Lane.stopPoint (l : Lane) (n : Nat) : Nat :=
  let x := l.stepper n
  let d := ceilRat (stopDistance (l.profilePar n) x.v x.a) * l.stepDir n
  (l.pair (R.SPn_POS n) + BitVec.ofInt 40 d).toNat

/-- Homing ends as FAILED (R310): the channel stops by dec, holds at i_hold, and home_fail is set. -/
def Lane.failHoming (l : Lane) (n : Nat) : Lane :=
  if l.homing n then
    let l1 := (l.put (R.SPn_HOME_STAT_state n) homeFailed).flag (R.SPn_FLAGS_home_fail n)
    if (l1.stepper n).v = 0 then l1.stopped n else l1.setStepper n { l1.stepper n with braking := true }
  else l

/-- Every homing in progress ends as FAILED (R312). -/
def Lane.failAllHoming (l : Lane) : Lane := (((l.failHoming 0).failHoming 1).failHoming 2).failHoming 3

/-- Whether any channel is homing (R312). -/
def Lane.anyHoming (l : Lane) : Bool := l.homing 0 || l.homing 1 || l.homing 2 || l.homing 3

end Sys2Proof.Machine
end

