-- ==== Sys2Proof/Machine/Unfit.lean ====
section
/-! DEFINITION. A lane becomes unfit (R32, R118, R563, R564), and the ROLE frames it queues (R38, R91). -/

namespace Sys2Proof.Machine

/-- Whether link 0 joins this lane to lane `x` (R92): link 0 leads to the next lane, link 1 to the previous one, and on
two-lane members link 0 is the only link. -/
def onLink0 (c : Ctx) (x : LaneId) : Bool := decide (x = nextLane c.part.member c.id)

/-- Whether the link to lane `x` is up. -/
def Lane.linkUp (c : Ctx) (l : Lane) (x : LaneId) : Bool :=
  if onLink0 c x then l.bit R.LM_LINK_STAT_link0_up else l.bit R.LM_LINK_STAT_link1_up

/-- The state of the link to lane `x` set. -/
def Lane.setLinkUp (c : Ctx) (l : Lane) (x : LaneId) (b : Bool) : Lane :=
  if onLink0 c x then l.putB R.LM_LINK_STAT_link0_up b else l.putB R.LM_LINK_STAT_link1_up b

/-- A frame queued at the transmitter of the link to lane `x`, unless that link went down (R38, R42). -/
def Lane.queueFrame (_c : Ctx) (l : Lane) (x : LaneId) (f : OutFrame) : Lane :=
  if (l.peer x).downAt = none then l.setPeer x { l.peer x with txq := (l.peer x).txq ++ [f] } else l

/-- A frame queued for each of several lanes. -/
def Lane.queueAll (c : Ctx) (l : Lane) (f : OutFrame) : List LaneId → Lane
  | [] => l
  | x :: t => (l.queueFrame c x f).queueAll c f t

/-- The seven argument words of a ROLE frame; unused ones are 0 (R91). -/
def roleArgs (as : List Nat) : List Word :=
  (List.range 7).map (fun i => BitVec.ofNat 32 ((as[i]?).getD 0))

/-- A ROLE frame (R38, R91): message code, target byte, heat number and arguments. -/
def roleFrame (l : Lane) (code target : Nat) (as : List Nat) : OutFrame :=
  ⟨2, BitVec.ofNat 32 (code * 2 ^ 24 + target * 2 ^ 16 + l.heat16.toNat) :: roleArgs as⟩

/-- A ROLE message to one lane. -/
def Lane.sendTo (c : Ctx) (l : Lane) (x : LaneId) (code : Nat) (as : List Nat) : Lane :=
  l.queueFrame c x (roleFrame l code (laneCode x) as)

/-- A ROLE message on every link. -/
def Lane.sendAll (c : Ctx) (l : Lane) (code : Nat) (as : List Nat) : Lane :=
  l.queueAll c (roleFrame l code 0xFF as) (othersOf c)

/-! ### The state of the Nolxis node (R388, R389, R393) -/

/-- Node states of R388. -/
def nxOff : Nat := 0
/-- LISTEN. -/
def nxListen : Nat := 1
/-- COLD_ANNOUNCE. -/
def nxCold : Nat := 2
/-- COLD_BACKOFF. -/
def nxBackoff : Nat := 3
/-- INTEGRATE. -/
def nxIntegrate : Nat := 4
/-- PASSIVE. -/
def nxPassive : Nat := 5
/-- ACTIVE. -/
def nxActive : Nat := 6

/-- The state of the node. -/
def Lane.nxState (l : Lane) : Nat := l.get R.NX_STATUS_state

/-- A node enters ACTIVE with no buffer committed (R380, R389). -/
def Lane.nxEnterActive (l : Lane) : Lane :=
  (List.range 16).foldl (fun y n => y.put (R.NX_TXn_CTRL_ever n) 0) ((l.put R.NX_STATUS_state nxActive).flag R.NX_FLAGS_state_change)

/-- A change of the node state; every change sets state_change, and ACTIVE starts with no buffer committed (R380). The node of
an unfit lane goes to PASSIVE and nowhere else but to OFF (R393). Outside ACTIVE it is not the master, and in OFF and LISTEN it follows no pacer. -/
def Lane.nxGo (c : Ctx) (l : Lane) (want : Nat) : Lane :=
  let st := if l.role = roleUnfit ∧ want ≠ nxOff then nxPassive else want
  if l.nxState = st then l
  else if st = nxActive then l.nxEnterActive
  else
    let l0 := if l.nxState = nxOff then { l with nx := { l.nx with validX := c.now, validY := c.now } } else l
    let l1 := ((l0.put R.NX_STATUS_state st).put R.NX_STATUS_master 0).flag R.NX_FLAGS_state_change
    let l2 := if st = nxListen ∨ st = nxOff then
        { l1.put R.NX_STATUS_followed 0 with
          nx := { l1.nx with listenAt := c.now, busyX := none, busyY := none } } else l1
    if st = nxPassive then l2.flag R.NX_FLAGS_sync_lost else l2

/-! ### Unfit -/

/-- The ways a lane becomes unfit (R564). -/
inductive UnfitHow where
  | inhibit
  | setOrCoil (ch : Option Nat)
  | votes
  | withdraw
  | supply
  deriving DecidableEq, Repr, Inhabited

/-- The lane shows itself in a role. -/
def Lane.setRole (l : Lane) (r : Nat) : Lane := l.put R.LM_ROLE_role r

/-- What is kept of a pass request when a pin ends or another takes its place: a pass for the pin is no longer asked for (R83). -/
def pinDropped : Option (Nat × Option LaneId) → Option (Nat × Option LaneId)
  | some (cause, want) => if cause = 2 then none else some (cause, want)
  | none => none

/-- The pin in this lane ends (R84): the lane that holds the baton computes a fresh dwell at its next heat boundary. -/
def Lane.endPin (l : Lane) : Lane :=
  let l1 := { l with baton := { l.baton with pinEnds := none, freshDwell := l.active, request := pinDropped l.baton.request } }
  l1.put R.LM_ROLE_pinned 0

/-- The pin ends with the fitness of its lane (R84). -/
def Lane.pinLost (l : Lane) (x : LaneId) : Lane :=
  if l.bit R.LM_ROLE_pinned && decide (l.get R.LM_PIN_lane = laneCode x) then l.endPin else l

/-- The lane's outputs after it became unfit, by the way it did (R564). -/
def Lane.dropOutputs (c : Ctx) (l : Lane) (how : UnfitHow) : Lane :=
  match how with
  | .inhibit =>
    let l1 := (((l.put R.FC_STATUS_inhibited 1).setPark c 0).setLines false).disableAll c
    { l1.holdLatches c (stageMask c.part.member) with refresh := false }
  | .setOrCoil _ =>
    let l1 := (l.setLines false).disableAll c
    { l1.holdLatches c (stageMask c.part.member) with refresh := false }
  | .votes =>
    let l1 := { l with baton := { l.baton with inhibited := true } }
    let l2 := (((l1.setPark c 0).setLines false).disableAll c).stagesOff (handedMask c.part.member)
    { l2 with refresh := false }
  | .withdraw =>
    let l1 := ((l.setLines false).disableAll c).stagesOff (handedMask c.part.member)
    { l1 with refresh := false }
  | .supply =>
    let l0 := (l.ascOff 0).ascOff 1
    let l1 := (((l0.setPark c 0).setLines false).disableAll c).stagesOff (stageMask c.part.member)
    { l1 with refresh := false, mc0 := { l1.mc0 with ascKind9 := false }, mc1 := { l1.mc1 with ascKind9 := false } }

/-- The lane's part in passes and decisions ends. -/
def Lane.leaveBaton (l : Lane) : Lane :=
  let l1 := { l with baton := { l.baton with
    decision := none, window := none, pass := none, request := none, dwellEnds := none, deferredAt := none, retry := none } }
  (l1.put R.LM_ROLE_in_zone 0).put R.LM_ROLE_deciding 0

/-- The last fit lane after a W or C fault (R118): it stays active, restricted, the fault is counted, and the lane runs the stop
profile, whatever the faults counted before. -/
def Lane.restrict (c : Ctx) (l : Lane) (cls detail : Nat) : Lane :=
  (((l.put R.FC_MODE_restricted 1).countNow c cls (laneCode c.id) detail).remode c).setMode c 4

/-- An engine whose run and deque are discarded, with nothing left to commit (R77). -/
def Engine.idled (x : Engine) : Engine := { x with run := none, cordic := none, deque := [], spawn := [], sat := 0 }

/-- Every uncommitted leg is discarded (R77): those running, those on a deque, those committed by their engine and not yet
taken, and the words staged; what is no longer due misses nothing. -/
def Lane.dropLegs (l : Lane) : Lane :=
  { l with
    ea := { l.ea with
      done := [], staged := [], engines := l.ea.engines.map Engine.idled,
      legs := l.ea.legs.map (fun p => (p.1, { p.2 with due := false, ranAhead := false, squashed := false, squashCause := none })) }
    bk := { l.bk with ahead := [], waiting := [] } }

/-- The frame that a CAN FD controller has on its bus is discarded (R77). -/
def Lane.dropFrame (l : Lane) (k : Nat) : Lane :=
  match tabGet l.can k with
  | some x => { l with can := tabPut l.can k { x with onBus := none } }
  | none => l

/-- What is in flight in a lane that drops the baton is discarded (R77): demands in their check, uncommitted legs, the
service session, and frames waiting in its CAN FD controllers. -/
def Lane.dropWork (c : Ctx) (l : Lane) (supply : Bool) : Lane :=
  let l1 := (l.discardSession c supply).dropLegs
  let l2 := { l1 with bk := { l1.bk with queue := [] } }
  [0, 1].foldl (fun (y : Lane) k => (List.range 16).foldl (fun (z : Lane) m => z.put (R.CNk_TXm_CTRL_pending k m) 0) (y.dropFrame k)) l2

/-! ### The levels of fault containment (R110) -/

/-- An engine that is neither scratched nor in a quarantined block. -/
def Lane.engFit (c : Ctx) (l : Lane) (e : Nat) : Bool :=
  decide (e < engineCount c.part.member) && !Nat.testBit (l.get R.FC_SCRATCH_engines) e &&
    !Nat.testBit (l.get R.FC_BLOCKS_quarantined) (e / 4)

/-- Number of fit engines. -/
def Lane.fitEngines (c : Ctx) (l : Lane) : Nat :=
  ((List.range (engineCount c.part.member)).filter (fun e => l.engFit c e)).length

/-- The fit engine counts shown (R154). DESIGN CHOICE (log 79): FC_STATUS.fit_engines keeps its reset column's 0 until the image is loaded
or an engine or a block is lost, though its meaning gives the engines of the member. -/
def Lane.showEngines (c : Ctx) (l : Lane) : Lane :=
  let n := l.fitEngines c
  (l.put R.FC_STATUS_fit_engines n).put R.EA_STATUS_fit_engines n

/-- What an action of a cell or a block found before it is kept, at an instant from its first such action on (R110). -/
def Lane.keepLower (c : Ctx) (l before : Lane) : Lane :=
  let found : Lower := ⟨c.now, before.rd R.FC_SCRATCH, before.rd R.FC_BLOCKS, before.rd R.FC_LAST_SCRATCH, before.ea, l.ea⟩
  let kept := match before.fc.lower with
    | some x => if x.at_ = c.now ∧ x.after = before.ea then { x with after := l.ea } else found
    | none => found
  { l with fc := { l.fc with lower := some kept } }

/-- No action of a lower level is kept. -/
def Lane.noLower (l : Lane) : Lane := { l with fc := { l.fc with lower := none } }

/-- What cells or blocks did at this instant, before a higher level acted, is not taken (R110): its engines and blocks stay in use with
their runs and deques, and what was flagged is reported as part of the higher action. DESIGN CHOICE (log 41): where the scheduler has gone
on since at the same instant, the legs stay where they are. -/
def Lane.undoLower (c : Ctx) (l : Lane) : Lane :=
  match l.fc.lower with
  | some x =>
    if x.at_ = c.now then
      let l1 := (((l.wr R.FC_SCRATCH x.scratch).wr R.FC_BLOCKS x.blocks).wr R.FC_LAST_SCRATCH x.last).noLower
      ({ l1 with ea := if l.ea = x.after then x.before else l.ea }).showEngines c
    else l
  | none => l

/-- An action of a level on a fault of this instant is noted (R110): 0 cell, 1 block, 2 lane. -/
def Lane.actAt (c : Ctx) (l : Lane) (level : Nat) : Lane := { l with fc := { l.fc with actedAt := some (c.now, level) } }

/-- The lane's own action on a fault of this instant takes the place of those of its cells and blocks (R110). -/
def Lane.actLane (c : Ctx) (l : Lane) : Lane := (l.undoLower c).actAt c 2

/-- A block's action is noted unless the lane acted at this instant as part of it. -/
def Lane.actedBlock (c : Ctx) (l : Lane) : Lane :=
  match l.fc.actedAt with
  | some (t, _) => if t = c.now then l else l.actAt c 1
  | none => l.actAt c 1

/-- A higher level than this one has acted on a fault of this instant, so that this one's action is not taken (R110). -/
def Lane.outranked (c : Ctx) (l : Lane) (level : Nat) : Bool :=
  match l.fc.actedAt with
  | some (t, k) => decide (t = c.now ∧ level < k)
  | none => false

/-- The lane becomes unfit by a cause of R62, counted under a class of R115 (0: not counted): the fault is counted, the
role shown, LEAVING queued on every link that is up, the outputs dropped (R563, R564), and its node in PASSIVE (R393). Nothing happens in a lane
already unfit. With no fit lane left the module is in SAFE. -/
def Lane.loseFitness (c : Ctx) (l : Lane) (cause cls detail : Nat) (how : UnfitHow) : Lane :=
  if l.role = roleUnfit then l
  else
    let wasFit := l.knowsFit c.id
    let was := l.active
    let l1 := if cls = 0 then l else (l.undoLower c).countNow c cls (laneCode c.id) detail
    let l2 := (((l1.setRole roleUnfit).setFit c.id false).put R.FC_STATUS_lane_fit 0).flag R.FC_FLAGS_lane_unfit
    let l3 := l2.sendAll c 0x0D [cause, if wasFit then cls else 0]
    let l4 := (((l3.dropOutputs c how).leaveBaton).takeShare c 0).pinLost c.id
    let l5 := if was then ((l4.failAllHoming).put R.LM_ROLE_baton_lane 3).dropWork c (how == .supply) else l4
    let l6 := if l5.nxState = nxOff then l5 else l5.nxGo c nxPassive
    let l7 := if wasFit && decide (l6.fitLanes c = []) then l6.setMode c 6 else l6
    if cls = 0 then l7 else l7.actAt c 2

/-- The lane becomes unfit (R563, R564), but a W or C fault does not make the last fit lane unfit (R118). -/
def Lane.becomeUnfit (c : Ctx) (l : Lane) (cause cls detail : Nat) (how : UnfitHow) : Lane :=
  if l.role ≠ roleUnfit ∧ (cls = 4 ∨ cls = 5) ∧ l.fitLanes c = [c.id] then l.restrict c cls detail
  else l.loseFitness c cause cls detail how

/-- A lane-level fault (class 0x1) of any cause of R33, R96 or R113. -/
def Lane.logicFault (c : Ctx) (l : Lane) (cause : Nat) : Lane := l.becomeUnfit c cause 1 cause .inhibit

/-- A lane-level fault that inhibits the outputs of the lane whatever its role (R96, R113, R564). -/
def Lane.hardFault (c : Ctx) (l : Lane) (cause : Nat) : Lane :=
  if l.role = roleUnfit then (l.dropOutputs c .inhibit).actLane c else l.logicFault c cause

end Sys2Proof.Machine
end

