-- ==== Sys2Proof/Machine/Sio.lean ====
section
/-! DEFINITION. Safety I/O (R344 to R369): dual-contact inputs, test pulses, tested outputs, analog inputs and sensor
supplies. -/

namespace Sys2Proof.Machine

/-! ### Dual-contact inputs -/

/-- A pair of contacts beyond its registers. -/
def Lane.contacts (l : Lane) (n : Nat) : Contacts := (tabGet l.si.pairs n).getD ⟨none, none, 0, 0, true, none, false, false, 0⟩

/-- A pair of contacts replaced. -/
def Lane.setContacts (l : Lane) (n : Nat) (x : Contacts) : Lane := { l with si := { l.si with pairs := tabPut l.si.pairs n x } }

/-- A test-pulse source beyond its registers. -/
def Lane.source (l : Lane) (s : Nat) : PulseSource := (tabGet l.si.tp s).getD ⟨none, 0, false, 0, 0⟩

/-- A test-pulse source replaced. -/
def Lane.setSource (l : Lane) (s : Nat) (x : PulseSource) : Lane := { l with si := { l.si with tp := tabPut l.si.tp s x } }

/-- The contacts fed from a source are masked (R350). -/
def Lane.masked (c : Ctx) (l : Lane) (s : Nat) : Bool :=
  Nat.testBit (l.get R.SI_TP_STAT_pulsing) s || decide (c.now < (l.source s).maskEnd)

/-- The filtered level of contact 1 or 2 of a pair. -/
def Lane.contact (l : Lane) (n : Nat) (second : Bool) : Bool :=
  Nat.testBit (l.get (if second then R.SI_DI_RAW_contact2 else R.SI_DI_RAW_contact1)) n

/-- A bit of a mask set or cleared. -/
def bitPut (m i : Nat) (b : Bool) : Nat :=
  let r := if Nat.testBit m i then m - 2 ^ i else m
  if b then r + 2 ^ i else r

/-- One contact's filter over one sample, `gap` ns after the last one (R345, R350): the level stays while masked, where the time for which
a new one has shown goes on; else a new level is taken once it has shown in every sample for t_filt. Answers the level, for how long
another one has shown, and the stamp of the raw edge, which is `new` where a level shows for the first time. -/
def filterContact (level raw mask : Bool) (shown : Option Nat) (gap tFilt : Nat) (edge new : Word) : Bool × Option Nat × Word :=
  if mask then (level, shown.map (· + gap), edge)
  else if raw = level then (level, none, edge)
  else
    let (t, e) := match shown with
      | some d => (d + gap, edge)
      | none => (0, new)
    if tFilt ≤ t then (raw, none, e) else (level, some t, e)

/-- The evaluated state of a pair takes a value with a stamp (R347), an arrival of a watch (R425). -/
def Lane.setPairState (l : Lane) (n : Nat) (st : Bool) (stamp : Word) : Lane :=
  if l.bit (R.SI_DIn_STAT_state n) = st then l
  else (((l.putB (R.SI_DIn_STAT_state n) st).wr (R.SI_DIn_TIME n) stamp).flag R.SI_FLAGS_di_change).arrive 2 n stamp

/-- The settings of a pair. The service-enable pair of a lane without an image takes the defaults of R345 and R348, since R482 asks for
its evaluated state there. DESIGN CHOICE (log 87): in mode 1, equivalent. -/
def Lane.pairCfg (l : Lane) (n : Nat) : Word :=
  if l.bit R.CF_STATUS_agreed = false ∧ l.get R.CF_SVC_CFG_pair = n then 0x050A0001 else l.rd (R.SI_DIn_CFG n)

/-- Whether contact 1 and contact 2 are active (R346). -/
def Lane.actives (l : Lane) (n : Nat) : Bool × Bool :=
  (l.contact n false, if fldOf (R.SI_DIn_CFG_mode n) (l.pairCfg n) = 2 then !l.contact n true else l.contact n true)

/-- The stamp of a change to 0: the edge of the contact that is inactive, the earlier one where both are (R347). -/
def offStamp (a1 a2 : Bool) (e1 e2 : Word) : Word :=
  if !a1 && a2 then e1 else if a1 && !a2 then e2 else if sdiff e1 e2 < 0 then e1 else e2

/-- The evaluated state of a pair after its filtered levels (R346 to R348, R353). -/
def Lane.evalPair (c : Ctx) (l : Lane) (n : Nat) : Lane :=
  let x := l.contacts n
  let (a1, a2) := l.actives n
  let mixed := a1 != a2
  let x1 := { x with mixedAt := if mixed then (match x.mixedAt with
    | some t => some t
    | none => some c.now) else none }
  let l1 := (l.setContacts n x1).putB (R.SI_DIn_STAT_mixed n) mixed
  let fault := l1.get (R.SI_DIn_STAT_fault n)
  if 2 ≤ fault then l1
  else
    let off := !a1 && !a2
    let l2 := if fault = 1 ∧ off = true then l1.put (R.SI_DIn_STAT_fault n) 0 else l1
    if l2.get (R.SI_DIn_STAT_fault n) = 1 then l2
    else if l2.bit (R.SI_DIn_STAT_state n) then
      if a1 && a2 then l2
      else ((l2.setContacts n { x1 with bothOff := off }).setPairState n false (offStamp a1 a2 x.e1 x.e2)).put
        (R.SI_DIn_STAT_wait_both n) 0
    else
      let seen := x1.bothOff || off
      let l3 := l2.setContacts n { x1 with bothOff := seen }
      if a1 && a2 && seen then
        (l3.setPairState n true (if sdiff x.e1 x.e2 < 0 then x.e2 else x.e1)).put (R.SI_DIn_STAT_wait_both n) 0
      else l3.putB (R.SI_DIn_STAT_wait_both n) (a1 && a2 && !seen)

/-- The stamp of the raw edge that a sample shows (R418): the one latched at the pin, where it lies between the last sample and this
one. DESIGN CHOICE (log 82): a stamp outside that span is no edge of this sample, which then has TM_NOW. -/
def Lane.rawEdge (l : Lane) (gap : Nat) (edge : Word) : Word := if (l.stamp - edge).toNat ≤ gap then edge else l.stamp

/-- CONTACT_SAMPLE (R345 to R347, R350), with the stamp of each contact's last raw edge at the pin (R418). -/
def contactSampleL (c : Ctx) (n : Fin 12) (c1 c2 : ContactRead) (l : Lane) : Lane :=
  let k := n.val
  if fldOf (R.SI_DIn_CFG_mode k) (l.pairCfg k) = 0 then l
  else
    let x := l.contacts k
    let t := fldOf (R.SI_DIn_CFG_t_filt k) (l.pairCfg k) * 100000
    let gap := c.now - x.sampleAt
    let (f1, n1, e1) := filterContact (l.contact k false) c1.level (l.masked c 0) x.n1 gap t x.e1 (l.rawEdge gap c1.edge)
    let (f2, n2, e2) := filterContact (l.contact k true) c2.level (l.masked c 1) x.n2 gap t x.e2 (l.rawEdge gap c2.edge)
    let l1 := l.setContacts k { x with n1 := n1, n2 := n2, e1 := e1, e2 := e2, raw1 := c1.level, raw2 := c2.level, sampleAt := c.now }
    let l2 := (l1.put R.SI_DI_RAW_contact1 (bitPut (l1.get R.SI_DI_RAW_contact1) k f1)).put R.SI_DI_RAW_contact2
      (bitPut (l1.get R.SI_DI_RAW_contact2) k f2)
    l2.evalPair c k

/-- A pair fault of a kind (R353): the evaluated state takes fault_state, stamped with the detection time. -/
def Lane.pairFault (l : Lane) (n kind : Nat) : Lane :=
  if kind ≤ l.get (R.SI_DIn_STAT_fault n) ∨ 2 ≤ l.get (R.SI_DIn_STAT_fault n) then l
  else
    let l1 := ((l.put (R.SI_DIn_STAT_fault n) kind).put (R.SI_DIn_STAT_wait_both n) 0).stampAt (R.SI_DIn_FAULT_TIME n)
    let l2 := match kind with
      | 1 => l1.flag R.SI_FLAGS_discrepancy
      | 2 => l1.flag R.SI_FLAGS_short_high
      | 3 => l1.flag R.SI_FLAGS_cross_short
      | _ => l1
    l2.setPairState n (l.bit (R.SI_DIn_CFG_fault_state n)) l.stamp

/-- DISCREPANCY_TIMEOUT (R348): the pair has stayed mixed for t_disc, in the sample of the instant at which it expires too. -/
def discrepancyTimeoutL (c : Ctx) (n : Fin 12) (l : Lane) : Lane :=
  let x := l.contacts n.val
  match x.mixedAt with
  | some t =>
    let e := t + fldOf (R.SI_DIn_CFG_t_disc n.val) (l.pairCfg n.val) * 10000000
    if e < c.now ∨ (e = c.now ∧ e ≤ x.sampleAt) then l.pairFault n.val 1 else l
  | none => l

/-- The raw levels of all pairs in their last samples, contact 1 or 2. -/
def Lane.rawMask (l : Lane) (second : Bool) : BitVec 12 :=
  (List.range 12).foldl (fun m n =>
    if (if second then (l.contacts n).raw2 else (l.contacts n).raw1) then m ||| BitVec.ofNat 12 (2 ^ n) else m) 0

/-- So many ns have passed since a source's last pulse started; before its first one they have. -/
def Lane.sincePulse (c : Ctx) (l : Lane) (s d : Nat) : Bool :=
  match (l.source s).startAt with
  | some t => decide (t + d ≤ c.now)
  | none => true

/-- A pulse of a source is due (R349): one in each period, TP1's half a period after TP0's. -/
def Lane.tpDue (c : Ctx) (l : Lane) (s : Nat) : Bool :=
  let p := l.get R.SI_TP_CFG_period_ms * 1000000
  l.sincePulse c s p && (decide (s = 0) || l.sincePulse c 0 (p / 2))

/-- TEST_PULSE_START (R349): the source pulls low, and the levels before it are kept for the check. -/
def testPulseStartL (c : Ctx) (s : Fin 2) (l : Lane) : Lane :=
  let k := s.val
  let m := l.get R.SI_TP_STAT_pulsing
  if Nat.testBit m k || !l.tpDue c k then l
  else (l.put R.SI_TP_STAT_pulsing (bitPut m k true)).setSource k
    ⟨some c.now, (l.source k).maskEnd, false, l.rawMask false, l.rawMask true⟩

/-- The check of one pair 50 µs after a pulse of a source (R351). -/
def Lane.checkPair (l : Lane) (s n : Nat) (x : PulseSource) (c1 c2 : BitVec 12) : Lane :=
  if l.bit (R.SI_DIn_CFG_tp_check n) && decide (l.get (R.SI_DIn_CFG_mode n) ≠ 0) then
    let own := if s = 0 then x.pre1.getLsbD n && c1.getLsbD n else x.pre2.getLsbD n && c2.getLsbD n
    let other := if s = 0 then x.pre2.getLsbD n && !c2.getLsbD n else x.pre1.getLsbD n && !c1.getLsbD n
    if own then l.pairFault n 2 else if other then l.pairFault n 3 else l
  else l

/-- TEST_PULSE_CHECK (R351): the sample 50 µs after the pulse start. -/
def testPulseCheckL (c : Ctx) (s : Fin 2) (c1 c2 : BitVec 12) (l : Lane) : Lane :=
  let x := l.source s.val
  match x.startAt with
  | some t =>
    if Nat.testBit (l.get R.SI_TP_STAT_pulsing) s.val = true ∧ x.checked = false ∧ t + 50000 ≤ c.now then
      (List.range 12).foldl (fun y n => y.checkPair s.val n x c1 c2) (l.setSource s.val { x with checked := true })
    else l
  | none => l

/-- TEST_PULSE_END (R349, R350): after t_tp; the mask ends 50 µs later. -/
def testPulseEndL (c : Ctx) (s : Fin 2) (l : Lane) : Lane :=
  let k := s.val
  let x := l.source k
  match x.startAt with
  | some t =>
    if Nat.testBit (l.get R.SI_TP_STAT_pulsing) k = true ∧ t + l.get R.SI_TP_CFG_pulse_us * 1000 ≤ c.now then
      (l.put R.SI_TP_STAT_pulsing (bitPut (l.get R.SI_TP_STAT_pulsing) k false)).setSource k { x with maskEnd := c.now + 50000 }
    else l
  | none => l

/-- TP_SOURCE_FAULT (R352, R353): every pair with tp_check takes fault kind 4. -/
def tpSourceFaultL (s : Fin 2) (l : Lane) : Lane :=
  let l1 := (l.put R.SI_TP_STAT_fault (bitPut (l.get R.SI_TP_STAT_fault) s.val true)).flag R.SI_FLAGS_tp_fault
  (List.range 12).foldl (fun y n =>
    if y.bit (R.SI_DIn_CFG_tp_check n) && decide (y.get (R.SI_DIn_CFG_mode n) ≠ 0) then y.pairFault n 4 else y) l1

/-! ### Safety digital outputs -/

/-- The active lane drives an output that is commanded on, but for SAFE and outside RUN (R130, R356, R443); one whose stage comes on now
counts as changed. -/
def Lane.driveOutput (c : Ctx) (l : Lane) (k : Nat) (on : Bool) : Lane :=
  if on && l.active && decide (l.get R.FC_MODE_mode ≠ 6) && decide (l.get R.PW_STATUS_state = 0) && !l.stageOn.getLsbD (16 + k) then
    { l.stagesOn (BitVec.ofNat 32 (2 ^ (16 + k))) with si := { l.si with outAt := tabPut l.si.outAt k c.now } }
  else l

/-- An output's commanded state (R356), with the instant of a change; the active lane's output follows a state that was commanded before
as well, where its stage has been off since. -/
def Lane.setOutput (c : Ctx) (l : Lane) (k : Nat) (on : Bool) : Lane :=
  if l.latchHold.getLsbD (16 + k) then l
  else if Nat.testBit (l.get R.SI_DO_STATE_cmd) k = on then l.driveOutput c k on
  else
    let l1 := l.put R.SI_DO_STATE_cmd (bitPut (l.get R.SI_DO_STATE_cmd) k on)
    { l1 with si := { l1.si with outAt := tabPut l1.si.outAt k c.now } }.driveOutput c k on

/-- The role-2 outputs follow a word (R356). -/
def Lane.setRole2 (c : Ctx) (l : Lane) (w : Nat) : Lane :=
  (List.range 8).foldl (fun y k => if y.get (R.SI_DOk_CFG_role k) = 2 then y.setOutput c k (Nat.testBit w k) else y) l

/-- The role-1 outputs follow a committed buffer word (R356), but while a sleep vote stops the units (R448). -/
def Lane.setRole1 (c : Ctx) (l : Lane) (w : Nat) : Lane :=
  if l.unitsHalt then l
  else (List.range 8).foldl (fun y k => if y.get (R.SI_DOk_CFG_role k) = 1 then y.setOutput c k (Nat.testBit w k) else y) l

/-- DO_SET_WRITE (R356, R448): acts only in the active lane, and not while the units are stopped by a sleep vote. -/
def doSetWriteL (c : Ctx) (value : Word) (l : Lane) : Lane :=
  if l.active && !l.unitsHalt then { (l.put R.SI_DO_SET_out value.toNat).setRole2 c (value.toNat % 256) with bus := .done }
  else { l with bus := .done }

/-- An output's commanded state has stood for so many ns. -/
def Lane.outputStood (c : Ctx) (l : Lane) (k d : Nat) : Bool :=
  match tabGet l.si.outAt k with
  | some t => decide (t + d ≤ c.now)
  | none => true

/-- Nanoseconds from the start of an output's slot for its off-pulse to now (R358): the pulse starts where
(TM_NOW - k T_op / 8) mod T_op is 0. -/
def Lane.pulsePhase (l : Lane) (k : Nat) : Nat :=
  let p : Int := l.get R.SI_OP_CFG_period_ms * 1000000
  (((l.stamp.toNat : Int) - k * p / 8) % p).toNat

/-- t_op in ns (R358). -/
def Lane.pulseTime (l : Lane) : Nat := l.get R.SI_OP_CFG_pulse_us * 1000

/-- An output is driven by this lane: its stage is on and it is commanded on. -/
def Lane.outputDriven (l : Lane) (k : Nat) : Bool :=
  l.stageOn.getLsbD (16 + k) && Nat.testBit (l.get R.SI_DO_STATE_cmd) k

/-- The present slot of an output has an off-pulse (R358, R359): the output is on in the active lane, no latch holds, no zone is open,
and all of that has been so since the slot began. -/
def Lane.pulseSlot (c : Ctx) (l : Lane) (k : Nat) : Bool :=
  l.active && l.outputDriven k && !l.latchHold.getLsbD (16 + k) && !l.bit R.LM_ROLE_in_zone &&
    l.outputStood c k (l.pulsePhase k) && decide (l.si.slotsFrom + l.pulsePhase k ≤ c.now)

/-- The switch of an output is on: it is driven, and not off for its pulse (R358). -/
def Lane.outputOn (c : Ctx) (l : Lane) (k : Nat) : Bool :=
  l.outputDriven k && !(l.pulseSlot c k && decide (l.pulsePhase k < l.pulseTime))

/-- The switch node of an output reads on (R357): its switch is on, or sticks. -/
def Lane.nodeOn (c : Ctx) (l : Lane) (k : Nat) : Bool := l.outputOn c k || Config.nodeLevel k l.free

/-- The flag of an output fault kind (R360). -/
def outFlag : Nat → Fld
  | 1 => R.SI_FLAGS_do_overcurrent
  | 2 => R.SI_FLAGS_do_stuck
  | 3 => R.SI_FLAGS_do_external
  | 4 => R.SI_FLAGS_op_fail
  | 5 => R.SI_FLAGS_do_open
  | _ => R.SI_FLAGS_do_overtemp

/-- An output fault (R360): off in this lane until the next power cycle; the first one is recorded. -/
def Lane.outputFault (l : Lane) (k kind : Nat) : Lane :=
  if l.bit (R.SI_DOk_STAT_valid k) then l
  else
    let l1 := l.stagesOff (BitVec.ofNat 32 (2 ^ (16 + k)))
    let l2 := ((l1.put (R.SI_DOk_STAT_valid k) 1).put (R.SI_DOk_STAT_kind k) kind).stampAt (R.SI_DOk_FAULT_TIME k)
    l2.flag (outFlag kind)

/-- A condition of R358 that is due in this slot has not been met: the node off within 20 µs of the pulse's start, the pin off at its
end, the node on within 50 µs of its end. -/
def Lane.pulseFails (l : Lane) (k : Nat) (nodeOff pinOff nodeOn : Bool) : Bool :=
  let t := l.pulsePhase k
  (decide (20000 ≤ t) && !nodeOff) || (decide (l.pulseTime ≤ t) && !pinOff) || (decide (l.pulseTime + 50000 ≤ t) && !nodeOn)

/-- OUTPUT_OFF_PULSE (R358, R359): a condition not met in a pulse that is judged is a fault of kind 4. -/
def outputOffPulseL (c : Ctx) (k : Fin 8) (nodeOff pinOff nodeOn : Bool) (l : Lane) : Lane :=
  if l.pulseSlot c k.val && l.pulseFails k.val nodeOff pinOff nodeOn then l.outputFault k.val 4 else l

/-- Whether an output may show a kind of fault now (R360): kind 2 from 50 µs after the off command, kind 3 in the active lane after
10 ms commanded off outside a zone, kind 4 in the slot of a pulse from 20 µs on, kind 5 after 100 ms on where open_chk is set. -/
def Lane.mayShow (c : Ctx) (l : Lane) (k : Nat) : Nat → Bool
  | 0 => false
  | 2 => !l.outputDriven k && l.outputStood c k 50000
  | 3 => l.active && !Nat.testBit (l.get R.SI_DO_STATE_cmd) k && !l.bit R.LM_ROLE_in_zone && l.outputStood c k 10000000
  | 4 => l.pulseSlot c k && decide (20000 ≤ l.pulsePhase k)
  | 5 => l.bit (R.SI_DOk_CFG_open_chk k) && l.outputDriven k && l.outputStood c k 100000000
  | _ => true

/-! ### Analog inputs and sensor supplies -/

/-- An analog input beyond its registers. -/
def Lane.analog (l : Lane) (m : Nat) : Analog := (tabGet l.si.analog m).getD ⟨[], 0, 0, none, 0, false⟩

/-- An analog input replaced. -/
def Lane.setAnalog (l : Lane) (m : Nat) (x : Analog) : Lane := { l with si := { l.si with analog := tabPut l.si.analog m x } }

/-- A sensor supply that its inputs may use (R367): on, and back in its window for 1 ms after a retry. -/
def Lane.supplyOk (c : Ctx) (l : Lane) (s : Nat) : Bool :=
  l.bit (R.SI_SUP_on s) && match tabGet l.si.supOkAt s with
    | some t => decide (t ≤ c.now)
    | none => true

/-- The signal of an analog input in V or A (R362), from its code, 2^16 codes for the converter's range, and the supply in
mV. -/
def analogSignal (mode : Nat) (code mv : Nat) : Rat :=
  match mode with
  | 2 => mkRat (25 * code) (65536 * 1000)
  | 3 => if mv = 0 then 0 else mkRat (25 * code * 1000) (65536 * mv)
  | _ => mkRat (5 * code) 65536

/-- A band limit of SI_AIm_BAND in V or A (R369). -/
def bandOf (mode v : Nat) : Rat := if mode = 2 then mkRat v 1000000 else mkRat v 1000

/-- The kind of R364 of one sample, 0 where it is valid. -/
def Lane.analogKind (c : Ctx) (l : Lane) (m : Nat) (s : Rat) : Nat :=
  let mode := l.get (R.SI_AIm_CFG_mode m)
  if s < bandOf mode (l.get (R.SI_AIm_BAND_lo m)) then 1
  else if bandOf mode (l.get (R.SI_AIm_BAND_hi m)) < s then 2
  else if !l.supplyOk c (l.get (R.SI_AIm_CFG_supply m)) then 3
  else 0

/-- An SP fault of an input with a kind (R365): latched, recorded and counted. -/
def Lane.spFault (c : Ctx) (l : Lane) (m kind : Nat) : Lane :=
  if l.bit (R.SI_AIm_STAT_sp_fault m) then l
  else
    let l1 := ((l.put (R.SI_AIm_STAT_sp_fault m) 1).put (R.SI_AIm_STAT_kind m) kind).stampAt (R.SI_AIm_FAULT_TIME m)
    let f := l1.get R.FC_SENSOR_sp_fault
    let l2 := ((l1.put R.FC_SENSOR_sp_fault (bitPut f m true)).flag R.SI_FLAGS_sp_fault).flag R.FC_FLAGS_sensor_fault
    l2.countNow c 0xA (laneCode c.id) m

/-- The samples of an input have stayed invalid for its fault time (R365): that time is past, or it ends now and the sample of this
instant was invalid too (R424). -/
def Lane.analogExpired (c : Ctx) (l : Lane) (m : Nat) : Bool :=
  let x := l.analog m
  match x.invalidAt with
  | some t =>
    let e := t + l.get (R.SI_AIm_FAULT_CFG_fault_us m) * 1000
    decide (e < c.now) || (decide (e = c.now) && decide (x.seenAt = c.now))
  | none => false

/-- An input whose samples have stayed invalid for its fault time (R365): an SP fault in the roles 2 to 4, else ai_invalid, once for an
invalidity. -/
def Lane.analogFault (c : Ctx) (l0 : Lane) (m : Nat) : Lane :=
  let role := l0.get (R.SI_AIm_CFG_role m)
  if (l0.analog m).told then l0
  else
    let l := l0.setAnalog m { l0.analog m with told := true }
    if 2 ≤ role ∧ role ≤ 4 then l.spFault c m (l.analog m).kind
    else if role = 1 then l.flag R.SI_FLAGS_ai_invalid
    else l

/-- One input takes one sample (R362 to R365). -/
def Lane.analogStep (c : Ctx) (l0 : Lane) (m : Nat) (code : BitVec 16) (supply : List (BitVec 16)) : Lane :=
  let mode := l0.get (R.SI_AIm_CFG_mode m)
  if mode = 0 then l0
  else
    let l := if l0.analogExpired c m then l0.analogFault c m else l0
    let mv := (supply[l.get (R.SI_AIm_CFG_supply m)]?).getD 0
    let s := analogSignal mode code.toNat mv.toNat
    let k := l.analogKind c m s
    let x := l.analog m
    let l1 := (l.put (R.SI_AIm_RAW_code m) code.toNat).putB (R.SI_AIm_STAT_sample_ok m) (decide (k = 0))
    l1.setAnalog m { x with
      hist := ((if k = 0 then some s else none) :: x.hist).take 16,
      kind := if k = 0 then 0 else if x.kind = 0 then k else min x.kind k,
      invalidAt := if k = 0 then none else (match x.invalidAt with
        | some t => some t
        | none => some c.now),
      seenAt := c.now,
      told := decide (k ≠ 0) && x.told }

/-- A voltage outside the window of a sensor supply, in mV (R367). -/
def offWindow (mv : BitVec 16) : Bool := decide (mv.toNat < 4750) || decide (5250 < mv.toNat)

/-- A supply's measured voltage shown; while it waits for its millisecond in the window, one outside begins it anew (R367). -/
def Lane.showSupply (c : Ctx) (l : Lane) (s : Nat) (mv : BitVec 16) : Lane :=
  let l1 := l.put (R.SI_SUP_mv s) mv.toNat
  match tabGet l.si.supOkAt s with
  | some t =>
    if c.now < t ∧ offWindow mv = true then { l1 with si := { l.si with supOkAt := tabPut l.si.supOkAt s (c.now + 1000000) } } else l1
  | none => l1

/-- The supplies' measured voltages shown. -/
def Lane.showSupplies (c : Ctx) (l : Lane) (supply : List (BitVec 16)) : Lane :=
  (l.showSupply c 0 ((supply[0]?).getD 0)).showSupply c 1 ((supply[1]?).getD 0)

/-- ANALOG_SAMPLE (R363, R364); while the pads are held the sensors have no supply, and no sample counts (DEDUCED, log 52). -/
def analogSampleL (c : Ctx) (codes supply : List (BitVec 16)) (l : Lane) : Lane :=
  if l.bit R.PW_STATUS_pads_held then l.showSupplies c supply else (List.range 8).foldl (fun y m => y.analogStep c m ((codes[m]?).getD 0) supply) (l.showSupplies c supply)

/-- ANALOG_FAULT_TIMEOUT (R365): samples invalid for the fault time. -/
def analogFaultTimeoutL (c : Ctx) (m : Fin 8) (l : Lane) : Lane :=
  if l.analogExpired c m.val then l.analogFault c m.val else l

/-- y of R363: the value of a signal by the input's scale and offset. -/
def Lane.analogValue (l : Lane) (m : Nat) (sig : Rat) : Int :=
  rq (l.q (R.SI_AIm_SCALE m) * sig / (2 ^ 24 : Int) + qr (l.q (R.SI_AIm_OFFSET m)))

/-- The latch of one analog input at a heat boundary (R363). -/
def Lane.analogLatch (l : Lane) (m : Nat) : Lane :=
  if l.get (R.SI_AIm_CFG_mode m) = 0 then l
  else
    let l0 := l.setAnalog m { l.analog m with last := l.q (R.SI_AIm_VALUE m) }
    let win := ((l.analog m).hist.take (l.get (R.SI_AIm_CFG_navg_m1 m) + 1)).filterMap id
    if win = [] then l0.put (R.SI_AIm_STAT_valid m) 0
    else
      let avg : Rat := win.foldl (fun a b => a + b) 0 / (win.length : Int)
      let y := l.analogValue m avg
      ((l0.putQ (R.SI_AIm_SIG m) (rq avg)).putQ (R.SI_AIm_VALUE m) y).put (R.SI_AIm_STAT_valid m) 1

/-- All analog inputs latched (R363). -/
def Lane.analogHeat (l : Lane) : Lane := (List.range 8).foldl (fun y m => y.analogLatch m) l

/-- SUPPLY_FAULT (R367): out of the window or in current limit, off, and after the third fault of a power cycle for good. -/
def supplyFaultL (c : Ctx) (s : Fin 2) (mv : BitVec 16) (limit : Bool) (l : Lane) : Lane :=
  let k := s.val
  if l.bit (R.SI_SUP_on k) && (limit || offWindow mv) then
    let n := min (l.get (R.SI_SUP_faults k) + 1) 3
    let l1 := (((l.put (R.SI_SUP_mv k) mv.toNat).put (R.SI_SUP_limit k) 0).put (R.SI_SUP_on k) 0).put (R.SI_SUP_faults k) n
    let l2 := ((l1.put (R.SI_SUP_fault k) 1).flag R.SI_FLAGS_sup_fault).stagesOff (BitVec.ofNat 32 (2 ^ (24 + k)))
    let l3 := { l2 with si := { l2.si with supOffAt := tabPut l2.si.supOffAt k c.now } }
    if n = 3 then (l3.put (R.SI_SUP_latched k) 1).flag R.SI_FLAGS_sup_latched else l3
  else l

/-- A sensor supply switched on (R367, R368). -/
def Lane.supplyOn (l : Lane) (k okAt : Nat) : Lane :=
  let l1 := ((l.put (R.SI_SUP_on k) 1).put (R.SI_SUP_fault k) 0).put (R.SI_SUP_limit k) 0
  { l1.stagesOn (BitVec.ofNat 32 (2 ^ (24 + k))) with si := { l1.si with supOkAt := tabPut l1.si.supOkAt k okAt } }

/-- SUPPLY_RETRY (R367): 100 ms after the fault the supply is on again; its inputs count after 1 ms more. -/
def supplyRetryL (c : Ctx) (s : Fin 2) (l : Lane) : Lane :=
  let k := s.val
  match tabGet l.si.supOffAt k with
  | some t =>
    if l.bit (R.SI_SUP_fault k) = true ∧ l.bit (R.SI_SUP_latched k) = false ∧ t + 100000000 ≤ c.now then
      l.supplyOn k (c.now + 1000000)
    else l
  | none => l

/-! ### The commands -/

/-- CONTACT_SAMPLE. -/
def execContactSample (ln : LaneId) (n : Fin 12) (c1 c2 : ContactRead) (s : State) : Answer :=
  onAlive ln (fun c l => contactSampleL c n c1 c2 l) s

/-- DISCREPANCY_TIMEOUT. -/
def execDiscrepancyTimeout (ln : LaneId) (n : Fin 12) (s : State) : Answer :=
  onAlive ln (fun c l => discrepancyTimeoutL c n l) s

/-- TEST_PULSE_START. -/
def execTestPulseStart (ln : LaneId) (k : Fin 2) (s : State) : Answer := onAlive ln (fun c l => testPulseStartL c k l) s

/-- TEST_PULSE_CHECK. -/
def execTestPulseCheck (ln : LaneId) (k : Fin 2) (c1 c2 : BitVec 12) (s : State) : Answer :=
  onAlive ln (fun c l => testPulseCheckL c k c1 c2 l) s

/-- TEST_PULSE_END. -/
def execTestPulseEnd (ln : LaneId) (k : Fin 2) (s : State) : Answer := onAlive ln (fun c l => testPulseEndL c k l) s

/-- TP_SOURCE_FAULT. -/
def execTpSourceFault (ln : LaneId) (k : Fin 2) (s : State) : Answer := onAlive ln (fun _ l => tpSourceFaultL k l) s

/-- DO_SET_WRITE. -/
def execDoSetWrite (ln : LaneId) (value : Word) (s : State) : Answer := onAlive ln (fun c l => doSetWriteL c value l) s

/-- OUTPUT_OFF_PULSE. -/
def execOutputOffPulse (ln : LaneId) (k : Fin 8) (nodeOff pinOff nodeOn : Bool) (s : State) : Answer :=
  onAlive ln (fun c l => outputOffPulseL c k nodeOff pinOff nodeOn l) s

/-- ANALOG_SAMPLE. -/
def execAnalogSample (ln : LaneId) (codes supply : List (BitVec 16)) (s : State) : Answer :=
  sharingSensors ln s (onAlive ln (fun c l => analogSampleL c codes supply l) s)

/-- ANALOG_FAULT_TIMEOUT. -/
def execAnalogFaultTimeout (ln : LaneId) (m : Fin 8) (s : State) : Answer :=
  sharingSensors ln s (onAlive ln (fun c l => analogFaultTimeoutL c m l) s)

/-- SUPPLY_FAULT. -/
def execSupplyFault (ln : LaneId) (k : Fin 2) (mv : BitVec 16) (limit : Bool) (s : State) : Answer :=
  onAlive ln (fun c l => supplyFaultL c k mv limit l) s

/-- SUPPLY_RETRY. -/
def execSupplyRetry (ln : LaneId) (k : Fin 2) (s : State) : Answer := onAlive ln (fun c l => supplyRetryL c k l) s

end Sys2Proof.Machine
end

