-- ==== Sys2Proof/Machine/Angle.lean ====
section
/-! DEFINITION. Sine/cosine angle feedback (R324 to R343): correction, interpolation, start, monitors, faults, speed and the
latch at the heat boundary. -/

namespace Sys2Proof.Machine

/-- An angle interface beyond its registers. -/
def Lane.af (l : Lane) (n : Nat) : Angle := if n = 0 then l.af0 else l.af1

/-- An angle interface replaced. -/
def Lane.setAf (l : Lane) (n : Nat) (x : Angle) : Lane := if n = 0 then { l with af0 := x } else { l with af1 := x }

/-- Sine and cosine of a sample after the correction of R327, in codes. -/
def Lane.correctSample (l : Lane) (n : Nat) (m : SinCos) : Int × Int :=
  let ofs := l.rd (R.AFn_CAL_OFS n)
  let gp := l.rd (R.AFn_CAL_GP n)
  let s1 := m.s.toInt - (ofs.extractLsb' 16 16).toInt
  let c1 := rnaDiv ((m.c.toInt - (ofs.setWidth 16).toInt) * (gp.extractLsb' 16 16).toNat) 32768
  let s2 := s1 + rnaDiv ((gp.setWidth 16).toInt * c1) 32768
  (if l.bit (R.AFn_CFG_dir_inv n) then -s2 else s2, c1)

/-- The radius of a corrected sample in codes, rounded down (R327). -/
def radius (s c : Int) : Nat := isqrt (s * s + c * c).toNat

/-- The phase of a corrected sample in counts (R328). -/
def phaseOf (s c : Int) : Nat :=
  ((catan (c * 65536) (s * 65536)).2 + 0x80000).toNat / 2 ^ 20 % 4096

/-- A raw code within 256 codes of an end of the converter range (R334). -/
def nearEnd (x : BitVec 16) : Bool := decide (x.toInt < -32768 + 256) || decide (32767 - 256 < x.toInt)

/-- A difference of counts as signed 12 bits (R329). -/
def signed12 (x : Int) : Int := (BitVec.ofInt 12 x).toInt

/-- The interface has started (R331). -/
def Lane.afStarted (l : Lane) (n : Nat) : Bool := l.bit (R.AFn_STATUS_started n)

/-- The angle of an interface in counts, a of R330. -/
def Lane.afCounts (l : Lane) (n : Nat) : Int := (l.pair (R.AFn_POS n) - BitVec.ofNat 40 (2 ^ 39)).toInt

/-- Counts of a full turn of the shaft. -/
def Lane.afTurn (l : Lane) (n : Nat) : Int := 4096 * l.get (R.AFn_CFG_ppr n)

/-- An angle in counts as q40 rad (R340). -/
def Lane.countsRad (l : Lane) (n : Nat) (a : Int) : Int := rq (radOf (a * 2 ^ 32) / (l.afTurn n : Rat))

/-- The phase of a sample counted from the calibrated zero_phase, at which the angle is 0 (R330, R331). -/
def Lane.fromZero (l : Lane) (n phase : Nat) : Int := phase - l.get (R.AFn_CAL_ZERO_zero_phase n)

/-- d0 of R331: the value congruent to the phase that is centred, or nearest to the referenced angle with ties to the lower. -/
def Lane.startValue (l : Lane) (n : Nat) (phase : Nat) : Int :=
  let r := signed12 (l.fromZero n phase)
  if l.get (R.AFn_CFG_start_mode n) = 1 then
    let o := 1 - n
    let aOther := radOf (l.afCounts o * 2 ^ 32) / (l.afTurn o : Rat)
    let tgt := qr (l.q (R.AFn_REF_GAIN n)) * aOther * (l.afTurn n : Rat) / radOf (2 ^ 32)
    let k := ceilRat ((tgt - (r : Rat)) / (4096 : Int) - mkRat 1 2)
    r + 4096 * k
  else r

/-- An SA fault of an interface with a kind (R337): latched, recorded and counted. -/
def Lane.saFault (c : Ctx) (l : Lane) (n kind : Nat) : Lane :=
  if l.bit (R.AFn_STATUS_sa_fault n) then l
  else
    let l1 := (l.put (R.AFn_STATUS_sa_fault n) 1).wr (R.AFn_FAULT n) (BitVec.ofNat 32 (2 ^ 31 + kind))
    let f := l1.get R.FC_SENSOR_sa_fault
    let l2 := ((l1.stampAt (R.AFn_FAULT_TIME n)).put R.FC_SENSOR_sa_fault (bitPut f n true)).flag (R.AF_FLAGS_sa_fault n)
    (l2.flag R.FC_FLAGS_sensor_fault).countNow c 9 (laneCode c.id) n

/-- The speed in use in counts/s (R339). -/
def Lane.afSpeed (l : Lane) (n : Nat) : Rat := if l.bit (R.AFn_STATUS_method n) then (l.af n).freq else (l.af n).period

/-- A bin edge crossed (R338): the period speed follows the last two crossings in the same direction. -/
def crossBin (x : Angle) (now : Nat) (up : Bool) (bin : Nat) : Angle :=
  match x.cross with
  | some (t, d) =>
    if d = up then
      let dt := now - t
      { x with cross := some (now, up), gap := some dt,
               period := (if up then 1 else -1) * mkRat (bin * 10 ^ 9) dt }
    else { x with cross := some (now, up), gap := none, period := 0 }
  | none => { x with cross := some (now, up) }

/-- The period speed where the time since the last crossing exceeds Δt (R338). -/
def periodNow (x : Angle) (now : Nat) (bin : Nat) : Rat :=
  match x.cross, x.gap with
  | some (t, d), some g => if g < now - t then (if d then 1 else -1) * mkRat (bin * 10 ^ 9) (now - t) else x.period
  | _, _ => x.period

/-- The position moved by whole counts, with the crossing of bin edges (R329, R338). -/
def Lane.movePos (c : Ctx) (l : Lane) (n : Nat) (d : Int) : Lane :=
  let p0 := l.pair (R.AFn_POS n)
  let p1 := p0 + BitVec.ofInt 40 d
  let bin := 2 ^ l.get (R.AFn_CFG_bin_log2 n)
  let l1 := l.putU (R.AFn_POS n) p1.toNat
  if p0.toNat / bin = p1.toNat / bin then l1 else l1.setAf n (crossBin (l1.af n) c.now (decide (0 < d)) bin)

/-- An interface that begins to coast keeps the speed of its last valid sample (R336, R338). -/
def Lane.coastFrom (l : Lane) (n : Nat) : Angle :=
  let x := l.af n
  if l.bit (R.AFn_STATUS_coasting n) then x else { x with period := periodNow x x.okAt (2 ^ l.get (R.AFn_CFG_bin_log2 n)) }

/-- An invalid sample (R334, R336): counted, and a started interface coasts at its last valid speed. -/
def Lane.afInvalid (c : Ctx) (l0 : Lane) (n kind : Nat) : Lane :=
  let x := l0.coastFrom n
  let l := l0.setAf n x
  let x1 := { x with good := 0, kind := if x.kind = 0 then kind else min x.kind kind,
                     invalidAt := match x.invalidAt with
                       | some t => some t
                       | none => some c.now }
  let l1 := ((l.setAf n x1).inc (R.AFn_INVALID_count n)).put (R.AFn_STATUS_valid n) 0
  if l.afStarted n then
    let adv := x.frac + l.afSpeed n * mkRat 500 (10 ^ 9)
    let whole := floorRat adv
    let l2 := l1.setAf n { x1 with frac := adv - (whole : Rat) }
    (l2.putU (R.AFn_POS n) (l2.pair (R.AFn_POS n) + BitVec.ofInt 40 whole).toNat).put (R.AFn_STATUS_coasting n) 1
  else l1

/-- The valid samples of a heat keep their least and greatest radius (R335). -/
def Angle.seeRadius (x : Angle) (r : Nat) : Angle :=
  { x with radLo := some (match x.radLo with
             | some a => min a r
             | none => r),
           radHi := some (match x.radHi with
             | some a => max a r
             | none => r) }

/-- INTERFACE_START (R331): the 64th consecutive valid sample, with the other interface started where it is referenced. -/
def Lane.afStart (l : Lane) (n phase : Nat) : Lane :=
  let x := l.af n
  if 64 ≤ x.good ∧ (l.get (R.AFn_CFG_start_mode n) = 1 → l.afStarted (1 - n) = true) then
    let l1 := l.putU (R.AFn_POS n) (BitVec.ofInt 40 (2 ^ 39 + l.startValue n phase)).toNat
    (l1.put (R.AFn_STATUS_started n) 1).put (R.AFn_STATUS_method n) 0
  else l

/-- A valid sample (R329, R336): the position follows the phase; more than a quarter period is a tracking fault. -/
def Lane.afValid (c : Ctx) (l : Lane) (n phase rad : Nat) : Lane :=
  let x := l.af n
  if l.afStarted n then
    let d := signed12 (l.fromZero n phase - (l.pair (R.AFn_POS n)).toNat % 4096)
    if 1024 < d.natAbs then
      (((l.flag (R.AF_FLAGS_track n)).afInvalid c n 4)).saFault c n 4
    else
      let x1 := { x with good := min (x.good + 1) 64, kind := 0, invalidAt := none, frac := 0, okAt := c.now }
      let l1 := ((l.setAf n (x1.seeRadius rad)).put (R.AFn_STATUS_valid n) 1).put (R.AFn_STATUS_coasting n) 0
      l1.movePos c n d
  else
    let x1 := { x with good := min (x.good + 1) 64, kind := 0, invalidAt := none, okAt := c.now }
    ((l.setAf n (x1.seeRadius rad)).put (R.AFn_STATUS_valid n) 1).afStart n phase

/-- The breach counters of one sample with the flags they set (R334). -/
def Lane.afMonitors (l : Lane) (n : Nat) (low high range : Bool) : Lane :=
  let x := l.af n
  let q := l.get (R.AFn_MON_CFG_n_q n)
  let step := fun (b : Bool) (k : Nat) => if b then min (k + 1) (q + 1) else 0
  let x1 := { x with nLow := step low x.nLow, nHigh := step high x.nHigh, nRange := step range x.nRange }
  (((l.setAf n x1).flagIf (decide (x1.nLow = q) && low) (R.AF_FLAGS_amp_low n)).flagIf
    (decide (x1.nHigh = q) && high) (R.AF_FLAGS_amp_high n)).flagIf (decide (x1.nRange = q) && range) (R.AF_FLAGS_range n)

/-- The samples of an interface have stayed invalid for its fault time (R337): that time is past, or it ends now and the sample of
this instant was invalid too (R424). -/
def Lane.afExpired (c : Ctx) (l : Lane) (n : Nat) : Bool :=
  let x := l.af n
  match x.invalidAt with
  | some t =>
    let e := t + l.get (R.AFn_FAULT_CFG_fault_us n) * 1000
    decide (e < c.now) || (decide (e = c.now) && decide (x.seenAt = c.now))
  | none => false

/-- An interface is about to take a sample: a fault time that has ended before it counts first (R337, R424). -/
def Lane.afSeen (c : Ctx) (l : Lane) (n : Nat) : Lane :=
  let l1 := if l.afExpired c n then l.saFault c n (l.af n).kind else l
  l1.setAf n { l1.af n with seenAt := c.now }

/-- One interface takes one sample (R326 to R336). -/
def Lane.afSample (c : Ctx) (l0 : Lane) (n : Nat) (m : SinCos) : Lane :=
  if l0.get (R.AFn_CFG_mode n) = 0 then l0
  else
    let l := l0.afSeen c n
    let (s, co) := l.correctSample n m
    let rad := radius s co
    let nom := l.get (R.AFn_NOMINAL_a_nom n)
    let low := decide (rad * 256 < l.get (R.AFn_MON_CFG_amp_lo n) * nom)
    let high := decide (l.get (R.AFn_MON_CFG_amp_hi n) * nom < rad * 256)
    let range := nearEnd m.s || nearEnd m.c
    let dead := !l.supplyOk c (l.get (R.AFn_CFG_supply n))
    let l1 := (l.wr (R.AFn_RAW n) (m.s ++ m.c)).put (R.AFn_AMP_r n) (min (nearest (mkRat (rad * 1024) nom)).toNat 4095)
    let l2 := l1.afMonitors n low high range
    if low then l2.afInvalid c n 1
    else if high then l2.afInvalid c n 2
    else if range then l2.afInvalid c n 3
    else if dead then l2.afInvalid c n 5
    else l2.afValid c n (phaseOf s co) rad

/-- ANGLE_SAMPLE (R326): both interfaces of a lane. While the pads are held the sensors have no supply, and no sample counts
(DEDUCED, log 52, from R331, R462). -/
def angleSampleL (c : Ctx) (s0 s1 : SinCos) (l : Lane) : Lane :=
  if l.bit R.PW_STATUS_pads_held then l else (l.afSample c 0 s0).afSample c 1 s1

/-- ANGLE_FAULT_TIMEOUT (R337): samples invalid for the fault time. -/
def angleFaultTimeoutL (c : Ctx) (n : Fin 2) (l : Lane) : Lane :=
  if l.afExpired c n.val then l.saFault c n.val (l.af n.val).kind else l

/-- INTERFACE_START_TIMEOUT (R333): not started 20 ms after the start of the lane's sensor check. -/
def interfaceStartTimeoutL (c : Ctx) (n : Fin 2) (l : Lane) : Lane :=
  match l.si.checkFrom with
  | some t =>
    if t + 20000000 ≤ c.now ∧ l.get (R.AFn_CFG_mode n.val) ≠ 0 ∧ l.afStarted n.val = false then l.saFault c n.val 6 else l
  | none => l

/-- SPEED_ZERO_TIMEOUT (R338, R339): no bin crossing for AFn_ZERO_TIME sets the speed to 0; the last crossing stands for the next
interval. While the interface coasts its speed is held. -/
def speedZeroTimeoutL (c : Ctx) (n : Fin 2) (l : Lane) : Lane :=
  let x := l.af n.val
  match x.cross with
  | some (t, _) =>
    if t + (l.rd (R.AFn_ZERO_TIME n.val)).toNat ≤ c.now ∧ l.bit (R.AFn_STATUS_coasting n.val) = false then
      l.setAf n.val { x with period := 0, gap := none }
    else l
  | none => l

/-- A speed in counts/s as q40 rad/s (R340). -/
def Lane.cpsRad (l : Lane) (n : Nat) (v : Rat) : Int := rq (v * radOf (2 ^ 32) / (l.afTurn n : Rat))

/-- The speed methods at a heat boundary (R338, R339), held while the interface coasts. -/
def Lane.afSpeedHeat (c : Ctx) (l : Lane) (n : Nat) : Lane :=
  if l.bit (R.AFn_STATUS_coasting n) then l
  else
    let x := l.af n
    let bin := 2 ^ l.get (R.AFn_CFG_bin_log2 n)
    let per := periodNow x c.now bin
    let d := (l.pair (R.AFn_POS n) - l.pair (R.AFn_POS_HEAT n)).toInt
    let freq := if l.heatLen = 0 then 0 else mkRat (d * 10 ^ 9) l.heatLen
    let l1 := l.setAf n { x with period := per, freq := freq }
    let m := l.bit (R.AFn_STATUS_method n)
    if m = false ∧ (((l.rd (R.AFn_SW_HI n)).toNat : Int) : Rat) < |per| then
      (l1.put (R.AFn_STATUS_method n) 1).flag (R.AF_FLAGS_mode_change n)
    else if m = true ∧ |freq| < (((l.rd (R.AFn_SW_LO n)).toNat : Int) : Rat) then
      (l1.put (R.AFn_STATUS_method n) 0).flag (R.AF_FLAGS_mode_change n)
    else l1

/-- The quality monitor of a heat (R335). -/
def Lane.afQuality (l : Lane) (n : Nat) : Lane :=
  let x := l.af n
  let nom := l.get (R.AFn_NOMINAL_a_nom n)
  let l1 := l.setAf n { x with radLo := none, radHi := none }
  match x.radLo, x.radHi with
  | some lo, some hi =>
    let bad := decide (l.get (R.AFn_MON_CFG_q_max n) * nom < (hi - lo) * 64)
    ((l1.put (R.AFn_AMP_r_pp n) (min (nearest (mkRat ((hi - lo) * 1024 : Nat) nom)).toNat 4095)).putB
      (R.AFn_STATUS_quality n) bad).flagIf bad (R.AF_FLAGS_quality n)
  | _, _ => (l1.put (R.AFn_AMP_r_pp n) 0).put (R.AFn_STATUS_quality n) 0

/-- The latch of one interface at a heat boundary (R340). After an SA fault the forms come from R119 alone; the forms latched
with a valid sample are kept for it. -/
def Lane.afLatch (c : Ctx) (l : Lane) (n : Nat) : Lane :=
  if l.get (R.AFn_CFG_mode n) = 0 then l
  else
    let l0 := (l.afSpeedHeat c n).afQuality n
    let l1 := l0.setAf n { l0.af n with heatOk := l0.bit (R.AFn_STATUS_valid n) && l0.afStarted n }
    if l1.afStarted n && !l1.bit (R.AFn_STATUS_sa_fault n) then
      let a := l1.afCounts n
      let v := l1.afSpeed n
      let turn := BitVec.ofInt 32 (nearest (mkRat (a * 2 ^ 32) (l1.afTurn n).toNat))
      let cps := clampInt (-(2 ^ 31)) (2 ^ 31 - 1) (nearest v)
      let l2 := (l1.putU (R.AFn_POS_HEAT n) (l1.pair (R.AFn_POS n)).toNat).wr (R.AFn_ANGLE n) turn
      let l3 := ((l2.wr (R.AFn_SPEED_CPS n) (BitVec.ofInt 32 cps)).putQ (R.AFn_ANGLE_RAD n) (l1.countsRad n a)).putQ
        (R.AFn_SPEED_RAD n) (l1.cpsRad n v) |>.putB (R.AFn_STATUS_direction n) (decide (v < 0))
      if l3.bit (R.AFn_STATUS_valid n) then
        l3.setAf n { l3.af n with okAngle := turn, okPos := l1.pair (R.AFn_POS n), okRad := l1.countsRad n a }
      else l3
    else l1

/-- Both interfaces latched (R340). -/
def Lane.angleHeat (c : Ctx) (l : Lane) : Lane := (l.afLatch c 0).afLatch c 1

/-- A substituted angle of one heat (R119): the reported angle advanced by one heat at the reported speed; the other forms
continue by its difference, at first from the lane's own last valid values. -/
def Lane.substAngle (l : Lane) (n : Nat) (angle : Word) (speed : Int) : Lane :=
  let x := l.af n
  let now := angle + turnsOf (qr speed * secs l.heatLen)
  let first := decide (x.subst = none)
  let prev := match x.subst with
    | some w => w
    | none => x.okAngle
  let pos := if first then x.okPos else l.pair (R.AFn_POS_HEAT n)
  let rad := if first then x.okRad else l.q (R.AFn_ANGLE_RAD n)
  let d := sdiff now prev
  let counts := nearest (mkRat (d * l.afTurn n) (2 ^ 32))
  let l1 := (l.setAf n { x with subst := some now }).wr (R.AFn_ANGLE n) now
  let l2 := (l1.putU (R.AFn_POS_HEAT n) (pos + BitVec.ofInt 40 counts).toNat).putQ (R.AFn_ANGLE_RAD n) (satQ (rad + turnToRad d))
  let f := l2.get R.FC_SENSOR_sa_subst
  let cps := clampInt (-(2 ^ 31)) (2 ^ 31 - 1) (nearest (qr speed * (l.afTurn n : Rat) / radOf (2 ^ 32)))
  let l3 := ((l2.putQ (R.AFn_SPEED_RAD n) speed).wr (R.AFn_SPEED_CPS n) (BitVec.ofInt 32 cps)).putB (R.AFn_STATUS_direction n)
    (decide (speed < 0))
  l3.put R.FC_SENSOR_sa_subst (bitPut f n true)

/-- A substituted pressure of one heat (R119), used as it is. -/
def Lane.substAnalog (l : Lane) (m : Nat) (y : Int) : Lane :=
  let f := l.get R.FC_SENSOR_sp_subst
  (l.putQ (R.SI_AIm_VALUE m) y).put R.FC_SENSOR_sp_subst (bitPut f m true)

/-! ### The commands -/

/-- ANGLE_SAMPLE. -/
def execAngleSample (ln : LaneId) (s0 s1 : SinCos) (s : State) : Answer :=
  sharingSensors ln s (onAlive ln (fun c l => angleSampleL c s0 s1 l) s)

/-- ANGLE_FAULT_TIMEOUT. -/
def execAngleFaultTimeout (ln : LaneId) (n : Fin 2) (s : State) : Answer :=
  sharingSensors ln s (onAlive ln (fun c l => angleFaultTimeoutL c n l) s)

/-- INTERFACE_START_TIMEOUT. -/
def execInterfaceStartTimeout (ln : LaneId) (n : Fin 2) (s : State) : Answer :=
  sharingSensors ln s (onAlive ln (fun c l => interfaceStartTimeoutL c n l) s)

/-- SPEED_ZERO_TIMEOUT. -/
def execSpeedZeroTimeout (ln : LaneId) (n : Fin 2) (s : State) : Answer := onAlive ln (fun c l => speedZeroTimeoutL c n l) s

end Sys2Proof.Machine
end

