-- ==== Sys2Proof/Machine/Operands.lean ====
section
/-! DEFINITION. The operand forms of the engine instructions: registers and predicates (R168), the windows of a leg in its
engine's TCM (R165, R182, R183), and the context of a yield (R190). -/

namespace Sys2Proof.Machine

/-- An engine with no run: registers 0, windows at their bases (R165, R169). -/
def Engine.idle : Engine := freshEngine

/-- Engine `e` of the lane. -/
def Lane.eng (l : Lane) (e : Nat) : Engine := (l.ea.engines[e]?).getD Engine.idle

/-- Engine `e` replaced. -/
def Lane.setEng (l : Lane) (e : Nat) (x : Engine) : Lane :=
  { l with ea := { l.ea with engines := l.ea.engines.set e x } }

/-- A general register; w0 reads 0 (R168). -/
def Engine.reg (x : Engine) (r : Reg) : W40 := if r.val = 0 then 0 else (tabGet x.w r.val).getD 0

/-- A general register written; writes to w0 are discarded (R168). -/
def Engine.setReg (x : Engine) (r : Reg) (v : W40) : Engine :=
  if r.val = 0 then x
  else { x with w := if v = 0 then tabDel x.w r.val else tabPut x.w r.val v }

/-- A predicate. -/
def Engine.pred (x : Engine) (i : Pred) : Bool := x.p.getLsbD i.val

/-- A predicate written. -/
def Engine.setPred (x : Engine) (i : Pred) (b : Bool) : Engine :=
  { x with p := (x.p &&& ~~~(1#4 <<< i.val)) ||| (if b then 1#4 <<< i.val else 0) }

/-- An accumulator (R168). -/
def Engine.acc (x : Engine) (one : Bool) : W80 := if one then x.acc1 else x.acc0

/-- An accumulator written. -/
def Engine.setAcc (x : Engine) (one : Bool) (v : W80) : Engine :=
  if one then { x with acc1 := v } else { x with acc0 := v }

/-- One more saturation of the run where it happened, saturating at 0xFFFF (R168, R176). -/
def Engine.count (x : Engine) (hit : Bool) : Engine := if hit then { x with sat := min (x.sat + 1) 0xFFFF } else x

/-- The program counter moves past the instruction. -/
def Engine.next (x : Engine) : Engine := { x with pc := x.pc + 4 }

/-- Address `a` of an engine's own map, in the lane's map (R165, R166). -/
def tcmAddr (e : Nat) (a : Nat) : Nat := 0x10000 * e + a

/-- Bytes `n` from `a` lie inside a window of `size` bytes at `base`, aligned to `n`. -/
def inWindow (a n base size : Nat) : Bool :=
  decide (a % n = 0) && decide (base ≤ a) && decide (a + n ≤ base + size)

/-- The loads that pass (R182): snapshot slots, state bytes, scratch area. -/
def loadOk (d : LegDesc) (a n : Nat) : Bool :=
  inWindow a n 0xC000 (8 * d.snapshot.length) || inWindow a n 0xC200 (8 * d.stateSlots) || inWindow a n 0xC400 0x3C00

/-- The stores that pass (R182): buffer slots, state bytes, scratch area. -/
def storeOk (d : LegDesc) (a n : Nat) : Bool :=
  inWindow a n 0xC100 (8 * d.buffer.length) || inWindow a n 0xC200 (8 * d.stateSlots) || inWindow a n 0xC400 0x3C00

/-- The address of a load or store (R181): ra[31:0] + sext(disp12) × s, modulo 2^32. -/
def memAddr (x : Engine) (ra : Reg) (disp : BitVec 12) (s : Nat) : Nat :=
  (((x.reg ra).setWidth 32 : Word) + disp.signExtend 32 * BitVec.ofNat 32 s).toNat

/-- The slot index of pin and pout (R183): ra[7:0] + sext(disp12). -/
def slotIx (x : Engine) (ra : Reg) (disp : BitVec 12) : Int := ((x.reg ra).setWidth 8 : BitVec 8).toNat + disp.toInt

/-- Whether a slot index names one of `n` slots (R183). -/
def slotIn (k : Int) (n : Nat) : Bool := decide (0 ≤ k) && decide (k < n)

/-- The 184 bytes that the digest covers (R192). -/
def digestBytes (x : Engine) (pc : Word) : List Byte :=
  ((List.range 31).flatMap (fun i => bytesMsb 5 ((tabGet x.w (i + 1)).getD 0))) ++
    bytesMsb 10 x.acc0 ++ bytesMsb 10 x.acc1 ++ [x.p.setWidth 8] ++ bytesMsb 4 pc ++
    bytesMsb 2 x.snapBase ++ bytesMsb 2 x.bufBase

/-- The digest written to the engine's digest port (R100, R192). -/
def Engine.writeDigest (x : Engine) (pc : Word) : Engine := { x with digest := digest64 (digestBytes x pc) }

/-- The registers that a run starts and ends with: all 0 (R169). -/
def Engine.clear (x : Engine) : Engine :=
  { x with w := [], acc0 := 0, acc1 := 0, p := 0, pc := 0, sat := 0, spawn := [], run := none, cordic := none }

/-- The leg descriptor of an ID. -/
def Lane.legDesc (l : Lane) (leg : Nat) : Option LegDesc := tabGet l.image.legs leg

/-- The buffer window's bytes of an engine. -/
def Lane.bufferBytes (l : Lane) (e : Nat) (d : LegDesc) : List Byte := l.bytes (tcmAddr e 0xC100) (8 * d.buffer.length)

/-- The state window's bytes of an engine. -/
def Lane.stateBytes (l : Lane) (e : Nat) (d : LegDesc) : List Byte := l.bytes (tcmAddr e 0xC200) (8 * d.stateSlots)

/-- A 40-bit slot out of bytes (R170). -/
def slotOf (bs : List Byte) (k : Nat) : W40 :=
  let g : Nat → Byte := fun i => (bs[8 * k + i]?).getD 0
  g 4 ++ g 3 ++ g 2 ++ g 1 ++ g 0

/-- Bytes with a 40-bit slot replaced. -/
def putSlot (bs : List Byte) (k : Nat) (v : W40) : List Byte :=
  bs.take (8 * k) ++ slotBytes v ++ bs.drop (8 * k + 8)

end Sys2Proof.Machine
end

