-- ==== Sys2Proof/Machine/Engines.lean ====
section
/-! DEFINITION. The engine array (R133 to R166): deques and steals, the start and end of runs, misses, scratches,
quarantine, commits, and run-ahead. -/

namespace Sys2Proof.Machine

/-! ### The sweep order -/

/-- The sweep order from an engine (R142): the others of its block, then the other blocks. -/
def sweepOrder (m : Member) (e : Nat) : List Nat :=
  let b := e / 4
  let i := e % 4
  let n := blockCount m
  [4 * b + (i + 1) % 4, 4 * b + (i + 2) % 4, 4 * b + (i + 3) % 4] ++
    (List.range (n - 1)).flatMap (fun j => (List.range 4).map (fun k => 4 * ((b + 1 + j) % n) + k))

/-- The leg's record. -/
def Lane.leg (l : Lane) (leg : Nat) : LegRun :=
  (tabGet l.ea.legs leg).getD ⟨0, 0, 0, 0, 0, 0, false, false, false, false, none, [], [], [], 0, none⟩

/-- The leg's record replaced. -/
def Lane.setLeg (l : Lane) (leg : Nat) (x : LegRun) : Lane :=
  { l with ea := { l.ea with legs := tabPut l.ea.legs leg x } }

/-- The offset of a hurdle from the heat boundary (R138). -/
def Lane.hurdleAt (l : Lane) (h : Nat) : Nat := l.ea.heatAt + (l.rd (R.EA_HURDLE h)).toNat

/-! ### Misses -/

/-- A HURDLE_MISS of a leg with its cause (R146 to R148): its status, the counters and flags, and at the third consecutive
miss of a privileged leg the lane becomes unfit. -/
def Lane.miss (c : Ctx) (l : Lane) (leg cause : Nat) : Lane :=
  let r := l.leg leg
  let n := min (r.consecutive + 1) 3
  let l1 := l.setLeg leg { r with misses := min (r.misses + 1) 4095, consecutive := n, lastEnd := 4, due := false }
  let l2 := ((l1.inc R.EA_MISS_CNT_count).wr R.EA_LAST_MISS
    (BitVec.ofNat 32 (l.heat16.toNat * 2 ^ 16 + leg % 256 * 256 + cause))).flag R.EA_FLAGS_hurdle_miss
  let l3 := { l2 with ea := { l2.ea with missThisHeat := true } }
  let priv := match l.legDesc leg with
    | some d => d.privileged
    | none => false
  if priv = true ∧ n = 3 ∧ r.consecutive < 3 then (l3.flag R.EA_FLAGS_priv_miss3).logicFault c 0xC else l3

/-- A run-ahead leg that ends before its target boundary is marked squashed with a cause (R162). -/
def Lane.markSquash (l : Lane) (leg cause : Nat) : Lane :=
  l.setLeg leg { l.leg leg with squashCause := some cause }

/-! ### Runs -/

/-- The cause of a miss at this instant (R196): in the cycle of its hurdle a leg ends by the hurdle, whatever else befalls
it there. -/
def Lane.missCause (c : Ctx) (l : Lane) (leg cause : Nat) : Nat :=
  match l.legDesc leg with
  | some d => if c.now = l.hurdleAt d.hurdle then 0 else cause
  | none => cause

/-- The engine's run ends: its registers are cleared (R169) and its busy time grows. -/
def Lane.freeEngine (c : Ctx) (l : Lane) (e : Nat) : Lane :=
  let x := l.eng e
  let busy := match x.run with
    | some r => x.busy + (c.now - max r.startAt l.ea.heatAt)
    | none => x.busy
  l.setEng e { x.clear with busy := busy }

/-- A run ends without a commit, for a cause of R147: before the target boundary of a run-ahead leg it is only marked
(R162), and in the cycle of its hurdle the cause is the hurdle (R196). -/
def Lane.endRun (c : Ctx) (l : Lane) (e cause : Nat) : Lane :=
  match (l.eng e).run with
  | some r =>
    let l1 := l.freeEngine c e
    if r.ahead then l1.markSquash r.leg 3 else l1.miss c r.leg (l.missCause c r.leg cause)
  | none => l

/-- A window trap (R134): window_trap is set and the leg ends with cause 3. DESIGN CHOICE (log 80): in the cycle of its hurdle, where
R196 lets the hurdle decide, window_trap is set too, and the engine writes no digest of R100 for that hurdle. -/
def Lane.windowTrap (c : Ctx) (l : Lane) (e : Nat) : Lane := (l.flag R.EA_FLAGS_window_trap).endRun c e 3

/-- An engine's entries, one pushed at the bottom; the greatest depth is kept. -/
def Engine.pushBottom (x : Engine) (n : Entry) : Engine :=
  { x with deque := n :: x.deque, maxDepth := max x.maxDepth (x.deque.length + 1) }

/-- The first engine of a list that takes a push: fit, with room in its deque (R144). -/
def Lane.roomIn (c : Ctx) (l : Lane) (es : List Nat) : Option Nat :=
  es.find? (fun e => l.engFit c e && decide ((l.eng e).deque.length < 16))

/-- A push to an engine's deque, redirected where it is full or gone (R144); with every deque full the leg is not spawned
and ends with cause 5. DESIGN CHOICE (log 32): an entry for the next heat that finds no room is missed now too, and squashed as late at
the boundary. -/
def Lane.push (c : Ctx) (l : Lane) (e : Nat) (n : Entry) : Lane :=
  match l.roomIn c (e :: sweepOrder c.part.member e) with
  | some t => l.setEng t ((l.eng t).pushBottom n)
  | none => (l.flag R.EA_FLAGS_deque_overflow).miss c n.leg 5

/-- An engine with nothing to do: no run, and in its deque nothing that may be taken yet (R156). -/
def Engine.isIdle (x : Engine) : Bool := decide (x.run = none) && x.deque.all (fun n => !n.ready)

/-- A leg handed to an engine (R152, R161): the first idle fit engine of the candidates, else the deque of the first fit
one. -/
def Lane.handTo (c : Ctx) (l : Lane) (es : List Nat) (n : Entry) : Lane :=
  let idle := es.find? (fun e => l.engFit c e && (l.eng e).isIdle)
  match idle with
  | some e => l.setEng e ((l.eng e).pushBottom n)
  | none =>
    match es.find? (fun e => l.engFit c e) with
    | some e => l.push c e n
    | none => (l.flag R.EA_FLAGS_deque_overflow).miss c n.leg 5

/-- A discarded leg is re-spawned once, where the time left to its hurdle is at least its wcet plus 20 ns (R152); in the cycle
of its hurdle it is a miss by the hurdle (R196). -/
def Lane.respawn (c : Ctx) (l : Lane) (e leg : Nat) (second : Bool) : Lane :=
  let fits := match l.legDesc leg with
    | some d => decide (c.now + d.wcet + 20 ≤ l.hurdleAt d.hurdle)
    | none => false
  if fits && !second then
    let l1 := (l.flag R.EA_FLAGS_respawn).inc R.EA_RESPAWN_done
    l1.handTo c (sweepOrder c.part.member e) ⟨leg, true, false, true, none⟩
  else if l.missCause c leg 4 = 0 then l.miss c leg 0
  else ((l.flag R.EA_FLAGS_respawn_refused).inc R.EA_RESPAWN_refused).miss c leg 4

/-- The entries of a deque moved to the deques that follow, in their order (R144, R152); the context of a yield lies in
its block's memory and is left where the entry leaves that block (R141, R190). -/
def Lane.moveEntries (c : Ctx) (l : Lane) (e : Nat) : List Entry → Lane
  | [] => l
  | n :: t =>
    let stays := (l.roomIn c (sweepOrder c.part.member e)).any (fun v => decide (v / 4 = e / 4))
    let l1 := l.push c e { n with saved := if stays then n.saved else none }
    l1.moveEntries c e t

/-- The fit engine counts shown, and a lane below its minimum becomes unfit (R154). -/
def Lane.countEngines (c : Ctx) (l : Lane) : Lane :=
  let n := l.fitEngines c
  let l1 := l.showEngines c
  if n < l.get R.EA_MIN_ENGINES_count then
    ((l1.put R.EA_STATUS_below_min 1).flagIf (!l.bit R.EA_STATUS_below_min) R.EA_FLAGS_below_min).logicFault c 0xC
  else l1

/-- The run of a lost engine: re-spawned, or marked where it ran ahead (R152, R162). -/
def Lane.loseRun (c : Ctx) (l : Lane) (e : Nat) : Lane :=
  match (l.eng e).run with
  | some r =>
    let l1 := l.freeEngine c e
    if r.ahead then l1.markSquash r.leg 2 else l1.respawn c e r.leg r.second
  | none => l.freeEngine c e

/-- The engines of a mask marked as scratched. -/
def Lane.markScratch (l : Lane) (e cause : Nat) : Lane :=
  let m := l.get R.FC_SCRATCH_engines
  let l1 := l.put R.FC_SCRATCH_engines (if Nat.testBit m e then m else m + 2 ^ e)
  l1.wr R.FC_LAST_SCRATCH (BitVec.ofNat 32 (l.heat16.toNat * 2 ^ 16 + cause * 256 + e))

/-- An engine is scratched with a cause (R152): its run is re-spawned, its deque moved, it writes its digest and is
clock-gated (R100), and the fit engines are counted. An engine already scratched stays as it is. -/
def Lane.scratch (c : Ctx) (l : Lane) (e cause : Nat) : Lane :=
  if !l.engFit c e then l
  else
    let q := (l.eng e).deque
    let l1 := l.markScratch e cause
    let l2 := l1.setEng e { l1.eng e with deque := [] }
    let l3 := l2.loseRun c e
    ((l3.moveEntries c e q.reverse).setEng e { ((l3.eng e).writeDigest 0) with deque := [], gated := true }).countEngines c

/-- The runs of several engines lost. -/
def Lane.loseRuns (c : Ctx) (l : Lane) : List Nat → Lane
  | [] => l
  | e :: t => (l.loseRun c e).loseRuns c t

/-- Deques of several engines emptied and moved. -/
def Lane.moveDeques (c : Ctx) (l : Lane) : List (Nat × List Entry) → Lane
  | [] => l
  | (e, q) :: t => (l.moveEntries c e q.reverse).moveDeques c t

/-- Legs whose done areas lay in a lost block (R153): before its target boundary a run-ahead leg is marked squashed (R162); any
other is re-spawned as from the engine it ran on. -/
def Lane.loseDone (c : Ctx) (l : Lane) : List Done → Lane
  | [] => l
  | d :: t =>
    (if d.ahead && !(l.leg d.leg).due then l.markSquash d.leg 2 else l.respawn c d.engine d.leg d.second).loseDone c t

/-- A block is quarantined (R28, R153): its four engines are scratched with cause 6, their runs, deques and done areas are
placed again, and the fit engines are counted. DESIGN CHOICE (log 79): of the four FC_LAST_SCRATCH names the last, 4b + 3. -/
def Lane.quarantine (c : Ctx) (l : Lane) (b : Nat) : Lane :=
  if Nat.testBit (l.get R.FC_BLOCKS_quarantined) b || decide (blockCount c.part.member ≤ b) then l
  else
    let es := [4 * b, 4 * b + 1, 4 * b + 2, 4 * b + 3]
    let qs := es.map (fun e => (e, (l.eng e).deque))
    let m := l.get R.FC_BLOCKS_quarantined
    let l1 := (l.put R.FC_BLOCKS_quarantined (m + 2 ^ b)).flag R.FC_FLAGS_quarantine
    let l2 := es.foldl (fun s e => (s.markScratch e 6).setEng e { s.eng e with deque := [] }) l1
    let l3 := l2.loseRuns c es
    let gone := l3.ea.done.filter (fun d => decide (d.engine / 4 = b))
    let l4 := { l3 with ea := { l3.ea with done := l3.ea.done.filter (fun d => decide (d.engine / 4 ≠ b)) } }
    let l5 := (l4.loseDone c gone).moveDeques c qs
    (es.foldl (fun s e => s.setEng e { ((s.eng e).writeDigest 0) with deque := [], gated := true }) l5).countEngines c

/-- An action of a cell on a fault of its own (R25), which a higher level that acts at the same instant takes the place of
(R110). -/
def Lane.cellFault (c : Ctx) (l : Lane) (e cause : Nat) : Lane :=
  if l.outranked c 0 then l else ((l.noLower).scratch c e cause).keepLower c l

/-- A block's own action on a fault (R28), under the same order. -/
def Lane.blockFault (c : Ctx) (l : Lane) (b : Nat) : Lane :=
  if l.outranked c 1 then l
  else
    let l1 := match l.fc.actedAt with
      | some (t, _) => if t = c.now then l else l.undoLower c
      | none => l.undoLower c
    ((l1.noLower.quarantine c b).keepLower c l).actedBlock c

/-! ### Starting a leg -/

/-- Where the memory of a block holds a leg's committed state (R165). -/
def blockState (b : Nat) (d : LegDesc) : Nat := 0x10000000 + 0x40000 * b + d.blockAt

/-- The committed state of a leg as an engine loads it (R145): from the home block's memory in its own block, else from lane
SRAM. -/
def Lane.committedState (l : Lane) (e leg : Nat) (d : LegDesc) : List Byte :=
  let home := (l.leg leg).home
  l.bytes (if home / 4 = e / 4 then blockState (home / 4) d else d.stateAt) (8 * d.stateSlots)

/-- A frozen snapshot stored in the snapshot window, slot by slot (R170). -/
def slotsBytes (vs : List W40) : List Byte := vs.flatMap slotBytes

/-- An engine starts an entry (R145, R169): snapshot, committed state and last committed buffer are loaded and the
registers are 0, or the context of a yield is taken back with the snapshot reloaded (R190). DESIGN CHOICE: the spec does not
say what the scratch area holds at the start of a run or after a yield; it keeps the bytes that the engine's TCM held
(log 37). -/
def Lane.startEntry (c : Ctx) (l : Lane) (e : Nat) (n : Entry) : Lane :=
  match l.legDesc n.leg with
  | none => l
  | some d =>
    let r := l.leg n.leg
    let vs := if n.ahead then r.predNext else r.snap
    let first := match n.saved with
      | some s => s.firstAt
      | none => c.now
    let run : Run := ⟨n.leg, n.ahead, n.second, c.now, first⟩
    let l1 := l.setBytes (tcmAddr e 0xC000) (slotsBytes (vs.take d.snapshot.length))
    let l2 := l1.setLeg n.leg { r with lastEngine := e }
    match n.saved with
    | some s =>
      let l3 := (l2.setBytes (tcmAddr e 0xC100) s.buffer).setBytes (tcmAddr e 0xC200) s.state
      l3.setEng e { l3.eng e with w := s.w, acc0 := s.acc0, acc1 := s.acc1, p := s.p, pc := s.pc, sat := s.sat,
                                  spawn := s.spawn, run := some run, cordic := none, gated := false }
    | none =>
      let l3 := (l2.setBytes (tcmAddr e 0xC100) (l.bytes d.bufferAt (8 * d.buffer.length))).setBytes
        (tcmAddr e 0xC200) (l.committedState e n.leg d)
      l3.setEng e { (l3.eng e).clear with pc := d.entry, run := some run, gated := false }

/-- The bottom-most entry that may be taken, with the rest of the deque. -/
def takeBottom : List Entry → Option (Entry × List Entry)
  | [] => none
  | n :: t =>
    if n.ready then some (n, t)
    else match takeBottom t with
      | some (m, r) => some (m, n :: r)
      | none => none

/-- The top-most entry that a thief may take (R141, R156), with the rest of the deque. -/
def takeTop (sameBlock : Bool) (q : List Entry) : Option (Entry × List Entry) :=
  let ok := fun (n : Entry) => n.ready && (sameBlock || decide (n.saved = none))
  match q.reverse.find? ok with
  | some n =>
    let k := q.length - 1 - q.reverse.findIdx ok
    some (n, q.eraseIdx k)
  | none => none

/-- The first deque in the sweep order with an entry a thief may take (R142). -/
def Lane.stealFrom (c : Ctx) (l : Lane) (e : Nat) : List Nat → Option (Nat × Entry × List Entry)
  | [] => none
  | v :: t =>
    if l.engFit c v then
      match takeTop (decide (v / 4 = e / 4)) (l.eng v).deque with
      | some (n, q) => some (v, n, q)
      | none => l.stealFrom c e t
    else l.stealFrom c e t

/-- An engine that may take a leg: fit, awake, without a run, the scheduler started. -/
def Lane.engFree (c : Ctx) (l : Lane) (e : Nat) : Bool :=
  l.ea.started && l.engFit c e && !(l.eng e).gated && decide ((l.eng e).run = none)

/-- A steal sweep (R142, R164): the leg found is started, or the engine writes its digest and is clock-gated. -/
def Lane.sweep (c : Ctx) (l : Lane) (e : Nat) : Lane :=
  match l.stealFrom c e (sweepOrder c.part.member e) with
  | some (v, n, q) =>
    let l1 := l.setEng v { l.eng v with deque := q }
    let l2 := if v / 4 = e / 4 then { l1 with ea := { l1.ea with localSteals := l1.ea.localSteals + 1 } }
      else { l1 with ea := { l1.ea with remoteSteals := l1.ea.remoteSteals + 1 } }
    l2.startEntry c e n
  | none =>
    let x := (l.eng e).clear.writeDigest 0
    l.setEng e { x with gated := true }

/-- LEG_START (R145): an engine pops its own deque, skipping what is not ready (R156), or steals where its deque is empty. -/
def legStartL (c : Ctx) (e : EngIx) (l : Lane) : Lane :=
  if l.engFree c e.val then
    match takeBottom (l.eng e.val).deque with
    | some (n, q) => (l.setEng e.val { l.eng e.val with deque := q }).startEntry c e.val n
    | none => if (l.eng e.val).deque = [] then l.sweep c e.val else l
  else l

/-- STEAL_SWEEP (R142): of an engine whose deque is empty. -/
def stealSweepL (c : Ctx) (e : EngIx) (l : Lane) : Lane :=
  if l.engFree c e.val && decide ((l.eng e.val).deque = []) then l.sweep c e.val else l

/-- Entries of the lane that a thief may take, and engines awake and idle (R164). -/
def Lane.schedWants (c : Ctx) (l : Lane) (e : Nat) : Bool :=
  let all := List.range (engineCount c.part.member)
  let queued := (all.flatMap (fun i => (l.eng i).deque)).filter (fun n => n.ready)
  let idle := all.filter (fun i => l.engFit c i && !(l.eng i).gated && decide ((l.eng i).run = none))
  decide (idle.length < queued.length) &&
    (List.range e).all (fun i => !l.engFit c i || !(l.eng i).gated)

/-- ENGINE_WAKE (R164): by a push or hand-off to its own deque, by the scheduler where the entries outnumber the awake idle
engines and no lower engine is gated, and by its injection slot, after which it is gated again. -/
def engineWakeL (c : Ctx) (e : EngIx) (cause : WakeCause) (l : Lane) : Lane :=
  let x := l.eng e.val
  let yes := match cause with
    | .push => decide (x.deque ≠ [])
    | .handOff => decide (x.deque ≠ [])
    | .scheduler => l.schedWants c e.val
    | .injection => false
  if l.engFit c e.val && x.gated && yes then l.setEng e.val { x with gated := false } else l

/-! ### Commit -/

/-- A leg runs in the present power state: all legs in RUN, those with still set in STILL (R136). -/
def Lane.mayRun (l : Lane) (d : LegDesc) : Bool := decide (l.get R.PW_STATUS_state = 0) || d.still

/-- On_demand legs of a spawn list are pushed onto the bottom of an engine's deque, each at most once per heat (R140,
R189); in STILL only those with still set (R136). -/
def Lane.pushSpawns (c : Ctx) (l : Lane) (e : Nat) : List Nat → Lane
  | [] => l
  | g :: t =>
    let r := l.leg g
    let runs := match l.legDesc g with
      | some d => l.mayRun d
      | none => true
    if runs = false then l.pushSpawns c e t
    else if r.spawned then (l.flag R.EA_FLAGS_spawn_ignored).pushSpawns c e t
    else ((l.setLeg g { r with spawned := true, due := true }).push c e ⟨g, true, false, false, none⟩).pushSpawns c e t

/-- The commit instruction (R146, R191): digest, done area, and the spawn list pushed but for a run-ahead leg (R189). -/
def Lane.commitRun (c : Ctx) (l : Lane) (e : Nat) : Lane :=
  let x := l.eng e
  match x.run with
  | none => l
  | some r =>
    match l.legDesc r.leg with
    | none => l
    | some d =>
      let dn : Done := ⟨r.leg, e, r.ahead, r.second, l.bufferBytes e d, l.stateBytes e d, x.sat, x.spawn⟩
      let l1 := l.setEng e (x.writeDigest x.pc)
      let l2 := { l1 with ea := { l1.ea with done := l1.ea.done.filter (fun (g : Done) => decide (g.leg ≠ r.leg ∨ g.ahead ≠ r.ahead)) ++ [dn] } }
      let l3 := (l2.setLeg r.leg { l2.leg r.leg with lastTime := c.now - r.firstAt }).freeEngine c e
      if r.ahead then l3 else l3.pushSpawns c e x.spawn

/-- Words routed to output stages are staged (R149). -/
def Route.isStage : Route → Bool
  | .torque _ => true
  | .solenoid _ => true
  | .stepper _ => true
  | .outputs => true
  | _ => false

/-- The hurdle under which words stand that are written to their destinations in the commit itself (R149). -/
def atOnce : Nat := 9

/-- The buffer words of a committed leg, by their routes (R149): staged for their hurdle, or for the commit itself. -/
def stageWords (h : Nat) (bs : List Byte) : Nat → List Route → List Staged
  | _, [] => []
  | k, r :: t => ⟨if r.isStage then h else atOnce, r, slotOf bs k⟩ :: stageWords h bs (k + 1) t

/-- A leg is committed (R149): its buffer words are staged for their hurdle, its state and buffer become the committed
ones, in lane SRAM and in its home block's memory, its saturations are added to its total (R191), and its status is recorded with an end code. -/
def Lane.commitLeg (l : Lane) (h : Nat) (d : Done) (endCode : Nat) : Lane :=
  match l.legDesc d.leg with
  | none => l
  | some g =>
    let r := l.leg d.leg
    let l1 := ((l.setBytes g.stateAt d.state).setBytes (blockState (r.home / 4) g) d.state).setBytes g.bufferAt d.buffer
    let tot := min (r.satTotal + d.sat) 0xFFFFFFFF
    let l2 := l1.setGranule g.statusAt (BitVec.ofNat 32 tot)
    let l3 := l2.setLeg d.leg { r with satTotal := tot, consecutive := 0, lastEnd := endCode, due := false, window := some h }
    { l3 with ea := { l3.ea with
        staged := l3.ea.staged ++ stageWords h d.buffer 0 g.buffer,
        done := l3.ea.done.filter (fun x => decide (x ≠ d)) } }

/-- The entries of a leg's instance of this heat leave every deque. -/
def Lane.dropEntries (l : Lane) (leg : Nat) (ahead : Bool) : Lane :=
  { l with ea := { l.ea with engines := l.ea.engines.map (fun x =>
      { x with deque := x.deque.filter (fun n => decide (n.leg ≠ leg ∨ n.ahead ≠ ahead)) }) } }

/-- The engines that run a leg's instance stop, each writing its digest (R146). -/
def Lane.stopRuns (c : Ctx) (l : Lane) (leg : Nat) (ahead : Bool) : List Nat → Lane
  | [] => l
  | e :: t =>
    (match (l.eng e).run with
      | some r =>
        if r.leg = leg ∧ r.ahead = ahead then (l.setEng e ((l.eng e).writeDigest (l.eng e).pc)).freeEngine c e else l
      | none => l).stopRuns c leg ahead t

/-- One leg at its hurdle (R149): committed where its commit instruction has executed, else a miss. -/
def Lane.atHurdle (c : Ctx) (l : Lane) (h leg : Nat) : Lane :=
  if !(l.leg leg).due then l
  else
    match l.ea.done.find? (fun d => decide (d.leg = leg) && !d.ahead) with
    | some d => l.commitLeg h d (if (l.leg leg).squashed then 3 else 1)
    | none =>
      let l1 := (l.stopRuns c leg false (List.range (engineCount c.part.member))).dropEntries leg false
      l1.miss c leg 0

/-- Legs at their hurdle, in ascending ID order. -/
def Lane.atHurdleAll (c : Ctx) (l : Lane) (h : Nat) : Tab LegDesc → Lane
  | [] => l
  | (k, d) :: t => (if d.hurdle = h then l.atHurdle c h k else l).atHurdleAll c h t

/-- RA_LEG_READY (R156): a run-ahead leg's instance for the next heat may be taken once its instance of this heat has ended
as a miss, or its commit window has ended. -/
def raLegReadyL (leg : BitVec 8) (l : Lane) : Lane :=
  let k := leg.toNat
  if (l.leg k).due || (l.leg k).window.isSome then l
  else { l with ea := { l.ea with engines := l.ea.engines.map (fun x =>
      { x with deque := x.deque.map (fun n => if n.leg = k ∧ n.ahead then { n with ready := true } else n) }) } }

/-! ### Prediction and correction (R155 to R161) -/

/-- Measured minus predicted in the input's own unit, as R159 compares it. -/
def predDiff (k : PredKind) (meas pred : W40) : Int :=
  match k with
  | .rotorAngle _ => (meas.setWidth 32 - pred.setWidth 32 : Word).toInt
  | .angleTurn _ => (meas.setWidth 32 - pred.setWidth 32 : Word).toInt
  | .position _ => (meas - pred).toInt
  | .speedCps _ => (meas.setWidth 32 : Word).toInt - (pred.setWidth 32 : Word).toInt
  | _ => qv meas - qv pred

/-- A difference in counts, or in counts/s, of an angle interface as it stands in rad, or in rad/s (R160). -/
def countsExact (l : Lane) (n : Nat) (diff : Int) : Rat := radOf (diff * 2 ^ 32) / (4096 * (l.get (R.AFn_CFG_ppr n) : Int))

/-- A difference in counts, or in counts/s, as q40 in rad, or in rad/s, rounded once (R160). -/
def countRad (l : Lane) (n : Nat) (diff : Int) : Int := rq (countsExact l n diff)

/-- d[j] of R160: the difference as q40 in the input's SI unit. R160 names the q40, turn32 and u40 inputs; a speed in counts/s, which
is none of them, is taken to rad/s as a position in counts is taken to rad (DEDUCED, log 31). -/
def predDelta (l : Lane) (k : PredKind) (meas pred : W40) : Int :=
  match k with
  | .rotorAngle _ => turnToRad (predDiff k meas pred)
  | .angleTurn _ => turnToRad (predDiff k meas pred)
  | .position n => countRad l n (predDiff k meas pred)
  | .speedCps n => countRad l n (predDiff k meas pred)
  | _ => satQ (predDiff k meas pred)

/-- The first predicted input out of its band (R159). DESIGN CHOICE: R167 does not say how EA_RA_LAST.input numbers the
predicted inputs; it is the index among the leg's own predicted slots (log 33). -/
def Lane.outOfBand (l : Lane) (leg : Nat) (d : LegDesc) : Option Nat :=
  let r := l.leg leg
  let bad := fun (p : PredSlot) =>
    decide (p.band < (predDiff p.kind ((r.snap[p.slot]?).getD 0) ((r.pred[p.slot]?).getD 0)).natAbs)
  if d.pred.any bad then some (d.pred.findIdx bad) else none

/-- One corrected word of R160: the shadow value plus the sensitivities times the differences, rounded once; before it is
saturated. -/
def corrSum (shadow : Int) (sens : List Int) (deltas : List Int) : Int :=
  shadow + rna ((sens.zip deltas).foldl (fun a p => a + p.1 * p.2) 0) 24

/-- The corrected word as it is committed. -/
def corrValue (shadow : Int) (sens : List Int) (deltas : List Int) : Int := satQ (corrSum shadow sens deltas)

/-- Whether a difference d[j] saturates (R160, R176): one of q40 values as it stands, one of counts as it is rounded; one of turn32
values lies within q40. -/
def deltaHits (l : Lane) (k : PredKind) (diff : Int) : Nat :=
  match k with
  | .rotorAngle _ => 0
  | .angleTurn _ => 0
  | .position n => hitsOf [countsExact l n diff]
  | .speedCps n => hitsOf [countsExact l n diff]
  | _ => cond (satHit diff) 1 0

/-- The shadow buffer and state of a run-ahead leg with their corrected words (R160); the saturations in the correction are
counted with those of its run (R176). -/
def Lane.corrected (l : Lane) (d : LegDesc) (x : Done) : Done :=
  let r := l.leg x.leg
  let meas := fun (p : PredSlot) => (r.snap[p.slot]?).getD 0
  let pred := fun (p : PredSlot) => (r.pred[p.slot]?).getD 0
  let deltas := d.pred.map (fun p => predDelta l p.kind (meas p) (pred p))
  let x0 := { x with sat := min (x.sat + (d.pred.map (fun p => deltaHits l p.kind (predDiff p.kind (meas p) (pred p)))).sum) 0xFFFF }
  d.corr.foldl (fun (y : Done) w =>
    let sens := w.sens.map (fun k => qv (slotOf x.buffer k))
    let shadow := qv (slotOf (if w.inState then x.state else x.buffer) w.slot)
    let z := { y with sat := min (y.sat + cond (satHit (corrSum shadow sens deltas)) 1 0) 0xFFFF }
    let v := qw (corrValue shadow sens deltas)
    if w.inState then { z with state := putSlot z.state w.slot v } else { z with buffer := putSlot z.buffer w.slot v }) x0

/-- What is left of a run-ahead instance at its target boundary stops and leaves the deques (R156). -/
def Lane.stopAhead (c : Ctx) (l : Lane) (leg : Nat) : Lane :=
  (l.stopRuns c leg true (List.range (engineCount c.part.member))).dropEntries leg true

/-- A run-ahead leg is squashed with a cause (R156, R161, R162): counted, recorded, discarded, and handed to an engine from
its home on, to run on the measured snapshot. -/
def Lane.squashAhead (c : Ctx) (l : Lane) (leg cause input : Nat) : Lane :=
  let l1 := { l with ea := { l.ea with done := l.ea.done.filter (fun d => decide (d.leg ≠ leg) || !d.ahead) } }
  let l2 := (l1.flag R.EA_FLAGS_ra_squash).flagIf (decide (cause = 1)) R.EA_FLAGS_ra_late
  let l3 := (l2.inc R.EA_RA_SQUASH_count).wr R.EA_RA_LAST
    (BitVec.ofNat 32 (l.heat16.toNat * 2 ^ 16 + leg % 256 * 256 + cause * 64 + input))
  let r := l3.leg leg
  let l4 := l3.setLeg leg { r with squashed := true, squashCause := none, due := true }
  l4.handTo c (r.home :: sweepOrder c.part.member r.home) ⟨leg, true, false, false, none⟩

/-- A run-ahead leg at its target boundary (R156, R159, R162): squashed as marked, late, or out of band; else it waits for
the early commit. -/
def Lane.judgeAhead (c : Ctx) (l : Lane) (leg : Nat) (d : LegDesc) : Lane :=
  let r := l.leg leg
  match r.squashCause with
  | some k => l.squashAhead c leg k 0
  | none =>
    if l.ea.done.any (fun x => decide (x.leg = leg) && x.ahead) then
      match l.outOfBand leg d with
      | some j => l.squashAhead c leg 0 j
      | none => l.setLeg leg { r with due := true }
    else l.squashAhead c leg 1 0

/-- A leg is due in a heat (R136). -/
def dueIn (d : LegDesc) (heat : BitVec 16) : Bool := !d.onDemand && decide (heat.toNat % d.period = d.phase)

/-- Legs in the order of R139 within a deque: hurdle index descending, then leg ID descending, so that the owner pops the
earliest hurdle and lowest ID first. -/
def pushOrder (ls : Tab LegDesc) : Tab LegDesc :=
  (List.range 8).reverse.flatMap (fun h => (ls.filter (fun p => decide (p.2.hurdle = h))).reverse)

/-- One entry of each list in turn, lists with none left skipped. -/
def inTurn {α : Type} (ls : List (List α)) : List α :=
  (List.range (ls.foldl (fun n q => max n q.length) 0)).flatMap (fun k => ls.filterMap (fun q => q[k]?))

/-- Homes on scratched engines are given new engines, in ascending leg ID, each the fit engine with the fewest home legs,
ties to the lowest index (R153); the memory of the new home block holds its committed state (R135). -/
def Lane.rehome (c : Ctx) (l : Lane) : Tab LegDesc → Lane
  | [] => l
  | (k, d) :: t =>
    let r := l.leg k
    if l.engFit c r.home then l.rehome c t
    else
      let load := fun e => (l.ea.legs.filter (fun p => decide (p.2.home = e))).length
      let best := (List.range (engineCount c.part.member)).foldl (fun (b : Option Nat) e =>
        if l.engFit c e then
          match b with
          | some x => if load e < load x then some e else b
          | none => some e
        else b) none
      match best with
      | some e => ((l.setLeg k { r with home := e }).setBytes (blockState (e / 4) d) (l.bytes d.stateAt (8 * d.stateSlots))).rehome c t
      | none => l.rehome c t

/-- Bytes in the TCM of a fit engine, which the supervisor core reads at any time (R166). -/
def Lane.tcmThere (c : Ctx) (l : Lane) (a n : Nat) : Bool :=
  decide (a + n ≤ 0x10000 * engineCount c.part.member) && l.engFit c (a / 0x10000) && l.engFit c ((a + n - 1) / 0x10000)

/-- The first heat after lane reset has not come, so that the supervisor core may still write a TCM (R166). -/
def Lane.beforeHeat (l : Lane) : Bool := !l.ea.started && l.st.schedAt.isNone

/-- TCM_WRITE (R166): allowed only before the first heat after lane reset, and not in a scratched engine or a quarantined
block; otherwise a bus error. -/
def tcmWriteL (c : Ctx) (addr : Word) (value : Word) (l : Lane) : Lane :=
  let a := addr.toNat
  if a % 4 = 0 ∧ l.tcmThere c a 4 = true ∧ l.beforeHeat = true then
    { l.setGranule a value with bus := .done }
  else { l with bus := .error }

end Sys2Proof.Machine
end

