-- ==== Sys2Proof/Machine/Time.lean ====
section
/-! DEFINITION. Time (R410 to R427): the time counter and its rate and slew, laps, interrupt entry, action timers and watch
timers. -/

namespace Sys2Proof.Machine

/-! ### The counter -/

/-- The units of one nanosecond in the time counter (R410). -/
def tmOne : Nat := 2 ^ 32

/-- What a rate in ppb adds to the counter in one nanosecond. -/
def rateStep (rc : Int) : Int := rnaDiv (rc * tmOne) 1000000000

/-- What the slew of a step adds in the nanosecond that leaves `left` to go, so that 8000 of them add exactly the step
(R412). -/
def slewPart (oc : Int) (left : Nat) : Int :=
  oc * tmOne * (8001 - left) / 8000 - oc * tmOne * (8000 - left) / 8000

/-- The counter after one nanosecond (R410, R412). -/
def Lane.tmNext (l : Lane) : Nat :=
  let rc := (l.rd R.NX_RATE).toInt
  let slew := if l.nx.slewLeft = 0 then 0 else slewPart l.nx.slewStep l.nx.slewLeft
  ((l.tm : Int) + tmOne + rateStep rc + slew).toNat

/-- A node whose cycle timer runs: COLD_ANNOUNCE, INTEGRATE, PASSIVE and ACTIVE (R388). -/
def Lane.cycleRuns (l : Lane) : Bool :=
  let st := l.get R.NX_STATUS_state
  decide (st = 2) || decide (st = 4) || decide (st = 5) || decide (st = 6)

/-- The counts that a cycle start moves on (R385, R387, R390, R394): what was heard in the cycle that ended. -/
def Nolxis.endCycle (n : Nolxis) : Nolxis :=
  let any := n.heard.any (fun h => h.2.now)
  { n with
    heard := n.heard.map (fun h => (h.1, if h.2.now then ⟨false, min (h.2.valid + 1) 255, 0⟩
      else ⟨false, 0, min (h.2.missing + 1) 255⟩))
    noSync := if any then 0 else min (n.noSync + 1) 255
    silentX := if n.gotX then 0 else min (n.silentX + 1) 255
    silentY := if n.gotY then 0 else min (n.silentY + 1) 255
    gotX := false, gotY := false, devX := none, devY := none, corrected := false, verified := false
    adopted := false, adoptedCold := false, grantNew := false, busyX := none, busyY := none
    grants := n.grants.map (fun g => { g with silent := if n.slotSeen.contains g.slot then 0 else min (g.silent + 1) 255 })
    slotSeen := [], idX := 1025, idY := 1025, tookOver := false, claimWait := n.claimWait - 1 }

/-- An integrating node with two cycles verified in a row is ACTIVE from the next cycle start (R389), that of an unfit lane not
(R393). -/
def Lane.nxActivate (l : Lane) : Lane :=
  if l.nxState = nxIntegrate ∧ 2 ≤ l.nx.verify ∧ l.role ≠ roleUnfit then l.nxEnterActive else l

/-- A cycle starts (R372): the count, its stamp, and cycle_start. -/
def Lane.cycleStart (l : Lane) : Lane :=
  let l1 := l.put R.NX_CYCLE_count (l.get R.NX_CYCLE_count + 1)
  let l2 := { l1.wr R.NX_CYCLE_STAMP (l1.rd R.NX_CYCLE_STAMP + l1.rd R.NX_CYCLE_LEN) with nx := l1.nx.endCycle }
  let l3 := { l2 with nx := { l2.nx with coldCycles := l2.nx.coldCycles + (if l2.get R.NX_STATUS_state = 2 then 1 else 0) } }
  (l3.flag R.NX_FLAGS_cycle_start).nxActivate

/-- One nanosecond of the timebase in a lane whose clocks run: the counter moves on, the slew with it, and a cycle that has
lasted its length starts anew. -/
def Lane.tick (l : Lane) : Lane :=
  let l1 := { l with tm := l.tmNext, drift := l.drift + ((l.tmNext : Int) - l.tm - tmOne), nx := { l.nx with slewLeft := l.nx.slewLeft - 1 } }
  if l1.cycleRuns && decide ((l1.rd R.NX_CYCLE_LEN).toNat ≤ (l1.stamp - l1.rd R.NX_CYCLE_STAMP).toNat) &&
      decide (0 < (l1.rd R.NX_CYCLE_LEN).toNat) then l1.cycleStart else l1

/-- LAP (R416): TM_NOW has passed from 0xFFFF_FFFF to 0 since it last did. Arrivals of the lap that ended meet no watch armed in this
one. -/
def lapL (l : Lane) : Lane :=
  let n := l.tm / 2 ^ 64
  if 0 < n then { l with tm := l.tm - 2 ^ 64, arrived := [] }.flag R.TM_FLAGS_lap else l

/-! ### Interrupts -/

/-- INTERRUPT_ENTRY (R419): the raise and entry stamps of a line that is asserted or was. -/
def interruptEntryL (line : Fin 20) (l : Lane) : Lane :=
  let k := line.val
  let raise := bankGet l.irqRaise k
  let l1 := { l with irqEntry := bankSet l.irqEntry k l.stamp,
                     irqWait := if Nat.testBit l.irqWait k then l.irqWait - 2 ^ k else l.irqWait }
  ((l1.wr R.TM_IRQ_LAST (BitVec.ofNat 32 k)).wr R.TM_IRQ_LAST_RAISE raise).stampAt R.TM_IRQ_LAST_ENTRY

/-! ### Action timers -/

/-- The pending bit of a timer. -/
def pendFld (t : Nat) : Fld := if t < 32 then ⟨R.TM_ACT_PEND0, t, t⟩ else ⟨R.TM_ACT_PEND1, t - 32, t - 32⟩

/-- A payload committed to a Nolxis transmit buffer (R380, R383): it is fresh on each channel that the buffer is bound to. -/
def Lane.loadTx (l : Lane) (n : Nat) (ws : List Word) : Lane :=
  let x := l.bit (R.NX_TXn_CFG_ch_x n)
  let y := l.bit (R.NX_TXn_CFG_ch_y n)
  let l1 := (l.putB (R.NX_TXn_CTRL_fresh n) (x || y)).put (R.NX_TXn_CTRL_ever n) 1
  { l1 with nx := { l1.nx with tx := tabPut l1.nx.tx n ⟨ws, x, y⟩ } }

/-- A firmware or timer commit of a Nolxis transmit buffer (R383, R421): the window becomes the committed payload. -/
def Lane.commitTx (l : Lane) (n : Nat) : Lane :=
  let len := l.get (R.NX_TXn_CFG_length n)
  let ws := (List.range len).map (fun w => l.granule (0x40041000 + 0x100 * n + 4 * w))
  l.loadTx n ws

/-- The action of a timer that fires (R421). -/
def Lane.timerAction (c : Ctx) (l : Lane) (t : Nat) : Lane :=
  let k := l.get (R.TMt_CFG_target t)
  match l.get (R.TMt_CFG_kind t) with
  | 0 => l.flag R.TM_FLAGS_act_due
  | 1 => if k < 16 ∧ l.bit (R.NX_TXn_CFG_source k) = true then l.commitTx k else l.flag R.TM_FLAGS_act_ignored
  | 2 =>
    if l.active ∧ k < 8 ∧ l.unitsHalt = false then
      let w := bitPut (l.get R.SI_DO_SET_out) k true
      (l.put R.SI_DO_SET_out w).setRole2 c w
    else l.flag R.TM_FLAGS_act_ignored
  | 3 =>
    if l.active ∧ k < 8 ∧ l.unitsHalt = false then
      let w := bitPut (l.get R.SI_DO_SET_out) k false
      (l.put R.SI_DO_SET_out w).setRole2 c w
    else l.flag R.TM_FLAGS_act_ignored
  | _ => l.flag R.TM_FLAGS_act_ignored

/-- What every firing records (R421). -/
def Lane.timerFired (l : Lane) (t : Nat) (late : Bool) : Lane :=
  let l1 := ((l.stampAt (R.TMt_STAMP t)).inc (R.TMt_COUNT_count t)).put (pendFld t) 1
  (l1.putB (R.TMt_CFG_late t) late).flagIf late R.TM_FLAGS_act_late

/-- A periodic timer re-arms at the first due time ahead on its grid (R422). -/
def Lane.timerNext (l : Lane) (t : Nat) : Lane :=
  let p := (l.rd (R.TMt_PERIOD t)).toNat
  if p = 0 ∨ l.bit (R.TMt_CFG_watch_en t) then l.put (R.TMt_CFG_armed t) 0
  else
    let behind := (-sdiff (l.rd (R.TMt_DUE t)) l.stamp).toNat
    let n := behind / p + 1
    (l.wr (R.TMt_DUE t) (l.rd (R.TMt_DUE t) + BitVec.ofNat 32 (n * p))).flagIf (decide (1 < n)) R.TM_FLAGS_act_skip

/-- A timer fires: it records, acts, and re-arms or disarms (R421, R422). -/
def Lane.fireTimer (c : Ctx) (l : Lane) (t : Nat) (late : Bool) : Lane := ((l.timerFired t late).timerAction c t).timerNext t

/-- An armed timer judged against TM_NOW as at its arming (R415, R420). -/
def Lane.judgeTimer (c : Ctx) (l : Lane) (t : Nat) : Lane :=
  let d := sdiff (l.rd (R.TMt_DUE t)) l.stamp
  if 0 < d then l else if d = 0 then l.fireTimer c t false else l.fireTimer c t true

/-- How long after the due time a watch is decided (R425). -/
def Lane.watchMargin (l : Lane) (t : Nat) : Nat :=
  let i := l.get (R.TMt_CFG_watch_index t)
  if l.get (R.TMt_CFG_watch_class t) = 2 then
    l.get (R.SI_DIn_CFG_t_filt i) * 100000 + l.get R.SI_TP_CFG_pulse_us * 1000 + 60000
  else 100

/-- Timer t fires now: its due time has come, or, of a watch, its decision point with no counting arrival known (R421, R425). -/
def Lane.mayFire (l : Lane) (t : Nat) : Bool :=
  if l.watching t then (tabGet l.watchGot t).isNone && decide ((l.watchMargin t : Int) ≤ sdiff l.stamp (l.rd (R.TMt_DUE t)))
  else l.bit (R.TMt_CFG_armed t) && decide (0 ≤ sdiff l.stamp (l.rd (R.TMt_DUE t)))

/-- A timer whose time has come fires (R421, R423); a watch sets watch_timeout with it (R425). -/
def Lane.fireDue (c : Ctx) (l : Lane) (t : Nat) : Lane :=
  if l.mayFire t then (l.flagIf (l.watching t) R.TM_FLAGS_watch_timeout).fireTimer c t false else l

/-- Of several timers that fire in one cycle the lower index comes first (R423): those up to index t whose time has come fire. -/
def Lane.fireUpTo (c : Ctx) (l : Lane) (t : Nat) : Lane := (List.range (t + 1)).foldl (fun (y : Lane) k => y.fireDue c k) l

/-- A watch is armed now (R425): only an arrival of this very cycle may have come before. -/
def Lane.armWatch (l : Lane) (k : Nat) : Lane :=
  let got := if tabGet l.arrived (l.watchSource k) = some l.stamp then tabPut l.watchGot k l.stamp else tabDel l.watchGot k
  { l with armedAt := tabPut l.armedAt k l.stamp, watchGot := got }

/-- TIMER_DUE_WRITE (R420, R423): a firing of this cycle comes first; then the write arms the timer, or fires it at once. -/
def timerDueWriteL (c : Ctx) (t : Fin 64) (value : Word) (l1 : Lane) : Lane :=
  let k := t.val
  let l := l1.fireUpTo c k
  let l0 := { l with bus := .done }
  if 4 ≤ l.get (R.TMt_CFG_kind k) then l0.flag R.TM_FLAGS_act_ignored
  else
    let l1 := (l0.wr (R.TMt_DUE k) value).put (R.TMt_CFG_armed k) 1
    (if l.bit (R.TMt_CFG_watch_en k) then (l1.put (R.TMt_CFG_met k) 0).armWatch k else l1).judgeTimer c k

/-- TIMER_DISARM (R423): a firing of this cycle comes first. -/
def timerDisarmL (c : Ctx) (t : Fin 64) (l : Lane) : Lane := { (l.fireUpTo c t.val).put (R.TMt_CFG_armed t.val) 0 with bus := .done }

/-- TIMER_FIRE (R421, R423): the due time of an armed timer is reached. Of several that fire in one cycle the lower index comes first. -/
def timerFireL (c : Ctx) (t : Fin 64) (l : Lane) : Lane := l.fireUpTo c t.val

/-- WATCH_MET (R425): an arrival since the arming counts. -/
def watchMetL (t : Fin 64) (stamp : Word) (l : Lane) : Lane :=
  let k := t.val
  if l.watching k = true ∧ tabGet l.watchGot k = some stamp then
    (((l.put (R.TMt_CFG_armed k) 0).put (R.TMt_CFG_met k) 1).wr (R.TMt_STAMP k) stamp).flag R.TM_FLAGS_watch_met
  else l

/-- WATCH_TIMEOUT (R423, R425): the decision point is reached and no counting arrival is known. -/
def watchTimeoutL (c : Ctx) (t : Fin 64) (l : Lane) : Lane := if l.watching t.val then l.fireUpTo c t.val else l

/-! ### Corrections and settings -/

/-- Nanoseconds from the cycle start to now. -/
def Lane.cycleOff (l : Lane) : Nat := (l.stamp - l.rd R.NX_CYCLE_STAMP).toNat

/-- End of the static segment from the cycle start (R372). -/
def Lane.staticEnd (l : Lane) : Nat := l.get R.NX_STATIC_slots * l.get R.NX_STATIC_slot_ns

/-- End of the dynamic segment from the cycle start. -/
def Lane.dynamicEnd (l : Lane) : Nat := l.staticEnd + l.get R.NX_DYNAMIC_minislots * l.get R.NX_DYNAMIC_minislot_ns

/-- Start of the NIT from the cycle start. -/
def Lane.nitStart (l : Lane) : Nat := l.dynamicEnd + l.get R.NX_SYMBOL_ns

/-- CORRECTION_WINDOW (R412): from 1 µs after the start of the NIT the rate takes effect and the step handed over, if any, is slewed
over the window's 8 µs. -/
def correctionWindowL (l : Lane) : Lane :=
  match l.nx.correction with
  | some (rc, oc) =>
    if l.cycleOff < l.nitStart + 1000 then l
    else
    let l1 := l.wr R.NX_RATE (BitVec.ofInt 32 rc)
    match oc with
    | some d =>
      let l2 := (l1.wr R.TM_STEP_LAST (BitVec.ofInt 32 d)).put R.TM_STATUS_corrected 1
      { l2 with nx := { l2.nx with correction := none, slewLeft := 8000, slewStep := d } }
    | none => { l1.put R.TM_STATUS_corrected 0 with nx := { l1.nx with correction := none, slewLeft := 8000, slewStep := 0 } }
  | none => l

/-- A setting of time (R415): the order in which copies were judged under the old time binds no more (R434); the counter takes the adopted value, the change is recorded, and every armed timer is judged
again. -/
def Lane.setTime (c : Ctx) (l : Lane) (new : Word) : Lane :=
  let delta := new - l.stamp
  let l1 := { l with tm := new.toNat * 2 ^ 32, setAt := (0, []), arrived := [], se := l.se.map (fun (e : Nat × SeConn) => (e.1, { e.2 with judged := none })), nx := { l.nx with slewLeft := 0, correction := none, timeSetAt := some c.now, recount := l.ea.started } }
  let l2 := ((l1.wr R.TM_SET_DELTA delta).wr R.TM_SET_STAMP new).put R.TM_STATUS_set 1
  let l3 := (l2.put R.TM_JUMP_STAT_run 0).flag R.TM_FLAGS_time_set
  (List.range 64).foldl (fun y t => if y.bit (R.TMt_CFG_armed t) then y.judgeTimer c t else y) l3

/-! ### The commands -/

/-- LAP. -/
def execLap (ln : LaneId) (s : State) : Answer := onAlive ln (fun _ l => lapL l) s

/-- INTERRUPT_ENTRY. -/
def execInterruptEntry (ln : LaneId) (line : Fin 20) (s : State) : Answer := onAlive ln (fun _ l => interruptEntryL line l) s

/-- TIMER_DUE_WRITE. -/
def execTimerDueWrite (ln : LaneId) (t : Fin 64) (value : Word) (s : State) : Answer :=
  onAlive ln (fun c l => timerDueWriteL c t value l) s

/-- TIMER_DISARM. -/
def execTimerDisarm (ln : LaneId) (t : Fin 64) (s : State) : Answer := onAlive ln (fun c l => timerDisarmL c t l) s

/-- TIMER_FIRE. -/
def execTimerFire (ln : LaneId) (t : Fin 64) (s : State) : Answer := onAlive ln (fun c l => timerFireL c t l) s

/-- WATCH_MET. -/
def execWatchMet (ln : LaneId) (t : Fin 64) (stamp : Word) (s : State) : Answer :=
  onAlive ln (fun _ l => watchMetL t stamp l) s

/-- WATCH_TIMEOUT. -/
def execWatchTimeout (ln : LaneId) (t : Fin 64) (s : State) : Answer := onAlive ln (fun c l => watchTimeoutL c t l) s

/-- CORRECTION_WINDOW. -/
def execCorrectionWindow (ln : LaneId) (s : State) : Answer := onAlive ln (fun _ l => correctionWindowL l) s

end Sys2Proof.Machine
end

