-- ==== Sys2Proof/Machine/Nolxis.lean ====
section
/-! DEFINITION. The Nolxis node of a lane (R370 to R397): frames, slots, reception, pacers and clock correction, node
states, spare slots and claims. -/

namespace Sys2Proof.Machine

/-- The node ID of the lane. -/
def Lane.nodeId (l : Lane) : Nat := l.get R.NX_NODE_node_id

/-! ### Frames (R374 to R377) -/

/-- Header bits 39 to 11 of a frame. -/
def nxHead (f : NxFrame) : BitVec 29 :=
  f.frameId ++ f.cycle ++ f.len ++ BitVec.ofBool f.sync ++ BitVec.ofBool f.cold ++ BitVec.ofBool f.null ++
    BitVec.ofBool f.stale ++ BitVec.ofBool f.claim

/-- The header CRC (R376). -/
def nxHeadCrc (f : NxFrame) : BitVec 11 := crcBits (0x5B3 : BitVec 11) (bitsMsb (nxHead f)) 0x7FF

/-- The frame CRC over the header bytes and the payload bytes (R377). -/
def nxBodyCrc (f : NxFrame) : Word :=
  crc32c (bytesMsb 5 (nxHead f ++ f.hcrc) ++ f.payload.flatMap wordBytes)

/-- The flags allowed together (R378). -/
def nxFlagsOk (f : NxFrame) : Bool :=
  match f.sync, f.cold, f.null, f.stale, f.claim with
  | false, false, false, _, false => true
  | false, false, true, false, false => decide (f.frameId.toNat ≤ 1024)
  | true, _, false, false, false => decide (f.frameId.toNat ≤ 1024)
  | false, false, false, false, true => decide (1024 < f.frameId.toNat)
  | _, _, _, _, _ => false

/-- The flags of a frame stand in the slot or ID that they are allowed in (R378): SYNC in a pacer's own slot, CLAIM at a claim ID, and
no other frame at a claim ID. -/
def Lane.flagsPlaced (l : Lane) (f : NxFrame) : Bool :=
  let id := f.frameId.toNat
  (!f.sync || (List.range l.image.nx.pacers.length).any (fun r => decide (((l.image.nx.pacers[r]?).getD (0, 0)).2 = id))) &&
    decide (f.claim = l.image.nx.spares.any (fun s => decide (s.2.1 = id)))

/-- The flags a frame is built with. -/
inductive FrameKind where
  | fresh | stale | null | sync | cold | claim
  deriving DecidableEq, Repr

/-- A frame built by its sender, with both CRCs. -/
def mkFrame (id cycle : Nat) (k : FrameKind) (payload : List Word) (now : Word) : NxFrame :=
  let sync := (k == .sync) || (k == .cold)
  let f0 : NxFrame := ⟨BitVec.ofNat 11 id, BitVec.ofNat 6 cycle, BitVec.ofNat 7 payload.length, sync, k == .cold,
    k == .null, k == .stale, k == .claim, 0, payload, 0, true, now, now⟩
  let f1 := { f0 with hcrc := nxHeadCrc f0 }
  { f1 with crc := nxBodyCrc f1 }

/-- What a frame takes on the line, in ns (R374). -/
def frameTime (f : NxFrame) : Nat := (15 + 4 * f.payload.length) * 40

/-- The lane's node sends a frame on a channel, but while the pads are held, which keeps its transmitters released (R462). -/
def Lane.nxSend (l : Lane) (ch : Chan) (f : NxFrame) : Lane :=
  let busy := some (l.stamp, frameTime f)
  if l.bit R.PW_STATUS_pads_held then l else match ch with
  | .x => { l with nx := { l.nx with outX := some f, busyX := busy } }
  | .y => { l with nx := { l.nx with outY := some f, busyY := busy } }

/-- The start of a frame on the line, by the stamp of its start delimiter's end: the preamble and the delimiter take 200 ns (R374). -/
def frameBegin (f : NxFrame) : Word := f.sdEnd - 200

/-- The node was transmitting on the channel while a frame came in on it, so that it did not receive it (R370). -/
def Lane.deaf (l : Lane) (ch : Chan) (f : NxFrame) : Bool :=
  match (match ch with
    | .x => l.nx.busyX
    | .y => l.nx.busyY) with
  | some (start, len) => decide (sdiff (frameBegin f) start < len) && decide (0 < sdiff f.edEnd start)
  | none => false

/-- A transmission that lasted 1 µs or longer (R390). -/
def frameLong (f : NxFrame) : Bool := decide (1000 ≤ sdiff f.edEnd (frameBegin f))

/-! ### The schedule (R372) -/

/-- Static slot length in ns. -/
def Lane.slotLen (l : Lane) : Nat := l.get R.NX_STATIC_slot_ns

/-- The precision Π in ns. -/
def Lane.precision (l : Lane) : Nat := l.get R.NX_PRECISION_ns

/-- The slot in which a pacer of a rank sends its SYNC frames, by the image. -/
def Lane.pacerSlot (l : Lane) (rank : Nat) : Nat :=
  match l.image.nx.pacers[rank]? with
  | some p => p.2
  | none => 0

/-- The rank of a pacer by its node's slot. -/
def Lane.rankOfSlot (l : Lane) (slot : Nat) : Option Nat :=
  (List.range l.image.nx.pacers.length).find? (fun r => decide (l.pacerSlot r = slot))

/-- dcomp of a channel and rank (R384, R408). -/
def Lane.dcomp (l : Lane) (ch : Chan) (rank : Nat) : Nat :=
  match ch, rank with
  | .x, 0 => l.get R.NX_DCOMP_X01_rank0
  | .x, 1 => l.get R.NX_DCOMP_X01_rank1
  | .x, 2 => l.get R.NX_DCOMP_X23_rank2
  | .x, _ => l.get R.NX_DCOMP_X23_rank3
  | .y, 0 => l.get R.NX_DCOMP_Y01_rank0
  | .y, 1 => l.get R.NX_DCOMP_Y01_rank1
  | .y, 2 => l.get R.NX_DCOMP_Y23_rank2
  | .y, _ => l.get R.NX_DCOMP_Y23_rank3

/-! ### States (R388, R389) -/

/-- COLD_ANNOUNCE starts cycle 0 now (R390). -/
def Lane.coldStart (c : Ctx) (l : Lane) : Lane :=
  let l1 := (l.nxGo c nxCold).inc R.NX_COLD_attempts
  let l2 := (l1.put R.NX_CYCLE_count 0).stampAt R.NX_CYCLE_STAMP
  { l2 with nx := { l2.nx.endCycle with coldCycles := 0 } }.flag R.NX_FLAGS_cycle_start

/-- The pacer followed, by rank, with its node ID (R385). -/
def Lane.follow (l : Lane) (rank : Nat) : Lane :=
  let id := match l.image.nx.pacers[rank]? with
    | some p => p.1
    | none => 0
  let l1 := ((l.put R.NX_STATUS_followed id).put R.NX_STATUS_followed_rank rank).put R.NX_STATUS_master 0
  if l.get R.NX_STATUS_followed = id then l1 else l1.flag R.NX_FLAGS_pacer_switch

/-- The grants that a SYNC frame lists (R392). -/
def grantsOf (f : NxFrame) : List Grant :=
  let g := ((f.payload[2]?).getD 0).toNat / 2 ^ 16 % 256
  (f.payload.drop 3 |>.take g).map (fun w => ⟨w.toNat / 2 ^ 21, w.toNat / 2 ^ 10 % 2 ^ 11, 0⟩)

/-- The PWM period in progress at a setting of time ends at the first boundary of the adopted schedule at least P/2 later, and has its
own length (R415). -/
def Lane.stretchPeriod (c : Ctx) (l : Lane) : Lane :=
  let p := (l.rd (R.MC_PWM_PERIOD 0)).toNat
  if !l.ea.started || decide (p = 0) then l
  else
    let r := p - l.cycleOff % p
    { l with ea := { l.ea with perLen := c.now + (if p ≤ 2 * r then r else r + p) - l.ea.perFrom } }

/-- INTEGRATE_ENTRY (R389, R392, R415): cycle start, cycle count, TM_NOW and the grant list are adopted from a SYNC frame of a
pacer. -/
def Lane.integrate (c : Ctx) (l : Lane) (ch : Chan) (rank : Nat) (f : NxFrame) : Lane :=
  let start := f.sdEnd - BitVec.ofNat 32 (200 + l.dcomp ch rank + (l.pacerSlot rank - 1) * l.slotLen)
  let tmStart := (f.payload[0]?).getD 0
  let l1 := l.setTime c (tmStart + (l.stamp - start))
  let l2 := (((l1.wr R.NX_CYCLE_STAMP tmStart).stretchPeriod c).put R.NX_CYCLE_count f.cycle.toNat).follow rank
  { l2.nxGo c nxIntegrate with nx := { l2.nx with
      verify := 0, verified := false, corrected := false, devX := none, devY := none, rateRun := 0, noSync := 0
      grants := grantsOf f
      adopted := decide (l.nxState ≠ nxCold)
      adoptedCold := decide (l.nxState = nxCold) } }

/-! ### Sending (R380 to R383, R392) -/

/-- The payload of a SYNC frame (R392). -/
def Lane.syncPayload (l : Lane) : List Word :=
  [l.rd R.NX_CYCLE_STAMP, l.image.id.setWidth 32,
   BitVec.ofNat 32 (l.get R.NX_NODE_rank * 2 ^ 24 + l.nx.grants.length * 2 ^ 16)] ++
    l.nx.grants.map (fun g => BitVec.ofNat 32 (g.slot * 2 ^ 21 + g.node * 2 ^ 10))

/-- A transmit buffer's committed contents. -/
def Lane.txBuf (l : Lane) (n : Nat) : TxBuf := (tabGet l.nx.tx n).getD ⟨[], false, false⟩

/-- The transmit buffer bound to a frame ID on a channel. -/
def Lane.txFor (l : Lane) (ch : Chan) (id : Nat) : Option Nat :=
  (List.range 16).find? (fun n => decide (l.get (R.NX_TXn_CFG_frame_id n) = id) &&
    (match ch with
      | .x => l.bit (R.NX_TXn_CFG_ch_x n)
      | .y => l.bit (R.NX_TXn_CFG_ch_y n)))

/-- Whether a buffer is fresh on a channel. -/
def TxBuf.fresh (b : TxBuf) : Chan → Bool
  | .x => b.freshX
  | .y => b.freshY

/-- A buffer sent on a channel: no longer fresh there. -/
def Lane.txSent (l : Lane) (ch : Chan) (n : Nat) : Lane :=
  let b := l.txBuf n
  let b1 := match ch with
    | .x => { b with freshX := false }
    | .y => { b with freshY := false }
  { l with nx := { l.nx with tx := tabPut l.nx.tx n b1 } }.putB (R.NX_TXn_CTRL_fresh n) (b1.freshX || b1.freshY)

/-- A static slot of an owned buffer (R380). -/
def Lane.sendStatic (l : Lane) (ch : Chan) (id n : Nat) : Lane :=
  let b := l.txBuf n
  let cyc := l.get R.NX_CYCLE_count
  if !l.bit (R.NX_TXn_CTRL_ever n) then
    l.nxSend ch (mkFrame id cyc .null (List.replicate (l.get (R.NX_TXn_CFG_length n)) 0) l.stamp)
  else if b.fresh ch then (l.nxSend ch (mkFrame id cyc .fresh b.payload l.stamp)).txSent ch n
  else l.nxSend ch (mkFrame id cyc .stale b.payload l.stamp)

/-- A dynamic ID whose counter has come: its owner sends a committed frame that still fits (R382). -/
def Lane.sendDynamic (l : Lane) (ch : Chan) (id : Nat) : Lane :=
  match l.txFor ch id with
  | some n =>
    let b := l.txBuf n
    let need := (15 + 4 * b.payload.length) * 40 + l.precision + l.get R.NX_DYNAMIC_minislot_ns
    if b.fresh ch && decide (l.cycleOff + need ≤ l.dynamicEnd) then
      (l.nxSend ch (mkFrame id (l.get R.NX_CYCLE_count) .fresh b.payload l.stamp)).txSent ch n
    else l
  | none => l

/-- Whether the lane's time lies inside static slot `n`. -/
def Lane.inSlot (l : Lane) (n : Nat) : Bool :=
  decide ((n - 1) * l.slotLen ≤ l.cycleOff) && decide (l.cycleOff < n * l.slotLen)

/-- A node may send in a static slot: a spare one is its own only while it holds the grant of it, from the cycle after the one in
which the grant was found listed (R397). -/
def Lane.ownsSlot (l : Lane) (n : Nat) : Bool :=
  !l.image.nx.spares.any (fun s => decide (s.1 = n)) ||
    (l.bit R.NX_STATUS_granted && decide (l.get R.NX_CLAIM_slot = n) && !l.nx.grantNew)

/-- The ID counter of a channel. -/
def Lane.idCounter (l : Lane) : Chan → Nat
  | .x => l.nx.idX
  | .y => l.nx.idY

/-- The dynamic segment is under way (R372). -/
def Lane.inDynamic (l : Lane) : Bool := decide (l.staticEnd ≤ l.cycleOff) && decide (l.cycleOff < l.dynamicEnd)

/-- SLOT_START (R380, R392): in its own static slot a pacer sends a SYNC frame, COLD too while it announces, and an owner
its buffer; the number after the last static slot stands for the start of the dynamic segment (R382). -/
def slotStartL (ch : Chan) (slot : BitVec 11) (l : Lane) : Lane :=
  let n := slot.toNat
  let own := l.bit R.NX_NODE_pacer && decide (l.pacerSlot (l.get R.NX_NODE_rank) = n)
  let cyc := l.get R.NX_CYCLE_count
  if n = l.get R.NX_STATIC_slots + 1 then
    (if l.nxState = nxActive ∧ l.inDynamic = true ∧ l.idCounter ch = 1025 then l.sendDynamic ch 1025 else l)
  else if n = 0 ∨ l.inSlot n = false then l
  else if l.nxState = nxCold ∧ own = true ∧ l.nx.coldCycles < 4 then
    l.nxSend ch (mkFrame n cyc .cold l.syncPayload l.stamp)
  else if l.nxState = nxActive then
    (if own then l.nxSend ch (mkFrame n cyc .sync l.syncPayload l.stamp)
     else match l.txFor ch n with
       | some b => if l.ownsSlot n then l.sendStatic ch n b else l
       | none => l)
  else l

/-- MINISLOT_END (R382): the counter advances after an idle mini-slot, up to 2047 and to the end of the segment, and an owner may
transmit. -/
def minislotEndL (ch : Chan) (idle : Bool) (l : Lane) : Lane :=
  if idle && l.cycleRuns && decide (l.idCounter ch < 2047) && l.inDynamic then
    let k := l.idCounter ch + 1
    let l1 := match ch with
      | .x => { l with nx := { l.nx with idX := k } }
      | .y => { l with nx := { l.nx with idY := k } }
    if l1.nxState = nxActive then l1.sendDynamic ch k else l1
  else l

/-- TX_COMMIT (R383, R408): a firmware commit; ignored where the buffer is fed by leg commits. -/
def txCommitL (n : Fin 16) (value : Word) (l : Lane) : Lane :=
  let l0 := { l with bus := .done }
  if value.getLsbD 0 && l0.bit (R.NX_TXn_CFG_source n.val) then l0.commitTx n.val else l0

/-! ### Reception (R379, R381, R384, R385) -/

/-- The checks of R379 that need no schedule: symbols, both CRCs, the length and the flags. -/
def nxSound (f : NxFrame) : Bool :=
  f.symbolsOk && decide (f.hcrc = nxHeadCrc f) && decide (f.crc = nxBodyCrc f) && decide (f.len.toNat ≤ 64) &&
    decide (f.payload.length = f.len.toNat) && nxFlagsOk f && decide (f.frameId ≠ 0)

/-- How the checks of R379 end: valid, a timing error, or another failure. -/
inductive NxJudge where
  | valid | timing | invalid
  deriving DecidableEq, Repr

/-- The node keeps a schedule against which it checks frames. -/
def Lane.scheduled (l : Lane) : Bool :=
  decide (l.nxState = nxIntegrate) || decide (l.nxState = nxActive) || decide (l.nxState = nxPassive)

/-- The reference instant of a frame from the cycle start: its start delimiter's end less 200 ns. -/
def Lane.frameOff (l : Lane) (f : NxFrame) : Int := sdiff f.sdEnd (l.rd R.NX_CYCLE_STAMP) - 200

/-- The slot in which a frame starts, as far as the timing check of R379 lets it start early. -/
def Lane.frameSlot (l : Lane) (f : NxFrame) : Int := (l.frameOff f + (l.precision + 200)) / l.slotLen + 1

/-- The timing check (R379): the start within Π + 200 ns of its instant, and the end before that of the slot, or of the last mini-slot
that a dynamic frame may occupy, after which one idle mini-slot is left (R382). -/
def Lane.timingOk (l : Lane) (ch : Chan) (f : NxFrame) : Bool :=
  let win : Int := l.precision + 200
  let endOff := sdiff f.edEnd (l.rd R.NX_CYCLE_STAMP)
  if f.frameId.toNat ≤ 1024 then
    let start : Int := (f.frameId.toNat - 1 : Int) * l.slotLen
    decide (|l.frameOff f - start| ≤ win) && decide (endOff < start + l.slotLen)
  else
    let ms : Int := l.get R.NX_DYNAMIC_minislot_ns
    let r := (l.frameOff f - l.staticEnd) % ms
    decide ((l.staticEnd : Int) - win ≤ l.frameOff f) && decide (l.idCounter ch = f.frameId.toNat) && (decide (r ≤ win) || decide (ms - r ≤ win)) &&
      decide (endOff < l.dynamicEnd - ms)

/-- The checks of R379; the cycle check does not apply during integration, and the slot and timing checks only in a node that
keeps a schedule (R389). In a static slot the frame ID is the slot's number, and past the last one the ID counter. -/
def Lane.judgeFrame (l : Lane) (ch : Chan) (f : NxFrame) : NxJudge :=
  if nxSound f = false ∨ l.flagsPlaced f = false then .invalid
  else if !l.scheduled then .valid
  else if decide (l.nxState ≠ nxIntegrate) && decide (f.cycle.toNat ≠ l.get R.NX_CYCLE_count) then .invalid
  else if (if l.frameSlot f ≤ l.get R.NX_STATIC_slots then l.frameSlot f else l.idCounter ch) ≠ (f.frameId.toNat : Int) then .invalid
  else if l.timingOk ch f then .valid else .timing

/-- A frame that failed, counted on its channel (R379, R408). -/
def Lane.countBad (l : Lane) (ch : Chan) (timing : Bool) : Lane :=
  match ch, timing with
  | .x, true => (l.inc R.NX_ERR_X_timing).flag R.NX_FLAGS_timing_error
  | .y, true => (l.inc R.NX_ERR_Y_timing).flag R.NX_FLAGS_timing_error
  | .x, false => (l.inc R.NX_ERR_X_invalid).flag R.NX_FLAGS_invalid_frame
  | .y, false => (l.inc R.NX_ERR_Y_invalid).flag R.NX_FLAGS_invalid_frame

/-- Payload words stored in a receive buffer's front copy. -/
def Lane.storeRx (l : Lane) (n : Nat) : Nat → List Word → Lane
  | _, [] => l
  | w, x :: t => (l.setGranule (0x40042000 + 0x100 * n + 4 * w) x).storeRx n (w + 1) t

/-- A receive buffer takes a valid frame (R381); one that replaces the front copy is an arrival of a watch (R425). -/
def Lane.receive (l : Lane) (n : Nat) (f : NxFrame) : Lane :=
  let age := l.get (R.NX_RXn_STAT_age n)
  let l1 := if f.null then l
    else ((l.storeRx n 0 f.payload).put (R.NX_RXn_STAT_seq n) (l.get (R.NX_RXn_STAT_seq n) + 1)).arrive 0 n f.edEnd
  let l2 := l1.put (R.NX_RXn_STAT_age n) (if f.null || f.stale then min (age + 1) 255 else 0)
  let l3 := ((l2.put (R.NX_RXn_STAT_valid n) 1).putB (R.NX_RXn_STAT_stale n) f.stale).putB (R.NX_RXn_STAT_null n) f.null
  let l4 := l3.wr (R.NX_RXn_TIME n) f.edEnd
  let len := if f.null then l4.nx.rxLen else tabPut l4.nx.rxLen n f.payload.length
  { l4 with nx := { l4.nx with rxGot := n :: l4.nx.rxGot, rxLen := len } }

/-- Every receive buffer bound to the frame's ID on the channel takes it. -/
def Lane.receiveAll (l : Lane) (ch : Chan) (f : NxFrame) : Lane :=
  (List.range 32).foldl (fun y n =>
    if y.bit (R.NX_RXn_STAT_defined n) && decide (y.get (R.NX_RXn_CFG_frame_id n) = f.frameId.toNat) &&
        decide (y.get (R.NX_RXn_CFG_channel n) = match ch with
          | .x => 0
          | .y => 1) then y.receive n f else y) l

/-- A rank heard in this cycle (R385). -/
def Nolxis.hear (n : Nolxis) (rank : Nat) : Nolxis :=
  let h := (tabGet n.heard rank).getD ⟨false, 0, 0⟩
  { n with heard := tabPut n.heard rank { h with now := true } }

/-- The rank followed, or none. -/
def Lane.followedRank (l : Lane) : Option Nat :=
  if l.get R.NX_STATUS_followed = 0 then none else some (l.get R.NX_STATUS_followed_rank)

/-- The highest rank heard in this cycle or before without two cycles missing. -/
def Lane.bestHeard (l : Lane) : Option Nat :=
  (List.range 4).find? (fun r => match tabGet l.nx.heard r with
    | some h => h.now || decide (0 < h.valid)
    | none => false)

/-- A higher-ranked pacer heard in the cycle in which the node adopted another from LISTEN is the one adopted (R407). -/
def Lane.outranks (l : Lane) (rank : Nat) : Bool :=
  decide (l.nxState = nxIntegrate) && l.nx.adopted && (match l.followedRank with
    | some k => decide (rank < k)
    | none => false)

/-- A valid SYNC frame of a ranked pacer (R384, R385, R389, R407); an unfit lane's node stays in PASSIVE (R393). -/
def Lane.takeSync (c : Ctx) (l : Lane) (ch : Chan) (rank : Nat) (f : NxFrame) : Lane :=
  let l1 := { l with nx := l.nx.hear rank }
  let st := l1.nxState
  let id := match l1.image.nx.pacers[rank]? with
    | some p => p.1
    | none => 0
  if st = nxListen ∨ st = nxBackoff ∨ l1.outranks rank = true then l1.integrate c ch rank f
  else if st = nxPassive then (if l1.bestHeard = some rank ∧ l1.role ≠ roleUnfit then l1.integrate c ch rank f else l1)
  else if st = nxCold then (if f.cold ∧ id < l1.nodeId then l1.integrate c ch rank f else l1)
  else if l1.followedRank = some rank then
    let dev := l1.frameOff f - ((l1.pacerSlot rank - 1) * l1.slotLen + l1.dcomp ch rank : Nat)
    match ch with
    | .x => { l1 with nx := { l1.nx with devX := some dev, grants := grantsOf f } }
    | .y => { l1 with nx := { l1.nx with devY := some dev, grants := grantsOf f } }
  else l1

/-- A claim received by the master (R395, R396): slot and claimant, where the image ID matches and the node is eligible; one that took
over in this cycle notes none. -/
def Lane.takeClaim (l : Lane) (f : NxFrame) : Lane :=
  let w := ((f.payload[0]?).getD 0).toNat
  let slot := w / 2 ^ 16 % 2 ^ 11
  let node := w % 2 ^ 11
  let idOk := decide ((f.payload[2]?).getD 0 ++ (f.payload[1]?).getD 0 = l.image.id)
  let eligible := l.image.nx.spares.any (fun s => decide (s.1 = slot) && decide (s.2.1 = f.frameId.toNat) && s.2.2.contains node)
  if l.bit R.NX_STATUS_master && !l.nx.tookOver && idOk && eligible then { l with nx := { l.nx with claims := (slot, node) :: l.nx.claims } } else l

/-- NX_FRAME_RECEIVE (R370, R379, R381, R384, R385, R389 to R396). A frame that comes while the node transmits on the channel is not
received. A pacer in ACTIVE takes no time from a pacer of its own rank or
below; one that integrated on such a pacer follows it until ACTIVE (R385). -/
def nxFrameReceiveL (c : Ctx) (ch : Chan) (f : NxFrame) (l : Lane) : Lane :=
  if l.nxState = nxOff ∨ l.deaf ch f = true then l
  else
    let verdict := l.judgeFrame ch f
    let l0 := if frameLong f || decide (verdict = .valid) then { l with nx := { l.nx with listenAt := c.now } } else l
    match verdict with
    | .invalid => l0.countBad ch false
    | .timing => l0.countBad ch true
    | .valid =>
      let l1 := match ch with
        | .x => { l0 with nx := { l0.nx with gotX := true, lostX := false, validX := c.now } }.put R.NX_STATUS_port_x_ok 1
        | .y => { l0 with nx := { l0.nx with gotY := true, lostY := false, validY := c.now } }.put R.NX_STATUS_port_y_ok 1
      let l1 := l1.flagIf (f.null || f.stale) R.NX_FLAGS_stale_rx
      let l2 := { l1 with nx := { l1.nx with slotSeen := f.frameId.toNat :: l1.nx.slotSeen } }
      let l3 := if l2.scheduled then l2.receiveAll ch f else l2
      if f.claim then l3.takeClaim f
      else if f.sync then
        (if (f.payload[1]?).getD 0 = l3.image.id.setWidth 32 then
          match l3.rankOfSlot f.frameId.toNat with
          | some r =>
            if l3.bit R.NX_NODE_pacer ∧ l3.get R.NX_NODE_rank ≤ r ∧ l3.nxState = nxActive then l3 else l3.takeSync c ch r f
          | none => l3
        else l3.flag R.NX_FLAGS_image_mismatch)
      else l3

/-- STATIC_SLOT_END (R381): the slot bound to a receive buffer carried no valid frame. -/
def staticSlotEndL (n : Fin 32) (l : Lane) : Lane :=
  let k := n.val
  if l.bit (R.NX_RXn_STAT_defined k) then
    if l.nx.rxGot.contains k then { l with nx := { l.nx with rxGot := l.nx.rxGot.filter (fun i => decide (i ≠ k)) } }
    else
      let l1 := l.put (R.NX_RXn_STAT_age k) (min (l.get (R.NX_RXn_STAT_age k) + 1) 255)
      ((l1.put (R.NX_RXn_STAT_valid k) 0).put (R.NX_RXn_STAT_stale k) 0).put (R.NX_RXn_STAT_null k) 0
  else l

/-! ### Correction (R386, R387, R413, R414) -/

/-- The deviation of a cycle from its channels (R386), with whether they were apart by more than Π. -/
def combineDev (pi : Nat) (dx dy : Option Int) : Option (Int × Bool) :=
  match dx, dy with
  | some a, some b =>
    if |a - b| ≤ pi then some (rnaDiv (a + b) 2, false) else some (if |b| < |a| then b else a, true)
  | some a, none => some (a, false)
  | none, some b => some (b, false)
  | none, none => none

/-- STEP_REFUSED (R413, R414): recorded, and a run that reaches persist takes the node to PASSIVE. -/
def Lane.refuseStep (c : Ctx) (l : Lane) (oc : Int) : Lane :=
  let run := min (l.get R.TM_JUMP_STAT_run + 1) 255
  let l1 := ((l.inc R.TM_JUMP_STAT_refused).put R.TM_JUMP_STAT_run run).wr R.TM_STEP_REFUSED (BitVec.ofInt 32 oc)
  let l2 := l1.flag R.TM_FLAGS_jump_refused
  if l2.get R.TM_JUMP_STAT_persist ≤ run then
    let l3 := l2.flag R.TM_FLAGS_jump_persist
    if l3.nxState = nxActive then l3.nxGo c nxPassive else l3
  else l2

/-- NIT_CORRECTION (R386, R413, R427): a following node computes its offset step and rate once in each NIT; the NIT of another one
applies no step. -/
def nitCorrectionL (c : Ctx) (l : Lane) : Lane :=
  let follows := (decide (l.nxState = nxIntegrate) || decide (l.nxState = nxActive)) && !l.bit R.NX_STATUS_master
  if follows && !l.nx.corrected && decide (l.nitStart ≤ l.cycleOff) then
    let l0 := { l with nx := { l.nx with corrected := true } }
    match combineDev l.precision l.nx.devX l.nx.devY with
    | some (dev, skew) =>
      let oc := -dev
      let rcRaw := (l.rd R.NX_RATE).toInt - rnaDiv (dev * 1000000000) (2 * ((l.rd R.NX_CYCLE_LEN).toNat : Int))
      let lim : Int := (l.rd R.NX_RATE_LIM).toNat
      let rc := clampInt (-lim) lim rcRaw
      let l1 := (l0.flagIf skew R.NX_FLAGS_ch_skew).wr R.NX_DEV (BitVec.ofInt 32 dev)
      let big := decide ((l.get R.TM_JUMP_LIMIT_ns : Int) < |oc|)
      let l2 := { l1 with nx := { l1.nx with
        rateRun := if rcRaw = rc then 0 else l1.nx.rateRun + 1,
        correction := some (rc, if big then none else some oc) } }
      if big then l2.refuseStep c oc else l2.put R.TM_JUMP_STAT_run 0
    | none => { l0.put R.TM_STATUS_corrected 0 with nx := { l0.nx with rateRun := 0 } }
  else if !follows && decide (l.nitStart ≤ l.cycleOff) then l.put R.TM_STATUS_corrected 0
  else l

/-- SYNC_LOST (R387): the rate outside its limit twice in a row, or no pacer for 4 cycles. -/
def syncLostL (c : Ctx) (l : Lane) : Lane :=
  if l.nxState = nxActive then
    if 2 ≤ l.nx.rateRun then (l.flag R.NX_FLAGS_rate_fault).nxGo c nxPassive
    else if 4 ≤ l.nx.noSync ∧ l.bit R.NX_STATUS_master = false then l.nxGo c nxPassive
    else l
  else l

/-- The rank a node ought to follow (R385): a higher one valid in 2 cycles, or a lower one after 2 cycles of silence. -/
def Lane.wantedRank (l : Lane) : Option Nat :=
  let own := if l.bit R.NX_NODE_pacer then l.get R.NX_NODE_rank else 4
  let cand := (List.range own)
  let h := fun r => (tabGet l.nx.heard r).getD ⟨false, 0, 0⟩
  let cur := l.followedRank
  let up := cand.find? (fun r => decide (2 ≤ (h r).valid) && (match cur with
    | some k => decide (r < k)
    | none => true))
  match up with
  | some r => some r
  | none =>
    match cur with
    | some k => if 2 ≤ (h k).missing then cand.find? (fun r => decide (0 < (h r).valid)) else some k
    | none => none

/-- PACER_SWITCH (R385): the node follows the pacer its rules give; a pacer that hears none is the time master. -/
def pacerSwitchL (l : Lane) : Lane :=
  if l.nxState = nxActive ∨ l.nxState = nxIntegrate then
    match l.wantedRank with
    | some r => if l.followedRank = some r then l else l.follow r
    | none =>
      if l.bit R.NX_NODE_pacer && !l.bit R.NX_STATUS_master then
        let l1 := ((l.put R.NX_STATUS_followed 0).put R.NX_STATUS_master 1).flag R.NX_FLAGS_pacer_switch
        { l1 with nx := { l1.nx with tookOver := true, claims := [] } }
      else l
  else l

/-! ### Node states -/

/-- NX_ENABLE (R389). -/
def nxEnableL (c : Ctx) (value : Word) (l : Lane) : Lane :=
  let l0 := { l.putB R.NX_CTRL_enable (value.getLsbD 0) with bus := .done }
  if value.getLsbD 0 then (if l0.nxState = nxOff then l0.nxGo c nxListen else l0) else l0.nxGo c nxOff

/-- PASSIVE_REQ (R393): only in a lane that is not active. -/
def passiveReqL (c : Ctx) (value : Word) (l : Lane) : Lane :=
  let l0 := { l with bus := .done }
  if value.getLsbD 1 && !l.active && decide (l.nxState = nxActive) then l0.nxGo c nxPassive else l0

/-- The cycle length in ns. -/
def Lane.cycleLen (l : Lane) : Nat := (l.rd R.NX_CYCLE_LEN).toNat

/-- LISTEN_TIMEOUT (R390). -/
def listenTimeoutL (c : Ctx) (l : Lane) : Lane :=
  if l.nxState = nxListen ∧ l.bit R.NX_NODE_coldstart = true ∧
      l.nx.listenAt + 2 * l.cycleLen + l.nodeId * 1000 ≤ c.now then l.coldStart c
  else l

/-- CYCLE_VERIFY (R389): an integration cycle passes where the followed pacer's SYNC frame came with a deviation of at most 2Π, and
fails where it has not by the NIT; the cycle of the adoption is not one of them. With the second pass in a row the node is ACTIVE from the next cycle start. -/
def cycleVerifyL (c : Ctx) (l : Lane) : Lane :=
  if l.nxState = nxIntegrate ∧ l.nx.verified = false ∧ (l.nx.adopted || l.nx.adoptedCold) = false then
    let ok := match combineDev l.precision l.nx.devX l.nx.devY with
      | some (d, _) => decide (|d| ≤ 2 * l.precision)
      | none => false
    if ok then { l with nx := { l.nx with verify := l.nx.verify + 1, verified := true } }
    else if l.nitStart ≤ l.cycleOff then l.nxGo c nxListen
    else l
  else l

/-- COLD_CYCLE_DONE (R389): the fourth COLD cycle is complete. -/
def coldCycleDoneL (c : Ctx) (l : Lane) : Lane :=
  if l.nxState = nxCold ∧ 4 ≤ l.nx.coldCycles then
    ((l.nxGo c nxActive).put R.NX_STATUS_master 1).put R.NX_STATUS_followed 0
  else l

/-- A false start counted (R391). -/
def Lane.falseStart (l : Lane) : Lane := (l.flag R.NX_FLAGS_false_start).inc R.NX_COLD_false_starts

/-- A false start of the node (R391): it backs off. -/
def Lane.backOff (c : Ctx) (l : Lane) : Lane :=
  let l1 := (l.nxGo c nxBackoff).falseStart
  { l1 with nx := { l1.nx with backoffAt := c.now + 2 * l1.cycleLen + l1.nodeId * 4000 } }

/-- COLLISION_RECEIVE (R391, R407): in the cycle in which a COLD frame has taken the node from COLD_ANNOUNCE to INTEGRATE, the node
goes to COLD_BACKOFF and uses the frame from there. -/
def collisionReceiveL (c : Ctx) (ch : Chan) (l : Lane) : Lane :=
  if l.nxState = nxOff then l
  else
    let l1 := match ch with
      | .x => l.inc R.NX_COLL_coll_x
      | .y => l.inc R.NX_COLL_coll_y
    let l2 := { l1 with nx := { l1.nx with listenAt := c.now } }
    if l2.nxState = nxCold then l2.backOff c
    else if l2.nxState = nxIntegrate ∧ l2.nx.adoptedCold = true then
      let l3 := (l2.backOff c).nxGo c nxIntegrate
      { l3 with nx := { l3.nx with adopted := true, adoptedCold := false } }
    else l2

/-- BACKOFF_EXPIRY (R391). -/
def backoffExpiryL (c : Ctx) (l : Lane) : Lane :=
  if l.nxState = nxBackoff ∧ l.nx.backoffAt ≤ c.now then l.coldStart c else l

/-- PASSIVE_TIMEOUT (R389). -/
def passiveTimeoutL (c : Ctx) (l : Lane) : Lane :=
  if l.nxState = nxPassive ∧ 8 ≤ l.nx.noSync then l.nxGo c nxListen else l

/-! ### Spare slots (R395 to R397) -/

/-- The spare slot the image lists for this node. -/
def Lane.ownSpare (l : Lane) : Option (Nat × Nat) :=
  match l.image.nx.spares.find? (fun s => decide (s.1 = l.get R.NX_CLAIM_slot) && s.2.2.contains l.nodeId) with
  | some s => some (s.1, s.2.1)
  | none => none

/-- A claim of a node on its spare slot (R395). -/
def Lane.claimFrame (l : Lane) (slot id : Nat) : NxFrame :=
  mkFrame id (l.get R.NX_CYCLE_count) .claim
    [BitVec.ofNat 32 (slot * 2 ^ 16 + l.nodeId), l.image.id.setWidth 32, l.image.id.extractLsb' 32 32] l.stamp

/-- The counter of a channel stands at the claim ID, and the rest of the dynamic segment holds the claim (R382, R395). -/
def Lane.claimTurn (l : Lane) (ch : Chan) (id : Nat) : Bool :=
  l.inDynamic && decide (l.idCounter ch = id) &&
    decide (l.cycleOff + (15 + 4 * 3) * 40 + l.precision + l.get R.NX_DYNAMIC_minislot_ns ≤ l.dynamicEnd)

/-- The claim sent on the channels whose counter stands at the claim ID. -/
def Lane.claimOut (l : Lane) (slot id : Nat) : Lane :=
  let f := l.claimFrame slot id
  let l1 := if l.claimTurn .x id then l.nxSend .x f else l
  if l1.claimTurn .y id then l1.nxSend .y f else l1

/-- CLAIM_SEND (R395): a node that joins through a spare slot and holds no grant claims it at its claim ID, on each channel as its
counter comes to it; the second channel completes the claim of this cycle. -/
def claimSendL (l : Lane) : Lane :=
  match l.ownSpare with
  | some (slot, id) =>
    let st := l.get R.NX_CLAIM_state
    let cyc := some (l.get R.NX_CYCLE_count)
    if l.nxState ≠ nxActive ∨ l.bit R.NX_NODE_claim_only = false ∨ (l.claimTurn .x id || l.claimTurn .y id) = false then l
    else if st = 0 ∨ (st = 3 ∧ l.nx.claimWait = 0) then
      let l1 := (l.claimOut slot id).put R.NX_CLAIM_state 1
      { l1 with nx := { l1.nx with claimCycle := cyc } }.flag R.NX_FLAGS_claim_sent
    else if st = 1 ∧ l.nx.claimCycle = cyc then l.claimOut slot id
    else l
  | none => l

/-- One claim judged by the master (R396). -/
def grantOne (gs : List Grant) (c : Nat × Nat) : List Grant :=
  if gs.any (fun g => decide (g.slot = c.1) || decide (g.node = c.2)) then gs
  else (gs.filter (fun g => decide (g.slot < c.1))) ++ [⟨c.1, c.2, 0⟩] ++ gs.filter (fun g => decide (c.1 < g.slot))

/-- Claims in the order of their node IDs. -/
def insertClaim (c : Nat × Nat) : List (Nat × Nat) → List (Nat × Nat)
  | [] => [c]
  | d :: t => if c.2 < d.2 then c :: d :: t else d :: insertClaim c t

/-- The grants that are not to be released (R397): those whose slot has not been silent for NX_RELEASE cycles. -/
def Lane.heldGrants (l : Lane) : List Grant := l.nx.grants.filter (fun g => decide (g.silent < l.get R.NX_RELEASE_cycles))

/-- CLAIM_GRANT (R396, R397): the master releases what is silent, and grants the claims of the last cycle, the lowest node ID
first. -/
def claimGrantL (l : Lane) : Lane :=
  if l.bit R.NX_STATUS_master then
    let cs := l.nx.claims.foldr insertClaim []
    { l with nx := { l.nx with grants := cs.foldl grantOne l.heldGrants, claims := [] } }
  else l

/-- GRANT_CHECK (R397): the claimant reads the grant list of the cycle after its claim; a holder no longer listed claims
again. -/
def grantCheckL (l : Lane) : Lane :=
  let slot := l.get R.NX_CLAIM_slot
  let listed := l.nx.grants.any (fun g => decide (g.slot = slot) && decide (g.node = l.nodeId))
  let st := l.get R.NX_CLAIM_state
  if st = 1 ∧ l.nx.claimCycle ≠ some (l.get R.NX_CYCLE_count) then
    if listed then
      { ((l.put R.NX_CLAIM_state 2).put R.NX_STATUS_granted 1).flag R.NX_FLAGS_granted with nx := { l.nx with grantNew := true } }
    else { l.put R.NX_CLAIM_state 3 with nx := { l.nx with claimWait := l.nodeId % 16 + 1 } }
  else if st = 2 ∧ listed = false then ((l.put R.NX_CLAIM_state 0).put R.NX_STATUS_granted 0).flag R.NX_FLAGS_released
  else l

/-- GRANT_RELEASE (R397): a granted slot silent for NX_RELEASE cycles. -/
def grantReleaseL (slot : BitVec 11) (l : Lane) : Lane :=
  let k := slot.toNat
  if l.bit R.NX_STATUS_master then
    { l with nx := { l.nx with grants := l.nx.grants.filter (fun g =>
        decide (g.slot ≠ k) || decide (g.silent < l.get R.NX_RELEASE_cycles)) } }
  else l

/-! ### The commands -/

/-- SLOT_START. -/
def execSlotStart (ln : LaneId) (ch : Chan) (slot : BitVec 11) (s : State) : Answer :=
  onAlive ln (fun _ l => slotStartL ch slot l) s

/-- MINISLOT_END. -/
def execMinislotEnd (ln : LaneId) (ch : Chan) (idle : Bool) (s : State) : Answer :=
  onAlive ln (fun _ l => minislotEndL ch idle l) s

/-- TX_COMMIT. -/
def execTxCommit (ln : LaneId) (n : Fin 16) (value : Word) (s : State) : Answer := onAlive ln (fun _ l => txCommitL n value l) s

/-- NIT_CORRECTION. -/
def execNitCorrection (ln : LaneId) (s : State) : Answer := onAlive ln (fun c l => nitCorrectionL c l) s

/-- PACER_SWITCH. -/
def execPacerSwitch (ln : LaneId) (s : State) : Answer := onAlive ln (fun _ l => pacerSwitchL l) s

/-- NX_ENABLE. -/
def execNxEnable (ln : LaneId) (value : Word) (s : State) : Answer := onAlive ln (fun c l => nxEnableL c value l) s

/-- PASSIVE_REQ. -/
def execPassiveReq (ln : LaneId) (value : Word) (s : State) : Answer := onAlive ln (fun c l => passiveReqL c value l) s

/-- LISTEN_TIMEOUT. -/
def execListenTimeout (ln : LaneId) (s : State) : Answer := onAlive ln (fun c l => listenTimeoutL c l) s

/-- COLD_CYCLE_DONE. -/
def execColdCycleDone (ln : LaneId) (s : State) : Answer := onAlive ln (fun c l => coldCycleDoneL c l) s

/-- COLLISION_RECEIVE. -/
def execCollisionReceive (ln : LaneId) (ch : Chan) (s : State) : Answer := onAlive ln (fun c l => collisionReceiveL c ch l) s

/-- BACKOFF_EXPIRY. -/
def execBackoffExpiry (ln : LaneId) (s : State) : Answer := onAlive ln (fun c l => backoffExpiryL c l) s

/-- SYNC_LOST. -/
def execSyncLost (ln : LaneId) (s : State) : Answer := onAlive ln (fun c l => syncLostL c l) s

/-- PASSIVE_TIMEOUT. -/
def execPassiveTimeout (ln : LaneId) (s : State) : Answer := onAlive ln (fun c l => passiveTimeoutL c l) s

/-- CLAIM_SEND. -/
def execClaimSend (ln : LaneId) (s : State) : Answer := onAlive ln (fun _ l => claimSendL l) s

/-- CLAIM_GRANT. -/
def execClaimGrant (ln : LaneId) (s : State) : Answer := onAlive ln (fun _ l => claimGrantL l) s

/-- GRANT_CHECK. -/
def execGrantCheck (ln : LaneId) (s : State) : Answer := onAlive ln (fun _ l => grantCheckL l) s

/-- GRANT_RELEASE. -/
def execGrantRelease (ln : LaneId) (slot : BitVec 11) (s : State) : Answer := onAlive ln (fun _ l => grantReleaseL slot l) s

/-- STATIC_SLOT_END. -/
def execStaticSlotEnd (ln : LaneId) (n : Fin 32) (s : State) : Answer := onAlive ln (fun _ l => staticSlotEndL n l) s

end Sys2Proof.Machine
end

