-- ==== Sys2Proof/Machine/Envelope.lean ====
section
/-! DEFINITION. The safety envelope unit (R428 to R442): producing and judging envelopes, charged rejections and blocked
connections, and the validity and assignment of the demand (R53, R263, R264). -/

namespace Sys2Proof.Machine

/-! ### The demand (R263, R264) -/

/-- A word of a payload. -/
def wordAt (ws : List Word) (i : Nat) : Word := (ws[i]?).getD 0

/-- A q40 field of a payload, in LSB (R170, R263). -/
def qAt (ws : List Word) (i : Nat) : Int := (((wordAt ws (i + 1)).setWidth 8 ++ wordAt ws i : W40)).toInt

/-- Mode code of a demand. -/
def demMode (ws : List Word) : Nat := (wordAt ws 0).toNat % 16

/-- steer_kind of a demand. -/
def demCurved (ws : List Word) : Bool := (wordAt ws 0).getLsbD 4

/-- brake_kind of a demand. -/
def demPressure (ws : List Word) : Bool := (wordAt ws 0).getLsbD 5

/-- release_park of a demand. -/
def demRelease (ws : List Word) : Bool := (wordAt ws 0).getLsbD 6

/-- The quantity of an angle interface is lost (R119): faulty here, with no source to substitute it. -/
def Lane.angleLost (l : Lane) (n : Nat) : Bool :=
  Nat.testBit (l.get R.FC_SENSOR_sa_fault) n && !Nat.testBit (l.get R.FC_SENSOR_sa_subst) n

/-- The hand-wheel angle is lost in every lane (R280). -/
def Lane.wheelLost (l : Lane) : Bool := l.angleLost 1

/-- Whether a value lies in 0 to a bound. -/
def inRange (x hi : Int) : Bool := decide (0 ≤ x) && decide (x ≤ hi)

/-- Whether a demand that passed its envelope is valid (R264, R280). -/
def Lane.demandOk (l : Lane) (ws : List Word) : Bool :=
  let lib := l.image.lib
  let m := demMode ws
  let b0 := qAt ws 6
  let b1 := qAt ws 8
  let brake := if demPressure ws then inRange b0 lib.pMax0 && inRange b1 lib.pMax1 else inRange b0 lib.decMax && decide (b1 = 0)
  decide (1 ≤ m) && decide (m ≤ 4) && decide ((wordAt ws 0).toNat < 128) &&
    !(decide (m = 4) && (!lib.handWheel || l.wheelLost)) && !(demCurved ws && lib.bases.isEmpty) &&
    decide (0 < qAt ws 2) && brake && decide (|qAt ws 10| ≤ lib.tOffMax)

/-- The start of the Nolxis cycle that a stamp lies in, by the schedule. -/
def Lane.cycleOf (l : Lane) (stamp : Word) : Word :=
  l.rd R.NX_CYCLE_STAMP + BitVec.ofInt 32 (sdiff stamp (l.rd R.NX_CYCLE_STAMP) / (l.cycleLen : Int) * (l.cycleLen : Int))

/-- The earliest freeze point of an accepted demand (R53), in TM_NOW: 10 µs after the scheduled end of the static slot of the cycle
that its copy arrived in, or 10 µs (Ethernet 30 µs) after its arrival. -/
def Lane.freezeFrom (l : Lane) (k : Nat) (pathB : Bool) (arrival : Word) : Word :=
  let med := l.get (R.SE_Cc_CFG_medium k)
  let buf := if pathB then l.get (R.SE_Cc_BIND_buf_b k) else l.get (R.SE_Cc_BIND_buf_a k)
  let id := l.get (R.NX_RXn_CFG_frame_id buf)
  let from_ : Word := if med = 0 ∧ id ≤ l.get R.NX_STATIC_slots then l.cycleOf arrival + BitVec.ofNat 32 (id * l.slotLen)
    else arrival
  from_ + (if med = 2 then 30000 else 10000)

/-- Nolxis cycles in a row with a valid demand (R129). -/
def Brake.countCycle (b : Brake) (cycle len : Nat) : Brake :=
  match b.validCycle with
  | some p =>
    let d := (cycle + 2 ^ 32 - p) % 2 ^ 32
    if d = 0 then b
    else if 2 * d < 3 * len then { b with validRun := min (b.validRun + 1) 255, validCycle := some cycle }
    else { b with validRun := 1, validCycle := some cycle }
  | none => { b with validRun := 1, validCycle := some cycle }

/-- DEMAND_ASSIGN (R53) and DEMAND_INVALID (R264): a delivered demand waits for its snapshot, or is left out; it is late where a
freeze point that it belonged to has passed. -/
def Lane.deliverDemand (l : Lane) (k : Nat) (pathB : Bool) (arrival : Word) (ws : List Word) (seq : Nat)
    (stamp : Word) : Lane :=
  if l.demandOk ws then
    let nb := l.freezeFrom k pathB arrival
    let r : DemandRec := ⟨ws, seq, stamp, nb⟩
    let b : Brake := { l.bk with queue := l.bk.queue ++ [r] }
    let late := l.ea.started && decide (0 ≤ sdiff (l.rd R.EA_HEAT_STAMP) nb)
    let l1 := { l with bk := b.countCycle (l.cycleOf arrival).toNat l.cycleLen }
    if late then l1.put R.LM_STATUS_late_demand 1 else l1
  else l.flag R.BK_FLAGS_demand_invalid

/-! ### Check value (R429, R431) -/

/-- The check value of the words 0 to 1 + n of an envelope under an identity. -/
def envCheck (identity : Word) (ws : List Word) : Word :=
  crcFwdBytes (0x741B8CD7 : Word) (ws.flatMap (fun w => bytesMsb 4 w)) identity

/-! ### Connections -/

/-- A connection beyond its registers. -/
def Lane.conn (l : Lane) (k : Nat) : SeConn := (tabGet l.se k).getD ⟨[], 0, false, false, 0, none, none, [], 0, none, 0, 0, []⟩

/-- A connection replaced. -/
def Lane.setConn (l : Lane) (k : Nat) (x : SeConn) : Lane := { l with se := tabPut l.se k x }

/-- A flag of the unit set, with SE_LAST (R442). -/
def Lane.seFlag (l : Lane) (k : Nat) (f : Fld) : Lane := ((l.flag f).put R.SE_LAST_conn k).put R.SE_LAST_flag f.lo

/-- States of a consuming connection. -/
def seStart : Nat := 0
/-- RUN. -/
def seRun : Nat := 1
/-- BLOCKED. -/
def seBlocked : Nat := 2
/-- BLOCKED until power cycle. -/
def sePerm : Nat := 3

/-! ### Producing (R432, R433) -/

/-- The data length code that holds a number of words. -/
def canDlc (words : Nat) : Nat :=
  if words ≤ 2 then 4 * words else if words ≤ 6 then 6 + words else if words ≤ 8 then 13 else if words ≤ 12 then 14 else 15

/-! ### The CAN FD controllers (R493, R496) -/

/-- A CAN controller beyond its registers. -/
def Lane.canOf (l : Lane) (k : Nat) : Can := (tabGet l.can k).getD ⟨[], none, false, []⟩

/-- A CAN controller replaced. -/
def Lane.setCan (l : Lane) (k : Nat) (x : Can) : Lane := { l with can := tabPut l.can k x }

/-- The controller is on the bus: error active or passive. -/
def Lane.canOn (l : Lane) (k : Nat) : Bool := decide (l.get (R.CNk_STATUS_state k) < 2)

/-- Whether a mailbox may start its frame (R493): an active_only one only while its lane holds the baton outside a zone. -/
def Lane.canMay (l : Lane) (k m : Nat) : Bool :=
  l.bit (R.CNk_TXm_CTRL_pending k m) && (!l.bit (R.CNk_TXm_CTRL_active_only k m) || (l.active && !l.bit R.LM_ROLE_in_zone)) &&
    l.canOn k && !l.bit (R.CNk_CFG_listen_only k)

/-- The weight of a mailbox's identifier on the bus: the lower one wins, a base identifier before an extended one. -/
def Lane.canKey (l : Lane) (k m : Nat) : Nat :=
  let id := l.get (R.CNk_TXm_HDR_id k m)
  if l.bit (R.CNk_TXm_HDR_ide k m) then 2 * id + 1 else 2 * (id % 2048 * 2 ^ 18)

/-- The mailbox whose frame goes on the bus next (R496): the lowest identifier of those that may start. -/
def Lane.canNext (l : Lane) (k : Nat) : Option Nat :=
  (List.range 16).foldl (fun (b : Option Nat) m =>
    if l.canMay k m then
      match b with
      | some x => if l.canKey k m < l.canKey k x then some m else b
      | none => some m
    else b) none

/-- A free controller starts the next frame, but while the pads are held (R462). -/
def Lane.canStart (l : Lane) (k : Nat) : Lane :=
  if l.bit R.PW_STATUS_pads_held then l else match (l.canOf k).onBus with
  | some _ => l
  | none => l.setCan k { l.canOf k with onBus := l.canNext k }

/-- Both controllers start what they may. -/
def Lane.canStarts (l : Lane) : Lane := (l.canStart 0).canStart 1

/-- The words of a data length code above 8 bytes. -/
def canWords (words : Nat) : Nat := if words ≤ 6 then words else if words ≤ 8 then 8 else if words ≤ 12 then 12 else 16

/-- Words stored in a CAN transmit mailbox from word `w`. -/
def Lane.canData (l : Lane) (k m : Nat) : Nat → List Word → Lane
  | _, [] => l
  | w, x :: t => (l.wr (R.CNk_TXm_DATAw k m w) x).canData k m (w + 1) t

/-- An envelope committed to a CAN FD mailbox (R440): the pad bytes are 0, and a free controller starts its frame. -/
def Lane.canCommit (l : Lane) (k m : Nat) (ws : List Word) : Lane :=
  let pad := ws ++ List.replicate (canWords ws.length - ws.length) 0
  (((l.canData k m 0 pad).put (R.CNk_TXm_CTRL_dlc k m) (canDlc ws.length)).put (R.CNk_TXm_CTRL_pending k m) 1).canStart k

/-- An envelope committed to one path of its connection. -/
def Lane.commitPath (l : Lane) (k : Nat) (pathB : Bool) (ws : List Word) : Lane :=
  let used := if pathB then l.bit (R.SE_Cc_CFG_path_b k) else l.bit (R.SE_Cc_CFG_path_a k)
  let buf := if pathB then l.get (R.SE_Cc_BIND_buf_b k) else l.get (R.SE_Cc_BIND_buf_a k)
  if used then
    match l.get (R.SE_Cc_CFG_medium k) with
    | 0 => if buf < 16 then l.loadTx buf ws else l
    | 1 => if buf < 16 then l.canCommit (cond pathB 1 0) buf ws else l
    | 2 => { l with mailOut := l.mailOut ++ [⟨Config.envelopePeer k, l.get R.ET_PORTS_envelope, ws, l.get R.ET_PORTS_envelope⟩] }
    | _ => l
  else l

/-- A commit of a producing connection (R432, R433): the envelope takes the next sequence number and the present stamp, or
none is built while the time is not set. -/
def Lane.produce (l : Lane) (k : Nat) (payload : List Word) : Lane :=
  if l.bit (R.SE_Cc_CFG_defined k) && l.bit (R.SE_Cc_CFG_role k) then
    if l.bit R.TM_STATUS_set then
      let n := l.get (R.SE_Cc_CFG_length k)
      let seq := (l.get (R.SE_Cc_STAT_seq k) + 1) % 65536
      let body := (payload ++ List.replicate (n - payload.length) 0).take n
      let head := BitVec.ofNat 32 (seq * 65536 + n) :: l.stamp :: body
      let env := head ++ [envCheck (l.rd (R.SE_Cc_ID k)) head]
      let l1 := ((l.put (R.SE_Cc_STAT_seq k) seq).stampAt (R.SE_Cc_STAMP k)).inc (R.SE_Cc_COUNT_count k)
      (l1.commitPath k false env).commitPath k true env
    else l.seFlag k R.SE_FLAGS_produce_skip
  else l

/-- ENVELOPE_PRODUCE (R432): a leg commit routed to the connection takes effect. -/
def envelopeProduceL (k : Fin 64) (payload : List Word) (l : Lane) : Lane :=
  if l.bit (R.SE_Cc_CFG_source k.val) then l.seFlag k.val R.SE_FLAGS_produce_skip else l.produce k.val payload

/-- A word staged for the connection that SE_TX_SEL selects (R442). -/
def Lane.stageTx (l : Lane) (w : Nat) (v : Word) : Lane :=
  let k := l.get R.SE_TX_SEL_conn
  l.setConn k { l.conn k with tx := tabPut (l.conn k).tx w v }

/-- SE_TX_COMMIT (R432, R442): firmware commits the staged payload of the selected connection. -/
def seTxCommitL (value : Word) (l : Lane) : Lane :=
  let l0 := { l with bus := .done }
  let k := l0.get R.SE_TX_SEL_conn
  if value.getLsbD 0 then
    if l0.bit (R.SE_Cc_CFG_defined k) && l0.bit (R.SE_Cc_CFG_role k) && l0.bit (R.SE_Cc_CFG_source k) then
      l0.produce k ((List.range 61).map (fun w => (tabGet (l0.conn k).tx w).getD 0))
    else l0.seFlag k R.SE_FLAGS_produce_skip
  else l0

/-! ### Consuming (R434 to R438) -/

/-- A rejection that is charged unless R436 excuses it. -/
def Lane.reject (c : Ctx) (l : Lane) (k : Nat) (pathB : Bool) (arrival : Word) (f : Fld) (byTime : Bool) : Lane :=
  let x := l.conn k
  let fresh := match l.nx.timeSetAt with
    | some t => decide (c.now ≤ t + l.cycleLen)
    | none => false
  let ch : Charge := ⟨pathB, arrival, c.now, l.rd R.NX_CYCLE_STAMP, byTime && fresh⟩
  (l.setConn k { x with charges := x.charges ++ [ch] }).seFlag k f

/-- A connection's level falls by 1 for every 64 acceptances in a row (R437). -/
def Lane.goodRun (l : Lane) (k : Nat) : Lane :=
  let x := l.conn k
  if 63 ≤ x.okRun then (l.setConn k { x with okRun := 0 }).put (R.SE_Cc_STAT_level k) (l.get (R.SE_Cc_STAT_level k) - 1)
  else l.setConn k { x with okRun := x.okRun + 1 }

/-- An accepted envelope replaces the delivered record (R435, R438). -/
def Lane.accept (l : Lane) (k : Nat) (pathB : Bool) (arrival : Word) (seq : Nat) (stamp : Word)
    (payload : List Word) : Lane :=
  let x := l.conn k
  let acc := some (arrival, l.rd R.NX_CYCLE_STAMP)
  let x1 := if pathB then { x with accB := acc } else { x with accA := acc }
  let l1 := l.setConn k { x1 with payload := payload, arrival := arrival, held := true }
  let l2 := ((l1.put (R.SE_Cc_STAT_seq k) seq).wr (R.SE_Cc_STAMP k) stamp).inc (R.SE_Cc_COUNT_count k)
  let l3 := ((l2.put (R.SE_Cc_STAT_state k) seRun).goodRun k).seFlag k R.SE_FLAGS_accepted
  if k = l.image.lib.demandConn then l3.deliverDemand k pathB arrival payload seq stamp else l3

/-- One copy judged by the first row of R435 whose condition holds. -/
def Lane.judgeCopy (c : Ctx) (l : Lane) (k : Nat) (pathB : Bool) (words : List Word) (arrival : Word) : Lane :=
  let n := l.get (R.SE_Cc_CFG_length k)
  let size := if l.get (R.SE_Cc_CFG_medium k) = 1 then canWords (3 + n) else 3 + n
  let w0 := wordAt words 0
  let seq := w0.toNat / 65536
  let stamp := wordAt words 1
  let head := words.take (2 + n)
  let age := sdiff arrival stamp
  let sLast := l.get (R.SE_Cc_STAT_seq k)
  let tLast := l.rd (R.SE_Cc_STAMP k)
  let d : Int := (BitVec.ofNat 16 (seq + 65536 - sLast)).toInt
  let st := l.get (R.SE_Cc_STAT_state k)
  let payload := (words.drop 2).take n
  if st = seBlocked ∨ st = sePerm then l
  else if w0.toNat % 65536 ≠ n ∨ words.length ≠ size then l.reject c k pathB arrival R.SE_FLAGS_format false
  else if wordAt words (2 + n) ≠ envCheck (l.rd (R.SE_Cc_ID k)) head then
    l.reject c k pathB arrival R.SE_FLAGS_check_fail false
  else if ((l.rd (R.SE_Cc_MAX_AGE k)).toNat : Int) < age then l.reject c k pathB arrival R.SE_FLAGS_delay true
  else if age < -(2 * (l.precision : Int)) then l.reject c k pathB arrival R.SE_FLAGS_early true
  else if st = seStart then l.accept k pathB arrival seq stamp payload
  else if d = 0 ∧ stamp = tLast then l.seFlag k R.SE_FLAGS_repeat
  else if d = 0 then l.reject c k pathB arrival R.SE_FLAGS_stamp_conflict false
  else if d < 0 ∨ sdiff stamp tLast ≤ 0 then l.reject c k pathB arrival R.SE_FLAGS_wrong_order false
  else
    let l1 := l.incBy (R.SE_Cc_REJ_lost k) (d.toNat - 1)
    (if 1 < d then l1.seFlag k R.SE_FLAGS_loss else l1).accept k pathB arrival seq stamp payload

/-- A blocked connection returns to START with level 0 (R437). -/
def Lane.unblock (l : Lane) (i : Nat) : Lane :=
  ((l.put (R.SE_Cc_STAT_state i) seStart).put (R.SE_Cc_STAT_level i) 0).seFlag i R.SE_FLAGS_unblocked

/-- The block time of a connection has ended by an instant (R437). -/
def Lane.blockOver (l : Lane) (i : Nat) (now : Int) : Bool :=
  decide (l.get (R.SE_Cc_STAT_state i) = seBlocked) &&
    decide (((l.conn i).blockAt + l.get R.SE_LIMITS_block_ms * 1000000 : Nat) ≤ now)

/-- The words that a Nolxis receive buffer's front copy took, as many as the frame had (R381, R435 row 2). -/
def Lane.rxWords (l : Lane) (n : Nat) : List Word :=
  (List.range ((tabGet l.nx.rxLen n).getD 0)).map (fun w => l.granule (0x40042000 + 0x100 * n + 4 * w))

/-- The words of a path's copy and its arrival stamp are what the medium gives (R440): the front copy of the bound Nolxis buffer with
the end delimiter's stamp, the frame that the bound CAN filter took with its receive stamp, or a datagram, which the command brings. -/
def Lane.copyCame (l : Lane) (k : Nat) (pathB : Bool) (words : List Word) (arrival : Word) : Bool :=
  let buf := if pathB then l.get (R.SE_Cc_BIND_buf_b k) else l.get (R.SE_Cc_BIND_buf_a k)
  match l.get (R.SE_Cc_CFG_medium k) with
  | 0 => decide (buf < 32) && l.bit (R.NX_RXn_STAT_valid buf) && !l.bit (R.NX_RXn_STAT_null buf) &&
      decide (l.rd (R.NX_RXn_TIME buf) = arrival) && decide (l.rxWords buf = words)
  | 1 => decide (tabGet (l.canOf (cond pathB 1 0)).heard buf = some (arrival, words))
  | _ => !pathB && l.bit R.ET_STATUS_link_up

/-- A copy is judged in its turn (R434): it has arrived, and after the one judged last, or with that one's stamp on path B after path A.
A stamp is compared with one at most 1 s old, within which the signed difference orders them (R14). -/
def Lane.inTurnOf (c : Ctx) (l : Lane) (k : Nat) (pathB : Bool) (arrival : Word) : Bool :=
  decide (0 ≤ sdiff l.stamp arrival) && match (l.conn k).judged with
    | some (last, lastB, at_) =>
      decide (at_ + 1000000000 < c.now) || decide (0 < sdiff arrival last) || (decide (arrival = last) && pathB && !lastB)
    | none => true

/-- ENVELOPE_COPY_JUDGE (R434, R435, R441): a copy of a consuming connection on a path in use, in the order of the arrival stamps; it
is discarded without charge while the lane's time has not been set. A block that has ended by the arrival is over. -/
def envelopeCopyJudgeL (c : Ctx) (k : Fin 64) (pathB : Bool) (words : List Word) (arrival : Word) (l : Lane) : Lane :=
  let i := k.val
  let used := if pathB then l.bit (R.SE_Cc_CFG_path_b i) else l.bit (R.SE_Cc_CFG_path_a i)
  if l.bit (R.SE_Cc_CFG_defined i) && !l.bit (R.SE_Cc_CFG_role i) && used && l.bit R.TM_STATUS_set &&
      l.copyCame i pathB words arrival && l.inTurnOf c i pathB arrival then
    let l1 := l.setConn i { l.conn i with judged := some (arrival, pathB, c.now) }
    (if l1.blockOver i ((c.now : Int) - sdiff l.stamp arrival) then l1.unblock i else l1).judgeCopy c i pathB words arrival
  else l

/-- Whether a charge is excused (R436): covered by an acceptance on the other path, in the same cycle on Nolxis or within
1 ms on CAN FD. -/
def Lane.covers (l : Lane) (k : Nat) (ch : Charge) : Bool :=
  let x := l.conn k
  match (if ch.pathB then x.accA else x.accB) with
  | some (arr, cyc) =>
    match l.get (R.SE_Cc_CFG_medium k) with
    | 0 => decide (cyc = ch.cycle)
    | 1 => decide (|sdiff arr ch.arrival| ≤ 1000000)
    | _ => false
  | none => false

/-- One charged rejection (R437): the level rises, and at err_limit the connection is blocked, the third time for good. -/
def Lane.charge (c : Ctx) (l : Lane) (k : Nat) : Lane :=
  let l1 := (l.setConn k { l.conn k with okRun := 0 }).inc (R.SE_Cc_REJ_charged k)
  let lvl := min (l.get (R.SE_Cc_STAT_level k) + 1) 255
  let l2 := l1.put (R.SE_Cc_STAT_level k) lvl
  let st := l2.get (R.SE_Cc_STAT_state k)
  if st = seBlocked ∨ st = sePerm ∨ lvl < l.get R.SE_LIMITS_err_limit then l2
  else
    let b := l2.get (R.SE_Cc_STAT_blocks k) + 1
    let l3 := ((l2.setConn k { l2.conn k with blockAt := c.now }).put (R.SE_Cc_STAT_blocks k) b).seFlag k R.SE_FLAGS_blocked
    if 3 ≤ b then (l3.put (R.SE_Cc_STAT_state k) sePerm).seFlag k R.SE_FLAGS_perm_blocked
    else l3.put (R.SE_Cc_STAT_state k) seBlocked

/-- The channel counter of a path of a connection rises (R436). DESIGN CHOICE (log 80): the spec names no register for it. -/
def Lane.countPath (l : Lane) (k : Nat) (pathB : Bool) : Lane :=
  let x := l.conn k
  l.setConn k (if pathB then { x with failB := x.failB + 1 } else { x with failA := x.failA + 1 })

/-- The waiting rejections of a connection decided in their order (R436): one that the other path covers is counted in its path's
channel counter only. -/
def Lane.decideCharges (c : Ctx) (l : Lane) (k : Nat) : List Charge → Lane
  | [] => l
  | ch :: t =>
    let l1 := if l.covers k ch then (l.countPath k ch.pathB).seFlag k R.SE_FLAGS_path_fail else if ch.excused then l else l.charge c k
    l1.decideCharges c k t

/-- ENVELOPE_CHARGE_DECISION (R436): at the end of the slot, or on CAN FD 1 ms after the rejected copy. -/
def envelopeChargeDecisionL (c : Ctx) (k : Fin 64) (l : Lane) : Lane :=
  let x := l.conn k.val
  let due := fun (ch : Charge) =>
    decide (l.get (R.SE_Cc_CFG_medium k.val) ≠ 1) || decide (1000000 ≤ sdiff l.stamp ch.arrival)
  (l.setConn k.val { x with charges := x.charges.filter (fun ch => !due ch) }).decideCharges c k.val (x.charges.filter due)

/-- CONNECTION_UNBLOCK (R437). -/
def connectionUnblockL (c : Ctx) (k : Fin 64) (l : Lane) : Lane :=
  let i := k.val
  if l.blockOver i c.now then l.unblock i else l

/-- The valid bit of the delivered record frozen at a heat boundary (R438). -/
def Lane.envelopeHeat (l : Lane) : Lane :=
  { l with se := l.se.map (fun e => (e.1, { e.2 with
      valid := e.2.held && decide (sdiff l.stamp (l.rd (R.SE_Cc_STAMP e.1)) ≤ ((l.rd (R.SE_Cc_MAX_AGE e.1)).toNat : Int)) })) }

/-! ### The commands -/

/-- ENVELOPE_PRODUCE. -/
def execEnvelopeProduce (ln : LaneId) (k : Fin 64) (payload : List Word) (s : State) : Answer :=
  onAlive ln (fun _ l => envelopeProduceL k payload l) s

/-- SE_TX_COMMIT. -/
def execSeTxCommit (ln : LaneId) (value : Word) (s : State) : Answer := onAlive ln (fun _ l => seTxCommitL value l) s

/-- ENVELOPE_COPY_JUDGE. -/
def execEnvelopeCopyJudge (ln : LaneId) (k : Fin 64) (pathB : Bool) (words : List Word) (arrival : Word) (s : State) : Answer :=
  onAlive ln (fun c l => envelopeCopyJudgeL c k pathB words arrival l) s

/-- ENVELOPE_CHARGE_DECISION. -/
def execEnvelopeChargeDecision (ln : LaneId) (k : Fin 64) (s : State) : Answer :=
  onAlive ln (fun c l => envelopeChargeDecisionL c k l) s

/-- CONNECTION_UNBLOCK. -/
def execConnectionUnblock (ln : LaneId) (k : Fin 64) (s : State) : Answer := onAlive ln (fun c l => connectionUnblockL c k l) s

end Sys2Proof.Machine
end

