-- ==== Sys2Proof/Machine/Motor.lean ====
section
/-! DEFINITION. Motor channels: the current pipeline (R203 to R210), the observer (R212 to R217), catch, pulse test and
loss of synchronism (R219 to R229). -/

namespace Sys2Proof.Machine

/-- The PWM period P in ns (R199). -/
def Lane.pwm (l : Lane) (ch : Nat) : Nat := (l.rd (R.MC_PWM_PERIOD ch)).toNat

/-- The length of the PWM period in progress: P, or its own after a setting of time (R415). -/
def Lane.pwmNow (l : Lane) (ch : Nat) : Nat := if l.ea.perLen = 0 then l.pwm ch else l.ea.perLen

/-- A q40 parameter pair as an exact value. -/
def Lane.par (l : Lane) (a : Nat) : Rat := qr (l.q a)

/-- A phase current (R239): (sample − offset) × gain / R_shunt, with 9.155 µV for one code of the ±300 mV range. -/
def Lane.phaseAmps (l : Lane) (ch ph : Nat) (code : BitVec 16) : Int :=
  rq ((qr (code.toInt * qOne - ((l.mc ch).offs[ph]?).getD 0)) * mkRat 6 655360 *
      qr (qv (((l.mc ch).gains[ph]?).getD 0)) / l.par (R.PS_SHUNT ch))

/-- The α and β components of three phase quantities (R203). -/
def clarke (a b d : Int) : Int × Int := (rq ((2 * qr a - qr b - qr d) / 3), rqOverSqrt3 (qr b - qr d))

/-- rotate of R203, the bits of crot (R186). -/
def rotate (x y : Int) (th : Word) : Int × Int := crot x y th.toInt

/-- The standstill threshold of a channel, a mechanical speed (R223). -/
def Lane.stillSpeed (l : Lane) (ch : Nat) : Rat :=
  l.par (R.MC_W_RATED ch) * mkRat (l.get (R.MC_CATCH_CFG_still_permille ch)) 1000

/-- The mechanical speed is below the standstill threshold. -/
def Lane.isStill (l : Lane) (ch : Nat) : Bool := decide (|l.par (R.MC_SPEED ch)| < l.stillSpeed ch)

/-- The regenerative limit i_rg of R254. -/
def Lane.regenLimit (l : Lane) (ch : Nat) (vdc : Int) : Int :=
  if l.bit (R.PS_STATUS_chop_fault ch) then 0
  else rq (l.par (R.MC_I_MAX ch) *
    clampRat 0 1 ((l.par (R.PS_V_REGEN ch) + l.par (R.PS_V_SPAN ch) - qr vdc) / l.par (R.PS_V_SPAN ch)))

/-- The share that a channel computes with (R208, R209): 1.0 while it is not driving. -/
def Lane.ownShare (l : Lane) (ch : Nat) : Nat :=
  let s := l.get (R.MC_SHARE_share ch)
  if s = 0 then 256 else s

/-- The handover update (R66, R208, R209): 12.5 µs into a zone the outgoing lane has share 0 and the incoming one 1.0; a sample
at that very instant already uses it. -/
def Lane.atHandover (c : Ctx) (l : Lane) : Lane :=
  match l.baton.pass with
  | some p =>
    if p.phase = .zone ∧ p.zoneAt + 12500 ≤ c.now then l.takeShare c (if p.outgoing = c.id then 0 else 256) else l
  | none => l

/-- The outgoing lane after a loss of synchronism in the incoming one returns to share 1.0 at its first sample (R228). -/
def Lane.backAtSample (c : Ctx) (l : Lane) : Lane :=
  match l.baton.pass with
  | some p =>
    if p.phase = .returning ∧ p.outgoing = c.id ∧ l.baton.sampleBack = true then
      { l.takeShare c 256 with baton := { l.baton with sampleBack := false } }
    else l
  | none => l

/-- The references of the reference stage (R207, R206), with whether each limit acted. -/
def Lane.references (l : Lane) (ch share : Nat) (tRef iRg : Int) : Int × Int × Bool × Bool :=
  let m := l.mc ch
  let iMax := l.par (R.MC_I_MAX ch)
  let kt := rq (mkRat 3 2 * (l.get (R.MC_CFG_pole_pairs ch) : Int) * l.par (R.MC_PSI ch))
  let iq0 := rq (mkRat share 256 * qr tRef / qr kt)
  let mt := if l.bit (R.MC_CFG_mtpa_en ch) then l.par (R.MC_MTPA_K ch) * qr iq0 * qr iq0 else 0
  let id0 := rq (mt + qr m.idFw)
  let id1 := max id0 (-(l.q (R.MC_I_MAX ch)))
  let iq1 := qsatV iq0 (sqrtDown (iMax * iMax - qr id1 * qr id1))
  let iq2 := if iq1 * m.wE < 0 then qsatV iq1 iRg else iq1
  (id1, iq2, decide (iq1 ≠ iq0), decide (iq2 ≠ iq1))

/-- v_lim of R204. -/
def Lane.voltLimit (l : Lane) (ch : Nat) (vdc : Int) (inj : Bool) : Int :=
  let m := rq (min (l.par (R.MC_M_MAX ch)) (1 - mkRat (2 * l.get (R.MC_PWM_WIN_ns ch)) (l.pwm ch)))
  let v := rqOverSqrt3 (qr m * qr vdc)
  if inj then v - l.q (R.MC_V_INJ ch) else v

/-- The three compare values from a voltage in αβ (R203): common-mode injection, duty, ns either side of the boundary. -/
def compares (vAl vBe vdc : Int) (p : Nat) : List Int :=
  let va := vAl
  let vb := rq3 (-(qr vAl) / 2) (qr vBe / 2)
  let vc := rq3 (-(qr vAl) / 2) (-(qr vBe) / 2)
  let cm := rq ((qr (max va (max vb vc)) + qr (min va (min vb vc))) / 2)
  [va, vb, vc].map (fun v =>
    let duty := rq (mkRat 1 2 + (qr v - qr cm) / qr vdc)
    nearest (qr duty * mkRat p 2))

/-- The current i_x of the coupled winding sets in d and q (R215), with the number of other sets in active short circuit. -/
def Lane.coupled (l : Lane) (ch sets : Nat) : Int × Int :=
  let m := l.mc ch
  let inZone : Bool := match l.baton.pass with
    | some p => decide (p.phase = .zone)
    | none => false
  let base : Int × Int :=
    if inZone then (m.idRef, m.iqRef)
    else if l.active then (0, 0)
    else if l.bridgeOff ch then (m.mirId, m.mirIq) else (0, 0)
  if l.q (R.MC_W_HI ch) ≤ |m.wE| then
    (satQ (base.1 + rq (-(sets : Int) * l.par (R.MC_PSI ch) / l.par (R.MC_LD ch))), base.2)
  else base

/-- The blend weight w of R213, q40. -/
def Lane.blend (l : Lane) (ch : Nat) : Int :=
  let lo := l.par (R.MC_W_LO ch)
  let hi := l.par (R.MC_W_HI ch)
  if hi = 0 then qOne else rq (clampRat 0 1 ((qr |(l.mc ch).wE| - lo) / (hi - lo)))

/-- inj_active follows the speed: injection runs while w is below 1 (R213). -/
def Lane.showInj (l : Lane) (ch : Nat) : Lane := l.putB (R.MC_STATUS_inj_active ch) (decide (l.blend ch < qOne))

/-- 0.5236 rad as q40 (R216, R225). -/
def thirtyDeg : Int := rq (mkRat 5236 10000)

/-- The gain factor g of R214, q40, with whether it was pinned at the envelope. -/
def Lane.gain (l : Lane) (ch : Nat) : Int × Bool :=
  let m := l.mc ch
  let g := rq (1 + qr |m.wE| / l.par (R.MC_W_SCHED ch))
  let lo : Int := (m.env.toNat % 256 : Nat) * qOne / 16
  let hi : Int := (m.env.toNat / 256 : Nat) * qOne / 16
  (clampInt lo hi g, decide (g < lo) || decide (hi < g))

/-- The lock of a channel follows one sample (R216, R217): 64 consecutive good samples give it; a channel whose bridge is off and that
fails the conditions loses it, and below the standstill threshold such a channel keeps a lock from the mirror alone. DEDUCED (log 43): one
from the pulse test, which runs at standstill and is taken with the bridge off (R223, R224), is kept too. -/
def Lane.lockStep (c : Ctx) (l : Lane) (ch : Nat) (good : Bool) (w : Int) : Lane :=
  let m := l.mc ch
  let off := l.bridgeOff ch
  if !good then
    let l1 := l.setMc ch { m with lockRun := 0, lockAt := if off then none else m.lockAt }
    if off then (l1.put (R.MC_STATUS_locked ch) 0).put (R.MC_STATUS_lock_src ch) 0 else l1
  else if off && l.isStill ch then
    (if l.get (R.MC_STATUS_lock_src ch) = 4 ∨ l.get (R.MC_STATUS_lock_src ch) = 5 then l.setMc ch { m with lockRun := 0 }
     else ((l.setMc ch { m with lockRun := 0, lockAt := none }).put (R.MC_STATUS_locked ch) 0).put (R.MC_STATUS_lock_src ch) 0)
  else
    let run := min (m.lockRun + 1) 64
    let l1 := l.setMc ch { m with lockRun := run,
                                  lockAt := if run = 64 ∧ m.lockAt = none then some c.now else m.lockAt }
    if run = 64 then
      (l1.put (R.MC_STATUS_locked ch) 1).put (R.MC_STATUS_lock_src ch) (if off then 1 else if w = qOne then 2 else 3)
    else l1

/-- PS_FAULT shows whether the set is held in an active short circuit (R262). -/
def Lane.showAsc (l : Lane) (ch : Nat) : Lane := l.putB (R.PS_FAULT_asc ch) (l.bit (R.PS_STATUS_asc ch))

/-- A bridge or channel fault is recorded (R244): kind, switch, stamp. -/
def Lane.recordBridge (l : Lane) (ch kind switch : Nat) (asc : Bool) : Lane :=
  let l1 := l.wr (R.PS_FAULT ch) (BitVec.ofNat 32 (2 ^ 31 + kind * 16 + cond asc 1 0 * 8 + switch))
  ((l1.stampAt (R.PS_FAULT_TIME ch)).put (R.PS_STATUS_fault ch) 1).flag (R.PS_FLAGS_bridge_fault ch)

/-- The set of a faulty bridge is held open, or shorted on the low side in a lane that stays active under R118, where the gate
supply is not low (R245). -/
def Lane.holdFaulty (c : Ctx) (l : Lane) (ch : Nat) (vgLow : Bool) : Lane :=
  if l.fitLanes c = [c.id] ∧ l.active then
    (if vgLow then (l.flag (R.PS_FLAGS_asc_fail ch)).holdOpen c ch else l.ascEnter c ch false)
  else l.holdOpen c ch

/-- A channel fault (R227): FAULT, the set held open as kind 8 of R244, and a class 0x4 fault of the lane. -/
def Lane.channelFault (c : Ctx) (l : Lane) (ch : Nat) : Lane :=
  let l1 := (l.mcSet ch mcFault).flag (R.MC_FLAGS_chan_fault ch)
  let l2 := l1.setMc ch { l1.mc ch with losOpen := false, gateFrom := none }
  let l3 := ((l2.recordBridge ch 8 7 false).holdFaulty c ch false).showAsc ch
  l3.becomeUnfit c 0xC 4 ch (.setOrCoil (some ch))

/-- A loss of synchronism in the incoming lane inside a zone (R228): PASS_ABORT with reason 3, and the lane ramps its
non-privileged references back to 0. DESIGN CHOICE (log 80): on the TS-8630 its other channel keeps its share until the return ends. -/
def Lane.incomingLos (c : Ctx) (l : Lane) : Lane :=
  match l.baton.pass with
  | some p =>
    if p.phase = .zone ∧ p.incoming = c.id then
      let l1 := (l.sendAll c 0x07 [3]).flag R.LM_FLAGS_relay_abort
      { l1 with baton := { l1.baton with
          pass := some { p with phase := .returning, rampAt := c.now, returnFrom := p.share } } }
    else l
  | none => l

/-- A loss of synchronism with its criterion (R226, R227): a second one within 1 s is a channel fault. DESIGN CHOICE (log 43): one
exactly 1 s after the previous one is not within 1 s. The gates go off at the compare-load instant of this sample, 0.45 µs after it. -/
def Lane.lossOfSync (c : Ctx) (l : Lane) (ch crit : Nat) : Lane :=
  let m := l.mc ch
  let l1 := ((l.flag (R.MC_FLAGS_los ch)).put (R.MC_LOS_criterion ch) crit).inc (R.MC_LOS_count ch)
  let l2 := l1.stampAt (R.MC_LOS_TIME ch)
  let second := match m.losAt with
    | some t => decide (c.now < t + 1000000000)
    | none => false
  let l3 := l2.setMc ch { l2.mc ch with
    losAt := some c.now, losOpen := true, nResid := 0, nFlux := 0, nInj := 0, gatesTil := c.now + 450 }
  if second then l3.channelFault c ch else ((l3.holdWindow ch).toCatch c ch).incomingLos c

/-- The criterion of R225 that a sample meets, with the run lengths it leaves. DESIGN CHOICE (log 43): where a sample meets several,
the lowest code is recorded. -/
def losCheck (n nR nF nI : Nat) (w : Int) (resid residMax slew slewMax flux lam epsI : Int) : Nat × Nat × Nat × Nat :=
  let r := if 0 < w ∧ residMax < resid then nR + 1 else 0
  let f := if 0 < w ∧ (4 * flux < 3 * lam ∨ 5 * lam < 4 * flux) then nF + 1 else 0
  let i := if w < qOne ∧ thirtyDeg < |epsI| then nI + 1 else 0
  let code := if n ≤ r ∧ 0 < r then 1 else if slewMax < |slew| then 2 else if n ≤ f ∧ 0 < f then 3
    else if n ≤ i ∧ 0 < i then 4 else 0
  (code, r, f, i)

/-- The observer's update after a compare load (R212), with the criteria of R225 in RUN: s_k is the sign of the sample's
injection. -/
def Lane.observe (c : Ctx) (l : Lane) (ch sets : Nat) (sk : Int) (th : Word) (id iq iqPrev iAl iBe : Int) (m0 : PwmSample) :
    Lane :=
  let m := l.mc ch
  let p := secs (l.pwm ch)
  let ld := l.par (R.MC_LD ch)
  let lq := l.par (R.MC_LQ ch)
  let mx := l.par (R.MC_MX ch)
  let psi := l.par (R.MC_PSI ch)
  let rs := l.par (R.MC_RS ch)
  let kc := l.par (R.MC_FLUX_KC_T ch)
  let (vAl, vBe) := if l.mcState ch = mcAsc then (0, 0) else clarke (qv m0.va) (qv m0.vb) (qv m0.vc)
  let lam := rq (psi + (ld - lq) * qr id)
  let (mAl, mBe) := rotate lam 0 th
  let (xd, xq) := l.coupled ch sets
  let (xAl, xBe) := rotate xd xq th
  let flux := fun (ps v i mm x : Int) =>
    rq (qr ps + p * (qr v - rs * qr i) + kc * (qr mm + lq * qr i + mx * qr x - qr ps))
  let psAl := flux m.psiAl vAl iAl mAl xAl
  let psBe := flux m.psiBe vBe iBe mBe xBe
  let pAl := rq (qr psAl - lq * qr iAl - mx * qr xAl)
  let pBe := rq (qr psBe - lq * qr iBe - mx * qr xBe)
  let (fl, ang) := catan pAl pBe
  let dAl := qr pAl - qr mAl
  let dBe := qr pBe - qr mBe
  let resid := rq (qr (sqrtDown (dAl * dAl + dBe * dBe)) / psi)
  let epsF := turnToRad (sdiff ang th)
  let w := l.blend ch
  let epsI := rq (sk * (qr iq - qr iqPrev) / (l.par (R.MC_V_INJ ch) * p * (1 / ld - 1 / lq)))
  let eps := rq (qr w * qr epsF + (1 - qr w) * qr epsI)
  let (gq, pinned) := l.gain ch
  let g := qr gq
  let wInt := rq (qr m.wInt + g * g * l.par (R.MC_PLL_KI_T ch) * qr eps)
  let wE := rq (qr wInt + g * l.par (R.MC_PLL_KP ch) * qr eps)
  let th1 := th + turnsOf (qr wE * p)
  let pred := th1 + turnsOf (qr wE * p)
  let l1 := l.setMc ch { m with thPred := pred, wInt := wInt, wE := wE, psiAl := psAl, psiBe := psBe }
  let speed := rq (qr wE / (l.get (R.MC_CFG_pole_pairs ch) : Int))
  let l2 := (((l1.wr (R.MC_ANGLE ch) th1).putQ (R.MC_SPEED ch) speed).putQ (R.MC_FLUX ch) fl).putQ (R.MC_RESID ch) resid
  let l3 := (l2.showInj ch).putB (R.MC_STATUS_direction ch) (decide (speed < 0))
  let l4 := if pinned then (l3.flag (R.MC_FLAGS_obs_conflict ch)).inc (R.MC_CONFLICT_count ch) else l3
  let good := (decide (resid ≤ l.q (R.MC_RESID_MAX ch)) || (decide (w = 0) && decide (|epsI| < thirtyDeg))) &&
    decide (|eps| < thirtyDeg)
  let l6 := l4.lockStep c ch good w
  if l6.mcState ch = mcRun then
    let (code, r, f, i) := losCheck (l.get (R.MC_LOS_CFG_n ch)) m.nResid m.nFlux m.nInj w resid (l.q (R.MC_RESID_MAX ch))
      (wE - m.wE) (l.q (R.MC_SLEW_MAX ch)) fl lam epsI
    let l7 := l6.setMc ch { l6.mc ch with nResid := r, nFlux := f, nInj := i }
    if code = 0 then l7 else l7.lossOfSync c ch code
  else l6

/-- The open-phase check of kind 7 (R244): one phase below 2 % of i_max while another is above 25 %. -/
def openPhase (iMax : Int) (is : List Int) : Bool :=
  is.any (fun i => decide (100 * |i| < 2 * iMax)) && is.any (fun i => decide (25 * iMax < 100 * |i|))

/-- The torque reference that a channel works with (R207, R228): that of MC_TORQUE, and from a loss of synchronism until RUN none.
DESIGN CHOICE (log 80): a reference that is ignored counts as 0. -/
def Lane.torqueRef (l : Lane) (ch : Nat) : Int :=
  if (l.mc ch).losOpen && (decide (l.mcState ch = mcCatch) || decide (l.mcState ch = mcPulse)) then 0 else l.q (R.MC_TORQUE ch)

/-- What the pipeline forms at one sample for a share (R203, R204, R207): references and whether a limit acted on them, errors,
voltages before and after the limit, and compare values. -/
structure PipeOut where
  idRef : Int
  iqRef : Int
  iLim : Bool
  rLim : Bool
  eD : Int
  eQ : Int
  uD : Int
  uQ : Int
  vD : Int
  vQ : Int
  limD : Bool
  limQ : Bool
  cmp : List Int
  deriving DecidableEq, Repr, Inhabited

/-- What a sample brings to the pipeline (R203): d and q currents, v_dc before its floor, i_rg, the angle th_c, the sign s_k, and
whether injection runs. -/
structure PipeIn where
  id : Int
  iq : Int
  vRaw : Int
  iRg : Int
  th : Word
  sk : Int
  inj : Bool
  deriving DecidableEq, Repr, Inhabited

/-- The pipeline of one sample for a share and the integrators that go with it (R203, R204, R207, R210). -/
def Lane.pipe (l : Lane) (ch share : Nat) (x : Int × Int) (i : PipeIn) : PipeOut :=
  let m := l.mc ch
  let vdc := max i.vRaw (6 * qOne)
  let (idRef, iqRef, iLim, rLim) := l.references ch share (l.torqueRef ch) i.iRg
  let ld := l.par (R.MC_LD ch)
  let lq := l.par (R.MC_LQ ch)
  let eD := satQ (idRef - i.id)
  let eQ := satQ (iqRef - i.iq)
  let uD := rq (l.par (R.MC_KP_D ch) * qr eD + qr x.1 - qr m.wE * lq * qr i.iq)
  let uQ := rq (l.par (R.MC_KP_Q ch) * qr eQ + qr x.2 + qr m.wE * (ld * qr i.id + l.par (R.MC_PSI ch)))
  let vLim := l.voltLimit ch vdc i.inj
  let vD := qsatV uD vLim
  let vQ := qsatV uQ (sqrtDown (qr vLim * qr vLim - qr vD * qr vD))
  let vD1 := if i.inj then satQ (vD + i.sk * l.q (R.MC_V_INJ ch)) else vD
  let adv := turnsOf (qr m.wE * mkRat (l.pwm ch + 900) 2000000000)
  let (vAl, vBe) := rotate vD1 vQ (i.th + adv)
  { idRef := idRef, iqRef := iqRef, iLim := iLim, rLim := rLim, eD := eD, eQ := eQ, uD := uD, uQ := uQ, vD := vD, vQ := vQ,
    limD := decide (vD ≠ uD), limQ := decide (vQ ≠ uQ), cmp := compares vAl vBe vdc (l.pwmNow ch) }

/-- The next x_d and x_q (R203, R204, R210): an integrator whose axis is limited does not advance, nor does one with share 0. -/
def Lane.nextInts (l : Lane) (ch : Nat) (o : PipeOut) (vLim : Int) : Int × Int :=
  let m := l.mc ch
  let holds := decide (l.get (R.MC_SHARE_share ch) = 0)
  let ki := l.par (R.MC_KI_T ch)
  (if o.limD || holds then m.xD else qsatV (rq (qr m.xD + ki * qr o.eD)) vLim,
   if o.limQ || holds then m.xQ else qsatV (rq (qr m.xQ + ki * qr o.eQ)) vLim)

/-- The field-weakening integrator after a sample (R205, R210). -/
def Lane.weaken (l : Lane) (ch : Nat) (o : PipeOut) (vLim : Int) : Int :=
  let m := l.mc ch
  if !l.bit (R.MC_CFG_fw_en ch) then 0
  else if l.get (R.MC_SHARE_share ch) = 0 then m.idFw
  else rq (clampRat (-(mkRat 7 10) * l.par (R.MC_I_MAX ch)) 0
    (qr m.idFw + (mkRat 97 100 * qr vLim - qr (sqrtDown (qr o.uD * qr o.uD + qr o.uQ * qr o.uQ))) * secs (l.pwm ch) /
      l.par (R.MC_LD ch)))

/-- Whether three phase currents are all below 2 % of i_max (R222). -/
def decayed (iMax : Int) (is : List Int) : Bool := is.all (fun i => decide (100 * |i| < 2 * iMax))

/-- The shunt sums of R239 after a sample: conversions count once the bridge has been off for 200 µs and the set is not
shorted. -/
def Lane.sumShunts (c : Ctx) (l : Lane) (ch : Nat) (s : PwmSample) : Lane :=
  let m := l.mc ch
  if !l.bridgeOff ch then l.setMc ch { m with sumSa := 0, sumSb := 0, sumSc := 0, sumN := 0 }
  else if c.now < m.offAt + 200000 then l
  else l.setMc ch { m with sumSa := m.sumSa + s.sa.toInt, sumSb := m.sumSb + s.sb.toInt, sumSc := m.sumSc + s.sc.toInt,
                           sumN := m.sumN + 1 }

/-- What the stage measures at a sample (R238, R254, R255, R262): v_dc, the regenerative limit, the gate supplies, and whether the
V_ovp comparator still reports above. -/
def Lane.showStage (l : Lane) (ch : Nat) (s : PwmSample) (iRg : Int) : Lane :=
  let vRaw := qv s.vdc
  let l1 := ((l.putQ (R.PS_VDC ch) vRaw).putQ (R.PS_REGEN_LIM ch) iRg).flagIf (decide (vRaw < 6 * qOne)) (R.PS_FLAGS_dc_uv ch)
  let l2 := (((l1.put (R.PS_VG_mv ch) s.vgMv.toNat).put (R.PS_BOOT_boot_a ch) s.bootA.toNat).put (R.PS_BOOT_boot_b ch)
    s.bootB.toNat).put (R.PS_BOOT_boot_c ch) s.bootC.toNat
  let limiting := decide (iRg < l.q (R.MC_I_MAX ch))
  let l3 := (l2.flagIf limiting (R.PS_FLAGS_regen_active ch)).putB (R.PS_STATUS_regen_limiting ch) limiting
  if vRaw ≤ l.q (R.PS_V_OVP ch) then l3.put (R.PS_STATUS_ovp_active ch) 0 else l3

/-! ### The pulse test (R223, R224) -/

/-- The pulse and gap time of the running attempt in ns (R223): the retry doubles the pulse (R224). -/
def Lane.pulseTimes (l : Lane) (ch : Nat) : Nat × Nat :=
  (l.get (R.MC_PULSE_CFG_pulse_us ch) * 1000 * (if (l.mc ch).tests = 0 then 1 else 2), l.get (R.MC_PULSE_CFG_gap_us ch) * 1000)

/-- How far the running attempt has come (R223), as if no pulse had ended early. -/
def Lane.pulseClock (c : Ctx) (l : Lane) (ch : Nat) : Nat := c.now - (l.mc ch).pulseFrom + (l.mc ch).pulseCut

/-- The vector that the running attempt applies now, none in a gap and after the last (R223). -/
def Lane.pulseVector (c : Ctx) (l : Lane) (ch : Nat) : Option Nat :=
  let (p, g) := l.pulseTimes ch
  let t := l.pulseClock c ch
  if l.mcState ch = mcPulse ∧ t < 6 * (p + g) ∧ t % (p + g) < p then some (t / (p + g)) else none

/-- An attempt of the pulse test begins (R223). -/
def Lane.startAttempt (c : Ctx) (l : Lane) (ch tests : Nat) : Lane :=
  l.setMc ch { l.mc ch with tests := tests, pulseFrom := c.now, pulseCut := 0 }

/-- A pulse ends early when the current reaches i_max (R223). -/
def Lane.cutPulse (c : Ctx) (l : Lane) (ch : Nat) (iAl iBe : Int) : Lane :=
  match l.pulseVector c ch with
  | some _ =>
    if l.q (R.MC_I_MAX ch) ≤ sqrtDown (qr iAl * qr iAl + qr iBe * qr iBe) then
      let (p, g) := l.pulseTimes ch
      l.setMc ch { l.mc ch with pulseCut := (l.mc ch).pulseCut + (p - l.pulseClock c ch % (p + g)) }
    else l
  | none => l

/-- The channel enters PULSE (R220, R223). -/
def Lane.toPulse (c : Ctx) (l : Lane) (ch : Nat) : Lane := ((l.startAttempt c ch 0).mcSet ch mcPulse).sto c ch

/-! ### The sample (R203) -/

/-- The d and q currents of a sample, averaged with the previous one while injection runs (R203). -/
def Lane.averaged (l : Lane) (ch : Nat) (raw : Int × Int) (inj : Bool) : Int × Int :=
  let m := l.mc ch
  if inj then (rq ((qr raw.1 + qr m.idLast) / 2), rq ((qr raw.2 + qr m.iqLast) / 2)) else raw

/-- The pipeline's part of a sample: integrators, compare values in force, for the next load and for shares 0.5 and 1.0 (R209), and the
readback registers. -/
def Lane.pipeSample (l : Lane) (ch : Nat) (is : List Int) (raw : Int × Int) (i : PipeIn) : Lane :=
  let m := l.mc ch
  let old := l.get (R.MC_SHARE_share ch)
  let own := l.ownShare ch
  let at_ := fun (s : Nat) => l.pipe ch s (m.scaled old s) i
  let o := at_ own
  let vLim := l.voltLimit ch (max i.vRaw (6 * qOne)) i.inj
  let x := l.nextInts ch o vLim
  let fw := l.weaken ch o vLim
  let nOpen := if l.mcState ch = mcRun && openPhase (l.q (R.MC_I_MAX ch)) is then m.nOpen + 1 else 0
  let l1 := l.setMc ch { m with
    xD := x.1, xQ := x.2, idFw := fw, idRef := o.idRef, iqRef := o.iqRef, idLast := raw.1, iqLast := raw.2, odd := !m.odd,
    cmpNext := o.cmp, cmpHalf := (at_ 128).cmp, cmpFull := if own = 256 then o.cmp else (at_ 256).cmp, cmpLate := none,
    cmp := if l.bit (R.PS_STATUS_switching ch) then o.cmp else m.cmp, nOpen := nOpen }
  let l2 := (((l1.putQ (R.MC_ID ch) i.id).putQ (R.MC_IQ ch) i.iq).putQ (R.MC_VD ch) o.vD).putQ (R.MC_VQ ch) o.vQ
  let l3 := ((l2.flagIf o.limQ (R.MC_FLAGS_v_limit ch)).flagIf o.iLim (R.MC_FLAGS_i_limit ch)).flagIf o.rLim
    (R.MC_FLAGS_regen_limit ch)
  l3.putB (R.MC_STATUS_fw_active ch) (decide (fw < 0))

/-- A catch window that waits for the currents to decay starts (R222). -/
def Lane.windowAfter (c : Ctx) (l : Lane) (ch : Nat) (is : List Int) : Lane :=
  if (l.mc ch).catchWaits && decayed (l.q (R.MC_I_MAX ch)) is then l.startWindow c ch else l

/-- A bridge whose gates went off at the compare load after a loss of synchronism is taken as off (R226). -/
def Lane.settleGates (c : Ctx) (l : Lane) (ch : Nat) : Lane :=
  if l.bit (R.PS_STATUS_switching ch) && l.wantsLogic c ch then l.sto c ch else l

/-- One PWM sample of a channel (R203): the stage's measurements, the pipeline, which computes in every state, with compare values
that take effect with this sample's compare load, and the observer's update, which stands still in PULSE and FAULT (R219).
DESIGN CHOICE (log 43): the first sample after the lane's reset is an even one for s_k. -/
def Lane.sample (c : Ctx) (l0 : Lane) (ch sets : Nat) (s : PwmSample) : Lane :=
  let l : Lane := ((l0.atHandover c).backAtSample c).settleGates c ch
  let m := l.mc ch
  let is := [l.phaseAmps ch 0 s.sa, l.phaseAmps ch 1 s.sb, l.phaseAmps ch 2 s.sc]
  let (iAl, iBe) := clarke ((is[0]?).getD 0) ((is[1]?).getD 0) ((is[2]?).getD 0)
  let raw := rotate iAl iBe (-m.thPred)
  let inj := l.bit (R.MC_STATUS_inj_active ch)
  let dq := l.averaged ch raw inj
  let sk : Int := if m.odd then -1 else 1
  let iRg := l.regenLimit ch (qv s.vdc)
  let l1 : Lane := (l.sumShunts c ch s).pipeSample ch is raw ⟨dq.1, dq.2, qv s.vdc, iRg, m.thPred, sk, inj⟩
  let l2 : Lane := ((l1.showStage ch s iRg).windowAfter c ch is).cutPulse c ch iAl iBe
  if l2.mcState ch = mcPulse ∨ l2.mcState ch = mcFault then l2
  else l2.observe c ch sets sk m.thPred dq.1 raw.2 m.iqLast iAl iBe s

/-- CURRENT_SAMPLE (R199 to R216, R225, R238, R254). -/
def currentSampleL (c : Ctx) (ch : Fin 2) (sets : Nat) (s : PwmSample) (l : Lane) : Lane := l.sample c ch.val sets s

/-- The channel enters RUN (R220): the gates start at the first period boundary at least 1 µs later; a loss of
synchronism it recovers from sets relock (R226). -/
def Lane.toRun (c : Ctx) (l : Lane) (ch : Nat) : Lane :=
  let m := l.mc ch
  let l1 := l.setMc ch { m with gateFrom := some (c.now + 1000), losOpen := false,
                                nResid := 0, nFlux := 0, nInj := 0, nOpen := 0 }
  let l2 := if m.losOpen then l1.flag (R.MC_FLAGS_relock ch) else l1
  (l2.mcSet ch mcRun).sto c ch

/-- A lock held for at least the catch window, or one from the mirror (R220). -/
def Lane.lockLong (c : Ctx) (l : Lane) (ch : Nat) : Bool :=
  l.bit (R.MC_STATUS_locked ch) &&
    (decide (l.get (R.MC_STATUS_lock_src ch) = 5) ||
      match (l.mc ch).lockAt with
      | some t => decide (t + l.catchWindow ch ≤ c.now)
      | none => false)

/-- A channel is enabled (R220, R221): RUN with a long lock or one from the mirror, else CATCH; from PULSE it waits for
the test's result. -/
def Lane.enable (c : Ctx) (l : Lane) (ch : Nat) : Lane :=
  let l1 := l.put (R.MC_STATUS_enabled ch) 1
  if l1.mcState ch = mcOff then
    (if l1.lockLong c ch then l1.toRun c ch else l1.toCatch c ch)
  else l1

/-- Whether the lane's channels are to be enabled (R221): it holds the baton with the drive permit set, or it is the incoming
lane of a changeover zone, of a takeover window, or of a pass with cause 0x7, whose bridges are enabled at its offer (R256). -/
def Lane.mayEnable (c : Ctx) (l : Lane) : Bool :=
  let inZone := match l.baton.pass with
    | some p => decide (p.incoming = c.id) && (decide (p.phase = .zone) || (decide (p.cause = 7) && decide (p.phase ≠ .returning)))
    | none => false
  let inWindow := match l.baton.window with
    | some w => decide (w.incoming = c.id)
    | none => false
  (l.active && l.bit R.BK_STATUS_permit) || inZone || inWindow

/-- CHANNEL_ENABLE (R220, R221): the enable comes or goes with its conditions. -/
def channelEnableL (c : Ctx) (ch : Fin 2) (on : Bool) (l : Lane) : Lane :=
  if on then
    (if l.bit (R.MC_STATUS_enabled ch.val) || !l.mayEnable c then l else l.enable c ch.val)
  else if l.mayEnable c then l else l.disable c ch.val

/-- CATCH_WINDOW_EXPIRY (R220, R222): a locked channel enters RUN, one at standstill the pulse test, another restarts its
window. DESIGN CHOICE (log 80): a locked channel at standstill, which the rows to RUN and to PULSE both name, enters RUN. -/
def catchWindowExpiryL (c : Ctx) (ch : Fin 2) (l : Lane) : Lane :=
  match (l.mc ch.val).catchFrom with
  | some t =>
    if t + l.catchWindow ch.val ≤ c.now ∧ l.mcState ch.val = mcCatch then
      if l.bit (R.MC_STATUS_locked ch.val) then l.toRun c ch.val
      else if l.isStill ch.val then l.toPulse c ch.val
      else (l.flag (R.MC_FLAGS_catch_ext ch.val)).startWindow c ch.val
    else l
  | none => l

/-- The sums of the pulse test (R223): the x sum in halves and the y sum in halves of √3, over the six vectors 0°, 180°,
60°, 240°, 120°, 300°. -/
def pulseSums (i : Nat → Int) : Int × Int :=
  (2 * i 0 - 2 * i 1 + i 2 - i 3 - i 4 + i 5, i 2 - i 3 + i 4 - i 5)

/-- asym of R223 squared, exactly: |S|² over the squared mean. -/
def asymSq (sx sy tot : Int) : Rat :=
  (mkRat (sx * sx + 3 * (sy * sy)) 4) / (mkRat tot 6 * mkRat tot 6)

/-- The attempt is over (R223): six currents are recorded, and the time of the pulses that reached no i_max and of the six gaps
has passed. -/
def Lane.pulsesOver (c : Ctx) (l : Lane) (ch : Nat) (is : List W40) : Bool :=
  let (p, g) := l.pulseTimes ch
  decide (is.length = 6) &&
    decide ((l.mc ch).pulseFrom + (is.filter (fun w => decide (qv w < l.q (R.MC_I_MAX ch)))).length * p + 6 * g ≤ c.now)

/-- The channel takes the angle of a valid result (R223): w_int 0, and lock source pulse test. -/
def Lane.takePulse (c : Ctx) (l : Lane) (ch : Nat) (ang : Word) : Lane :=
  let l1 := l.setMc ch { l.mc ch with wInt := 0, wE := 0, thPred := ang, lockRun := 0, lockAt := some c.now }
  let l2 := ((l1.wr (R.MC_PULSE_ANGLE ch) ang).wr (R.MC_ANGLE ch) ang).showInj ch
  (l2.put (R.MC_STATUS_locked ch) 1).put (R.MC_STATUS_lock_src ch) 4

/-- PULSE_TEST_DONE (R223, R224): a rotor found turning in a gap abandons the test (DESIGN CHOICE, log 80: its catch window goes on from its
last start, which R222 does not renew there); a valid result gives the angle; an invalid one
is retried once with the pulse doubled, and a second is a channel fault. -/
def pulseTestDoneL (c : Ctx) (ch : Fin 2) (currents : List W40) (gapSpeed : W40) (l : Lane) : Lane :=
  let n := ch.val
  if l.mcState n ≠ mcPulse then l
  else
    let en := l.bit (R.MC_STATUS_enabled n)
    if l.stillSpeed n < |qr (qv gapSpeed)| then
      let l1 := l.flag (R.MC_FLAGS_pulse_abort n)
      if en then l1.toCatch c n else (l1.mcSet n mcOff).sto c n
    else if !l.pulsesOver c n currents then l
    else
      let (sx, sy) := pulseSums (fun k => qv ((currents[k]?).getD 0))
      let tot := currents.foldl (fun a w => a + qv w) 0
      let sq := asymSq sx sy tot
      let milli := min (isqrtNear (nearest (sq * 1000000)).toNat) 65535
      let tries := (l.mc n).tests + 1
      let l1 := (l.put (R.MC_PULSE_STAT_asym n) milli).put (R.MC_PULSE_STAT_attempts n) tries
      let l2 := l1.startAttempt c n tries
      if mkRat 4 10000 ≤ sq ∧ tot ≠ 0 then
        let l3 := l2.takePulse c n (catan (rq (qr sx / 2)) (rq3 0 (qr sy / 2))).2
        if en then l3.toRun c n else (l3.mcSet n mcOff).sto c n
      else if tries < 2 then l2.flag (R.MC_FLAGS_pulse_retry n)
      else l2.channelFault c n

/-- RELOCK_TIMEOUT (R227): RUN is not reached within 20 ms of a loss of synchronism. -/
def relockTimeoutL (c : Ctx) (ch : Fin 2) (l : Lane) : Lane :=
  let m := l.mc ch.val
  match m.losAt with
  | some t =>
    if m.losOpen = true ∧ t + 20000000 ≤ c.now ∧ (l.mcState ch.val = mcCatch ∨ l.mcState ch.val = mcPulse) then
      l.channelFault c ch.val
    else l
  | none => l

/-- OBS_ENV_WRITE (R214, R234): ignored with g_lo below 16 or above g_hi. -/
def obsEnvWriteL (ch : Fin 2) (v : Word) (l : Lane) : Lane :=
  let lo := v.toNat % 256
  let hi := v.toNat / 256 % 256
  if 16 ≤ lo ∧ lo ≤ hi then l.wr (R.MC_OBS_ENV ch.val) (BitVec.ofNat 32 (hi * 256 + lo)) else l

/-- The time from now to the channel's next sample point (R199, R200): the centres of periods counted from the start of the last one. -/
def Lane.toSample (c : Ctx) (l : Lane) (ch : Nat) : Nat :=
  let p := max (l.pwmNow ch) 1
  p - (c.now - l.ea.perFrom + p - p / 2) % p

/-- A channel seeds itself from an adopted mirror (R217): angle from the driving lane's set to its own, advanced at the
mirrored speed by the mirror's age, `ahead` ns, and on to the next sample. A lock from the pulse test lasts until a mirror seeds the
channel (R531). -/
def Lane.seedMirror (c : Ctx) (l : Lane) (ch : Nat) (angle : Word) (offset : Nat) (wE : Int) (ahead : Nat) : Lane :=
  if l.bridgeOff ch && (!l.bit (R.MC_STATUS_locked ch) || decide (l.get (R.MC_STATUS_lock_src ch) = 4)) then
    let own := BitVec.ofNat 32 (l.get (R.MC_CFG_set_offset ch) * 2 ^ 24)
    let th := angle - BitVec.ofNat 32 (offset * 2 ^ 24) + own + turnsOf (qr wE * secs (ahead + l.toSample c ch))
    let m := l.mc ch
    let l1 := (l.setMc ch { m with thPred := th, wInt := wE, wE := wE, lockRun := 0, lockAt := some c.now }).showInj ch
    let l2 := (l1.put (R.MC_STATUS_locked ch) 1).put (R.MC_STATUS_lock_src ch) 5
    (l2.wr (R.MC_ANGLE ch) th).flag (R.MC_FLAGS_mirror_seed ch)
  else l

/-- Compare values that the latest sample gives with share 0.5 take effect at a zone's start (R209). -/
def Lane.loadHalf (l : Lane) (ch : Nat) : Lane := l.setMc ch { l.mc ch with cmp := (l.mc ch).cmpHalf, cmpLate := none }

/-- Compare values that the latest sample gives with share 1.0 take effect at an instant, with the extra update of R209. -/
def Lane.lateFull (t : Nat) (l : Lane) (ch : Nat) : Lane := l.setMc ch { l.mc ch with cmpLate := some (t, (l.mc ch).cmpFull) }

/-- The compare values in force at an instant. -/
def Motor.cmpAt (m : Motor) (now : Nat) : List Int :=
  match m.cmpLate with
  | some (t, cs) => if t ≤ now then cs else m.cmp
  | none => m.cmp

/-- Compare values that the latest sample gives with share 1.0 take effect (R209). -/
def Lane.loadFull (l : Lane) (ch : Nat) : Lane := l.setMc ch { l.mc ch with cmp := (l.mc ch).cmpFull, cmpLate := none }

/-- Compare values of the latest sample are loaded (R209). -/
def Lane.loadCmp (l : Lane) (ch : Nat) : Lane := l.setMc ch { l.mc ch with cmp := (l.mc ch).cmpNext, cmpLate := none }

/-- The heat boundary in a channel (R214, R218, R239): the envelope written since takes effect, the acceleration for
predictions is formed, and the shunt offsets are recalibrated while the bridge has been off for 200 µs. -/
def Lane.mcHeat (l : Lane) (ch : Nat) : Lane :=
  let m := l.mc ch
  let cal := l.bridgeOff ch && decide (0 < m.sumN)
  let step := fun (o sum : Int) => rq (qr o + (mkRat sum m.sumN - qr o) / 16)
  let offs := if cal then
      [step ((m.offs[0]?).getD 0) m.sumSa, step ((m.offs[1]?).getD 0) m.sumSb, step ((m.offs[2]?).getD 0) m.sumSc]
    else m.offs
  let aE := rq ((qr m.wE - qr m.wHeat) / secs l.heatLen)
  let l1 := l.setMc ch { m with
    env := (l.rd (R.MC_OBS_ENV ch)).setWidth 16, wHeat := m.wE, aE := aE, offs := offs,
    sumSa := 0, sumSb := 0, sumSc := 0, sumN := 0 }
  if cal then l1.put (R.PS_STATUS_offset_valid ch) 1 else l1

/-- The predicted rotor angle for the next boundary (R218). -/
def Lane.predAngle (l : Lane) (ch : Nat) : Word :=
  let m := l.mc ch
  let t := secs l.heatLen
  l.rd (R.MC_ANGLE ch) + turnsOf (qr m.wE * t + qr m.aE * t * t / 2)

/-- The predicted mechanical speed for the next boundary (R218). -/
def Lane.predSpeed (l : Lane) (ch : Nat) : Int :=
  let m := l.mc ch
  rq ((qr m.wE + qr m.aE * secs l.heatLen) / (l.get (R.MC_CFG_pole_pairs ch) : Int))

/-! ### Gate outputs (R236, R237) -/

/-- The on-interval of a high side around a period boundary, in ns from it (R237): turned on t_dead after the low side's turn-off,
and suppressed where 50 ns or less remain. -/
def highOn (cmp dead : Int) : Option (Int × Int) := if 50 < 2 * cmp - dead then some (-cmp + dead, cmp) else none

/-- The on-interval of a low side, the rest of the period P after a boundary, in ns from it (R237). -/
def lowOn (cmp dead p : Int) : Option (Int × Int) := if 50 < p - 2 * cmp - dead then some (cmp + dead, p - cmp) else none

/-- An instant t after a boundary lies in an interval around it or around the next one, P later. -/
def onAt (i : Option (Int × Int)) (p t : Int) : Bool :=
  match i with
  | some (a, b) => decide (a ≤ t ∧ t < b) || decide (a ≤ t - p ∧ t - p < b)
  | none => false

/-- The phases a, b and c whose high sides a vector of the pulse test turns on (R223): 0°, 180°, 60°, 240°, 120°, 300°. -/
def pulseHighs : List (List Bool) :=
  [[true, false, false], [false, true, true], [true, true, false], [false, false, true], [false, true, false], [true, false, true]]

/-- The six gate outputs of a power stage at this instant, high and low side of the phases a, b and c (R219, R236, R237, R240, R248): the
pipeline's switching edges, a side shorted t_dead after its command, the pulse test's vector or its zero vector where nothing but the
state itself asserts a path, or all off. DESIGN CHOICE (log 80): R219 and R223 have the gates switched in PULSE, while R221 and R241 assert the logic-disable
path there; the model drives the test with that path asserted. -/
def Lane.gates (c : Ctx) (l : Lane) (ch : Nat) : List (Bool × Bool) :=
  let m := l.mc ch
  let p : Int := max (l.pwmNow ch) 1
  let t : Int := (c.now - l.ea.perFrom : Nat) % p
  let dead : Int := l.get (R.PS_CFG_dead_ns ch)
  (List.range 3).map (fun x =>
    if l.bit (R.PS_STATUS_asc ch) then (if (c.now : Int) < m.ascAt + dead then (false, false) else (m.ascHigh, !m.ascHigh))
    else if l.switchesNow c ch then
      let cmp := ((m.cmpAt c.now)[x]?).getD 0
      (onAt (highOn cmp dead) p t, onAt (lowOn cmp dead p) p t)
    else if l.mcState ch = mcPulse ∧ l.wantsOther c ch = false then
      match l.pulseVector c ch with
      | some k => let h := (((pulseHighs[k]?).getD [])[x]?).getD false; (h, !h)
      | none => (false, true)
    else (false, false))

/-- The source and sink strength of a stage's gate outputs, in A (R236, R262). -/
def Lane.gateAmps (l : Lane) (ch : Nat) : Rat × Rat :=
  (mkRat (l.get (R.PS_CFG_source_sel ch) + 1) 2, mkRat (l.get (R.PS_CFG_sink_sel ch) + 1) 2)

/-! ### The library steering leg (R198, R230 to R233) -/

/-- The speed reference and its acceleration after one heat (R230). -/
def rampStepRef (wTgt wRef aRef accel decel jerk : Int) (heat : Nat) : Int × Int :=
  let t := secs heat
  let e := satQ (wTgt - wRef)
  let aMax := if (0 < e ∧ 0 ≤ wRef) ∨ (e < 0 ∧ wRef ≤ 0) then accel else decel
  let dStop := rq (qr aRef * qr |aRef| * t / (2 * qr jerk))
  let aDes := if 0 < e - dStop then aMax else if e - dStop < 0 then -aMax else 0
  let a1 := satQ (aRef + qsatV (satQ (aDes - aRef)) jerk)
  let wNew := rq (qr wRef + qr a1 * t)
  if e ≠ 0 ∧ (wTgt - wNew) * e ≤ 0 then (wTgt, 0) else (wNew, a1)

/-- The saturations of R230 in one heat (R176), of its roundings in their order. -/
def rampHits (wTgt wRef aRef accel decel jerk : Int) (heat : Nat) : Nat :=
  let t := secs heat
  let e := satQ (wTgt - wRef)
  let aMax := if (0 < e ∧ 0 ≤ wRef) ∨ (e < 0 ∧ wRef ≤ 0) then accel else decel
  let stop := qr aRef * qr |aRef| * t / (2 * qr jerk)
  let aDes := if 0 < e - rq stop then aMax else if e - rq stop < 0 then -aMax else 0
  let a := qr aRef + qr (qsatV (satQ (aDes - aRef)) jerk)
  hitsOf [qr wTgt - qr wRef, stop, qr aDes - qr aRef, a, qr wRef + qr (rq a) * t]

/-- The torque reference and the integrator of the speed regulator (R231). -/
def speedReg (kp ki inertia tMax wRef wMeas aRef xW : Int) : Int × Int :=
  let eW := satQ (wRef - wMeas)
  let raw := rq (qr kp * qr eW + qr xW + qr inertia * qr aRef)
  let t := qsatV raw tMax
  (t, if raw = t ∨ raw * eW < 0 then qsatV (rq (qr xW + qr ki * qr eW)) tMax else xW)

/-- The saturations of R231 in one heat (R176). -/
def regHits (kp ki inertia tMax wRef wMeas aRef xW : Int) : Nat :=
  let eW := satQ (wRef - wMeas)
  let raw := qr kp * qr eW + qr xW + qr inertia * qr aRef
  hitsOf ([qr wRef - qr wMeas, raw] ++
    if rq raw = qsatV (rq raw) tMax ∨ rq raw * eW < 0 then [qr xW + qr ki * qr eW] else [])

/-- The speed section in one heat (R230 to R232): its loop and the torque reference it commits. DESIGN CHOICE (log 80): while the
channel is in ASC, for which R232 has no row, it computes as in RUN. -/
def Lane.speedSection (l : Lane) (ch : Nat) (s : SteerLoop) : SteerLoop × Int :=
  let wMeas := l.q (R.MC_SPEED ch)
  let st := l.mcState ch
  if st = mcCatch ∨ st = mcPulse ∨ st = mcFault then ({ s with wRef := wMeas, aRef := 0, xW := 0 }, 0)
  else
    let tgt := qsatV s.wTgt (l.q (R.MC_SPD_MAX ch))
    let (wRef, aRef) := rampStepRef tgt s.wRef s.aRef (l.q (R.MC_ACCEL ch)) (l.q (R.MC_DECEL ch)) (l.q (R.MC_JERK_T ch))
      l.heatLen
    let (t, xW) := speedReg (l.q (R.MC_SPD_KP ch)) (l.q (R.MC_SPD_KI_T ch)) (l.q (R.MC_INERTIA ch)) (l.q (R.MC_T_MAX ch))
      wRef wMeas aRef s.xW
    ({ s with wRef := wRef, aRef := aRef, xW := xW }, t)

/-- A signed turn32 limit from its 16 upper bits (R234). -/
def limit16 (v : Nat) : Int := (BitVec.ofNat 16 v).toInt * 65536

/-- The saturations of the speed section in one heat (R176, R230, R231). -/
def Lane.speedHits (l : Lane) (ch : Nat) (s : SteerLoop) : Nat :=
  let wMeas := l.q (R.MC_SPEED ch)
  let st := l.mcState ch
  if st = mcCatch ∨ st = mcPulse ∨ st = mcFault then 0
  else
    let tgt := qsatV s.wTgt (l.q (R.MC_SPD_MAX ch))
    let (wRef, aRef) := rampStepRef tgt s.wRef s.aRef (l.q (R.MC_ACCEL ch)) (l.q (R.MC_DECEL ch)) (l.q (R.MC_JERK_T ch)) l.heatLen
    rampHits tgt s.wRef s.aRef (l.q (R.MC_ACCEL ch)) (l.q (R.MC_DECEL ch)) (l.q (R.MC_JERK_T ch)) l.heatLen +
      regHits (l.q (R.MC_SPD_KP ch)) (l.q (R.MC_SPD_KI_T ch)) (l.q (R.MC_INERTIA ch)) (l.q (R.MC_T_MAX ch)) wRef wMeas aRef s.xW

/-- The angle section in an angle heat (R233): the commanded angle moves towards the demand within the rate limit; the answer
is the commanded angle and the road-wheel speed w_rw. -/
def Lane.angleStep (l : Lane) (ch : Nat) (cmd0 dem : Word) (rate : Int) (thRw : Word) : Word × Int :=
  let ta := 4 * secs l.heatLen
  let d := clampInt (limit16 (l.get (R.MC_ANG_LIMITS_ang_min ch))) (limit16 (l.get (R.MC_ANG_LIMITS_ang_max ch))) dem.toInt
  let rMax := l.q (R.MC_RATE_MAX ch)
  let r := min rate rMax
  let lim := rq (qr r * ta)
  let step := qsatV (turnToRad (BitVec.ofInt 32 (d - cmd0.toInt)).toInt) lim
  let cmd := cmd0 + turnsOf (qr step)
  let eA := turnToRad (sdiff cmd thRw)
  (cmd, qsatV (rq (l.par (R.MC_ANG_KP ch) * qr eA + qr step / ta)) rMax)

/-- The saturations of the angle section in an angle heat (R176, R233), to the road-wheel speed it gives. -/
def Lane.angleHits (l : Lane) (ch : Nat) (cmd0 dem : Word) (rate : Int) (thRw : Word) : Nat :=
  let ta := 4 * secs l.heatLen
  let d := clampInt (limit16 (l.get (R.MC_ANG_LIMITS_ang_min ch))) (limit16 (l.get (R.MC_ANG_LIMITS_ang_max ch))) dem.toInt
  let r := min rate (l.q (R.MC_RATE_MAX ch))
  let step := qsatV (turnToRad (BitVec.ofInt 32 (d - cmd0.toInt)).toInt) (rq (qr r * ta))
  let eA := turnToRad (sdiff (cmd0 + turnsOf (qr step)) thRw)
  hitsOf [qr r * ta, l.par (R.MC_ANG_KP ch) * qr eA + qr step / ta]

/-- The angle section with the motor speed target that follows (R233). -/
def Lane.angleSection (l : Lane) (ch : Nat) (s : SteerLoop) (dem : Word) (rate : Int) (thRw : Word) : SteerLoop :=
  let (cmd, wRw) := l.angleStep ch s.thCmd dem rate thRw
  { s with thCmd := cmd, wTgt := rq (l.par (R.MC_GEAR ch) * qr wRw) }

/-! ### The commands -/

/-- An event on a motor channel or power stage of a lane; one that the member does not have has no events. -/
def onMotor (ln : LaneId) (ch : Fin 2) (f : Ctx → Lane → Lane) (s : State) : Answer :=
  onAlive ln (fun c l => if ch.val < motorCount c.part.member then f c l else l) s

/-- A register write at a motor channel or power stage; at one that the member does not have it is a bus error (R8). -/
def writeMotor (ln : LaneId) (ch : Fin 2) (f : Ctx → Lane → Lane) (s : State) : Answer :=
  onAlive ln (fun c l =>
    if ch.val < motorCount c.part.member then { f c l with bus := .done } else { l with bus := .error }) s

/-- How many winding sets of the same motor in other lanes are in active short circuit (R215). -/
def State.setsShorted (s : State) (ln : LaneId) (ch : Fin 2) : Nat :=
  ((othersOf (s.ctx ln)).filter (fun x => (s.lane x).bit (R.PS_STATUS_asc ch.val))).length

/-- CURRENT_SAMPLE. -/
def execCurrentSample (ln : LaneId) (ch : Fin 2) (m : PwmSample) (s : State) : Answer :=
  onMotor ln ch (fun c l => currentSampleL c ch (s.setsShorted ln ch) m l) s

/-- CHANNEL_ENABLE. -/
def execChannelEnable (ln : LaneId) (ch : Fin 2) (on : Bool) (s : State) : Answer :=
  onMotor ln ch (fun c l => channelEnableL c ch on l) s

/-- CATCH_WINDOW_EXPIRY. -/
def execCatchWindowExpiry (ln : LaneId) (ch : Fin 2) (s : State) : Answer :=
  onMotor ln ch (fun c l => catchWindowExpiryL c ch l) s

/-- PULSE_TEST_DONE. -/
def execPulseTestDone (ln : LaneId) (ch : Fin 2) (currents : List W40) (gapSpeed : W40) (s : State) : Answer :=
  onMotor ln ch (fun c l => pulseTestDoneL c ch currents gapSpeed l) s

/-- RELOCK_TIMEOUT. -/
def execRelockTimeout (ln : LaneId) (ch : Fin 2) (s : State) : Answer :=
  onMotor ln ch (fun c l => relockTimeoutL c ch l) s

/-- OBS_ENV_WRITE. -/
def execObsEnvWrite (ln : LaneId) (ch : Fin 2) (value : Word) (s : State) : Answer :=
  writeMotor ln ch (fun _ l => obsEnvWriteL ch value l) s

end Sys2Proof.Machine
end

