-- ==== Sys2Proof/Machine/Brake.lean ====
section
/-! DEFINITION. Steering, feel and brake functions (R263 to R294): demands and the drive permit, the library steering, feel
and brake legs, solenoid drivers, the park brake, starvation and standstill, and the module status. -/

namespace Sys2Proof.Machine

/-! ### Demands (R263 to R271) -/

/-- The words of the demand in force. -/
def Lane.dem (l : Lane) : List Word := l.demand

/-- The mode code of the demand in force; 0 none. -/
def Lane.demInForce (l : Lane) : Nat := l.get R.BK_STATUS_mode

/-- The module is engaged (R270). -/
def Lane.engaged (l : Lane) : Bool := l.bit R.BK_STATUS_engaged

/-- The drive permit is set: while engaged, and in STOP and STARVATION until it is cleared (R271). -/
def Lane.permitted (l : Lane) : Bool := l.engaged || l.bit R.BK_STATUS_permit

/-- The curvature of a demand, clamped (R265). -/
def Lane.kappa (l : Lane) (ws : List Word) : Int := qsatV (qAt ws 4) l.image.lib.kappaMax

/-- The angle demanded of an axle before clamping, by angle or by curvature (R272, R273). -/
def Lane.wantAngle (l : Lane) (ws : List Word) (axle : Nat) : Word :=
  let lib := l.image.lib
  if demCurved ws then
    (catan qOne (rq (qr ((lib.bases[axle]?).getD 0) * qr (l.kappa ws)))).2
  else
    let a := wordAt ws 1
    if axle = 0 then a else BitVec.ofInt 32 (nearest (qr lib.axle1Gain * (a.toInt : Rat)))

/-- A road-wheel angle lies outside the limits of an axle (R233, R265). -/
def Lane.offLimits (l : Lane) (axle : Nat) (a : Word) : Bool :=
  decide (a.toInt < limit16 (l.get (R.MC_ANG_LIMITS_ang_min axle))) || decide (limit16 (l.get (R.MC_ANG_LIMITS_ang_max axle)) < a.toInt)

/-- The axles that the module steers. -/
def Lane.axles (l : Lane) : List Nat := if l.image.lib.axle1 then [0, 1] else [0]

/-- Whether a demand's steering target is clamped (R265): its curvature, or the angle that it or its curvature gives an axle. Only the
mode that steers by the demand has such a target (R269); the one of FEEL is clamped as it is followed. -/
def Lane.demClamped (l : Lane) (ws : List Word) : Bool :=
  decide (demMode ws = 1) && ((demCurved ws && decide (l.kappa ws ≠ qAt ws 4)) ||
    l.axles.any (fun x => l.offLimits x (l.wantAngle ws x)))

/-- The words of a demand are the ones in force (R78, R266), with its mode and attributes shown. -/
def Lane.showDemand (l : Lane) (ws : List Word) : Lane :=
  let w0 := (wordAt ws 0).toNat
  ({ l with demand := ws }.put R.BK_STATUS_mode (w0 % 16)).wr R.BK_DEMAND
    (BitVec.ofNat 32 ((l.rd R.BK_DEMAND).toNat / 65536 * 65536 + w0 % 128))

/-- A demand comes into force (R266): its fields are shown. -/
def Lane.putInForce (l : Lane) (r : DemandRec) : Lane :=
  let w0 := (wordAt r.words 0).toNat
  let l1 := (({ l with demand := r.words }.put R.BK_STATUS_mode (w0 % 16)).wr R.BK_DEMAND
    (BitVec.ofNat 32 (r.seq * 65536 + w0 % 128)))
  l1.flagIf (l.demClamped r.words) R.BK_FLAGS_target_clamped

/-- The drive permit is set (R271), and the active lane's stages are on. -/
def Lane.grant (c : Ctx) (l : Lane) : Lane :=
  let l1 := l.put R.BK_STATUS_permit 1
  if l1.active then { ((l1.stagesOn (handedMask c.part.member)).startRamp c).slotsAnew c with refresh := true } else l1

/-- The module is engaged (R270, R271), with the permit. -/
def Lane.engage (c : Ctx) (l : Lane) : Lane := (l.put R.BK_STATUS_engaged 1).grant c

/-- A deceleration begins, or the one that ran ends (R268): while the speed is unknown, standstill is to be found anew where the park brake
is released or is being released. -/
def Lane.beginDecel (l : Lane) (at_ : Option Nat) : Lane :=
  { l with bk := { l.bk with decelAt := at_,
                             still := l.bk.still && (l.bit R.BK_STATUS_speed_valid ||
                               (decide (l.get R.BK_PARK_state ≠ 1) && decide (l.get R.BK_PARK_state ≠ 2))) } }

/-- A demand that the module accepts while engaged or to engage (R269, R289): PARK moves a failed park brake to APPLIED. -/
def Lane.acceptDemand (c : Ctx) (l : Lane) (r : DemandRec) : Lane :=
  let l1 := l.putInForce r
  let m := demMode r.words
  let l2 := if m = 1 then l1.engage c else l1
  if m = 3 then
    let l3 := if l2.get R.BK_PARK_state = 4 then l2.setPark c 0 else l2
    if l.demInForce = 3 ∧ l3.bk.decelAt.isSome = true then l3 else l3.beginDecel (some c.now)
  else if l2.bk.decelAt.isSome then l2.beginDecel none else l2

/-- A demand refused (R270). -/
def Lane.refuseDemand (l : Lane) : Lane := l.flag R.BK_FLAGS_demand_refused

/-- Starvation ends (R129): the mode follows the counted faults. -/
def Lane.endStarvation (c : Ctx) (l : Lane) : Lane :=
  ({ l with fc := { l.fc with starving := false }, bk := { l.bk with zeroAt := none, decelAt := none } }.put
    R.BK_STATUS_step 0).remode c

/-- The brake part of a demand for a higher deceleration, which STOP accepts (R127). -/
def Lane.harderBrake (l : Lane) (ws : List Word) : Lane :=
  if demPressure ws = false ∧ l.q R.BK_DECEL < qAt ws 6 then
    let w0 := wordAt l.demand 0
    { l with demand := (w0 &&& ~~~0x20#32) :: ((l.demand ++ List.replicate (12 - l.demand.length) 0).drop 1).take 5 ++
        [wordAt ws 6, wordAt ws 7, 0, 0] ++ (l.demand ++ List.replicate (12 - l.demand.length) 0).drop 10 }
  else l

/-- A demand assigned to this heat acts (R127, R129, R131, R269, R270, R446, R535). -/
def Lane.applyDemand (c : Ctx) (l : Lane) (r : DemandRec) : Lane :=
  let m := demMode r.words
  let l0 := { l with bk := { l.bk with seen := true, seenStamp := r.stamp, ageWas := 0 } }
  let mode := l0.get R.FC_MODE_mode
  if !l0.st.ready then l0.refuseDemand
  else if l0.get R.PW_STATUS_state ≠ 0 then (if m = 1 then l0.refuseDemand else l0)
  else if mode = 6 then l0.refuseDemand
  else if mode = 4 then (if m = 1 then l0.refuseDemand else if l0.engaged then l0.harderBrake r.words else l0.refuseDemand)
  else if l0.fc.starving then
    if l0.get R.BK_STATUS_step = 1 then
      let l1 := l0.endStarvation c
      if l1.get R.FC_MODE_mode = 4 then l1.harderBrake r.words else l1.acceptDemand c r
    else if !l0.parked then l0
    else if m = 1 ∧ 10 ≤ l0.bk.validRun then (l0.endStarvation c).acceptDemand c r
    else if m = 1 ∨ l0.engaged = false then l0.refuseDemand
    else l0
  else if l0.engaged ∨ m = 1 then l0.acceptDemand c r
  else l0.refuseDemand

/-- A demand has not outlived the maximum age of its connection (R2, R266). -/
def Lane.inAge (l : Lane) (r : DemandRec) : Bool :=
  decide (sdiff l.stamp r.stamp ≤ ((l.rd (R.SE_Cc_MAX_AGE l.image.lib.demandConn)).toNat : Int))

/-- The freeze point of a waiting demand has come (R53), by TM_NOW. -/
def Lane.isDue (l : Lane) (r : DemandRec) : Bool := decide (0 ≤ sdiff l.stamp r.notBefore)

/-- The demands whose snapshot has come: the newest of them acts (R53, R266), but none older than its maximum age (R2). -/
def Lane.takeDemands (c : Ctx) (l : Lane) : Lane :=
  let due := l.bk.queue.filter (fun r => l.isDue r && l.inAge r)
  let l0 := { l with bk := { l.bk with queue := l.bk.queue.filter (fun r => !l.isDue r) } }
  match due.getLast? with
  | some r => l0.applyDemand c r
  | none => l0

/-- A demand of a mode that is due acts; another is left waiting. -/
def Lane.takeMode (c : Ctx) (l : Lane) (m : Nat) : Lane :=
  match (l.bk.queue.filter l.isDue).getLast? with
  | some r => if demMode r.words = m then l.takeDemands c else l
  | none => l

/-! ### Speed and standstill (R267, R268, R127) -/

/-- The stored speed is below the standstill speed. -/
def Lane.isSlow (l : Lane) (v : Int) : Bool := decide (|v| < l.q R.FC_STILL_SPEED)

/-- SPEED_RECEIVE (R267): the delivered record of the speed connection, where it marks its speed valid and is in age. -/
def speedReceiveL (c : Ctx) (l : Lane) : Lane :=
  let k := l.image.lib.speedConn
  let x := l.conn k
  let v := qAt x.payload 0
  if x.held && (wordAt x.payload 2).getLsbD 0 &&
      decide (sdiff l.stamp (l.rd (R.SE_Cc_STAMP k)) ≤ ((l.rd (R.SE_Cc_MAX_AGE k)).toNat : Int)) then
    let slow := l.isSlow v
    let from_ := if slow then some (l.bk.slowAt.getD c.now) else none
    let moved := if slow then l.bk.movingAt else some c.now
    let b := { l.bk with vLast := v, speedStamp := l.rd (R.SE_Cc_STAMP k), movingAt := moved, slowAt := from_, still := l.bk.still && slow }
    ({ l.putQ R.BK_SPEED v with bk := b }.put R.BK_STATUS_speed_valid 1).showParked c
  else l

/-- The park brake is applied, or begins to be (R289). -/
def Lane.parkHolds (l : Lane) : Bool := decide (l.get R.BK_PARK_state = 0) || decide (l.get R.BK_PARK_state = 3)

/-- SPEED_STALE (R267, R289): the last valid speed has exceeded its maximum age and is unknown; a machine whose park brake has not been
released in this power cycle counts as at standstill, and standstill known before is kept only where the park brake holds it. -/
def speedStaleL (c : Ctx) (l : Lane) : Lane :=
  let k := l.image.lib.speedConn
  if l.bit R.BK_STATUS_speed_valid = true ∧
      ((l.rd (R.SE_Cc_MAX_AGE k)).toNat : Int) < sdiff l.stamp l.bk.speedStamp then
    let l1 := ((l.putQ R.BK_SPEED 0).put R.BK_STATUS_speed_valid 0).flag R.BK_FLAGS_speed_stale
    { l1 with bk := { l1.bk with slowAt := none, still := (l1.bk.still && l1.parkHolds) || !l1.bk.released } }.showParked c
  else l

/-- Whether standstill is reached (R127, R268). -/
def Lane.standing (c : Ctx) (l : Lane) : Bool :=
  let dwell := (l.rd R.FC_STILL_TIME).toNat
  if l.bit R.BK_STATUS_speed_valid then
    match l.bk.slowAt with
    | some t => decide (t + dwell ≤ c.now)
    | none => false
  else
    match l.bk.decelAt with
    | some t =>
      let a := l.q R.BK_DECEL
      let run := if a ≤ 0 then 0 else ((|l.bk.vLast| * 1000000000 + a - 1) / a).toNat
      decide (t + run + dwell ≤ c.now)
    | none => !l.bk.released

/-- STANDSTILL_CONFIRMED (R127, R128, R268): the machine is at standstill; a deceleration goes to its standstill step. -/
def standstillConfirmedL (c : Ctx) (l : Lane) : Lane :=
  if l.standing c then
    let l1 := { l with bk := { l.bk with still := true } }
    let l2 := if l1.get R.BK_STATUS_step = 2 then l1.put R.BK_STATUS_step 3 else l1
    l2.showParked c
  else l

/-- STARVATION_HOLD_END (R128): the hold time is over; the brakes decelerate, and D is counted where both channels are present
(R115, R116). -/
def starvationHoldEndL (c : Ctx) (l : Lane) : Lane :=
  match l.bk.zeroAt with
  | some t =>
    if l.fc.starving = true ∧ l.get R.BK_STATUS_step = 1 ∧ t + (l.rd R.FC_HOLD_TIME).toNat ≤ c.now then
      let l1 := (l.put R.BK_STATUS_step 2).beginDecel (some c.now)
      if l1.channelGone c .x || l1.channelGone c .y then l1 else l1.countNow c 0xB 3 0
    else l
  | none => l

/-- The spools of the steering circuit closed (R271, R291): s := 0. -/
def Lane.closeSpools (l : Lane) : Lane :=
  { l with ea := { l.ea with staged := l.ea.staged ++ l.image.lib.spools.map (fun p => (⟨0, .stepper p.1, 0⟩ : Staged)) } }

/-- ENGAGEMENT_END (R270, R271): 1 s after park is applied at standstill in PARK, STOP or STARVATION the engagement and the
permit end. -/
def engagementEndL (c : Ctx) (l : Lane) : Lane :=
  let mode := l.get R.FC_MODE_mode
  let ends := decide (l.demInForce = 3) || decide (mode = 4) || decide (mode = 5)
  match l.bk.parkedAt with
  | some t =>
    if l.permitted && ends && l.parked && decide (t + 1000000000 ≤ c.now) then (l.disengage.disableAll c).closeSpools else l
  | none => l

/-- TAKEOVER_REQ_CHANGE (R279). -/
def takeoverReqChangeL (c : Ctx) (on : Bool) (l : Lane) : Lane :=
  let past := fun (o : Option Nat) => match o with
    | some t => decide (t + 200000000 ≤ c.now)
    | none => false
  if on then
    (if !l.bk.takeover && past l.bk.overAt then { l with bk := { l.bk with takeover := true } }.flag R.BK_FLAGS_takeover_req else l)
  else if l.bk.takeover && past l.bk.underAt then { l with bk := { l.bk with takeover := false } } else l

/-! ### Park brake (R289, R290) -/

/-- The analog input of a role, where the image names one (R365). -/
def Lane.analogOf (l : Lane) (role : Nat) : Option Nat :=
  (List.range 8).find? (fun m => decide (l.get (R.SI_AIm_CFG_role m) = role) && decide (l.get (R.SI_AIm_CFG_mode m) ≠ 0))

/-- The latched value of the analog input of a role; 0 without one. -/
def Lane.pressure (l : Lane) (role : Nat) : Int :=
  match l.analogOf role with
  | some m => l.q (R.SI_AIm_VALUE m)
  | none => 0

/-- Whether a park transition by pressure or by time is due (R289). -/
def Lane.parkDue (c : Ctx) (l : Lane) : Bool :=
  if l.bit R.BK_PARK_sensor then
    match l.bk.parkSeen with
    | some t => decide (t + 100000000 ≤ c.now)
    | none => false
  else decide (l.bk.parkAt + l.image.lib.tRamp + 300000000 ≤ c.now)

/-- PARK_RELEASED (R289): with the brake released, a machine whose speed is unknown no longer counts as at standstill (R268, R290). -/
def parkReleasedL (c : Ctx) (l : Lane) : Lane :=
  if l.get R.BK_PARK_state = 1 ∧ l.parkDue c = true then
    let l1 := l.setPark c 2
    { l1 with bk := { l1.bk with released := true, still := l1.bk.still && l1.bit R.BK_STATUS_speed_valid } }
  else l

/-- PARK_RELEASE_FAIL (R289). -/
def parkReleaseFailL (c : Ctx) (l : Lane) : Lane :=
  if l.get R.BK_PARK_state = 1 ∧ l.bk.parkAt + l.image.lib.tRelMax ≤ c.now then l.setPark c 4 else l

/-- PARK_APPLY_START (R289, R290): at standstill only. -/
def parkApplyStartL (c : Ctx) (l : Lane) : Lane :=
  let mode := l.get R.FC_MODE_mode
  let wants := decide (l.demInForce = 3) || !l.bit R.BK_DEMAND_release_park ||
    ((decide (mode = 4) || decide (mode = 5)) && decide (l.get R.BK_STATUS_step = 3))
  if l.get R.BK_PARK_state = 2 ∧ l.bk.still = true ∧ wants = true then l.setPark c 3 else l

/-- PARK_APPLIED (R289). -/
def parkAppliedL (c : Ctx) (l : Lane) : Lane :=
  if l.get R.BK_PARK_state = 3 ∧ l.parkDue c = true then l.setPark c 0 else l

/-- PARK_RELEASE_START (R289): the conditions of a release, judged at each heat boundary. -/
def Lane.parkHeat (c : Ctx) (l : Lane) : Lane :=
  let lib := l.image.lib
  let m := l.demInForce
  let ready := (decide (m = 1) || decide (m = 4)) && l.bit R.BK_DEMAND_release_park && l.bit R.BK_STATUS_permit &&
    l.engaged && decide (l.get R.FC_MODE_mode ≤ 2) && l.bit R.BK_STATUS_speed_valid
  let held := (decide (lib.circuits < 1) || decide (lib.pHold0 ≤ l.pressure 2)) &&
    (decide (lib.circuits < 2) || decide (lib.pHold1 ≤ l.pressure 3))
  let l1 := if l.get R.BK_PARK_state = 0 ∧ ready = true ∧ held = true then (l.setPark c 1).inc R.BK_PARK_attempts else l
  let st := l1.get R.BK_PARK_state
  let p := l1.pressure 4
  let seen := (decide (st = 1) && decide (lib.pReleased < p)) || (decide (st = 3) && decide (p < lib.pApplied))
  let at_ := if seen then some (l1.bk.parkSeen.getD c.now) else none
  { l1 with bk := { l1.bk with parkSeen := at_ } }

/-- The reference of the park-release coil (R289). -/
def Lane.parkCoil (c : Ctx) (l : Lane) : Int :=
  let lib := l.image.lib
  let t := c.now - l.bk.parkAt
  let part := fun (x : Nat) => rq (qr lib.iRelease * mkRat x (max lib.tRamp 1))
  match l.get R.BK_PARK_state with
  | 1 => part (min t lib.tRamp)
  | 2 => lib.iRelease
  | 3 => part (lib.tRamp - min t lib.tRamp)
  | _ => 0

/-! ### The brake leg (R281, R282) -/

/-- The deceleration in force (R281). -/
def Lane.decelNow (l : Lane) : Int :=
  let ws := l.demand
  let own := if demPressure ws then 0 else qAt ws 6
  let mode := l.get R.FC_MODE_mode
  let step := l.get R.BK_STATUS_step
  if !l.permitted then 0
  else if mode = 4 then max (l.q R.FC_STOP_DECEL) own
  else if mode = 5 ∧ 2 ≤ step then max (l.q R.FC_STARVE_DECEL) own
  else if l.demInForce = 3 then max (l.q R.FC_STOP_DECEL) own
  else own

/-- A profile that stops the vehicle sets the brakes of its own (R281, R291). -/
def Lane.brakeStops (l : Lane) : Bool :=
  let mode := l.get R.FC_MODE_mode
  decide (mode = 4) || (decide (mode = 5) && decide (2 ≤ l.get R.BK_STATUS_step)) || decide (l.demInForce = 3)

/-- The saturations of the pressure reference of a circuit in one run (R176, R281). -/
def Lane.pRefHits (l : Lane) (i : Nat) : Nat :=
  let lib := l.image.lib
  let g := qr (if i = 0 then lib.gain0 else lib.gain1)
  hitsOf ((if demPressure l.demand then [] else [g * qr (qAt l.demand 6)]) ++
    if l.permitted && l.brakeStops && !l.bk.still then [g * qr l.decelNow] else [])

/-- The pressure reference of a circuit (R281, R291). -/
def Lane.pRef (c : Ctx) (l : Lane) (i : Nat) : Int :=
  let lib := l.image.lib
  let ws := l.demand
  let g := if i = 0 then lib.gain0 else lib.gain1
  let hold := if i = 0 then lib.pHold0 else lib.pHold1
  let top := if i = 0 then lib.pMax0 else lib.pMax1
  let own := if demPressure ws then qAt ws (6 + 2 * i) else rq (qr g * qr (qAt ws 6))
  let stops := l.brakeStops
  let applied := match l.bk.parkedAt with
    | some t => decide (t + 200000000 ≤ c.now)
    | none => false
  let p := if !l.permitted then 0
    else if stops && applied then 0
    else if stops && l.bk.still then hold
    else if stops then max (rq (qr g * qr l.decelNow)) own
    else if l.demInForce = 2 then max own hold
    else own
  clampInt 0 top p

/-- One run of the brake leg of a circuit: its loop and the coil reference (R282). -/
def Lane.brakeOut (c : Ctx) (l : Lane) (i : Nat) (b : BrakeLoop) : LegOut :=
  let lib := l.image.lib
  let p := l.pRef c i
  let e := satQ (p - l.pressure (2 + i))
  let xNew := qr b.x + qr lib.brakeKi * qr e
  let x := qsatV (rq xNew) lib.xMax
  let iNew := qr lib.ffA * qr p + qr lib.ffB + qr lib.brakeKp * qr e + qr x
  let iRef := qsatV (rq iNew) lib.iCoilMax
  let hits := hitsOf [qr p - qr (l.pressure (2 + i)), xNew, iNew] + l.pRefHits i
  let far := decide (lib.pTrackMax < |e|)
  let at_ := if far then some (b.errAt.getD c.now) else none
  let late := match at_ with
    | some t => decide (t + 500000000 ≤ c.now)
    | none => false
  if p = 0 then ⟨0, default, ⟨0, at_⟩, late, p, hits, true⟩ else ⟨iRef, default, ⟨x, at_⟩, late, p, hits, false⟩

/-- A word of the library staged: with 0 for the end of hurdle 0's window, with 8 for the early commit. -/
def Lane.stageAt (l : Lane) (h : Nat) (r : Route) (v : Int) : Lane :=
  { l with ea := { l.ea with staged := l.ea.staged ++ [⟨h, r, qw v⟩] } }

/-- The pressures that a driver of a circuit shows (R294), and its reference staged. -/
def Lane.stageCoil (l : Lane) (h role : Nat) (p v iRef : Int) : Nat → Lane
  | 0 => l
  | n + 1 =>
    let l1 := l.stageCoil h role p v iRef n
    if l1.get (R.BKn_CFG_role n) = role then
      ((l1.putQ (R.BKn_P_REF n) p).putQ (R.BKn_P_MEAS n) v).stageAt h (.solenoid n) iRef
    else l1

/-- Whether a heat of a count runs the 4 kHz loops (R282). -/
def Lane.brakeHeat (l : Lane) (count : Word) : Bool := decide (count.toNat % max (250000 / max l.heatLen 1) 1 = 0)

/-- The park-release coil of a heat (R289). -/
def Lane.parkLeg (c : Ctx) (l : Lane) : Lane :=
  if l.get (R.BKn_CFG_role (l.get R.BK_PARK_driver)) = 3 then
    l.stageAt 0 (.solenoid (l.get R.BK_PARK_driver)) (l.parkCoil c)
  else l

/-! ### Solenoid drivers (R283 to R288) -/

/-- The largest reference, 3.0 A. -/
def coilMax : Int := 3 * qOne

/-- The reference in force of a driver: the leg's value by the ramp share, in 0 to 3.0 A (R66, R283). -/
def Lane.showCoil (l : Lane) (n : Nat) : Lane :=
  let i := (tabGet l.bk.iLeg n).getD 0
  l.putQ (R.BKn_I_REF n) (clampInt 0 coilMax (rq (qr i * mkRat l.rampShare 100)))

/-- The dither period of a driver in ns (R284). -/
def Lane.ditherPeriod (l : Lane) (n : Nat) : Nat := (rnaDiv 1000000000 (l.get (R.BKn_CFG_dither_hz n))).toNat

/-- A triangle wave of amplitude 1 at a phase of 0 to 1. DESIGN CHOICE: R284 names the wave and its phase and not where in it
the phase is 0; it rises from 0 there (log 74). -/
def triangle (ph : Rat) : Rat := if ph < 1 / 4 then 4 * ph else if ph < 3 / 4 then 2 - 4 * ph else 4 * ph - 4

/-- The dither of a driver now in A (R284): its command at the phase of TM_NOW, 0 without dither. -/
def Lane.dither (l : Lane) (n : Nat) : Rat :=
  if l.get (R.BKn_CFG_dither_hz n) = 0 then 0
  else
    let t := l.ditherPeriod n
    mkRat (l.get (R.BKn_DITHER_a_cmd n)) 1000 * triangle (mkRat (l.stamp.toNat % t) t)

/-- What a driver regulates its mean coil current to, q40 A (R283): the leg's reference plus dither, by the share of R66, in 0
to 3.0 A; nothing while its stage is off. -/
def Lane.driverRef (l : Lane) (n : Nat) : Int :=
  if l.stageOn.getLsbD n then
    clampInt 0 coilMax (rq ((qr ((tabGet l.bk.iLeg n).getD 0) + l.dither n) * mkRat l.rampShare 100))
  else 0

/-- A committed coil reference (R283); a stage whose latch holds keeps the reference it has (R59). -/
def Lane.commitCoil (c : Ctx) (l : Lane) (n : Nat) (v : W40) : Lane :=
  if l.latchHold.getLsbD n then l
  else if n < solenoidCount c.part.member then { l with bk := { l.bk with iLeg := tabPut l.bk.iLeg n (qv v) } }.showCoil n else l

/-- The dither adaptation of a driver in a heat (R285, R513, R514), and its measured current (R294). A new envelope moves the dither
command of a driver whose latch does not hold; a held one dithers on at its amplitude (R59, R285). DESIGN CHOICE (log 85): an eighth of
the difference is rounded to the nearest mA, ties away from zero, and no fraction is kept. -/
def Lane.ditherHeat (l : Lane) (n : Nat) : Lane :=
  let l0 := (l.putQ (R.BKn_I_MEAS n) (qv (Config.coilCurrent n l.free))).draw
  let dithers := decide (l0.get (R.BKn_CFG_dither_hz n) ≠ 0)
  let run := dithers && !l0.latchHold.getLsbD n && l0.stageOn.getLsbD n && decide (l0.q (R.BKn_I_REF n) ≠ 0)
  let meas := if dithers then (Config.ripple n l0.free).toNat else 0
  let lm := (l0.put (R.BKn_DITHER_a_meas n) meas).draw
  let l1 := if run then
      let cmd : Int := lm.get (R.BKn_DITHER_a_cmd n)
      let raw := cmd + rnaDiv ((lm.get (R.BKn_DITHER_TGT_a_tgt n) : Int) - meas) 8
      let lo : Int := lm.get (R.BKn_DITHER_ENV_amp_lo n)
      let hi : Int := lm.get (R.BKn_DITHER_ENV_amp_hi n)
      let new := clampInt lo hi raw
      let pinned := decide (new ≠ raw)
      let la := (lm.put (R.BKn_DITHER_a_cmd n) new.toNat).putB (R.BKn_STATUS_pinned n) pinned
      if pinned then (la.flag R.BK_FLAGS_dither_conflict).inc (R.BKn_CONFLICT_count n) else la
    else lm
  match tabGet l1.staging (R.BKn_DITHER_ENV n) with
  | some w =>
    let l2 := { l1.wr (R.BKn_DITHER_ENV n) w with staging := tabDel l1.staging (R.BKn_DITHER_ENV n) }
    if l2.latchHold.getLsbD n then l2 else
    let cmd : Int := l2.get (R.BKn_DITHER_a_cmd n)
    l2.put (R.BKn_DITHER_a_cmd n) (clampInt (l2.get (R.BKn_DITHER_ENV_amp_lo n)) (l2.get (R.BKn_DITHER_ENV_amp_hi n)) cmd).toNat
  | none => l1

/-- Every driver of the member in a heat. -/
def Lane.coilsHeat (c : Ctx) (l : Lane) : Lane := (List.range (solenoidCount c.part.member)).foldl Lane.ditherHeat l

/-- DITHER_ENV_WRITE (R285, R514): a valid envelope is in force from the next heat boundary. -/
def ditherEnvWriteL (c : Ctx) (n : Fin 6) (value : Word) (l : Lane) : Lane :=
  if solenoidCount c.part.member ≤ n.val then { l with bus := .error }
  else
    let hi := value.toNat / 65536
    let lo := value.toNat % 65536
    let l0 := { l with bus := .done }
    if lo ≤ hi ∧ hi ≤ 500 then { l0 with staging := tabPut l0.staging (R.BKn_DITHER_ENV n.val) value } else l0

/-- A driver fault recorded (R286): its kind and stamp, its flag, and the driver off until the next power cycle. A driver already
faulty keeps its first. -/
def Lane.recordCoil (l : Lane) (n kind : Nat) : Lane :=
  if l.bit (R.BKn_STATUS_fault n) then l
  else
    let l1 := (((l.put (R.BKn_STATUS_fault n) 1).put (R.BKn_FAULT_valid n) 1).put (R.BKn_FAULT_kind n) kind).stampAt
      (R.BKn_FAULT_TIME n)
    (l1.flag (if kind = 1 then R.BK_FLAGS_short else R.BK_FLAGS_open_load)).stagesOff (BitVec.ofNat 32 (2 ^ n))

/-- A fault of a driver of some role (R286, R287): recorded, and for roles 1 to 3 a class 0x5 fault of the lane. -/
def Lane.coilFaultAs (c : Ctx) (l : Lane) (n kind role : Nat) : Lane :=
  if l.bit (R.BKn_STATUS_fault n) || decide (solenoidCount c.part.member ≤ n) then l
  else
    let l2 := l.recordCoil n kind
    if 1 ≤ role ∧ role ≤ 3 then l2.becomeUnfit c 0xC 5 n (.setOrCoil none) else l2

/-- A driver fault (R286, R287). -/
def Lane.coilFault (c : Ctx) (l : Lane) (n kind : Nat) : Lane := l.coilFaultAs c n kind (l.get (R.BKn_CFG_role n))

/-- A test of kind 3 on a driver of some role (R286): open load below 20 mA. -/
def Lane.coilTest (c : Ctx) (l : Lane) (n role : Nat) (current : W40) : Lane :=
  let l1 := { l with bk := { l.bk with lastTest := tabPut l.bk.lastTest n c.now } }
  if qr (qv current) < mkRat 20 1000 then (l1.put (R.BKn_STATUS_test_ok n) 0).coilFaultAs c n 3 role
  else l1.put (R.BKn_STATUS_test_ok n) 1

/-- SOLENOID_FAULT (R286 to R288): open-load detection is suspended while the latch holds. -/
def solenoidFaultL (c : Ctx) (n : Fin 6) (kind : Fin 4) (l : Lane) : Lane :=
  if kind.val = 0 ∨ (2 ≤ kind.val ∧ l.latchHold.getLsbD n.val = true) then l else l.coilFault c n.val kind.val

/-- SOLENOID_OPEN_TEST (R286): a standby lane tests each driver in use every 1 s. -/
def solenoidOpenTestL (c : Ctx) (n : Fin 6) (current : W40) (l : Lane) : Lane :=
  let i := n.val
  let due := match tabGet l.bk.lastTest i with
    | some t => decide (t + 1000000000 ≤ c.now)
    | none => true
  if l.standby && due && decide (l.get (R.BKn_CFG_role i) ≠ 0) && !l.bit (R.BKn_STATUS_fault i) &&
      decide (i < solenoidCount c.part.member) then
    l.coilTest c i (l.get (R.BKn_CFG_role i)) current
  else l

/-! ### Steering and feel (R272 to R280, R291, R292) -/

/-- The hand-wheel angle in rad (R276). -/
def Lane.thHw (l : Lane) : Int := l.q (R.AFn_ANGLE_RAD 1)

/-- The target and rate limit of an axle in this heat (R269, R272 to R274, R278, R291, R292). -/
def Lane.steerTarget (l : Lane) (axle : Nat) (cmd : Word) : Word × Int :=
  let lib := l.image.lib
  let ws := l.demand
  let rd := qAt ws 2
  let rate := if axle = 0 ∨ demCurved ws then rd else rq (|qr lib.axle1Gain| * qr rd)
  let m := l.demInForce
  if l.fc.starving && decide (2 ≤ l.get R.BK_STATUS_step) && l.bit R.FC_PROFILE_CFG_steer_straight then
    (0, l.q (R.MC_RATE_MAX axle))
  else if m = 4 then
    if l.wheelLost then (cmd, rate)
    else
      let th := turnsOf (qr lib.ratio * qr l.thHw)
      (if axle = 0 then th else BitVec.ofInt 32 (nearest (qr lib.axle1Gain * (th.toInt : Rat))), rate)
  else if m = 1 then (l.wantAngle ws axle, rate)
  else (cmd, rate)

/-- Angle heats have a heat count that is a multiple of four (R52). -/
def Lane.angleHeatNow (l : Lane) : Bool := decide ((l.rd R.EA_HEAT_CNT).toNat % 4 = 0)

/-- In STOP with the angle of an axle lost, its motor holds the rotor position that the observer reports (R127). -/
def Lane.holdsRotor (l : Lane) (ch : Nat) : Bool := decide (l.get R.FC_MODE_mode = 4) && l.angleLost ch

/-- The rotor position to hold is the one at which the hold began; without it none is kept. -/
def Lane.noteRotor (l : Lane) (ch : Nat) : Lane :=
  if l.holdsRotor ch then
    (if (tabGet l.bk.rotorHold ch).isSome then l
     else { l with bk := { l.bk with rotorHold := tabPut l.bk.rotorHold ch (l.rd (R.MC_ANGLE ch)) } })
  else { l with bk := { l.bk with rotorHold := tabDel l.bk.rotorHold ch } }

/-- The motor speed target that holds the rotor (R127). DESIGN CHOICE (log 31): the spec gives this hold no loop; the angle loop of
R233 runs on the rotor's travel from the held position, taken to the road wheel. -/
def Lane.rotorSection (l : Lane) (ch : Nat) (s : SteerLoop) : SteerLoop :=
  let away := turnToRad (sdiff ((tabGet l.bk.rotorHold ch).getD 0) (l.rd (R.MC_ANGLE ch)))
  let e := rq (qr away / ((l.get (R.MC_CFG_pole_pairs ch) : Int) * l.par (R.MC_GEAR ch)))
  { s with wTgt := rq (l.par (R.MC_GEAR ch) * qr (qsatV (rq (l.par (R.MC_ANG_KP ch) * qr e)) (l.q (R.MC_RATE_MAX ch)))) }

/-- One run of the library steering leg of an electric axle (R198); a target followed in FEEL that the limits clamp is reported
(R265). -/
def Lane.steerOut (l : Lane) (ch : Nat) (s0 : SteerLoop) : LegOut :=
  let (d, r) := l.steerTarget ch s0.thCmd
  let s1 := if !l.angleHeatNow then s0
    else if l.holdsRotor ch then l.rotorSection ch s0
    else l.angleSection ch s0 d r (l.rd (R.AFn_ANGLE ch))
  let angle := if l.angleHeatNow && !l.holdsRotor ch then
      l.angleHits ch s0.thCmd d r (l.rd (R.AFn_ANGLE ch)) +
        hitsOf [l.par (R.MC_GEAR ch) * qr (l.angleStep ch s0.thCmd d r (l.rd (R.AFn_ANGLE ch))).2]
    else 0
  let (s2, t) := l.speedSection ch s1
  ⟨t, s2, default, l.angleHeatNow && decide (l.demInForce = 4) && l.offLimits ch d, 0, angle + l.speedHits ch s1, false⟩

/-- The spools of a hydraulic axle are held closed (R275, R291): while not engaged, in STOP, and from standstill on in STARVATION and
PARK. -/
def Lane.spoolsShut (l : Lane) : Bool :=
  !l.engaged || decide (l.get R.FC_MODE_mode = 4) || decide (l.get R.BK_STATUS_step = 3) ||
    (decide (l.demInForce = 3) && l.bk.still)

/-- One run of the library steering leg of a hydraulic axle (R198, R275): the angle section in angle heats, and the spool target of
the road-wheel speed w_rw of the last one, which its state holds in place of a motor speed target. -/
def Lane.spoolOut (l : Lane) (s0 : SteerLoop) : LegOut :=
  let lib := l.image.lib
  if l.spoolsShut then ⟨0, { s0 with wTgt := 0 }, default, false, 0, 0, true⟩
  else
    let (d, r) := l.steerTarget 0 s0.thCmd
    let (cmd, w) := if l.angleHeatNow then l.angleStep 0 s0.thCmd d r (l.rd (R.AFn_ANGLE 0)) else (s0.thCmd, s0.wTgt)
    let angle := if l.angleHeatNow then l.angleHits 0 s0.thCmd d r (l.rd (R.AFn_ANGLE 0)) else 0
    ⟨qsatV (rq (qr lib.spoolGain * qr w)) lib.spoolMax, { s0 with thCmd := cmd, wTgt := w }, default,
      l.angleHeatNow && decide (l.demInForce = 4) && l.offLimits 0 d, 0, angle + hitsOf [qr lib.spoolGain * qr w], false⟩

/-- e_t of R277 in rad. -/
def Lane.feelError (l : Lane) : Int := rq (qr l.thHw - qr (l.q (R.AFn_ANGLE_RAD 0)) / qr l.image.lib.ratio)

/-- The torque reference of the feel leg (R277). -/
def Lane.feelTorque (l : Lane) : Int :=
  let lib := l.image.lib
  let e := qr l.feelError
  let w := qr (l.q (R.AFn_SPEED_RAD 1))
  let th := qr l.thHw
  let off := qr (qAt l.demand 10)
  let t0 := if l.demInForce = 4 then rq (-(qr lib.kSpr) * e - qr lib.kDmp * w - qr lib.kCtr * th + off)
    else rq (-(qr lib.kFol) * e - qr lib.kDmp * w + off)
  let hi := rq (radOf (limit16 (l.get (R.MC_ANG_LIMITS_ang_max 0))) / qr lib.ratio)
  let lo := rq (radOf (limit16 (l.get (R.MC_ANG_LIMITS_ang_min 0))) / qr lib.ratio)
  let t1 := if hi < l.thHw then rq (qr t0 - qr lib.kEnd * qr (l.thHw - hi))
    else if l.thHw < lo then rq (qr t0 - qr lib.kEnd * qr (l.thHw - lo)) else t0
  qsatV t1 lib.tFeelMax

/-- The saturations of a run of the feel leg (R176, R277). -/
def Lane.feelHits (l : Lane) : Nat :=
  let lib := l.image.lib
  let e := qr l.feelError
  let w := qr (l.q (R.AFn_SPEED_RAD 1))
  let th := qr l.thHw
  let off := qr (qAt l.demand 10)
  let t0 := if l.demInForce = 4 then -(qr lib.kSpr) * e - qr lib.kDmp * w - qr lib.kCtr * th + off
    else -(qr lib.kFol) * e - qr lib.kDmp * w + off
  let hi := radOf (limit16 (l.get (R.MC_ANG_LIMITS_ang_max 0))) / qr lib.ratio
  let lo := radOf (limit16 (l.get (R.MC_ANG_LIMITS_ang_min 0))) / qr lib.ratio
  let past := if qr (rq hi) < th then qr (l.thHw - rq hi) else if th < qr (rq lo) then qr (l.thHw - rq lo) else 0
  hitsOf [th - qr (l.q (R.AFn_ANGLE_RAD 0)) / qr lib.ratio, t0, hi, lo, qr (rq t0) - qr lib.kEnd * past]

/-- What the feel leg reports in a heat (R279, R280): how long e_t has been far or near, and that the hand wheel is driven. -/
def Lane.feelHeat (c : Ctx) (l : Lane) : Lane :=
  let lib := l.image.lib
  let e := |l.feelError|
  let keep := fun (b : Bool) (o : Option Nat) => if b then some (o.getD c.now) else none
  let far := decide (l.demInForce ≠ 4) && decide (lib.eOvr < e)
  let near := decide (2 * e < lib.eOvr)
  { l with bk := { l.bk with overAt := keep far l.bk.overAt, underAt := keep near l.bk.underAt } }.putB
    R.BK_STATUS_feel_active (decide (l.mcState 1 = mcRun))

/-! ### The legs of the library (R198, R276, R282) -/

/-- The legs of the library that a heat of a count runs: 0 and 1 steer or give feel by motor channel, leg 0 by the spools on a
hydraulic axle; 2 and 3 brake by circuit. -/
def Lane.libLegs (c : Ctx) (l : Lane) (count : Word) : List Nat :=
  let lib := l.image.lib
  [0] ++ (if isTriple c.part.member && (lib.handWheel || lib.axle1) then [1] else []) ++
    (if l.brakeHeat count then (List.range (min lib.circuits 2)).map (· + 2) else [])

/-- Leg 1 gives feel on a module with a hand wheel. -/
def Lane.isFeel (l : Lane) (k : Nat) : Bool := decide (k = 1) && l.image.lib.handWheel

/-- The state of a leg of the library as it stands committed. -/
def Lane.libState (l : Lane) (k : Nat) : SteerLoop × BrakeLoop :=
  ((l.mc k).steer, if k = 2 then l.bk.loop0 else l.bk.loop1)

/-- One run of a leg of the library on the lane's registers, from a state. -/
def Lane.legOut (c : Ctx) (l : Lane) (k : Nat) (s : SteerLoop × BrakeLoop) : LegOut :=
  if l.isFeel k then ⟨l.feelTorque, s.1, s.2, false, 0, l.feelHits, false⟩
  else if k = 0 ∧ l.image.lib.hydraulic = true then l.spoolOut s.1
  else if k < 2 then l.steerOut k s.1
  else l.brakeOut c (k - 2) s.2

/-- The end of a run of a leg of the library under its leg ID (R149, R167, R191): its end code and its saturations. A leg of the library
has no home in the model (log 31). -/
def Lane.noteLib (l : Lane) (k endCode sat : Nat) : Lane :=
  match l.image.lib.legIds[k]? with
  | some id =>
    let r := l.leg id
    l.setLeg id { r with home := 255, consecutive := 0, lastEnd := endCode, satTotal := min (r.satTotal + sat) 0xFFFFFFFF }
  | none => l

/-- A run of a leg of the library is committed with a hurdle and an end code: its state, its reference staged, and what it reports. -/
def Lane.takeOut (c : Ctx) (l0 : Lane) (h k endCode : Nat) (o : LegOut) : Lane :=
  let l := l0.noteLib k endCode o.sat
  if l.isFeel k then l.stageAt h (.torque k) o.out
  else if k = 0 ∧ l.image.lib.hydraulic = true then
    (l.image.lib.spools.foldl (fun y p => y.stageAt h (.stepper p.1) o.out) (l.setMc 0 { l.mc 0 with steer := o.steer })).flagIf
      o.report R.BK_FLAGS_target_clamped
  else if k < 2 then
    ((l.setMc k { l.mc k with steer := o.steer }).stageAt h (.torque k) o.out).flagIf o.report R.BK_FLAGS_target_clamped
  else
    let l1 := { l with bk := if k = 2 then { l.bk with loop0 := o.loop } else { l.bk with loop1 := o.loop } }
    (l1.stageCoil h (k - 1) o.pRef (l.pressure k) o.out (solenoidCount c.part.member)).flagIf o.report R.BK_FLAGS_p_track

/-- The inputs of a leg of the library that R157 predicts: the angle and rotor of a steering leg, the hand wheel of the feel leg, the
pressure of a brake leg. -/
def Lane.libInputs (l : Lane) (k : Nat) : List PredKind :=
  if l.isFeel k then [.angleRad 1, .speedRad 1, .angleRad 0]
  else if k = 0 ∧ l.image.lib.hydraulic = true then [.angleTurn 0]
  else if k < 2 then [.angleTurn k, .rotorAngle k, .rotorSpeed k]
  else match l.analogOf k with
    | some m => [.analog m]
    | none => []

/-- A predictable input as the lane has it latched. -/
def Lane.inputNow (l : Lane) : PredKind → W40
  | .rotorAngle ch => (l.rd (R.MC_ANGLE ch)).setWidth 40
  | .rotorSpeed ch => l.pair (R.MC_SPEED ch)
  | .position n => l.pair (R.AFn_POS_HEAT n)
  | .angleTurn n => (l.rd (R.AFn_ANGLE n)).setWidth 40
  | .angleRad n => l.pair (R.AFn_ANGLE_RAD n)
  | .speedRad n => l.pair (R.AFn_SPEED_RAD n)
  | .speedCps n => (l.rd (R.AFn_SPEED_CPS n)).setWidth 40
  | .analog m => l.pair (R.SI_AIm_VALUE m)

/-- The lane with another value of a predictable input, for a run on predictions. -/
def Lane.withInput (l : Lane) (k : PredKind) (v : W40) : Lane :=
  match k with
  | .rotorAngle ch => l.wr (R.MC_ANGLE ch) (v.setWidth 32)
  | .rotorSpeed ch => l.putQ (R.MC_SPEED ch) (qv v)
  | .position n => l.putU (R.AFn_POS_HEAT n) v.toNat
  | .angleTurn n => l.wr (R.AFn_ANGLE n) (v.setWidth 32)
  | .angleRad n => l.putQ (R.AFn_ANGLE_RAD n) (qv v)
  | .speedRad n => l.putQ (R.AFn_SPEED_RAD n) (qv v)
  | .speedCps n => l.wr (R.AFn_SPEED_CPS n) (v.setWidth 32)
  | .analog m => l.putQ (R.SI_AIm_VALUE m) (qv v)

/-! ### The heat boundary (R128, R266) -/

/-- An age in ns that saturates, from the signed difference of the stamps (R14) and the age shown before: a stamp still ahead counts as
age 0, and an age beyond the reach of the signed difference goes on as the unsigned one until it saturates. -/
def ageFrom (was : Nat) (s : Int) : Nat :=
  if was = 0xFFFFFFFF then 0xFFFFFFFF
  else if 0 ≤ s then (if was < 2 ^ 31 then s.toNat else 0xFFFFFFFF)
  else if 2 ^ 30 ≤ was then (s + 2 ^ 32).toNat
  else 0

/-- The age of the demand in force at this boundary (R266). -/
def Lane.demAge (l : Lane) : Nat :=
  if l.bk.seen then ageFrom l.bk.ageWas (sdiff l.stamp l.bk.seenStamp) else 0xFFFFFFFF

/-- The machine has been parked for 1 s (R270, R271). -/
def Lane.parkedLong (c : Ctx) (l : Lane) : Bool :=
  l.parked && match l.bk.parkedAt with
    | some t => decide (t + 1000000000 ≤ c.now)
    | none => false

/-- Ages, the start of starvation and of the deceleration in STOP at a heat boundary (R127, R128, R266). -/
def Lane.ageHeat (c : Ctx) (l : Lane) : Lane :=
  let k := l.image.lib.demandConn
  let age := l.demAge
  let ok := l.bk.seen && decide (age ≤ (l.rd (R.SE_Cc_MAX_AGE k)).toNat)
  let l1 := ({ l with bk := { l.bk with ageWas := age } }.wr R.BK_DEM_AGE (BitVec.ofNat 32 age)).putB R.LM_STATUS_demand_valid ok
  let mode := l1.get R.FC_MODE_mode
  if l1.engaged && !l1.fc.starving && decide (mode ≠ 4) && decide (mode ≠ 6) && decide (l1.get R.PW_STATUS_state = 0) && (!ok || l1.dark c) then
    ({ l1.put R.BK_STATUS_step 1 with
        fc := { l1.fc with starving := true }, bk := { l1.bk with zeroAt := some c.now, validRun := 0, validCycle := none } }).remode c
  else if decide (mode = 4) && decide (l1.get R.BK_STATUS_step < 2) then
    let l2 := (l1.put R.BK_STATUS_step 2).beginDecel (some c.now)
    if l2.permitted || l2.parkedLong c then l2 else l2.grant c
  else l1

/-! ### Module status (R293) -/

/-- A q40 value as two payload words (R170, R263). -/
def qWords (v : Int) : List Word := [(qw v).setWidth 32, ((qw v).extractLsb' 32 8).signExtend 32]

/-- Word 0 of the module status. -/
def Lane.statusWord (c : Ctx) (l : Lane) : Nat :=
  l.get R.FC_MODE_mode + l.get R.FC_MODE_request * 2 ^ 3 + l.get R.FC_MODE_fault_count * 2 ^ 5 +
    (if l.st.ready then l.get R.LM_ROLE_baton_lane else 3) * 2 ^ 7 + l.get R.LM_ROLE_fit_lanes * 2 ^ 9 +
    (if l.parked then 2 ^ 12 else 0) + (if l.get R.BK_PARK_state = 2 then 2 ^ 13 else 0) + (if l.bk.takeover then 2 ^ 14 else 0) +
    (if l.bit R.LM_STATUS_demand_valid then 2 ^ 15 else 0) + (if l.bit R.LM_STATUS_late_demand then 2 ^ 16 else 0) +
    (if l.bit R.BK_STATUS_feel_active then 2 ^ 17 else 0) + l.get R.BK_STATUS_step * 2 ^ 18 + l.demInForce * 2 ^ 20 +
    laneCode c.id * 2 ^ 24

/-- The payload of the module status (R293). DESIGN CHOICE (log 85): once BK_DEM_AGE has saturated in ns, dem_age shows the saturated
value at once. -/
def Lane.statusPayload (c : Ctx) (l : Lane) : List Word :=
  let age := (l.rd R.BK_DEM_AGE).toNat
  [BitVec.ofNat 32 (l.statusWord c), if age = 0xFFFFFFFF then 0xFFFFFFFF else BitVec.ofNat 32 (age / 1000),
    l.rd (R.AFn_ANGLE 0), (l.mc 0).steer.thCmd] ++
    qWords (l.pressure 2) ++ qWords (l.pressure 3) ++
    qWords (if l.get R.FC_MODE_request = 2 then l.image.lib.vLimit else 0) ++
    qWords (if l.image.lib.handWheel then l.thHw else 0)

/-- MODULE_STATUS_SEND (R293): every fit lane produces the status. -/
def moduleStatusSendL (c : Ctx) (l : Lane) : Lane :=
  if l.fit && decide (l.get R.FC_MODE_mode ≠ 6) then l.produce l.image.lib.statusConn (l.statusPayload c) else l

/-! ### The commands -/

/-- DEMAND_ENGAGE. -/
def execDemandEngage (ln : LaneId) (s : State) : Answer := onAlive ln (fun c l => l.takeMode c 1) s

/-- DEMAND_HOLD. -/
def execDemandHold (ln : LaneId) (s : State) : Answer := onAlive ln (fun c l => l.takeMode c 2) s

/-- DEMAND_PARK. -/
def execDemandPark (ln : LaneId) (s : State) : Answer := onAlive ln (fun c l => l.takeMode c 3) s

/-- DEMAND_FEEL. -/
def execDemandFeel (ln : LaneId) (s : State) : Answer := onAlive ln (fun c l => l.takeMode c 4) s

/-- SPEED_RECEIVE. -/
def execSpeedReceive (ln : LaneId) (s : State) : Answer := onAlive ln (fun c l => speedReceiveL c l) s

/-- SPEED_STALE. -/
def execSpeedStale (ln : LaneId) (s : State) : Answer := onAlive ln (fun c l => speedStaleL c l) s

/-- STANDSTILL_CONFIRMED. -/
def execStandstillConfirmed (ln : LaneId) (s : State) : Answer := onAlive ln (fun c l => standstillConfirmedL c l) s

/-- STARVATION_HOLD_END. -/
def execStarvationHoldEnd (ln : LaneId) (s : State) : Answer := onAlive ln (fun c l => starvationHoldEndL c l) s

/-- ENGAGEMENT_END. -/
def execEngagementEnd (ln : LaneId) (s : State) : Answer := onAlive ln (fun c l => engagementEndL c l) s

/-- TAKEOVER_REQ_CHANGE. -/
def execTakeoverReqChange (ln : LaneId) (on : Bool) (s : State) : Answer := onAlive ln (fun c l => takeoverReqChangeL c on l) s

/-- SOLENOID_FAULT. -/
def execSolenoidFault (ln : LaneId) (n : Fin 6) (kind : Fin 4) (s : State) : Answer :=
  onAlive ln (fun c l => solenoidFaultL c n kind l) s

/-- SOLENOID_OPEN_TEST. -/
def execSolenoidOpenTest (ln : LaneId) (n : Fin 6) (current : W40) (s : State) : Answer :=
  onAlive ln (fun c l => solenoidOpenTestL c n current l) s

/-- DITHER_ENV_WRITE. -/
def execDitherEnvWrite (ln : LaneId) (n : Fin 6) (value : Word) (s : State) : Answer :=
  onAlive ln (fun c l => ditherEnvWriteL c n value l) s

/-- PARK_RELEASED. -/
def execParkReleased (ln : LaneId) (s : State) : Answer := onAlive ln (fun c l => parkReleasedL c l) s

/-- PARK_RELEASE_FAIL. -/
def execParkReleaseFail (ln : LaneId) (s : State) : Answer := onAlive ln (fun c l => parkReleaseFailL c l) s

/-- PARK_APPLY_START. -/
def execParkApplyStart (ln : LaneId) (s : State) : Answer := onAlive ln (fun c l => parkApplyStartL c l) s

/-- PARK_APPLIED. -/
def execParkApplied (ln : LaneId) (s : State) : Answer := onAlive ln (fun c l => parkAppliedL c l) s

/-- MODULE_STATUS_SEND. -/
def execModuleStatusSend (ln : LaneId) (s : State) : Answer := onAlive ln (fun c l => moduleStatusSendL c l) s

end Sys2Proof.Machine
end

