-- ==== Sys2Proof/Machine/Marshal.lean ====
section
/-! DEFINITION. The marshal of an -M part (R48, R49, R398 to R406, R409) and its management links. -/

namespace Sys2Proof.Machine

/-- States of R399. -/
def msUnsynced : Nat := 0
/-- SYNCED. -/
def msSynced : Nat := 1
/-- LOADING. -/
def msLoading : Nat := 2

/-- A field of the marshal's registers. -/
def Marshal.get (m : Marshal) (f : Fld) : Nat := fldOf f (bankGet m.regs f.addr)

/-- A field of the marshal's registers set. -/
def Marshal.put (m : Marshal) (f : Fld) (v : Nat) : Marshal :=
  { m with regs := bankSet m.regs f.addr (fldPut f (bankGet m.regs f.addr) v) }

/-- A saturating counter field of the marshal raised by 1. -/
def Marshal.inc (m : Marshal) (f : Fld) : Marshal := m.put f (min (m.get f + 1) (2 ^ (f.hi - f.lo + 1) - 1))

/-- A branch beyond its registers. -/
def Marshal.branch (m : Marshal) (b : Nat) : Branch := (tabGet m.branches b).getD ⟨0, 0, none⟩

/-- A branch replaced. -/
def Marshal.setBranch (m : Marshal) (b : Nat) (x : Branch) : Marshal := { m with branches := tabPut m.branches b x }

/-- Whether the management link to a lane is up. -/
def Marshal.link (m : Marshal) : LaneId → Bool
  | .a => m.linkA
  | .b => m.linkB
  | .c => m.linkC

/-- The management link to a lane set. -/
def Marshal.setLink (m : Marshal) (x : LaneId) (b : Bool) : Marshal :=
  match x with
  | .a => { m with linkA := b }
  | .b => { m with linkB := b }
  | .c => { m with linkC := b }

/-- Whether a lane reaches the marshal (R49, R409). -/
def State.reaches (s : State) (ln : LaneId) : Bool := s.part.marshal && s.marshal.powered && s.marshal.link ln

/-- A lane's copy of MS_FLAGS follows the marshal's register, which its unit's interrupt line follows (R409, R419); mgmt_lost is the
lane's own. -/
def Lane.takeMsFlags (l : Lane) (w : Word) : Lane :=
  Lane.irqNote l (l.wr R.MS_FLAGS ((l.rd R.MS_FLAGS &&& 0x200) ||| (w &&& 0x1FF))) (irqLine R.MS_FLAGS)

/-- The copy of MS_FLAGS in a lane that reaches the marshal follows it. -/
def State.msShare (s : State) (ln : LaneId) : State :=
  if s.has ln && s.reaches ln && (s.lane ln).alive then s.setLane ln ((s.lane ln).takeMsFlags (bankGet s.marshal.regs R.MS_FLAGS)) else s

/-- Every lane's copy of MS_FLAGS follows the marshal's register. -/
def State.msShareAll (s : State) : State := ((s.msShare .a).msShare .b).msShare .c

/-- A flag of the marshal set in the copy of one lane. -/
def State.msFlagIn (s : State) (f : Fld) (ln : LaneId) : State :=
  if s.has ln && s.reaches ln && (s.lane ln).alive then s.setLane ln ((s.lane ln).flag f) else s

/-- A flag of the marshal set: every lane that reaches it sees the flag, and its event counter rises. -/
def State.msFlag (s : State) (f : Fld) : State :=
  let s1 := { s with marshal := { s.marshal.put f 1 with
    evt := tabPut s.marshal.evt f.lo (min ((tabGet s.marshal.evt f.lo).getD 0 + 1) 0xFFFFFFFF) } }
  ((s1.msFlagIn f .a).msFlagIn f .b).msFlagIn f .c

/-- Nothing is forwarded any longer; the signals on the branches go on. -/
def Marshal.stopAll (m : Marshal) : Marshal := { m with forwarding := m.forwarding.map (fun y => { y with dest := [] }) }

/-- A change of the marshal's state (R399). -/
def State.msGo (s : State) (st : Nat) : State :=
  if s.marshal.get R.MS_STATUS_state = st then s
  else
    let m := (s.marshal.put R.MS_STATUS_state st)
    let m1 := if st = msSynced then { m with syncedAt := some s.now } else { m.put R.MS_STATUS_followed 0 with verified := 0, verifiedAt := none, follows := none, grants := [], syncAt := none }
    { s with marshal := { m1.stopAll with collided := false } }.msFlag R.MS_FLAGS_state_change

/-- TM_NOW of the marshal at an instant: counted at its rate from the time it adopted last or corrected last (R399), or from its
power-up. -/
def Marshal.timeAt (m : Marshal) (t : Nat) : Word :=
  let d : Int := (t : Int) - m.baseAt
  m.base + BitVec.ofInt 32 (d + rnaDiv (d * m.rate) 1000000000)

/-- TM_NOW of the marshal. -/
def State.clusterTime (s : State) : Word := s.marshal.timeAt s.now

/-- The marshal corrects its own clock in the NIT by the deviation it measured in the cycle (R386, R399): the offset step and the
rate, which MS_DEV shows (R409). -/
def State.settleClock (s : State) : State :=
  match s.marshal.pendingDev, s.marshal.tables with
  | some (t, dev), some ts =>
    if t ≤ s.now then
      let m := s.marshal
      let lim : Int := ts.rateLim.toNat
      let rc := clampInt (-lim) lim (m.rate - rnaDiv (dev * 1000000000) (2 * (ts.cycleLen.toNat : Int)))
      let shown := { m with regs := bankSet m.regs R.MS_DEV (BitVec.ofInt 32 dev) }
      { s with marshal := { shown with base := m.timeAt t - BitVec.ofInt 32 dev, baseAt := t, rate := rc, pendingDev := none } }
    else s
  | _, _ => s

/-- With two cycles verified the marshal is SYNCED from the next cycle start (R389, R399). -/
def State.settleSync (s : State) : State :=
  match s.marshal.syncAt with
  | some t =>
    if t ≤ s.now then
      let s1 := { s with marshal := { s.marshal with syncAt := none } }.msGo msSynced
      { s1 with marshal := { s1.marshal with syncedAt := some t } }
    else s
  | none => s

/-- The start of the marshal's present cycle, by its own time. -/
def State.msCycle (s : State) (ts : MarshalTables) : Word :=
  let m := s.marshal
  m.cycStamp + BitVec.ofInt 32 (sdiff s.clusterTime m.cycStamp / (ts.cycleLen.toNat : Int) * (ts.cycleLen.toNat : Int))

/-- How far the marshal's present cycle has run. -/
def State.msOff (s : State) (ts : MarshalTables) : Int := sdiff s.clusterTime (s.msCycle ts)

/-- The marshal's cycle count, as its time counts on from the cycle whose count it took from a header (R379, R389). -/
def State.msCount (s : State) (ts : MarshalTables) : Nat :=
  ((s.marshal.cycCount : Int) + sdiff (s.msCycle ts) s.marshal.cycStamp / (ts.cycleLen.toNat : Int)).toNat % 64

/-- The tables of a branch. -/
def Marshal.table (m : Marshal) (b : Nat) : Option BranchTable :=
  match m.tables with
  | some t => t.branches[b]?
  | none => none

/-- Registers that show the tables (R409). -/
def Marshal.showBranch (m : Marshal) (b : Nat) : Marshal :=
  match m.table b with
  | some t =>
    let m1 := ((m.put (R.MS_BRb_CFG_delay_ns b) t.delay).put (R.MS_BRb_CFG_coldstart b) (cond t.coldstart 1 0)).put
      (R.MS_BR_ACT_coldstart) (m.get R.MS_BR_ACT_coldstart + (if t.coldstart then 2 ^ b else 0))
    match t.lane with
    | some x => (m1.put (R.MS_BRb_CFG_lane_port b) 1).put (R.MS_BRb_CFG_lane b) (laneCode x)
    | none => m1
  | none => m

/-- The marshal with its registers as after its reset, on its stored tables. -/
def Marshal.restart (m : Marshal) : Marshal :=
  let m0 : Marshal := { m with
    regs := [], evt := [], branches := [], claims := [], grants := [], follows := none, heard := [], offerA := none, offerB := none,
    loading := none, verified := 0, verifiedAt := none, forwarding := [], loaded := false, syncedAt := none
    pendingDev := none, rate := 0, cycCount := 0, syncAt := none, dynCyc := 0, dynId := 0, dynOff := 0, collided := false }
  match m.tables with
  | some t =>
    let m1 := ((m0.put R.MS_STATUS_tables_valid 1).put R.MS_STATUS_channel (if t.channel = .y then 1 else 0)).put
      R.MS_CFG_disq_limit t.disqLimit.toNat
    let m2 := (m1.put R.MS_CFG_disq_cycles t.disqCycles.toNat).put R.MS_CFG_level t.level.toNat
    let m3 := { m2 with regs := bankSet (bankSet m2.regs R.MS_TABLE_ID0 (t.imageId.setWidth 32)) R.MS_TABLE_ID1 (t.imageId.extractLsb' 32 32) }
    (List.range 16).foldl Marshal.showBranch m3
  | none => m0

/-! ### Violations (R404, R405) -/

/-- Cycles from an instant to now, by the cycle length of the tables. -/
def State.cyclesSince (s : State) (t : Nat) : Nat :=
  match s.marshal.tables with
  | some x => (s.now - t) / max x.cycleLen.toNat 1
  | none => 0

/-- The level of a branch now: 1 less for every 64 cycles without a violation. -/
def State.levelNow (s : State) (b : Nat) : Nat :=
  s.marshal.get (R.MS_BRb_STAT_level b) - s.cyclesSince (s.marshal.branch b).violAt / 64

/-- Whether a branch is disqualified. -/
def Marshal.disq (m : Marshal) (b : Nat) : Bool := decide (m.get (R.MS_BRb_STAT_disqualified b) = 1)

/-- Whether a branch is disqualified for good. -/
def Marshal.perm (m : Marshal) (b : Nat) : Bool := decide (m.get (R.MS_BRb_STAT_permanent b) = 1)

/-- The summary bits of a branch follow its status. -/
def Marshal.summary (m : Marshal) (b : Nat) : Marshal :=
  let d := m.get R.MS_BR_DISQ_disqualified
  let p := m.get R.MS_BR_DISQ_permanent
  let set := fun (w : Nat) (v : Bool) => if Nat.testBit w b then (if v then w else w - 2 ^ b) else (if v then w + 2 ^ b else w)
  (m.put R.MS_BR_DISQ_disqualified (set d (m.disq b))).put R.MS_BR_DISQ_permanent (set p (m.perm b))

/-- A branch admitted again with level 0 (R405). -/
def State.requalify (s : State) (b : Nat) : State :=
  let m := ((s.marshal.put (R.MS_BRb_STAT_disqualified b) 0).put (R.MS_BRb_STAT_permanent b) 0).put (R.MS_BRb_STAT_level b) 0
  { s with marshal := m.summary b }.msFlag R.MS_FLAGS_requalified

/-- Disqualification is over: disq_cycles have passed, or end in this cycle (R405, R407). -/
def State.disqOver (s : State) (b : Nat) : Bool :=
  s.marshal.disq b && !s.marshal.perm b && (match s.marshal.tables with
    | some ts => decide (((s.marshal.branch b).disqAt + s.marshal.get R.MS_CFG_disq_cycles * ts.cycleLen.toNat : Int) <
        s.now + ((ts.cycleLen.toNat : Int) - s.msOff ts))
    | none => false)

/-- MARSHAL_VIOLATION (R404, R405): counted and recorded; at disq_limit the branch is disqualified, the third time for
good. -/
def State.violation (s : State) (b kind : Nat) : State :=
  let lvl := min (s.levelNow b + 1) 255
  let m0 := s.marshal
  let m1 := ((m0.inc (R.MS_BRb_VIOL_count b)).put (R.MS_BRb_STAT_last_kind b) kind).put (R.MS_BRb_STAT_level b) lvl
  let m2 := { m1 with regs := bankSet m1.regs (R.MS_BRb_TIME b) s.clusterTime }
  let m3 := m2.setBranch b { m2.branch b with violAt := s.now }
  let s1 := { s with marshal := m3 }.msFlag R.MS_FLAGS_violation
  if m0.disq b ∨ lvl < m0.get R.MS_CFG_disq_limit then s1
  else
    let n := m0.get (R.MS_BRb_STAT_disq_count b) + 1
    let m4 := (s1.marshal.put (R.MS_BRb_STAT_disqualified b) 1).put (R.MS_BRb_STAT_disq_count b) (min n 255)
    let m5 := if 3 ≤ n then m4.put (R.MS_BRb_STAT_permanent b) 1 else m4
    let m6 := (m5.setBranch b { m5.branch b with disqAt := s.now }).summary b
    let s2 := { s1 with marshal := m6 }.msFlag R.MS_FLAGS_disqualified
    if 3 ≤ n then s2.msFlag R.MS_FLAGS_perm_disq else s2

/-! ### Admission (R400 to R403, R406) -/

/-- Whether a spare slot is open for a branch now: it holds a grant whose claim the marshal received on that branch (R406). -/
def State.granted (s : State) (b n : Nat) : Bool :=
  s.marshal.grants.any (fun g => decide (g.1 = n) && decide (g.2.2 ≤ s.now) && s.marshal.claims.contains (b, n, g.2.1))

/-- How long a transmission lasts, in ns (R371): its frame, a WAKE, or DESIGN CHOICE (log 83) the time of the longest frame for a
signal that is neither. -/
def Forwarded.length (x : Forwarded) : Nat :=
  match x.frame, x.place with
  | some f, _ => frameTime f
  | none, .symbol true => 800
  | none, _ => 10840

/-- A transmission has ended. -/
def Forwarded.ended (x : Forwarded) (now : Nat) : Bool := decide (x.start + x.length ≤ now)

/-- The marshal forwards a transmission now. -/
def Forwarded.runs (x : Forwarded) (now : Nat) : Bool := !x.dest.isEmpty && !x.ended now

/-- The marshal's dynamic ID counter at the start of a mini-slot, `off` ns before now (R382, R402): it holds the value at which a frame
started until the hold is over, and counts the mini-slots from there, or from the start of the segment. -/
def State.dynCount (s : State) (ts : MarshalTables) (off : Int) : Nat :=
  let m := s.marshal
  let mini : Int := ts.miniLen.toNat
  let x := s.msOff ts - off + mini / 2
  if m.dynCyc = s.msCycle ts ∧ m.dynId ≠ 0 then
    (if x < m.dynOff then m.dynId else min 2047 (m.dynId + 1 + ((x - m.dynOff) / mini).toNat))
  else min 2047 (1025 + ((x - ts.slots.toNat * ts.slotLen.toNat) / mini).toNat)

/-- A frame that starts `off` ns after the start of a mini-slot holds the counter until the end of the mini-slot in which it ends and
for one further idle mini-slot (R382); of two claims at once (R407) the longer hold counts. -/
def State.dynHold (s : State) (ts : MarshalTables) (off : Int) (len : Nat) : State :=
  let m := s.marshal
  let mini : Int := ts.miniLen.toNat
  let id := s.dynCount ts off
  let start := s.msOff ts - off
  let til := start + ((off + len - 1) / mini + 2) * mini
  let held := decide (m.dynCyc = s.msCycle ts) && decide (m.dynId = id) && decide (start < m.dynOff)
  { s with marshal := { m with dynCyc := s.msCycle ts, dynId := id, dynOff := if held then max m.dynOff til else til } }

/-- Where a transmission starts, with the marshal's own ID counter in the dynamic segment (R402). -/
def State.placeOf (s : State) (ts : MarshalTables) : TxPlace → TxPlace
  | .dynamic _ off => .dynamic (s.dynCount ts off) off
  | p => p

/-- The violation that a transmission in SYNCED commits, if any (R400, R402). -/
def State.breach (s : State) (t : BranchTable) (pi : Nat) (b : Nat) : TxPlace → Option Nat
  | .static n off =>
    if t.slots.contains n || s.granted b n then (if |off| ≤ (pi : Int) then none else some 1) else some 2
  | .dynamic id off =>
    if (pi : Int) + t.delay < |off| then some 1
    else if t.dynIds.contains id || t.claimIds.contains id then none else some 5
  | .symbol w => if w && t.wake then none else some 6
  | .idle => some 6

/-- A claim received on a branch (R395, R406): its claim ID is one of the branch's, and the branch is noted for the slot and
the claimant. -/
def Marshal.noteClaim (m : Marshal) (t : BranchTable) (b : Nat) (f : NxFrame) : Marshal :=
  let w := ((f.payload[0]?).getD 0).toNat
  let slot := w / 2 ^ 16 % 2 ^ 11
  let node := w % 2 ^ 11
  if (t.claimIds.zip t.spare).contains (f.frameId.toNat, slot) then
    { m with claims := (b, slot, node) :: m.claims.filter (fun e => decide (e.2 ≠ (slot, node))) }
  else m

/-! ### Synchronisation (R384 to R386, R399) -/

/-- A rank heard now: in how many cycles in a row, by the cycle length (R385). -/
def Marshal.hear (m : Marshal) (len now rank : Nat) : Marshal :=
  let run := match tabGet m.heard rank with
    | some (was, n) => if 2 * now < 2 * was + len then n else if 2 * now < 2 * was + 3 * len then n + 1 else 1
    | none => 1
  { m with heard := tabPut m.heard rank (now, run) }

/-- Whether the marshal ought to follow a rank it hears (R385, R399, R407): its own, the first one, a higher one heard in
two cycles in a row or while nothing is verified yet, or a lower one where the followed one is missing for 2 cycles. -/
def Marshal.wants (m : Marshal) (len now rank : Nat) : Bool :=
  match m.follows with
  | none => true
  | some k =>
    if rank < k then decide (m.verified = 0) || (match tabGet m.heard rank with
      | some (_, n) => decide (2 ≤ n)
      | none => false)
    else decide (rank = k) || (match tabGet m.heard k with
      | some (was, _) => decide (was + 2 * len < now)
      | none => true)

/-- The grants of a SYNC frame that starts so many ns from its pacer's cycle start, each open from the cycle after it first appears
(R406). -/
def State.readGrants (s : State) (len off : Nat) (f : NxFrame) : List (Nat × Nat × Nat) :=
  (grantsOf f).map (fun x => (x.slot, x.node, match s.marshal.grants.find? (fun e => e.1 == x.slot && e.2.1 == x.node) with
    | some e => e.2.2
    | none => s.now + (len - off)))

/-- The marshal adopts the time and the cycle count of a pacer (R389, R399): its own time is so many ns from that pacer's cycle
start. -/
def State.adoptTime (s : State) (off : Nat) (cyc : Word) (count : Nat) : State :=
  { s with marshal := { s.marshal with
    base := cyc + BitVec.ofNat 32 off, baseAt := s.now, cycStamp := cyc, cycCount := count, pendingDev := none } }

/-- A deviation measured in this cycle waits for the NIT, where the marshal corrects its clock by it (R386, R399). -/
def State.planCorrection (s : State) (ts : MarshalTables) (off : Nat) (dev : Int) : State :=
  let nit : Int := ts.slots.toNat * ts.slotLen.toNat + ts.minis.toNat * ts.miniLen.toNat + ts.symbolLen.toNat
  { s with marshal := { s.marshal with pendingDev := some (((s.now : Int) + nit - off - dev).toNat, dev), cycStamp := s.msCycle ts, cycCount := s.msCount ts } }

/-- A SYNC frame of the pacer the marshal follows verifies a cycle where its deviation, of which the start in the slot is the
measure, is at most 2Π; the second in a row takes the marshal to SYNCED at the next cycle start, and a failed one begins the adoption
again. The deviation corrects the marshal's clock (R386). -/
def State.verifySync (s : State) (ts : MarshalTables) (off : Nat) (dev : Int) (cyc : Word) (count : Nat) : State :=
  let m := s.marshal
  let next := match m.verifiedAt with
    | some p => decide (2 * (cyc - p).toNat < 3 * ts.cycleLen.toNat)
    | none => false
  if m.verifiedAt = some cyc then { s with marshal := m }
  else if m.get R.MS_STATUS_state = msUnsynced ∧ (2 * (ts.precision.toNat : Int) < |dev| ∨ next = false) then
    { s with marshal := { m with verified := 0, verifiedAt := some cyc, syncAt := none } }.adoptTime off cyc count
  else
    let s1 := { s with marshal := { m with verified := m.verified + 1, verifiedAt := some cyc } }.planCorrection ts off dev
    if m.get R.MS_STATUS_state = msUnsynced ∧ 1 ≤ m.verified then
      { s1 with marshal := { s1.marshal with syncAt := some (s.now + (ts.cycleLen.toNat - off)) } }
    else s1

/-- The pacer that sends its SYNC frames in a static slot, with its rank. -/
def pacerOf (ts : MarshalTables) (slot : Nat) : Option (Nat × Nat) :=
  match (List.range ts.pacers.length).find? (fun r => ((ts.pacers[r]?).getD (0, 0)).2 == slot) with
  | some r => some (r, ((ts.pacers[r]?).getD (0, 0)).1)
  | none => none

/-- A SYNC frame that a branch brings (R384, R385, R399): of another image it is ignored; else its pacer is heard, and followed
where the marshal ought to. -/
def State.hearSync (s : State) (t : BranchTable) (ts : MarshalTables) (p : TxPlace) (f : NxFrame) : State :=
  let n := f.frameId.toNat
  let len := ts.cycleLen.toNat
  match pacerOf ts n with
  | some (rank, node) =>
    if (f.payload[1]?).getD 0 ≠ ts.imageId.setWidth 32 then s
    else
      let s0 := { s with marshal := s.marshal.hear len s.now rank }
      if s0.marshal.wants len s.now rank = false then s0
      else
        let off := (n - 1) * ts.slotLen.toNat + t.delay
        let cyc := (f.payload[0]?).getD 0
        let was := s0.marshal.get R.MS_STATUS_followed
        let same := decide (s0.marshal.follows = some rank)
        let m := { s0.marshal with grants := s0.readGrants len off f, follows := some rank }.put R.MS_STATUS_followed node
        let s1 := { s0 with marshal := m }
        let s2 := if was = node then s1 else s1.msFlag R.MS_FLAGS_pacer_switch
        match p with
        | .static _ dev =>
          if same then s2.verifySync ts off dev cyc f.cycle.toNat
          else if s2.marshal.get R.MS_STATUS_state = msSynced then
            { s2 with marshal := { s2.marshal with verifiedAt := some cyc } }.planCorrection ts off dev
          else { s2 with marshal := { s2.marshal with verifiedAt := some cyc, verified := 0, syncAt := none } }.adoptTime off cyc f.cycle.toNat
        | _ => s2
  | none => s

/-- What the marshal reads of the frame it forwards: a claim, or a SYNC frame (R399, R406), valid for a listening node: in SYNCED its cycle
field is the marshal's cycle count (R379). -/
def State.readFrame (s : State) (t : BranchTable) (ts : MarshalTables) (b : Nat) (p : TxPlace) : Option NxFrame → State
  | some f =>
    if nxSound f = false ∨ (s.marshal.get R.MS_STATUS_state = msSynced ∧ f.cycle.toNat ≠ s.msCount ts) then s
    else if f.claim then { s with marshal := s.marshal.noteClaim t b f }
    else if f.sync then s.hearSync t ts p f
    else s
  | none => s

/-- The branches that a transmission of a branch is forwarded to: every one but its own (R371). -/
def Marshal.others (m : Marshal) (b : Nat) : List Nat :=
  match m.tables with
  | some t => (List.range (min t.branches.length 16)).filter (fun x => decide (x ≠ b))
  | none => []

/-- A transmission on a branch, with the branches that it is forwarded to; what has ended is no longer there. -/
def State.signal (s : State) (b : Nat) (p : TxPlace) (f : Option NxFrame) (dest : List Nat) : State :=
  let rest := s.marshal.forwarding.filter (fun y => decide (y.branch ≠ b) && !y.ended s.now)
  { s with marshal := { s.marshal with forwarding := rest ++ [⟨b, p, f, s.now, dest⟩] } }

/-- A blocked transmission: a violation of its branch (R404). -/
def State.block (s : State) (b : Nat) (p : TxPlace) (f : Option NxFrame) (kind : Nat) : State := (s.signal b p f []).violation b kind

/-- Another claim at the same counter is being forwarded: the marshal forwards both (R407). -/
def Marshal.twinClaim (m : Marshal) (now : Nat) (p : TxPlace) (f : Option NxFrame) : Bool :=
  let claims := fun (g : Option NxFrame) => match g with
    | some x => x.claim
    | none => false
  match p with
  | .dynamic id _ => claims f && m.forwarding.any (fun y => y.runs now && claims y.frame && match y.place with
    | .dynamic k _ => decide (k = id)
    | _ => false)
  | _ => false

/-- A branch's transmission is forwarded in SYNCED, alone (R371) but for a claim beside another one on the same slot (R407); in the
dynamic segment the ID counter holds for it (R402). -/
def State.forward (s : State) (ts : MarshalTables) (b : Nat) (p : TxPlace) (f : Option NxFrame) : State :=
  let m := if s.marshal.twinClaim s.now p f then s.marshal else s.marshal.stopAll
  let s1 := { s with marshal := m }.signal b p f (s.marshal.others b)
  match p with
  | .dynamic _ off => s1.dynHold ts off (match f with
    | some g => frameTime g
    | none => 0)
  | _ => s1

/-- A branch's transmission is forwarded in UNSYNCED (R403): where another one is being forwarded, the marshal stops both. -/
def State.forwardCold (s : State) (b : Nat) (p : TxPlace) (f : Option NxFrame) : State :=
  if s.marshal.forwarding.any (fun y => decide (y.branch ≠ b) && y.runs s.now) then
    { s with marshal := { s.marshal.stopAll with collided := true } }.signal b p f []
  else s.signal b p f (s.marshal.others b)

/-- A frame whose header names the slot or the counter at which it starts; another one is cut off after its header, and not read
(R401, R402). -/
def inPlace (p : TxPlace) : Option NxFrame → Bool
  | some f => (match p with
    | .static n _ => decide (f.frameId.toNat = n)
    | .dynamic id _ => decide (f.frameId.toNat = id)
    | _ => true)
  | none => false

/-- A transmission that starts in UNSYNCED (R403): of a coldstart branch, at most one in each half cycle; of two that overlap none is
read. -/
def State.admitCold (s : State) (t : BranchTable) (ts : MarshalTables) (b : Nat) (p : TxPlace) (f : Option NxFrame) : State :=
  let x := s.marshal.branch b
  let early := match x.halfAt with
    | some h => decide (s.now < h + ts.cycleLen.toNat / 2)
    | none => false
  if !t.coldstart || early then s.block b p f 7
  else if s.marshal.disq b then s.signal b p f []
  else
    let s1 := { s with marshal := s.marshal.setBranch b { x with halfAt := some s.now } }.forwardCold b p f
    if s1.marshal.collided then s1 else s1.readFrame t ts b p f

/-- A transmission that starts in SYNCED (R400, R402, R405): the frame it carries, if it is one, is read where it is forwarded. -/
def State.admitSynced (s : State) (t : BranchTable) (ts : MarshalTables) (b : Nat) (p : TxPlace) (f : Option NxFrame) : State :=
  match s.breach t ts.precision.toNat b p with
  | some k => s.block b p f k
  | none =>
    if s.marshal.disq b then s.signal b p f []
    else if inPlace p f then (s.forward ts b p f).readFrame t ts b p f
    else s.forward ts b p f

/-- MARSHAL_ADMIT (R400, R402, R403, R405): a transmission starts on a branch. While tables load nothing is forwarded (R398). -/
def State.admitFrame (s : State) (b : Nat) (p : TxPlace) (f : Option NxFrame) : State :=
  match s.marshal.table b, s.marshal.tables with
  | some t, some ts =>
    let st := s.marshal.get R.MS_STATUS_state
    let s0 := if s.disqOver b then s.requalify b else s
    let q := s0.placeOf ts p
    if st = msSynced then s0.admitSynced t ts b q f
    else if st = msUnsynced then s0.admitCold t ts b q f
    else s.signal b p f []
  | _, _ => s.signal b p f []

/-- Whether a forwarded transmission is to be cut off now (R401 to R403): in a static slot at its end less Π where its frame is not
complete then; a frame once its header has passed, where it names another slot or counter than its own, or in UNSYNCED where it
carries neither SYNC nor COLD or is too long. What a transmission that is no frame holds is the sender's to say. -/
def State.cutsOff (s : State) (x : Forwarded) (k : TruncKind) : Bool :=
  let synced := decide (s.marshal.get R.MS_STATUS_state = msSynced)
  match k with
  | .overrun => synced && (match x.place, s.marshal.table x.branch, s.marshal.tables with
    | .static _ off, some t, some ts =>
      let due : Int := x.start - off - t.delay + ts.slotLen.toNat - ts.precision.toNat
      decide (due ≤ (s.now : Int)) && (match x.frame with
        | some f => decide (due < x.start + frameTime f)
        | none => true)
    | _, _, _ => false)
  | .header => synced && decide (x.start + 400 ≤ s.now) && !inPlace x.place x.frame
  | .unsynced => !synced && decide (x.start + 400 ≤ s.now) && (match x.frame with
    | some f => !(f.sync || f.cold) || decide (64 < f.len.toNat)
    | none => true)

/-- The transmission that the marshal forwards from a branch. -/
def Marshal.sending (m : Marshal) (b : Nat) : Option Forwarded :=
  m.forwarding.find? (fun x => decide (x.branch = b) && !x.dest.isEmpty)

/-- Forwarding from a branch ends; the signal on it goes on. -/
def Marshal.cutBranch (m : Marshal) (b : Nat) : Marshal :=
  { m with forwarding := m.forwarding.map (fun y => if y.branch = b then { y with dest := [] } else y) }

/-- MARSHAL_TRUNCATE (R401 to R403): an admitted transmission is cut off. -/
def State.truncate (s : State) (b : Nat) (k : TruncKind) : State :=
  match s.marshal.sending b with
  | some x =>
    if s.cutsOff x k then
      let kind := match k with
        | .overrun => 3
        | .header => 4
        | .unsynced => 7
      { s with marshal := s.marshal.cutBranch b }.violation b kind
    else s
  | none => s

/-- A refused offer. -/
def State.refuseTables (s : State) : State :=
  { s with marshal := { s.marshal.inc R.MS_TABLE_refused with offerA := none, offerB := none } }.msFlag R.MS_FLAGS_table_refused

/-- One lane's offer stands alone. -/
def Marshal.loneOffer (m : Marshal) : Bool := m.offerA.isSome != m.offerB.isSome

/-- What the marshal has done by now of itself: the correction of its clock in the NIT, SYNCED at its cycle start, and the refusal of an offer that stands alone
(R398). DESIGN CHOICE (log 83): an offer waits 20 ms for the other lane's. -/
def State.settleMarshal (s : State) : State :=
  let s1 := s.settleClock.settleSync
  if s1.marshal.loneOffer && decide (s1.marshal.offerAt + 20000000 ≤ s1.now) then s1.refuseTables else s1

/-- A command of the marshal itself; without a supplied marshal it cannot occur, and nothing changes. -/
def onMarshal (f : State → State) (s : State) : Answer :=
  if s.part.marshal && s.marshal.powered then .next (f s.settleMarshal) else .next s

/-- MARSHAL_ADMIT. -/
def execMarshalAdmit (b : Fin 16) (x : Transmission) (s : State) : Answer :=
  onMarshal (fun s => s.admitFrame b.val x.place x.frame) s

/-- MARSHAL_TRUNCATE. -/
def execMarshalTruncate (b : Fin 16) (k : TruncKind) (s : State) : Answer := onMarshal (fun s => s.truncate b.val k) s

/-- MARSHAL_COLLISION (R403): after two forwarded transmissions have overlapped, once every input is idle, COLLISION is sent on every
branch. -/
def execMarshalCollision (s : State) : Answer :=
  onMarshal (fun s =>
    if s.marshal.get R.MS_STATUS_state = msUnsynced ∧ s.marshal.collided = true ∧
        s.marshal.forwarding.all (fun x => x.ended s.now) = true then
      { s with marshal := { s.marshal with forwarding := [], collided := false } }.msFlag R.MS_FLAGS_collision
    else s) s

/-- MARSHAL_REQUALIFY (R405). -/
def execMarshalRequalify (b : Fin 16) (s : State) : Answer :=
  onMarshal (fun s => if s.disqOver b.val then s.requalify b.val else s) s

/-- The last instant at which the marshal heard a valid SYNC frame of any pacer. -/
def Marshal.lastHeard (m : Marshal) : Nat := m.heard.foldl (fun a e => max a e.2.1) 0

/-- MARSHAL_UNSYNC (R399): no valid SYNC frame from any pacer for 4 cycles. -/
def execMarshalUnsync (s : State) : Answer :=
  onMarshal (fun s => match s.marshal.tables with
    | some ts =>
      if s.marshal.get R.MS_STATUS_state = msSynced ∧ s.marshal.lastHeard + 4 * ts.cycleLen.toNat ≤ s.now then s.msGo msUnsynced else s
    | none => s) s

/-- CYCLE_VERIFY (R389). -/
def execCycleVerify (ln : LaneId) (s : State) : Answer := onAlive ln (fun c l => cycleVerifyL c l) s

/-- The embedded marshal shows a lane's branch as disqualified on a channel (R394). -/
def State.branchOut (s : State) (ln : LaneId) (ch : Chan) : Bool :=
  s.reaches ln && s.marshal.disq (s.lane ln).image.nx.branch && (match s.marshal.tables with
    | some t => decide (t.channel = ch)
    | none => false)

/-- NX_FRAME_RECEIVE: a lost port is found again where the branch is admitted (R394). -/
def execNxFrameReceive (ln : LaneId) (ch : Chan) (f : NxFrame) (s : State) : Answer :=
  let bit := match ch with
    | .x => R.NX_STATUS_port_x_ok
    | .y => R.NX_STATUS_port_y_ok
  let out := s.branchOut ln ch
  onAlive ln (fun c l =>
    let l1 := nxFrameReceiveL c ch f l
    if out then { l1.put bit (l.get bit) with nx := { l1.nx with lostX := l.nx.lostX, lostY := l.nx.lostY } } else l1) s

/-! ### Tables (R398) -/

/-- Lane A or lane B can make an offer beside another lane's (R398). -/
def State.offersToo (s : State) (ln : LaneId) : Bool :=
  let x := if ln = .a then LaneId.b else .a
  s.has x && s.reaches x && (s.lane x).alive

/-- What a lane offers the marshal (R479, R526): the marshal section of the image it agreed on. -/
def Lane.marshalSection (l : Lane) : Option MarshalTables :=
  if l.bit R.CF_STATUS_agreed && !l.bit R.CF_STATUS_out_of_service then l.image.marshal else none

/-- MARSHAL_TABLE_OFFER (R398, R479): after the agreement lanes A and B offer the marshal section of their image; matching offers of
another image than the stored one load in UNSYNCED, differing ones, a second one of the same lane, and a single one where the other lane
can make none are refused. -/
def execMarshalTableOffer (ln : LaneId) (_ : Found) (s : State) : Answer :=
  match (s.lane ln).marshalSection with
  | none => .next s
  | some t =>
  if s.reaches ln && (s.lane ln).alive && decide (ln ≠ .c) then
    let s := s.settleMarshal
    let m := { s.marshal with offerAt := s.now }
    let again := match ln with
      | .a => m.offerA.isSome
      | _ => m.offerB.isSome
    let m1 := match ln with
      | .a => { m.put R.MS_TABLE_offer_a 1 with offerA := some t }
      | _ => { m.put R.MS_TABLE_offer_b 1 with offerB := some t }
    let s1 := { s with marshal := m1 }
    match m1.offerA, m1.offerB with
    | some x, some y =>
      let stored := match m1.tables with
        | some z => decide (z.imageId = x.imageId)
        | none => false
      if x.imageId ≠ y.imageId then .next s1.refuseTables
      else if stored then .next { s1 with marshal := { m1 with offerA := none, offerB := none } }
      else if m1.get R.MS_STATUS_state = msUnsynced then
        .next ({ s1 with marshal := { m1 with offerA := none, offerB := none, loading := some t } }.msGo msLoading)
      else .next s1.refuseTables
    | _, _ => .next (if again || !s.offersToo ln then s1.refuseTables else s1)
  else .next s

/-- What the marshal counts since its reset of its branches stays through a load, and its flags do (R405, R409). -/
def Marshal.keepBranches (m old : Marshal) : Marshal :=
  let m1 := { m with branches := old.branches, regs := [R.MS_BR_DISQ, R.MS_FLAGS].foldl (fun r a => bankSet r a (bankGet old.regs a)) m.regs }
  (List.range 16).foldl (fun (y : Marshal) b =>
    { y with regs := [R.MS_BRb_VIOL b, R.MS_BRb_STAT b, R.MS_BRb_TIME b].foldl (fun r a => bankSet r a (bankGet old.regs a)) y.regs }) m1

/-- MARSHAL_LOAD_DONE (R398): the loaded tables are in force and the marshal is UNSYNCED. -/
def execMarshalLoadDone (s : State) : Answer :=
  onMarshal (fun s =>
    match s.marshal.loading with
    | some t =>
      let m := s.marshal
      let m1 := { { m with tables := some t }.restart.keepBranches m with loaded := true }
      let keep := ((m1.put R.MS_TABLE_offer_a (m.get R.MS_TABLE_offer_a)).put R.MS_TABLE_offer_b (m.get R.MS_TABLE_offer_b)).put
        R.MS_TABLE_refused (m.get R.MS_TABLE_refused)
      ({ s with marshal := { keep.put R.MS_STATUS_state msLoading with evt := m.evt } }.msGo msUnsynced).msFlag R.MS_FLAGS_table_loaded
    | none => s) s

/-- MS_REQUAL_WRITE (R405): accepted while the lane shows parked. -/
def execMsRequalWrite (ln : LaneId) (value : Word) (s : State) : Answer :=
  if s.has ln && (s.lane ln).alive then
    let s0 := s.setLane ln { s.lane ln with bus := if s.part.marshal then .done else .error }
    if s.reaches ln && (s.lane ln).parked then
      .next ((List.range 16).foldl (fun x b => if value.getLsbD b && x.marshal.disq b then x.requalify b else x) s0)
    else .next s0
  else .next s

/-! ### Supply and management links -/

/-- A lane feeds the marshal: it has supply and is not in DORMANT (R48, R463). -/
def Lane.feeds (l : Lane) : Bool := decide (l.phase ≠ .off) && decide (l.phase ≠ .asleepDormant)

/-- Whether one of A_VBAT, B_VBAT and M_VAUX supplies the marshal (R48); lane C does not. -/
def State.marshalSupplied (s : State) : Bool :=
  (s.has .a && s.laneA.feeds) || (s.has .b && s.laneB.feeds) || s.marshal.vaux

/-- The embedded marshal has failed (R50): a channel on it that this lane lost before and that is not counted yet is lost by the
marshal, class 0x8. -/
def Lane.marshalFails (l : Lane) : Lane :=
  let k := match l.image.marshalOn with
    | .x => 0
    | .y => 1
  if (tabGet l.fc.gone k).isSome then { l with fc := { l.fc with gone := tabPut l.fc.gone k 8 } } else l

/-- The marshal follows its OR-ed supply: it powers up UNSYNCED on its stored tables with its time at 0, or falls silent
(R48, R50, R398). -/
def State.supplyMarshal (s : State) : State :=
  if s.part.marshal && decide (s.marshal.powered ≠ s.marshalSupplied) then
    let s1 := { s with marshal := { s.marshal.restart with powered := s.marshalSupplied, base := 0, baseAt := s.now, cycStamp := 0 } }
    if s.marshalSupplied then s1.msShareAll
    else { s1 with laneA := s.laneA.marshalFails, laneB := s.laneB.marshalFails, laneC := s.laneC.marshalFails }
  else s

/-- The marshal follows a change of a lane's supply (R48). -/
def supplyAfter : Answer → Answer
  | .next t => .next t.supplyMarshal
  | a => a

/-- MARSHAL_SUPPLY_CHANGE (R48, R398): M_VAUX comes or goes, and with it, where neither lane A nor lane B is supplied, the
OR-ed supply. -/
def execMarshalSupplyChange (on : Bool) (s : State) : Answer :=
  .next { s with marshal := { s.marshal with vaux := on && s.part.marshal } }.supplyMarshal

/-- MANAGEMENT_LINK_DOWN (R409): mgmt_lost is set in the lane where its link is lost; one whose link comes up again sees the marshal's
flags. -/
def execManagementLinkDown (ln : LaneId) (down : Bool) (s : State) : Answer :=
  if s.part.marshal && s.has ln && decide (s.marshal.link ln = down) then
    let s1 := { s with marshal := s.marshal.setLink ln (!down) }
    .next (if down && (s.lane ln).alive then s1.setLane ln ((s.lane ln).flag R.MS_FLAGS_mgmt_lost) else s1.msShare ln)
  else .next s

end Sys2Proof.Machine
end

