-- ==== Sys2Proof/Machine/Pass.lean ====
section
/-! DEFINITION. Starting and ending a relay pass (R62 to R69, R256, R258), as several rules do it. -/

namespace Sys2Proof.Machine

/-- The lanes after this one in the cyclic order, this lane left out. -/
def cyclicAfter (c : Ctx) (x : LaneId) : List LaneId :=
  let m := c.part.member
  if isTriple m then [nextLane m x, nextLane m (nextLane m x)] else [nextLane m x]

/-- The next fit standby after this lane in the cyclic order (R81). -/
def Lane.nextFit (c : Ctx) (l : Lane) : Option LaneId := (cyclicAfter c c.id).find? l.knowsFit

/-- The target of a pass: the lane asked for where it is another fit lane, or the next fit one. -/
def Lane.passTarget (c : Ctx) (l : Lane) (want : Option LaneId) : Option LaneId :=
  match want with
  | some x => if x ≠ c.id ∧ l.knowsFit x then some x else none
  | none => l.nextFit c

/-- k of R63: the smallest whole number of heats that spans at least 250 µs. -/
def passHeats (heat : Nat) : Nat := (250000 + heat - 1) / heat

/-- A pass in a lane; one that ends takes its announced zone with it. -/
def Lane.setPass (l : Lane) (p : Option Pass) : Lane :=
  { l with baton := { l.baton with pass := p, note := if p.isSome then l.baton.note else none } }

/-- Until when the last changeover zone counts as one for R89. -/
def Lane.zoneUntil (l : Lane) (t : Nat) : Lane := { l with baton := { l.baton with zoneTil := t } }

/-- PASS_OFFER of a planned pass at a heat boundary (R63). -/
def Lane.offerPlanned (c : Ctx) (l : Lane) (x : LaneId) (cause : Nat) : Lane :=
  let k := passHeats l.heatLen
  let h := l.heat16 + BitVec.ofNat 16 k
  let l1 := l.sendTo c x 0x03 [h.toNat, cause, 0]
  l1.setPass (some ⟨c.id, x, cause, false, h, .offered, c.now + k * l.heatLen,
    l.stamp + BitVec.ofNat 32 (k * l.heatLen), 0, 100, 0⟩)

/-- PASS_OFFER of an urgent pass (R68). -/
def Lane.offerUrgent (c : Ctx) (l : Lane) (x : LaneId) (cause : Nat) : Lane :=
  let l1 := l.sendTo c x 0x03 [l.heat16.toNat, cause, 1]
  l1.setPass (some ⟨c.id, x, cause, true, l.heat16, .offered, 0, 0, 0, 100, 0⟩)

/-- PASS_ABORT with a reason ends the pass in this lane (R65, R69). -/
def Lane.abortPass (c : Ctx) (l : Lane) (reason : Nat) : Lane :=
  match l.baton.pass with
  | some _ =>
    let l1 := (l.sendAll c 0x07 [reason]).flag R.LM_FLAGS_relay_abort
    let l2 := if l.bit R.LM_ROLE_in_zone then (l1.resumeSteps c).slotsAnew c else l1
    (l2.setPass none).put R.LM_ROLE_in_zone 0
  | none => l

/-- The outgoing lane of a pass that ended in its zone drives alone again (R258): its channels have share 1.0, but for one in the
active short circuit of a DC-link overvoltage (R256). DESIGN CHOICE (log 29): at once, where the spec gives no ramp. -/
def Lane.driveAlone (c : Ctx) (l : Lane) : Lane :=
  (List.range (motorCount c.part.member)).foldl (fun y ch => if (y.mc ch).ascKind9 then y else y.shareOf c ch 256) l

/-- The motor channel whose DC-link overvoltage was recorded (R244, R256), with or without an active short circuit that holds. -/
def Lane.ovpChannel (l : Lane) : Nat := if l.get (R.PS_FAULT_kind 0) = 9 then 0 else 1

/-- The lane is active and not the incoming lane of an open pass, which does not hold the baton yet. -/
def Lane.holdsBaton (c : Ctx) (l : Lane) : Bool :=
  l.active && match l.baton.pass with
    | some p => decide (p.incoming ≠ c.id)
    | none => true

/-- An urgent pass with a cause (R68, R258): an open pass with another cause gives way to it, in a zone only to one of cause 0x7;
the incoming lane is kept where it is still fit. DESIGN CHOICE (log 79): where no fit lane is left the cause is reported (R62) by the flag
of its own unit, and LM_HANDOVER stays as it is. -/
def Lane.urgentPass (c : Ctx) (l : Lane) (cause : Nat) : Lane :=
  if !l.active then l
  else match l.baton.pass with
    | some p =>
      if ((p.phase = .zone ∨ p.phase = .returning) ∧ cause ≠ 7) ∨ p.cause = cause then l
      else
        let l1 := ((l.abortPass c 2).failAllHoming).driveAlone c
        match l1.passTarget c (if l1.knowsFit p.incoming then some p.incoming else none) with
        | some x => l1.offerUrgent c x cause
        | none => l1
    | none =>
      match l.nextFit c with
      | some x => l.failAllHoming.offerUrgent c x cause
      | none => l

/-- A cause that calls for a planned pass is kept until the next heat boundary (R63); the opening of the presence contact, which
waits for the end of a zone, is not displaced by it (R62, R466). While the module is DISPUTED it stays on the active lane, so that no
planned pass of any cause is asked for (R82, R87); an urgent one still runs (DEDUCED, log 79). -/
def Lane.requestPass (l : Lane) (cause : Nat) (want : Option LaneId) : Lane :=
  let leaving := match l.baton.request with
    | some (k, _) => decide (k = 6)
    | none => false
  if l.active && !leaving && !l.bit R.LM_ROLE_disputed then { l with baton := { l.baton with request := some (cause, want) } } else l

/-- A planned pass that has not reached its zone is given up by its outgoing lane, and what asked for one is dropped, where the
module becomes DISPUTED and stays on the active lane (R82, R87). DESIGN CHOICE (log 79): R91 gives no reason for this PASS_ABORT;
it carries reason 2. -/
def Lane.stayOnLane (c : Ctx) (l : Lane) : Lane :=
  let b := { l.baton with
    dwellEnds := none, rotTarget := none, deferredAt := none, retry := none,
    request := match l.baton.request with
      | some (cause, want) => if cause = 6 then some (cause, want) else none
      | none => none }
  let l1 := { l with baton := b, pw := { l.pw with dwellLeft := none } }
  match l1.baton.pass with
  | some p =>
    if p.outgoing = c.id ∧ p.urgent = false ∧ p.phase ≠ .zone ∧ p.phase ≠ .returning then l1.abortPass c 2 else l1
  | none => l1

/-- The standby that a pass with cause 0x5 goes to (R508): the highest life at or above the threshold, the first after the
active lane of equal ones. -/
def Lane.ageTarget (c : Ctx) (l : Lane) : Option LaneId :=
  let ok := (cyclicAfter c c.id).filter (fun x => l.knowsFit x && decide (l.get R.HA_CFG_age_thr_h ≤ l.lifeOf x))
  ok.foldl (fun (b : Option LaneId) x =>
    match b with
    | some y => if l.lifeOf y < l.lifeOf x then some x else b
    | none => some x) none

/-- At an update of the active lane's life a relay pass with cause 0x5 is called for (R508): its life is below the threshold, some
standby's is not, and no pin is in force. -/
def Lane.lifePass (c : Ctx) (l : Lane) : Lane :=
  if l.active && decide (l.get R.HA_LIFE_life_h < l.get R.HA_CFG_age_thr_h) && !l.bit R.LM_ROLE_pinned then
    match l.ageTarget c with
    | some x => { l.requestPass 5 (some x) with ha := { l.ha with passFrom := some c.now } }
    | none => l
  else l

end Sys2Proof.Machine
end

