-- ==== Sys2Proof/Machine/Stepper.lean ====
section
/-! DEFINITION. Stepper positioners (R295 to R323): steps and their consequences, targets, load and stall, homing, limits and
the position compare. -/

namespace Sys2Proof.Machine

/-- The role of a channel (R296): 0 unused, 1 spool, 2 leg, 3 firmware. -/
def Lane.spRole (l : Lane) (n : Nat) : Nat := l.get (R.SPn_CFG_role n)

/-- A class 0x4 fault of the steering path in the spool role (R308). -/
def Lane.spoolFault (c : Ctx) (l : Lane) (n : Nat) : Lane :=
  if l.spRole n = 1 then l.becomeUnfit c 0xC 4 (0x10 + n) (.setOrCoil none) else l

/-- homing_required becomes set (R316, R317): the channel holds its phase, and in the spool role an engaged module counts
the fault (R308). -/
def Lane.needHoming (c : Ctx) (l : Lane) (n : Nat) : Lane :=
  if l.bit (R.SPn_STATUS_homing_required n) then l.stopSteps n
  else
    let l1 := ((l.stopSteps n).put (R.SPn_STATUS_homing_required n) 1).flag (R.SPn_FLAGS_homing_required n)
    if l.bit R.BK_STATUS_engaged then l1.spoolFault c n else l1

/-- Arrival at home_pos ends homing (R310). -/
def Lane.settleCheck (l : Lane) (n : Nat) : Lane :=
  if l.homeState n = homeSettle ∧ (l.stepper n).v = 0 ∧ l.pair (R.SPn_POS n) = l.pair (R.SPn_HOME_POS n) then
    ((l.put (R.SPn_HOME_STAT_state n) homeDone).put (R.SPn_STATUS_homing_required n) 0).flag (R.SPn_FLAGS_home_done n)
  else l

/-- A position far ahead in a direction: the target while homing seeks an edge. -/
def farFrom (pos : W40) (positive : Bool) : Nat :=
  (if positive then pos + BitVec.ofNat 40 (2 ^ 38) else pos - BitVec.ofNat 40 (2 ^ 38)).toNat

/-- A compare fires (R313): the stamp is captured and the compare disarmed; an arrival of a watch (R425). -/
def Lane.cmpFire (l : Lane) (n : Nat) (late : Bool) : Lane :=
  let l1 := (l.stampAt (R.SPn_CMP_TIME n)).putB (R.SPn_CMP_CFG_late n) late
  ((l1.put (R.SPn_STATUS_cmp_armed n) 0).flag (R.SPn_FLAGS_cmp_fired n)).arrive 1 n l.stamp

/-- The step from `p0` to `p1` reaches or crosses the compare (R313). -/
def cmpCrossed (cmp p0 p1 : W40) : Bool :=
  let c0 := (cmp - p0).toInt
  let c1 := (cmp - p1).toInt
  decide (c1 = 0) || decide (c0 * c1 < 0)

/-- CMP_FIRE within a step (R313, R315). -/
def Lane.cmpStep (l : Lane) (n : Nat) (p0 p1 : W40) : Lane :=
  if l.bit (R.SPn_STATUS_cmp_armed n) && cmpCrossed (l.pair (R.SPn_CMP n)) p0 p1 then l.cmpFire n false else l

/-- The running current after one full step (R305), with whether it was pinned. -/
def adaptCurrent (i lo hi lv lvLo lvHi : Nat) (sixteenth : Bool) : Nat × Bool :=
  let i1 := if lv < lvLo then i + 50 else if lvHi < lv && sixteenth then i - 10 else i
  if i1 < lo then (lo, true) else if hi < i1 then (hi, true) else (i1, false)

/-- A stall (R307): steps stop, the phase is held at i_run, homing ends as FAILED (R311), and the position is no longer
trusted. DESIGN CHOICE: R307 has a stalled channel hold at i_run and R310 one whose homing FAILED at i_hold; a stall while
homing holds at i_run (log 47). -/
def Lane.stall (c : Ctx) (l : Lane) (n : Nat) : Lane :=
  let l1 := ((l.stopSteps n).flag (R.SPn_FLAGS_stall n)).failHoming n
  let l2 := (l1.setStepper n { l1.stepper n with stalled := true }).put (R.SPn_STATUS_hold_current n) 0
  (l2.needHoming c n).spoolFault c n

/-- LOAD_ADAPT (R305, R307): once per full step at v_sg or more. -/
def Lane.loadAdapt (c : Ctx) (l : Lane) (n lv : Nat) : Lane :=
  let x := l.stepper n
  if (x.v : Int) < l.get (R.SPn_V_SG_counts_s n) * f16 then l.setStepper n { x with stallRun := 0 }
  else
    let k := x.fullSteps + 1
    let (i, pinned) := adaptCurrent (l.get (R.SPn_CUR_i_run n)) (l.get (R.SPn_CUR_ENV_cur_lo n))
      (l.get (R.SPn_CUR_ENV_cur_hi n)) lv (l.get (R.SPn_LOAD_CFG_lv_lo n)) (l.get (R.SPn_LOAD_CFG_lv_hi n))
      (decide (k % 16 = 0))
    let run := if lv ≤ l.get (R.SPn_LOAD_CFG_stall_thr n) then x.stallRun + 1 else 0
    let l1 := (l.put (R.SPn_LOAD_lv n) lv).put (R.SPn_CUR_i_run n) i
    let l2 := if pinned then (l1.flag (R.SPn_FLAGS_cur_conflict n)).inc (R.SPn_CONFLICT_count n) else l1
    let l3 := l2.setStepper n { l2.stepper n with fullSteps := k % 16, stallRun := if run = 4 then 0 else run }
    if run = 4 then l3.stall c n else l3

/-- HOMING_TRAVEL_EXCEEDED (R310). -/
def Lane.travelCheck (l : Lane) (n : Nat) : Lane :=
  if (l.homeState n = homeBackoff ∨ l.homeState n = homeSeek) ∧
      (l.rd (R.SPn_HOME_MAX n)).toNat < (l.pair (R.SPn_POS n) - BitVec.ofNat 40 (l.stepper n).homeFrom).toInt.natAbs then
    l.failHoming n
  else l

/-- The steps kept for the edge stamps of homing: those of the debounce window and the one before it. -/
def trimHist (now : Word) (win : Nat) : List (Word × Nat × Nat) → List (Word × Nat × Nat)
  | [] => []
  | s :: t => if (win : Int) < sdiff now s.1 then [s] else s :: trimHist now win t

/-- The debounce window d_win in ns (R323). -/
def Lane.homeWin (l : Lane) (n : Nat) : Nat := l.get (R.SPn_HOME_CFG_d_win n) * 100000

/-- CMP_ARM judged against the position and motion (R313, R314). -/
def Lane.armCmp (l : Lane) (n : Nat) (cmp : W40) : Lane :=
  let l1 := (l.putU (R.SPn_CMP n) cmp.toNat).put (R.SPn_STATUS_cmp_armed n) 1
  let e := (cmp - l.pair (R.SPn_POS n)).toInt
  let passed := l.bit (R.SPn_CMP_CFG_fire_if_passed n)
  if 0 < (l.stepper n).v then
    if e * l.stepDir n ≤ 0 then
      let l2 := l1.flag (R.SPn_FLAGS_behind n)
      if passed then l2.cmpFire n true else l2
    else l1
  else if e = 0 ∧ passed = true then l1.cmpFire n true
  else l1

/-- A compare written in the cycle of this step is judged after it (R315). -/
def Lane.cmpAfter (l : Lane) (n : Nat) : Lane :=
  match (l.stepper n).cmpLate with
  | some v => (l.setStepper n { l.stepper n with cmpLate := none }).armCmp n v
  | none => l

/-- The instant of a step (R301): position, speed, arrival, compare, the load that a driver which drives measures, homing travel, the generator again, and last a
compare that was written in the same cycle (R315). -/
def Lane.issueStep (c : Ctx) (l : Lane) (n lv : Nat) : Lane :=
  let x := l.stepper n
  let p0 := l.pair (R.SPn_POS n)
  let p1 := p0 + BitVec.ofInt 40 (x.dlt * l.stepDir n)
  let at_ := decide (p1 = l.pair (R.SPn_TARGET n))
  let v := if at_ then 0 else x.vNext
  let hist := trimHist l.stamp (l.homeWin n) ((l.stamp, p0.toNat, p1.toNat) :: x.hist)
  let l1 := (l.putU (R.SPn_POS n) p1.toNat).wr (R.SPn_STRIDE n) (BitVec.ofNat 32 x.stride)
  let l2 := l1.setStepper n { x with v := v, a := if v = 0 then 0 else x.a, lastStep := c.now, stepAt := none, hist := hist }
  let l3 := (l2.flagIf at_ (R.SPn_FLAGS_arrived n)).put (R.SPn_STATUS_hold_current n) 0
  let l4 := l3.cmpStep n p0 p1
  let l5 := if p0.toNat / 256 ≠ p1.toNat / 256 ∧ l4.stageOn.getLsbD (8 + n) = true then l4.loadAdapt c n lv else l4
  let l6 := (l5.travelCheck n).settleCheck n
  let y := l6.stepper n
  let rests := l6.bit (R.SPn_STATUS_homing_required n) && !l6.homing n && decide (y.v = 0) && !y.braking
  (if rests then l6 else l6.runProfile c n).cmpAfter n

/-- The instant lies inside the changeover zone (R66). -/
def Lane.standsNow (c : Ctx) (l : Lane) : Bool :=
  match l.zoneSpan with
  | some (z, e) => decide (z ≤ c.now ∧ c.now < e)
  | none => false

/-- Whether the generator of a channel may step: not inside a zone (R321), nor between a baton decision and the enabling of
the stages of its incoming lane (R322), nor while the hold latch of its stage holds (R59). -/
def Lane.maySteps (c : Ctx) (l : Lane) (n : Nat) : Bool :=
  !l.standsNow c && !l.latchHold.getLsbD (8 + n) && match l.baton.window with
    | some w => decide (w.incoming ≠ c.id)
    | none => true

/-- A step falls due at this instant: the stride has elapsed. -/
def Lane.stepDue (c : Ctx) (l : Lane) (n : Nat) : Bool :=
  match (l.stepper n).stepAt with
  | some t => decide (l.dueAt (l.stepper n).stride t ≤ c.now) && l.maySteps c n
  | none => false

/-- STEP_ISSUE (R301, R321, R322): the stride has elapsed. -/
def stepIssueL (c : Ctx) (n : Fin 4) (lv : BitVec 10) (l : Lane) : Lane :=
  if n.val < stepperCount c.part.member ∧ l.stepDue c n.val = true then l.issueStep c n.val lv.toNat else l

/-- Whether a target lies in the direction of an active limit switch (R303, R311). -/
def Lane.beyondLimit (l : Lane) (n : Nat) (target : W40) : Bool :=
  let x := l.stepper n
  let e := (target - l.pair (R.SPn_POS n)).toInt
  (decide (0 < e) && x.onPos) || (decide (e < 0) && x.onNeg)

/-- A target takes effect, or is ignored (R303, R448): at rest the generator runs at once, and in the cycle of a step the run
at that step uses it. -/
def Lane.takeTarget (c : Ctx) (l : Lane) (n : Nat) (target : W40) : Lane :=
  if l.bit (R.SPn_STATUS_homing_required n) || l.homing n || l.beyondLimit n target || l.unitsHalt then l.flag (R.SPn_FLAGS_cmd_ignored n)
  else
    let l1 := l.putU (R.SPn_TARGET n) target.toNat
    let x := l1.stepper n
    if x.v = 0 ∧ x.stepAt = none then l1.runProfile c n
    else if x.lastStep = c.now ∧ x.stepAt.isSome = true then l1.rerunProfile c n
    else l1

/-- The target of a spool from its travel (R296). -/
def Lane.spoolTarget (l : Lane) (n : Nat) (s : Int) : W40 :=
  l.pair (R.SPn_SPOOL_CENTRE n) + BitVec.ofInt 40 (nearest (qr s * ((l.rd (R.SPn_SPOOL_SCALE n)).toNat : Int)))

/-- A buffer word committed to a channel (R296): spool travel or a leg's position. -/
def Lane.commitStepper (c : Ctx) (l : Lane) (n : Nat) (v : W40) : Lane :=
  if stepperCount c.part.member ≤ n then l
  else if l.spRole n = 1 then l.takeTarget c n (l.spoolTarget n (qv v))
  else if l.spRole n = 2 then l.takeTarget c n v
  else l

/-- TARGET_WRITE (R303, R323): the write of SPn_TARGET_HI makes the staged low word and the new high word take effect, in
the firmware role in the active lane; otherwise cmd_ignored is set. DESIGN CHOICE: R19 does not say what a write of a _HI
register does with no _LO staged (none written since reset, or the last one used up); it takes effect with the low word in
force (log 14). -/
def targetWriteL (c : Ctx) (n : Fin 4) (value : Word) (l : Lane) : Lane :=
  let a := R.SPn_TARGET n.val
  if stepperCount c.part.member ≤ n.val then { l with bus := .error }
  else
    let lo := (tabGet l.staging a).getD (l.rd a)
    let l1 := { l with staging := tabDel l.staging a, bus := .done }
    if l.active && decide (l.spRole n.val = 3) then l1.takeTarget c n.val (value.setWidth 8 ++ lo)
    else l1.flag (R.SPn_FLAGS_cmd_ignored n.val)

/-- HOLD_CURRENT_TIMEOUT (R304): not after a stall, which holds at i_run (R307), nor while the latch holds the phase current
(R59). -/
def holdCurrentTimeoutL (c : Ctx) (n : Fin 4) (l : Lane) : Lane :=
  let x := l.stepper n.val
  if x.v = 0 ∧ x.lastStep + 100000000 ≤ c.now ∧ x.stalled = false ∧ l.latchHold.getLsbD (8 + n.val) = false then
    l.put (R.SPn_STATUS_hold_current n.val) 1
  else l

/-- STEPPER_DRIVER_FAULT (R308): kinds 1 to 3; the driver is off until the next power cycle. -/
def stepperDriverFaultL (c : Ctx) (n : Fin 4) (kind : Fin 4) (l : Lane) : Lane :=
  let k := n.val
  if kind.val = 0 ∨ l.bit (R.SPn_STATUS_fault k) ∨ stepperCount c.part.member ≤ k then l
  else
    let l1 := l.stagesOff (BitVec.ofNat 32 (2 ^ (8 + k)))
    let l2 := (l1.put (R.SPn_STATUS_fault k) 1).wr (R.SPn_FAULT k) (BitVec.ofNat 32 (2 ^ 31 + kind.val))
    let l3 := l2.stampAt (R.SPn_FAULT_TIME k)
    let l4 := l3.flag (if kind.val = 1 then R.SPn_FLAGS_short k else if kind.val = 2 then R.SPn_FLAGS_open_load k
      else R.SPn_FLAGS_overtemp k)
    (l4.needHoming c k).spoolFault c k

/-- Homing starts (R310): BACKOFF where the homing-target switch is active, else SEEK. -/
def Lane.startHoming (c : Ctx) (l : Lane) (n : Nat) : Lane :=
  let x := l.stepper n
  let pos := l.pair (R.SPn_POS n)
  let fwd := l.bit (R.SPn_HOME_CFG_home_dir n)
  let l1 := l.setStepper n { x with homeFrom := pos.toNat, stalled := false, braking := false, edged := none }
  let l2 := l1.put (R.SPn_HOME_STAT_state n) (if x.onTarget then homeBackoff else homeSeek)
  let l3 := l2.putU (R.SPn_TARGET n) (farFrom pos (if x.onTarget then !fwd else fwd))
  if x.v = 0 ∧ x.stepAt = none then l3.runProfile c n else l3

/-- HOME_COMMAND (R310, R312): the driver of the channel is on for its homing (DEDUCED, log 30), also where every stage is off since
READY. -/
def homeCommandL (c : Ctx) (n : Fin 4) (l : Lane) : Lane :=
  let k := n.val
  if stepperCount c.part.member ≤ k then { l with bus := .error }
  else if l.active && decide (l.spRole k ≠ 0) && !l.homing k && !l.unitsHalt &&
      !(decide (l.spRole k = 1) && l.bit R.BK_STATUS_engaged) then
    { ((l.stagesOn (BitVec.ofNat 32 (2 ^ (8 + k)))).startRamp c).startHoming c k with bus := .done }
  else { l.flag (R.SPn_FLAGS_cmd_ignored k) with bus := .done }

/-- STOP_COMMAND (R312, R323). -/
def stopCommandL (c : Ctx) (n : Fin 4) (l : Lane) : Lane :=
  let k := n.val
  if stepperCount c.part.member ≤ k then { l with bus := .error }
  else if l.active then { l.putU (R.SPn_TARGET k) (l.stopPoint k) with bus := .done }
  else { l.flag (R.SPn_FLAGS_cmd_ignored k) with bus := .done }

/-- The pair number of a homing input (R323). -/
def Lane.homePair (l : Lane) (n : Nat) : HomeInput → Nat
  | .target => l.get (R.SPn_HOME_CFG_target_in n)
  | .neg => l.get (R.SPn_HOME_CFG_neg_in n)
  | .pos => l.get (R.SPn_HOME_CFG_pos_in n)

/-- A counted edge sets the level of every input that the pair serves. -/
def Lane.homeLevel (l : Lane) (n pair : Nat) (active : Bool) : Lane :=
  let x := l.stepper n
  let on := fun (i : HomeInput) (old : Bool) => if l.homePair n i = pair then active else old
  l.setStepper n { x with onTarget := on .target x.onTarget, onNeg := on .neg x.onNeg, onPos := on .pos x.onPos }

/-- ABORTED (R310): steps stop at once, and the channel holds at i_hold. -/
def Lane.abortHoming (l : Lane) (n : Nat) : Lane :=
  (((l.stopSteps n).put (R.SPn_HOME_STAT_state n) homeAborted).stopped n).flag (R.SPn_FLAGS_limit_abort n)

/-- The limit edge with the stamp of the homing-target edge that the position was referenced to (R311): it counts in that
edge's place, so the reference is taken back, homing ends as ABORTED, and homing_required stays as it was. -/
def Lane.limitWins (l : Lane) (n : Nat) (shift : W40) : Lane :=
  let l1 := l.putU (R.SPn_POS n) (l.pair (R.SPn_POS n) - shift).toNat
  let l2 := l1.putB (R.SPn_STATUS_homing_required n) (l1.bit (R.SPn_STATUS_homing_required n) || (l1.stepper n).needed)
  (l2.setStepper n { l2.stepper n with edged := none }).abortHoming n

/-- The position after the last step issued at or before a stamp (R310): that before the oldest step kept, where each came after it. -/
def posAt (stamp : Word) (now : Nat) : List (Word × Nat × Nat) → Nat
  | [] => now
  | s :: t => if 0 ≤ sdiff stamp s.1 then s.2.2 else posAt stamp s.2.1 t

/-- Entry to SETTLE (R310): the position is re-referenced to the edge, and home_pos is the target. -/
def Lane.settle (c : Ctx) (l : Lane) (n : Nat) (stamp : Word) : Lane :=
  let x := l.stepper n
  let pos := l.pair (R.SPn_POS n)
  let edge := BitVec.ofNat 40 (posAt stamp pos.toNat x.hist)
  let home := l.pair (R.SPn_HOME_POS n)
  let l1 := (l.putU (R.SPn_POS n) (home + (pos - edge)).toNat).putU (R.SPn_TARGET n) home.toNat
  let l2 := (l1.put (R.SPn_HOME_STAT_state n) homeSettle).setStepper n { x with
    hist := [], edged := some (stamp, home - edge), needed := l.bit (R.SPn_STATUS_homing_required n) }
  let l3 := if x.v = 0 ∧ x.stepAt = none then l2.runProfile c n else l2
  l3.settleCheck n

/-- A limit edge outside homing in the direction of motion (R311). -/
def Lane.limitStop (c : Ctx) (l : Lane) (n : Nat) : Lane :=
  ((l.stopSteps n).flag (R.SPn_FLAGS_limit_hit n)).needHoming c n

/-- Whether the limit switch in the direction of motion is active while the channel moves. -/
def Lane.movingIntoLimit (l : Lane) (n : Nat) : Bool :=
  let x := l.stepper n
  decide (0 < x.v) && (if l.bit (R.SPn_STATUS_dir n) then x.onNeg else x.onPos)

/-- A counted edge of a homing or limit input (R310, R311): a limit edge that is not the homing target aborts homing, the
homing target moves it on, and outside homing a limit in the direction of motion stops the channel. Of a limit edge and a
homing-target edge with the same stamp the limit edge counts, whichever comes first. -/
def Lane.homeEdge (c : Ctx) (l : Lane) (n : Nat) (input : HomeInput) (active : Bool) (stamp : Word) : Lane :=
  let pair := l.homePair n input
  let l1 := l.homeLevel n pair active
  let isTarget := decide (pair = l.get (R.SPn_HOME_CFG_target_in n))
  let fwd := decide (l.stepDir n = 1)
  let same := match (l.stepper n).edged with
    | some (t, d) => if t = stamp ∧ active = true ∧ isTarget = false then some d else none
    | none => none
  if let some d := same then l1.limitWins n d
  else if l1.homing n then
    if active && !isTarget then l1.abortHoming n
    else if isTarget && !active && decide (l1.homeState n = homeBackoff) && (fwd != l.bit (R.SPn_HOME_CFG_home_dir n)) then
      (l1.put (R.SPn_HOME_STAT_state n) homeSeek).putU (R.SPn_TARGET n)
        (farFrom (l1.pair (R.SPn_POS n)) (l.bit (R.SPn_HOME_CFG_home_dir n)))
    else if isTarget && active && decide (l1.homeState n = homeSeek) && (fwd == l.bit (R.SPn_HOME_CFG_home_dir n)) then
      l1.settle c n stamp
    else l1
  else if active && l1.movingIntoLimit n then l1.limitStop c n
  else l1

/-- Whether an edge is the last one of the evaluated state of its pair (R309, R347): to this level, with this stamp. -/
def Lane.edgeIs (l : Lane) (pair : Nat) (active : Bool) (stamp : Word) : Bool :=
  (l.bit (R.SI_DIn_STAT_state pair) == active) && decide (l.rd (R.SI_DIn_TIME pair) = stamp)

/-- Whether an edge of the evaluated state of a pair has reverted inside a window (R309). -/
def Lane.edgeBack (l : Lane) (pair win : Nat) (active : Bool) (stamp : Word) : Bool :=
  let d := sdiff (l.rd (R.SI_DIn_TIME pair)) stamp
  (l.bit (R.SI_DIn_STAT_state pair) != active) && decide (0 < d) && decide (d < win)

/-- HOMING_EDGE (R309, R310): an edge of the evaluated state that reverts within d_win is chatter, which is only counted; one
whose level has stood for d_win counts. -/
def homingEdgeL (c : Ctx) (n : Fin 4) (input : HomeInput) (active : Bool) (stamp : Word) (chatter : Bool) (l : Lane) :
    Lane :=
  let k := n.val
  let pair := l.homePair k input
  if stepperCount c.part.member ≤ k ∨ 11 < pair then l
  else if chatter then
    (if l.edgeBack pair (l.homeWin k) active stamp then (l.inc (R.SPn_HOME_STAT_chatter k)).flag (R.SPn_FLAGS_chatter k) else l)
  else if l.edgeIs pair active stamp && decide ((l.homeWin k : Int) ≤ sdiff l.stamp stamp) then l.homeEdge c k input active stamp
  else l

/-- LIMIT_HIT (R309, R311): the counted edge of the limit switch in the direction of motion, outside homing. -/
def limitHitL (c : Ctx) (n : Fin 4) (l : Lane) : Lane :=
  let k := n.val
  let pair := l.homePair k (if l.bit (R.SPn_STATUS_dir k) then HomeInput.neg else HomeInput.pos)
  let stood := l.bit (R.SI_DIn_STAT_state pair) && decide ((l.homeWin k : Int) ≤ sdiff l.stamp (l.rd (R.SI_DIn_TIME pair)))
  if 0 < (l.stepper k).v ∧ l.homing k = false ∧ pair ≤ 11 ∧ stood = true then (l.homeLevel k pair true).limitStop c k else l

/-- CMP_ARM (R313 to R315): the write of SPn_CMP_HI arms the compare and is judged against the position and motion, after a
step that falls due in the same cycle. -/
def cmpArmL (c : Ctx) (n : Fin 4) (value : Word) (l : Lane) : Lane :=
  let k := n.val
  let a := R.SPn_CMP k
  if stepperCount c.part.member ≤ k then { l with bus := .error }
  else
    let cmp : W40 := value.setWidth 8 ++ (tabGet l.staging a).getD (l.rd a)
    let l0 : Lane := { l with staging := tabDel l.staging a, bus := .done }
    if l0.stepDue c k then l0.setStepper k { l0.stepper k with cmpLate := some cmp } else l0.armCmp k cmp

/-- CMP_DISARM (R313, R323). -/
def cmpDisarmL (c : Ctx) (n : Fin 4) (l : Lane) : Lane :=
  if stepperCount c.part.member ≤ n.val then { l with bus := .error }
  else { l.put (R.SPn_STATUS_cmp_armed n.val) 0 with bus := .done }

/-- The currents of one stepper channel at reset (R306, R323): cur_hi is i_ceil where nothing was retained, i_run is cur_hi
where none was, and i_hold is never above i_ceil. -/
def Lane.settleCurrent (l : Lane) (n : Nat) : Lane :=
  let ceil := l.get (R.SPn_I_LIMITS_i_ceil n)
  let l1 := if l.get (R.SPn_CUR_ENV_cur_hi n) = 0 then l.put (R.SPn_CUR_ENV_cur_hi n) ceil else l
  let l2 := if l1.get (R.SPn_CUR_i_run n) = 0 then l1.put (R.SPn_CUR_i_run n) (l1.get (R.SPn_CUR_ENV_cur_hi n)) else l1
  l2.put (R.SPn_I_LIMITS_i_hold n) (min (l2.get (R.SPn_I_LIMITS_i_hold n)) ceil)

/-- The currents of every stepper channel. -/
def Lane.settleCurrents (c : Ctx) (l : Lane) : Lane :=
  (List.range (stepperCount c.part.member)).foldl (fun y n => y.settleCurrent n) l

/-- CUR_ENV_WRITE (R306, R514): ignored with cur_lo below 100 mA or above cur_hi, or cur_hi above i_ceil; a valid envelope
waits for the next heat boundary. -/
def curEnvWriteL (c : Ctx) (n : Fin 4) (value : Word) (l : Lane) : Lane :=
  let k := n.val
  let lo := value.toNat % 65536
  let hi := value.toNat / 65536
  if stepperCount c.part.member ≤ k then { l with bus := .error }
  else if 100 ≤ lo ∧ lo ≤ hi ∧ hi ≤ l.get (R.SPn_I_LIMITS_i_ceil k) then
    { l with staging := tabPut l.staging (R.SPn_CUR_ENV k) value, bus := .done }
  else { l with bus := .done }

/-- A stepper's envelope that waits takes effect at a heat boundary, and i_run is moved to the nearer bound (R514), but not while the
latch of its stage holds the phase current (R59). -/
def Lane.curHeat (l : Lane) (n : Nat) : Lane :=
  match tabGet l.staging (R.SPn_CUR_ENV n) with
  | some w =>
    let l1 := { l.wr (R.SPn_CUR_ENV n) w with staging := tabDel l.staging (R.SPn_CUR_ENV n) }
    let i := l1.get (R.SPn_CUR_i_run n)
    if l1.latchHold.getLsbD (8 + n) then l1 else
    l1.put (R.SPn_CUR_i_run n) (min (max i (l1.get (R.SPn_CUR_ENV_cur_lo n))) (l1.get (R.SPn_CUR_ENV_cur_hi n)))
  | none => l

/-- Start-up homing of a spool that ended ABORTED or FAILED is started once more; a second failure is a class 0x4 fault of
the active lane (R534). -/
def Lane.homeRetry (c : Ctx) (l : Lane) (n : Nat) : Lane :=
  let ended := decide (l.homeState n = homeAborted) || decide (l.homeState n = homeFailed)
  if l.active && !l.st.ready && decide (l.spRole n = 1) && ended && l.bit (R.SPn_STATUS_homing_required n) then
    match tabGet l.st.homeTry n with
    | some 1 => { l with st := { l.st with homeTry := tabPut l.st.homeTry n 2 } }.startHoming c n
    | some 2 => l.spoolFault c n
    | _ => l
  else l

/-- A channel starts from rest at its own position, as after a takeover (R322); one whose homing has FAILED stands there (R310). -/
def Lane.restStepper (c : Ctx) (l : Lane) (n : Nat) : Lane :=
  let l0 := l.stopSteps n
  let l1 := if (l.stepper n).braking then l0.stopped n else l0
  if l1.bit (R.SPn_STATUS_homing_required n) then l1 else l1.runProfile c n

/-! ### The commands -/

/-- STEP_ISSUE. -/
def execStepIssue (ln : LaneId) (n : Fin 4) (lv : BitVec 10) (s : State) : Answer :=
  onAlive ln (fun c l => stepIssueL c n lv l) s

/-- TARGET_WRITE. -/
def execTargetWrite (ln : LaneId) (n : Fin 4) (value : Word) (s : State) : Answer :=
  onAlive ln (fun c l => targetWriteL c n value l) s

/-- HOLD_CURRENT_TIMEOUT. -/
def execHoldCurrentTimeout (ln : LaneId) (n : Fin 4) (s : State) : Answer :=
  onAlive ln (fun c l => holdCurrentTimeoutL c n l) s

/-- STEPPER_DRIVER_FAULT. -/
def execStepperDriverFault (ln : LaneId) (n : Fin 4) (kind : Fin 4) (s : State) : Answer :=
  onAlive ln (fun c l => stepperDriverFaultL c n kind l) s

/-- HOME_COMMAND. -/
def execHomeCommand (ln : LaneId) (n : Fin 4) (s : State) : Answer := onAlive ln (fun c l => homeCommandL c n l) s

/-- STOP_COMMAND. -/
def execStopCommand (ln : LaneId) (n : Fin 4) (s : State) : Answer := onAlive ln (fun c l => stopCommandL c n l) s

/-- HOMING_EDGE. -/
def execHomingEdge (ln : LaneId) (n : Fin 4) (input : HomeInput) (active : Bool) (stamp : Word) (chatter : Bool)
    (s : State) : Answer := onAlive ln (fun c l => homingEdgeL c n input active stamp chatter l) s

/-- LIMIT_HIT. -/
def execLimitHit (ln : LaneId) (n : Fin 4) (s : State) : Answer := onAlive ln (fun c l => limitHitL c n l) s

/-- CMP_ARM. -/
def execCmpArm (ln : LaneId) (n : Fin 4) (value : Word) (s : State) : Answer := onAlive ln (fun c l => cmpArmL c n value l) s

/-- CMP_DISARM. -/
def execCmpDisarm (ln : LaneId) (n : Fin 4) (s : State) : Answer := onAlive ln (fun c l => cmpDisarmL c n l) s

/-- CUR_ENV_WRITE. -/
def execCurEnvWrite (ln : LaneId) (n : Fin 4) (value : Word) (s : State) : Answer :=
  onAlive ln (fun c l => curEnvWriteL c n value l) s

end Sys2Proof.Machine
end

