-- ==== Sys2Proof/Machine/Power.lean ====
section
/-! DEFINITION. Power states (R443 to R469): requests and STILL, the sleep vote, the point of no return and entry, wake and
the retention store, pads, presence, and loss of supply. -/

namespace Sys2Proof.Machine

/-- PW_STATUS.state: 0 RUN, 1 STILL, 2 VOTING, 3 COMMITTING, 4 ENTERING, 5 WAKING. -/
def Lane.pwState (l : Lane) : Nat := l.get R.PW_STATUS_state

/-- A change of the power state sets state_change (R469). -/
def Lane.setPw (l : Lane) (st : Nat) : Lane :=
  if l.pwState = st then l else (l.put R.PW_STATUS_state st).flag R.PW_FLAGS_state_change

/-- PW_AON_NOW: ticks of 32.768 kHz since always-on reset (R469). -/
def Lane.aonNow (c : Ctx) (l : Lane) : Nat := (c.now - l.pw.aonFrom) * 32768 / 1000000000

/-! ### Requests and STILL (R445, R446) -/

/-- STILL may be entered (R446): not engaged, parked, no zone, no decision. -/
def Lane.mayRest (c : Ctx) (l : Lane) : Bool :=
  !l.engaged && l.parked && !l.zoneNow c && l.baton.decision.isNone

/-- STILL is entered (R443, R446): bridges, solenoid drivers and safety outputs off, the steppers at i_hold, no demand in
force, and the dwell stops counting. -/
def Lane.enterStill (c : Ctx) (l : Lane) : Lane :=
  let l1 := ((l.setPw 1).disableAll c).stagesOff 0x00FF00FF
  let l2 := (List.range (stepperCount c.part.member)).foldl (fun y n => y.put (R.SPn_STATUS_hold_current n) 1) l1
  let left := l2.baton.dwellEnds.map (fun t => t - c.now)
  let l2 := if l2.active then l2.stagesOn (handedMask c.part.member &&& 0xF00) else l2
  let l3 := { l2 with demand := [], pw := { l2.pw with dwellLeft := left }, baton := { l2.baton with dwellEnds := none } }
  ((l3.put R.BK_STATUS_mode 0).wr R.BK_DEMAND 0).wr R.LM_ROT_NEXT 0xFFFFFFFF

/-- The dwell that was left goes on (R446, R461). -/
def Lane.resumeDwell (c : Ctx) (l : Lane) : Lane :=
  match l.pw.dwellLeft with
  | some d => { l with pw := { l.pw with dwellLeft := none }, baton := { l.baton with dwellEnds := some (c.now + d) } }
  | none => l

/-- RUN is entered again (R446): the dwell goes on, and the active lane's outputs follow their commands (R356). -/
def Lane.enterRun (c : Ctx) (l : Lane) : Lane :=
  let l1 := (l.setPw 0).resumeDwell c
  (List.range 8).foldl (fun y k => y.driveOutput c k (Nat.testBit (y.get R.SI_DO_STATE_cmd) k)) l1

/-! ### The sleep vote (R447 to R450) -/

/-- Some channel's stage or motor breaks the rule of its row of R447. -/
def Lane.anyMotor (c : Ctx) (l : Lane) (bad : Lane → Nat → Bool) : Bool :=
  (List.range (motorCount c.part.member)).any (fun ch => bad l ch)

/-- The wake pin is high: 1 ms from its edge at least (R453). -/
def Lane.pinHigh (c : Ctx) (l : Lane) : Bool :=
  match l.pw.pinAt with
  | some t => decide (c.now ≤ t + 1000000)
  | none => false

/-- The first unit that refuses a NAP or DORMANT request, with its reason, in the order of R447's table. DESIGN CHOICE (log 52): no
command carries the level of the wake pin, so it counts as active for the 1 ms from its edge through which R453 has it high; delay_s is
in whole seconds, so that one other than 0 is never below 1 s. -/
def Lane.firstRefusal (c : Ctx) (l : Lane) : Option (Nat × Nat) :=
  if l.zoneNow c || l.baton.decision.isSome || l.baton.pass.isSome then some (0, 1)
  else if !l.parked then some (1, 2)
  else if l.mcState 0 ≠ mcOff ∨ l.isStill 0 = false then some (3, 3)
  else if l.anyMotor c (fun y ch => decide (ch = 1) && (decide (y.mcState ch ≠ mcOff) || !y.isStill ch)) then some (4, 3)
  else if l.bit (R.PS_STATUS_asc 0) || l.bit (R.PS_CTRL_asc_test 0) || l.bit (R.PS_STATUS_chop_on 0) then some (5, 4)
  else if l.anyMotor c (fun y ch => decide (ch = 1) &&
      (y.bit (R.PS_STATUS_asc ch) || y.bit (R.PS_CTRL_asc_test ch) || y.bit (R.PS_STATUS_chop_on ch))) then some (6, 4)
  else if l.engaged || decide (l.get R.BK_PARK_state ≠ 0) then some (7, 5)
  else if (List.range 4).any (fun n => decide (0 < (l.stepper n).v) || l.homing n) then some (8, 6)
  else if l.get R.SI_DO_STATE_cmd ≠ 0 then some (10, 7)
  else if l.cf.txn.isSome then some (16, 8)
  else if l.bit R.HA_STATUS_writing then some (17, 9)
  else if l.bit R.CF_STATUS_session then some (19, 10)
  else if l.pinHigh c then some (15, 11)
  else if l.bit R.PW_FW_VOTE_refuse then some (20, 13)
  else none

/-- The word of the power vote connection (R449): vote 1 READY, 2 REFUSE, 3 COMMIT, 4 ABORT. -/
def voteWord (number target vote : Nat) : Word := BitVec.ofNat 32 (number * 65536 + target * 16 + vote)

/-- A vote sent on the lane's power vote connection. -/
def Lane.sendVote (l : Lane) (number target vote : Nat) : Lane :=
  l.produce l.image.lib.voteConn [voteWord number target vote]

/-- A refusal recorded (R447): the first one is kept until the next vote. -/
def Lane.recordRefusal (c : Ctx) (l : Lane) (number unit reason : Nat) : Lane :=
  let l1 := ((((l.put R.PW_REFUSAL_number number).put R.PW_REFUSAL_lane (laneCode c.id)).put R.PW_REFUSAL_reason reason).put
    R.PW_REFUSAL_unit unit).stampAt R.PW_REFUSAL_TIME
  l1.flagIf (decide (reason = 14 ∨ reason = 15)) R.PW_FLAGS_vote_timeout

/-- LOCAL_VOTE_START (R447): every unit of a fit lane answers; on READY they stop (R448). An unfit lane does not vote. -/
def Lane.startVote (c : Ctx) (l : Lane) (number target : Nat) : Lane :=
  if !l.fit then l
  else
    let no := l.firstRefusal c
    let v : Vote := ⟨number, target, c.now, l.get R.LM_ROLE_fit_lanes, no.isSome, if no.isSome then 2 else 1⟩
    let l1 := { l.setPw 2 with pw := { l.pw with vote := some v } }
    let l2 := match no with
      | some (u, r) => (l1.recordRefusal c number u r).flag R.PW_FLAGS_vote_refused
      | none => l1
    l2.sendVote number target v.sent

/-- VOTE_ROLLBACK (R448 to R450): the units start again at the next heat boundary, ABORT is sent, and the lanes that had sent COMMIT
are to be pulsed. -/
def Lane.rollBack (c : Ctx) (l : Lane) (committed : List LaneId) : Lane :=
  match l.pw.vote with
  | none => l
  | some v =>
    let l1 := { l.setPw 1 with pw := { l.pw with vote := none, halted := true, endedAt := some c.now, pulses := committed } }
    (l1.flag R.PW_FLAGS_vote_aborted).sendVote v.number v.target 4

/-- POWER_REQUEST (R445, R446, R468): the delivered request at the heat boundary it is assigned to. -/
def powerRequestL (c : Ctx) (w0 w1 : Word) (l : Lane) : Lane :=
  let number := w0.toNat / 65536
  let target := w0.toNat % 8
  if number = l.get R.PW_REQ_number then l
  else if 4 ≤ target ∨ w0.toNat / 8 % 32 ≠ 0 then l.flag R.PW_FLAGS_request_refused
  else
    let l0 := l.rollBack c []
    let l1 := ((l0.put R.PW_REQ_number number).put R.PW_REQ_wake_en (w0.toNat / 256 % 256)).put R.PW_REQ_target target
    let l2 := ((l1.wr R.PW_REQ_DELAY w1).put R.PW_STATUS_req number).put R.PW_STATUS_target target
    if l2.pwState = 0 then
      (if target = 0 then l2
       else if target = 1 ∧ l2.mayRest c = true then l2.enterStill c
       else l2.flag R.PW_FLAGS_request_refused)
    else if l2.pwState = 1 then
      (if target = 0 then l2.enterRun c else if target = 1 then l2 else l2.startVote c number target)
    else l2

/-- POWER_REQUEST. -/
def execPowerRequest (ln : LaneId) (w0 w1 : Word) (s : State) : Answer := onAlive ln (fun c l => powerRequestL c w0 w1 l) s

/-- The vote window of a lane in ns (R447). -/
def Lane.voteWindow (l : Lane) : Nat := l.get R.PW_VOTE_CFG_window_ms * 1000000

/-- VOTE_WINDOW_EXPIRY (R447): a unit that has not answered within the window counts as refusing with reason 14. -/
def voteWindowExpiryL (c : Ctx) (unit : Fin 22) (l : Lane) : Lane :=
  match l.pw.vote with
  | some v =>
    if l.pwState = 2 ∧ v.refused = false ∧ v.startedAt + l.voteWindow ≤ c.now then
      let l1 := (l.recordRefusal c v.number unit.val 14).flag R.PW_FLAGS_vote_refused
      ({ l1 with pw := { l1.pw with vote := some { v with refused := true, sent := 2 } } }).sendVote v.number v.target 2
    else l
  | none => l

/-- VOTE_WINDOW_EXPIRY. -/
def execVoteWindowExpiry (ln : LaneId) (unit : Fin 22) (s : State) : Answer := onAlive ln (fun c l => voteWindowExpiryL c unit l) s

/-- The vote that a lane sent for a request, among the words received in this cycle (R449). -/
def voteFrom (others : List (LaneId × Word)) (number target : Nat) (x : LaneId) : Nat :=
  match others.find? (fun p => decide (p.1 = x ∧ p.2.toNat / 65536 = number ∧ p.2.toNat / 16 % 8 = target)) with
  | some p => p.2.toNat % 16
  | none => 0

/-- PONR (R426, R451): wake latching is armed, the node goes to OFF, timers are disarmed, the scheduler stops, and outputs,
test pulses and sensor supplies go off; stepper drivers stay on for the ramp of their current to 0 (R318). -/
def Lane.ponr (c : Ctx) (l : Lane) : Lane :=
  let en := (l.get R.PW_REQ_wake_en) % 16 / 2 * 2 + 17
  let delay := (l.rd R.PW_REQ_DELAY).toNat
  let l1 := (((l.setPw 4).flag R.PW_FLAGS_entered).wr R.PW_WAKE_EN (BitVec.ofNat 32 en)).putB R.PW_STATUS_listener l.active
  let l2 := (l1.put R.PW_RET_STAT_entries (l1.get R.PW_RET_STAT_entries + 1)).wr R.PW_WAKE_CAUSE 0
  let l3 := if delay = 0 then l2 else l2.putU R.PW_WAKE_AT (l.aonNow c + delay * 32768)
  let l4 := (l3.nxGo c nxOff).disableAll c
  let l5 := (List.range 64).foldl (fun y t => y.put (R.TMt_CFG_armed t) 0) l4
  let l6 := ((l5.stagesOff 0xFFFFF0FF).put (R.SI_SUP_on 0) 0).put (R.SI_SUP_on 1) 0
  let l7 := ((l6.put R.SI_TP_STAT_pulsing 0).setLines false).dropLegs
  { l7 with
    refresh := false
    ea := { l7.ea with started := false, engines := l7.ea.engines.map (fun x => { x with gated := true }) }
    pw := { l7.pw with vote := none, halted := false, endedAt := some c.now, ponrAt := some c.now, saved := false } }

/-- POWER_VOTE_NIT (R449, R450): at the start of a NIT with an open vote; an unfit lane follows when every fit lane has sent
COMMIT. -/
def powerVoteNitL (c : Ctx) (others : List (LaneId × Word)) (l : Lane) : Lane :=
  match l.pw.vote with
  | none =>
    let q := l.get R.PW_REQ_number
    let t := l.get R.PW_REQ_target
    let fit := (othersOf c).filter l.knowsFit
    if l.role = roleUnfit ∧ l.pwState = 1 ∧ 2 ≤ t ∧ fit ≠ [] ∧ fit.all (fun x => decide (voteFrom others q t x = 3)) = true then
      l.ponr c
    else l
  | some v =>
    let exp := (othersOf c).filter (fun x => maskHas v.fit x)
    let got := fun x => voteFrom others v.number v.target x
    let sure := exp.filter (fun x => decide (got x = 3))
    if v.refused || exp.any (fun x => decide (got x = 2) || decide (got x = 4)) then l.rollBack c sure
    else if l.get R.LM_ROLE_fit_lanes ≠ v.fit then l.rollBack c sure
    else if l.pwState = 2 then
      if exp = [] then l.ponr c
      else if exp.all (fun x => decide (got x = 1) || decide (got x = 3)) then
        ({ l.setPw 3 with pw := { l.pw with vote := some { v with sent := 3 } } }).sendVote v.number v.target 3
      else if v.startedAt + l.voteWindow + 4 * l.cycleLen ≤ c.now then (l.recordRefusal c v.number 21 15).rollBack c sure
      else l.sendVote v.number v.target 1
    else if exp.all (fun x => decide (got x = 3)) then l.ponr c
    else (l.recordRefusal c v.number 21 15).rollBack c sure

/-- POWER_VOTE_NIT. -/
def execPowerVoteNit (ln : LaneId) (others : List (LaneId × Word)) (s : State) : Answer :=
  onAlive ln (fun c l => powerVoteNitL c others l) s

/-! ### Entry and the retention store (R451, R458 to R461) -/

/-- The registers of bank 0 (R460). -/
def bank0Regs : List Nat :=
  [R.PW_REQ, R.LM_ROLE, R.LM_PIN, R.FC_SCRATCH, R.FC_BLOCKS, R.FC_MODE, R.FC_FAULT0, R.FC_FAULT0_TIME, R.FC_FAULT1] ++
    [R.FC_FAULT1_TIME, R.PW_SLEEP_STAMP, R.PW_SLEEP_AON, R.PW_SLEEP_AON + 4]

/-- The registers of bank 1 (R460), of which it holds pos, target, i_run and homing state of each channel. -/
def bank1Regs (m : Member) : List Nat :=
  (List.range (stepperCount m)).flatMap (fun n =>
    [R.SPn_POS n, R.SPn_POS n + 4, R.SPn_TARGET n, R.SPn_TARGET n + 4, R.SPn_CUR n, R.SPn_HOME_STAT n, R.SPn_STATUS n])

/-- The registers of bank 2 (R460). -/
def bank2Regs : List Nat := (List.range 128).map R.PW_RETFWw

/-- The registers of bank 3 (R460): the envelopes and the dither amplitudes. -/
def bank3Regs (m : Member) : List Nat :=
  [R.LM_ROT_ENV] ++ (List.range (motorCount m)).map R.MC_OBS_ENV ++
    (List.range (solenoidCount m)).flatMap (fun n => [R.BKn_DITHER_ENV n, R.BKn_DITHER n]) ++
    (List.range (stepperCount m)).map R.SPn_CUR_ENV

/-- The registers of a bank. -/
def bankRegs (m : Member) : Nat → List Nat
  | 0 => bank0Regs
  | 1 => bank1Regs m
  | 2 => bank2Regs
  | _ => bank3Regs m

/-- Corrected errors of all memories since lane reset. -/
def Lane.ceTotal (l : Lane) : Nat := (l.fc.ce.map (fun p => p.2)).sum

/-- The life counters with what this power cycle added to them (R509). -/
def Lane.lifeCounts (l : Lane) : LifeCounts :=
  let k := l.ha.counts
  let los := l.evtCount (R.MC_FLAGS_los 0) + l.evtCount (R.MC_FLAGS_los 1)
  { k with
    los := k.los + BitVec.ofNat 32 los
    chopS := k.chopS + BitVec.ofNat 32 (l.ha.chopNs / 1000000000)
    ce := k.ce + BitVec.ofNat 32 l.ceTotal
    conflictHours := BitVec.ofNat 32 (l.get R.HA_CONFLICT_hours) }

/-- A number of 64 bits in two granules, the lower half first. -/
def wideWords (n : Nat) : List Word := [BitVec.ofNat 32 n, BitVec.ofNat 32 (n / 2 ^ 32)]

/-- The shunt offsets of both channels as bank 3 holds them (R460), and which are valid. -/
def Lane.offsetWords (l : Lane) : List Word :=
  let off := fun (ch ph : Nat) => wideWords (BitVec.ofInt 64 ((((l.mc ch).offs[ph]?).getD 0) : Int)).toNat
  [0, 1].flatMap (fun ch => [0, 1, 2].flatMap (off ch)) ++
    [BitVec.ofNat 32 ((l.get (R.PS_STATUS_offset_valid 0)) + 2 * l.get (R.PS_STATUS_offset_valid 1))]

/-- What a bank holds after its registers (R460): the times left of dwell and pin in ns, or the shunt offsets. -/
def Lane.bankRest (c : Ctx) (l : Lane) : Nat → List Word
  | 0 => wideWords (match l.pw.dwellLeft with
      | some d => d
      | none => 2 ^ 64 - 1) ++ wideWords (match l.baton.pinEnds with
      | some t => t - c.now
      | none => 0)
  | 3 => l.offsetWords
  | _ => []

/-- The granules of a bank (R458, R460). DESIGN CHOICE (log 52): its registers in the order of the model's lists, then the rest; the
spec gives no places inside a bank. -/
def Lane.bankWords (c : Ctx) (l : Lane) (k : Nat) : List Word :=
  ((bankRegs c.part.member k).map l.rd ++ l.bankRest c k ++ List.replicate 128 0).take 128

/-- The check word of a bank with this content at this entry count (R458): CRC-16, marker 0x5A, low 8 bits of the count. -/
def bankCheck (ws : List Word) (entries : Nat) : Word :=
  crc16 (ws.flatMap wordBytes) ++ (0x5A : Byte) ++ BitVec.ofNat 8 entries

/-- A bank as the save leaves it (R458, R460). -/
def Lane.saveBank (c : Ctx) (l : Lane) (k : Nat) : RetBank :=
  let ws := l.bankWords c k
  let b : RetBank := { (default : RetBank) with words := ws, check := bankCheck ws (l.get R.PW_RET_STAT_entries) }
  if k = 3 then
    { b with mons := l.ha.mons, reversals := l.ha.reversals, miner := l.ha.miner, opNs := l.ha.opNs, counts := l.lifeCounts }
  else b

/-- The four banks as the save leaves them. -/
def Lane.savedBanks (c : Ctx) (l : Lane) : Tab RetBank := [0, 1, 2, 3].map (fun k => (k, l.saveBank c k))

/-- RETENTION_SAVE (R318, R451, R459): from 20 ms after the point of no return, where the stepper currents have come to 0 and their
drivers go off. -/
def retentionSaveL (c : Ctx) (l : Lane) : Lane :=
  match l.pw.ponrAt with
  | some t =>
    if l.pwState = 4 ∧ l.pw.saved = false ∧ t + 20000000 ≤ c.now then
      { l.stagesOff 0xFFFFFFFF with pw := { l.pw with saved := true, banks := l.savedBanks c } }
    else l
  | none => l

/-- RETENTION_SAVE. -/
def execRetentionSave (ln : LaneId) (s : State) : Answer := onPowered ln (fun c l => retentionSaveL c l) s

/-- SLEEP_ENTRY_COMPLETE (R451, R452, R462): 20.2 ms after the point of no return; in DORMANT the pads are held. A lane with a wake
event latched wakes at once. -/
def sleepEntryCompleteL (c : Ctx) (l : Lane) : Lane :=
  match l.pw.ponrAt with
  | some t =>
    if l.pwState = 4 ∧ l.pw.saved = true ∧ t + 20200000 ≤ c.now then
      let l1 := (l.stampAt R.PW_SLEEP_STAMP).putU R.PW_SLEEP_AON (l.aonNow c)
      let l2 := if l.get R.PW_WAKE_CAUSE_sources = 0 then l1 else l1.setPw 5
      if l.get R.PW_STATUS_target = 3 then { l2.put R.PW_STATUS_pads_held 1 with phase := .asleepDormant }
      else { l2 with phase := .asleepNap }
    else l
  | none => l

/-- A lane without supply, or in DORMANT, drives no vote line (R46, as of the takeover lines of R44): its votes end at their targets. -/
def State.votesEnd (s : State) (ln : LaneId) : State :=
  (othersOf (s.ctx ln)).foldl (fun t x =>
    let l := t.lane x
    if (l.peer ln).inAt.isSome && (l.peer ln).outAt.isNone then
      t.setLane x ((l.put R.LM_VOTE_votes_in (maskSet (l.get R.LM_VOTE_votes_in) ln false)).setPeer ln
        { l.peer ln with outAt := some (t.ctx x).now })
    else t) s

/-- A command after which a lane may be off or in DORMANT, where it drives no vote line. -/
def votesEndAfter (ln : LaneId) : Answer → Answer
  | .next t => if (t.lane ln).phase = .off ∨ (t.lane ln).phase = .asleepDormant then .next (t.votesEnd ln) else .next t
  | a => a

/-- SLEEP_ENTRY_COMPLETE. -/
def execSleepEntryComplete (ln : LaneId) (s : State) : Answer :=
  votesEndAfter ln (supplyAfter (onPowered ln (fun c l => sleepEntryCompleteL c l) s))

/-! ### Wake (R452 to R457) -/

/-- A lane sleeps. -/
def Lane.asleep (l : Lane) : Bool := decide (l.phase = .asleepNap) || decide (l.phase = .asleepDormant)

/-- The stamp of a wake event in a sleeping lane, by the always-on count (R457). -/
def Lane.extrapolated (c : Ctx) (l : Lane) : Word :=
  l.rd R.PW_SLEEP_STAMP + BitVec.ofInt 32
    (nearest (((l.aonNow c : Int) - (l.u R.PW_SLEEP_AON : Int) : Int) * mkRat 30517578125 1000000))

/-- A source may wake the lane into which sleep it goes or is (R453). -/
def Lane.wakeEnabled (l : Lane) (src : Nat) : Bool :=
  let en := Nat.testBit (l.get R.PW_WAKE_EN_sources) src
  if src = 2 ∨ src = 3 then en && l.bit R.PW_STATUS_listener && decide (l.get R.PW_STATUS_target = 2) else en

/-- The wake timer is due (R453): by the signed 40-bit difference. -/
def Lane.timerDue (c : Ctx) (l : Lane) : Bool :=
  decide (0 ≤ ((BitVec.ofNat 40 (l.aonNow c) - l.pair R.PW_WAKE_AT : W40)).toInt) && decide (l.rd R.PW_REQ_DELAY ≠ 0)

/-- A wake event latched after the point of no return (R452, R453, R457): the first one gives the stamp. A lane asleep is then WAKING
(R469). -/
def Lane.latchWake (c : Ctx) (l : Lane) (src : Nat) : Lane :=
  if !l.wakeEnabled src || (decide (src = 1) && !l.timerDue c) then l
  else
    let old := l.get R.PW_WAKE_CAUSE_sources
    let l0 := if l.asleep then l.setPw 5 else l
    let l1 := l0.put R.PW_WAKE_CAUSE_sources (bitPut old src true)
    if old = 0 then
      (if l.asleep then (l1.put R.PW_WAKE_CAUSE_extrapolated 1).wr R.PW_WAKE_STAMP (l.extrapolated c)
       else (l1.put R.PW_WAKE_CAUSE_replayed 1).stampAt R.PW_WAKE_STAMP)
    else l1

/-- WAKE_EVENT in one lane (R452, R453): before the point of no return it aborts an open vote, after it, it is latched. An
awake lane ignores a peer pulse (R454). -/
def wakeEventL (c : Ctx) (src : Fin 5) (l : Lane) : Lane :=
  if l.asleep || (l.powered && decide (l.pwState = 4)) then l.latchWake c src.val
  else if l.alive then
    let l0 := if src.val = 0 then { l with pw := { l.pw with pinAt := some c.now } } else l
    let l1 := if src.val = 3 then l0.flag (R.CNk_FLAGS_wake 0) else l0
    match l1.pw.vote with
    | some v =>
      let hears := decide (src.val = 0) ||
        ((decide (src.val = 2) || decide (src.val = 3)) && decide (v.target = 2) && l1.active &&
          Nat.testBit (l1.get R.PW_REQ_wake_en) src.val)
      if hears then l1.rollBack c [] else l1
    | none => l1
  else l

/-- WAKE_EVENT. -/
def execWakeEvent (ln : LaneId) (source : Fin 5) (s : State) : Answer := onLane ln (fun c l => wakeEventL c source l) s

/-- A wake pulse arrives at a lane (R454). -/
def State.pulse (s : State) (x : LaneId) : State :=
  if s.has x then s.setLane x (wakeEventL (s.ctx x) 4 (s.lane x)) else s

/-- Wake pulses arrive at several lanes. -/
def State.pulseAll (s : State) : List LaneId → State
  | [] => s
  | x :: t => (s.pulse x).pulseAll t

/-- The lane drives no output (R44, R454): no bridge switches or is held in active short circuit, and no solenoid driver or safety
output is on. Stepper drivers that hold their position in STILL (R443) and the lines of the lane that holds the baton there are no
driven outputs of this rule, by R454's own words for STILL (DEDUCED, log 52). -/
def Lane.drivesNothing (c : Ctx) (l : Lane) : Bool :=
  decide (l.stageOn &&& handedMask c.part.member &&& 0x00FF00FF = 0) &&
    (List.range (motorCount c.part.member)).all (fun ch => !l.bit (R.PS_STATUS_switching ch) && !l.bit (R.PS_STATUS_asc ch))

/-- WAKE_PULSE_SEND (R44, R450, R454): a woken lane pulses every other lane, once; a lane that rolled back pulses those that had sent
COMMIT. A pulse is sent only while no output is driven. -/
def execWakePulseSend (ln : LaneId) (s : State) : Answer :=
  if s.has ln && (s.lane ln).alive && (s.lane ln).drivesNothing (s.ctx ln) then
    let l := s.lane ln
    .next ((s.setLane ln { l with pw := { l.pw with pulses := [] } }).pulseAll l.pw.pulses)
  else .next s

/-- A sensor supply comes on with the lane (R368); one that a fault keeps off stays off (R367). -/
def Lane.supplyBack (l : Lane) (s : Nat) : Lane :=
  if l.bit (R.SI_SUP_latched s) || l.bit (R.SI_SUP_fault s) then l
  else (l.put (R.SI_SUP_on s) 1).stagesOn (BitVec.ofNat 32 (2 ^ (24 + s)))

/-- The sensor supplies come on at lane power-up and at a wake (R368). -/
def Lane.suppliesOn (l : Lane) : Lane := (l.supplyBack 0).supplyBack 1

/-- What stays of a lane through a reset: its flash, its connector, the lines and the votes that stand into it, and the free values'
counter. -/
def Lane.reborn (c : Ctx) (l : Lane) : Lane :=
  let keep := fun (p : Peer) => { (default : Peer) with line := p.line, lineAt := p.lineAt, inAt := if p.outAt.isNone then p.inAt else none }
  let l1 := Lane.fresh c.part (laneCode c.id) l.free
  let l2 := l1.put R.PW_STATUS_presence (l.get R.PW_STATUS_presence)
  { l2 with
    phase := .boot
    mem := l.mem.filter (fun e => decide (0x30000000 ≤ e.1 ∧ e.1 < 0x32000000))
    tm := 0
    drift := l.drift
    mc0 := { l2.mc0 with catchFrom := some c.now }
    mc1 := { l2.mc1 with catchFrom := some c.now }
    peerA := keep l.peerA
    peerB := keep l.peerB
    peerC := keep l.peerC
    pw := { l2.pw with closedAt := l.pw.closedAt, aonFrom := c.now }
    ha := { l2.ha with kept := l.ha.kept }
    cf := { l2.cf with lost := l.cf.lost } }

/-! ### Pads, presence and supply (R76, R462 to R467, R544) -/

/-- PAD_RELEASE (R462): 0xC3 releases held pads, which take the states of the running units: the sensor supplies are on (R368), and
a CAN controller starts what waits. -/
def padReleaseL (value : Word) (l : Lane) : Lane :=
  let l0 := { l with bus := .done }
  if value.toNat % 256 ≠ 0xC3 then l0
  else if l.bit R.PW_STATUS_pads_held then ((l0.put R.PW_STATUS_pads_held 0).suppliesOn).canStarts
  else l0

/-- PAD_RELEASE. -/
def execPadRelease (ln : LaneId) (value : Word) (s : State) : Answer := onAlive ln (fun _ l => padReleaseL value l) s

/-- PAD_TIMEOUT (R462): 100 ms after the boot ROM completed. -/
def padTimeoutL (c : Ctx) (l : Lane) : Lane :=
  match l.pw.bootAt with
  | some t =>
    if l.bit R.PW_STATUS_pads_held = true ∧ t + 100000000 ≤ c.now then (l.flag R.PW_FLAGS_pad_timeout).logicFault c 0xC else l
  | none => l

/-- PAD_TIMEOUT. -/
def execPadTimeout (ln : LaneId) (s : State) : Answer := onAlive ln (fun c l => padTimeoutL c l) s

/-- Whether a withdrawal after an opening now is a removal that is not counted (R466). -/
def Lane.removable (l : Lane) : Bool := l.parked && !l.engaged && decide (l.pwState ≤ 1)

/-- A lane withdraws (R466): unfit with cause 0x6, its outputs off and its node in PASSIVE; as a removal, which is not
counted, where the module was parked and not engaged at the opening. Before the award the lane is counted there, as an unfit
one (R533, R537). -/
def Lane.withdraw (c : Ctx) (l : Lane) : Lane :=
  let free := l.pw.removal
  (l.flagIf free R.PW_FLAGS_removal).becomeUnfit c 6 (if free || l.st.awardAt.isNone then 0 else 3) 6 .withdraw

/-- An active lane whose presence has opened hands over first, by an urgent pass, and withdraws; with no other fit lane it
withdraws at once, and the park brake applies by its spring (R466). -/
def Lane.leaveNow (c : Ctx) (l : Lane) : Lane :=
  let l1 := { l with baton := { l.baton with request := none } }
  match l1.nextFit c with
  | some _ => l1.urgentPass c 6
  | none => (l1.withdraw c).setPark c 0

/-- A presence opening waits for the end of a zone or of an urgent pass. -/
def Lane.leaveDue (l : Lane) : Bool :=
  match l.baton.request with
  | some (cause, _) => decide (cause = 6)
  | none => false

/-- The presence opening is kept for the end of the pass. -/
def Lane.leaveLater (l : Lane) : Lane := { l with baton := { l.baton with request := some (6, none) } }

/-- A pass that a presence opening does not end: it is in its zone, or urgent. -/
def Lane.passBound (l : Lane) : Bool :=
  match l.baton.pass with
  | some p => p.urgent || decide (p.phase = .zone) || decide (p.phase = .returning)
  | none => false

/-- What a lane awake does at a presence opening (R466): the active lane hands over, a standby withdraws. -/
def Lane.leave (c : Ctx) (l : Lane) : Lane :=
  if l.active then (if l.passBound then l.leaveLater else l.leaveNow c)
  else if l.role = roleUnfit then l
  else l.withdraw c

/-- A presence opening as the registers show it (R465). -/
def Lane.showOpen (c : Ctx) (l : Lane) : Lane :=
  let l0 := ((l.put R.PW_STATUS_presence 0).stampAt R.PW_PRES_TIME).flag R.PW_FLAGS_presence_open
  { l0 with pw := { l0.pw with closedAt := some c.now } }

/-- A vote rolls back and homing ends before the lane leaves (R449, R466). -/
def Lane.leaveAwake (c : Ctx) (l : Lane) : Lane :=
  let l1 := (l.rollBack c []).failAllHoming
  { l1 with pw := { l1.pw with removal := l1.removable } }.leave c

/-- PRESENCE_OPEN (R465, R466, R468): a vote rolls back; the active lane hands over first, inside a zone or an urgent pass at
its end; after the point of no return the opening is only recorded. -/
def presenceOpenL (c : Ctx) (l : Lane) : Lane :=
  let l1 := l.showOpen c
  if 4 ≤ l1.pwState then l1 else l1.leaveAwake c

/-- The contact of a lane that is off or asleep (R465, R466): only its level shows. DESIGN CHOICE (log 52): no stamp or flag, since no
TM_NOW runs there. -/
def Lane.contactSeen (c : Ctx) (l : Lane) (closed : Bool) : Lane :=
  let l1 := l.putB R.PW_STATUS_presence closed
  { l1 with pw := { l1.pw with closedAt := some c.now } }

/-- PRESENCE_OPEN. -/
def execPresenceOpen (ln : LaneId) (s : State) : Answer :=
  onLane ln (fun c l => if l.powered then presenceOpenL c l else l.contactSeen c false) s

/-- PRESENCE_CLOSE (R465, R467). -/
def presenceCloseL (c : Ctx) (l : Lane) : Lane :=
  let l1 := ((l.put R.PW_STATUS_presence 1).stampAt R.PW_PRES_TIME).flag R.PW_FLAGS_presence_close
  { l1 with pw := { l1.pw with closedAt := some c.now } }

/-- PRESENCE_CLOSE. -/
def execPresenceClose (ln : LaneId) (s : State) : Answer :=
  onLane ln (fun c l => if l.powered then presenceCloseL c l else l.contactSeen c true) s

/-- LANE_SUPPLY_RISE (R368, R411, R519): the always-on domain resets, which clears every check word, and the lane starts
from step 1 with its sensor supplies on. -/
def laneSupplyRiseL (c : Ctx) (l : Lane) : Lane :=
  if l.phase = .off then (l.reborn c).suppliesOn else l

/-- LANE_SUPPLY_RISE. -/
def execLaneSupplyRise (ln : LaneId) (s : State) : Answer := supplyAfter (onLane ln (fun c l => laneSupplyRiseL c l) s)

end Sys2Proof.Machine
end

