-- ==== Sys2Proof/Machine/Open.lean ====
section
/-! DEFINITION. Open values whose types are those of the state: constants without a body, each named in the assumption
log. -/

namespace Sys2Proof.Config

/-- The image that has a SHA-256 digest (R470 to R473, R479): the sections' byte layout beyond the header is not given by the
spec, so what an image says is left open; its digest names it. -/
opaque imageOf : BitVec 256 → Sys2Proof.Machine.Image

/-- What the calibration area gives a register (R481), by lane code, what has been written over the area's factory contents, and
address: the layout of its sectors is not given by the spec. -/
opaque calReg : Nat → List Host.Cell → Nat → BitVec 32

/-- The gain of a shunt converter that the calibration area gives, q40 (R239), by lane code, what has been written over the
area's factory contents, channel and phase. -/
opaque shuntGain : Nat → List Host.Cell → Nat → Nat → BitVec 40

end Sys2Proof.Config
end

