-- ==== Sys2Proof/Machine/RegMap.lean ====
section
/-! DEFINITION. Finding an address in the register table (R16, R18), and filling the fields that an image gives (R479). -/

namespace Sys2Proof.Machine

/-- Whether an address is one of a row's registers; a pair takes two words. -/
def rowHas (r : RegRow) (a : Nat) : Bool :=
  let d := a - r.base
  let i := if r.stride = 0 then 0 else d / r.stride
  let e := if r.stride = 0 then d else d % r.stride
  let j := if r.stride2 = 0 then 0 else e / r.stride2
  let f := if r.stride2 = 0 then e else e % r.stride2
  let w := if r.pair then 2 * r.count3 else r.count3
  decide (r.base ≤ a) && decide (i < r.count) && decide (j < r.count2) && decide (f % 4 = 0) && decide (f / 4 < w)

/-- Whether an address is the _HI register of a pair. -/
def rowHigh (r : RegRow) (a : Nat) : Bool :=
  let d := a - r.base
  let e := if r.stride = 0 then d else d % r.stride
  let f := if r.stride2 = 0 then e else e % r.stride2
  r.pair && decide (f % 8 = 4)

/-- The row of an address. -/
def findRow (a : Nat) : Option RegRow := regTable.find? (fun r => rowHas r a)

/-- The bits of a register that an image fills. EA_HURDLE0 is fixed at 3300 (R138). -/
def imageMask (a : Nat) : Word :=
  if a = R.EA_HURDLE 0 then 0
  else match findRow a with
  | some r => if rowHigh r a then (if r.image = 0 then 0 else 0xFFFFFFFF) else BitVec.ofNat 32 r.image
  | none => 0

/-- A word as its register holds it: a _HI register holds eight bits of the value, extended by its sign where the pair is q40
and by zeros where it is u40 (R18). -/
def heldWord (a : Nat) (w : Word) : Word :=
  match findRow a with
  | some r => if rowHigh r a then (if r.q40 then (w.setWidth 8).signExtend 32 else (w.setWidth 8).setWidth 32) else w
  | none => w

/-- The image fields of a lane's registers filled (R479). -/
def Lane.fillImage (l : Lane) : Bank → Lane
  | [] => l
  | (a, w) :: t =>
    let m := imageMask a
    (l.wr a ((l.rd a &&& ~~~m) ||| (heldWord a w &&& m))).fillImage t

end Sys2Proof.Machine
end

