-- ==== Sys2Proof/Machine/Service.lean ====
section
/-! DEFINITION. Configuration and service (R470 to R496): image slots, image agreement, the service port's requests, the
journal, CAN FD and Ethernet. -/

namespace Sys2Proof.Machine

/-! ### Slots (R471 to R475) -/

/-- The base address of a slot: 0 primary, 1 alternate (R21). -/
def slotBase (k : Nat) : Nat := if k = 0 then 0x30000000 else 0x30C00000

/-- The slot record (R474). -/
def slotRec (k : Nat) : Nat := slotBase k + 0xBFF000

/-- The state of a state word: the furthest one whose cleared bits are all clear (R474). -/
def stateOfWord (w : Word) : Nat :=
  if w = 0 then 4
  else if w &&& 0xFFFFFF00 = 0 then 3
  else if w &&& 0xFFFF0000 = 0 then 2
  else if w &&& 0xFF000000 = 0 then 1
  else 0

/-- The state of a slot: 0 BLANK, 1 STAGED, 2 TRIAL, 3 GOOD, 4 REJECTED. -/
def Lane.slotState (l : Lane) (k : Nat) : Nat := stateOfWord (l.granule (slotRec k))

/-- The generation of a slot; a BLANK slot counts as 0 (R474). -/
def Lane.slotGen (l : Lane) (k : Nat) : Nat := if l.slotState k = 0 then 0 else (l.granule (slotRec k + 4)).toNat

/-- The digest in a slot's record. -/
def Lane.slotDigest (l : Lane) (k : Nat) : BitVec 256 := digestOf (l.bytes (slotRec k + 12) 32)

/-- The image ID of a digest (R472). -/
def imageId (d : BitVec 256) : BitVec 64 := d.extractLsb' 192 64

/-- The state word of a state (R474). -/
def stateWord : Nat → Word
  | 1 => 0x00FFFFFF
  | 2 => 0x0000FFFF
  | 3 => 0x000000FF
  | 4 => 0
  | _ => 0xFFFFFFFF

/-- CF_SLOT_P and CF_SLOT_A show a slot's record. -/
def Lane.showSlot (l : Lane) (k : Nat) : Lane :=
  let (g, s) := if k = 0 then (R.CF_SLOT_P_generation, R.CF_SLOT_P_state) else (R.CF_SLOT_A_generation, R.CF_SLOT_A_state)
  (l.put g ((l.granule (slotRec k + 4)).toNat % 65536)).put s (l.slotState k)

/-- A slot's state moves on: bits of its state word are cleared (R474). -/
def Lane.moveSlot (l : Lane) (k st : Nat) : Lane :=
  (l.setGranule (slotRec k) (l.granule (slotRec k) &&& stateWord st)).showSlot k

/-- The header of a slot is well formed for this lane (R470, R471, R475). -/
def Lane.headerOk (c : Ctx) (l : Lane) (k : Nat) : Bool :=
  let w := fun i => (l.granule (slotBase k + 4 * i)).toNat
  let len := w 2
  let n := w 4
  let bit := match c.part.member with
    | .ts8610 => 0
    | .ts8620 => 1
    | .ts8630 => 2
  let types := (List.range n).map (fun i => w (5 + 3 * i))
  let inside := (List.range n).all (fun i => decide (w (6 + 3 * i) + w (7 + 3 * i) ≤ len))
  decide (w 0 = 0x454E4D4B) && decide (w 1 = 1) && decide (len % 4 = 0) && decide (len ≤ 0xBFF000) &&
    decide (n = 5 ∨ n = 6) && (decide (n = 5) || (types.contains 6 && c.part.marshal)) && Nat.testBit (w 3) bit && decide (Nat.testBit (w 3) 8 = c.part.marshal) &&
    decide (w 3 / 512 = 0) && decide (w 3 / 8 % 32 = 0) && [1, 2, 3, 4, 5].all (fun t => types.contains t) && inside

/-- The digest recomputed over the image bytes that a slot's header counts (R472, R475). -/
def Lane.slotHash (l : Lane) (k : Nat) : BitVec 256 := sha256 (l.bytes (slotBase k) (l.granule (slotBase k + 8)).toNat)

/-- The state of a slot lets it run (R475). -/
def Lane.slotMayRun (l : Lane) (k : Nat) : Bool := decide (l.slotState k = 2) || decide (l.slotState k = 3)

/-- A slot is valid (R475): by its state, its header, and its record's digest, which the recomputed one equals. -/
def Lane.slotValid (c : Ctx) (l : Lane) (k : Nat) : Bool :=
  l.slotMayRun k && l.headerOk c k && decide (l.slotHash k = l.slotDigest k)

/-- The digest of a slot as the hash check of the boot found it. -/
def Lane.hashOf (l : Lane) (k : Nat) : BitVec 256 := if k = 0 then l.cf.digestP else l.cf.digestA

/-- IMAGE_HASH_DONE (R475, R519): the candidate is the valid slot with the higher generation, the other valid one the
fallback; with no valid slot the lane starts no image and is unfit. -/
def imageHashDoneL (c : Ctx) (l : Lane) : Lane :=
  if l.phase ≠ .hashing then l
  else
    let p := l.slotValid c 0
    let a := l.slotValid c 1
    let first := if p && a then (if l.slotGen 0 < l.slotGen 1 then some 1 else some 0) else if p then some 0 else if a then some 1
      else none
    let other := if p && a then first.map (fun k => 1 - k) else none
    let cf := { l.cf with digestP := l.slotDigest 0, digestA := l.slotDigest 1, cand := first, fall := other, boot := first }
    let l1 := { l with cf := cf }
    let l2 := ((l1.showSlot 0).showSlot 1).putB R.CF_SLOT_P_valid p
    let l3 := l2.putB R.CF_SLOT_A_valid a
    if first.isSome then { l3 with phase := .testing }
    else { l3.becomeUnfit c 0xC 1 0xC .inhibit with phase := .halted }

/-- IMAGE_HASH_DONE. -/
def execImageHashDone (ln : LaneId) (_ _ : Found) (s : State) : Answer := onAlive ln (fun c l => imageHashDoneL c l) s

/-! ### Image agreement (R476 to R479) -/

/-- The ID of the image a lane runs. -/
def Lane.runId (l : Lane) : BitVec 64 := l.rd R.CF_ID1 ++ l.rd R.CF_ID0

/-- An image as a member runs it: no leg runs ahead on a two-lane member (R3). -/
def imageFor (m : Member) (im : Image) : Image :=
  if m = .ts8630 then im else { im with legs := im.legs.map (fun p => (p.1, { p.2 with runAhead := false })) }

/-- What image fields may hold beside their masks: MC1 has no safe state on a two-lane member (R132), and the currents of the
stepper channels stand inside their ceilings (R306, R323). -/
def Lane.settleImage (c : Ctx) (l : Lane) : Lane :=
  (if c.part.member = .ts8630 then l else l.put R.FC_PROFILE_CFG_mc1_asc 0).settleCurrents c

/-- A leg takes its home engine, whose block holds its committed state too (R135, R165). -/
def Lane.homeLeg (l : Lane) (k : Nat) (d : LegDesc) : Lane :=
  (l.setLeg k { l.leg k with home := d.home }).setBytes (blockState (d.home / 4) d) (l.bytes d.stateAt (8 * d.stateSlots))

/-- The identity of a connection (R430). -/
def connIdentity (id : BitVec 64) (node conn : Nat) : Word :=
  id.extractLsb' 32 32 ^^^ id.setWidth 32 ^^^ BitVec.ofNat 32 (node * 2 ^ 16) ^^^ BitVec.ofNat 32 conn

/-- Every defined connection takes its identity under an image ID (R430, R479). -/
def Lane.nameConns (l : Lane) (id : BitVec 64) : Lane :=
  (List.range 64).foldl (fun (y : Lane) k => if y.bit (R.SE_Cc_CFG_defined k) then
    y.wr (R.SE_Cc_ID k) (connIdentity id (y.get (R.SE_Cc_BIND_node k)) (y.get (R.SE_Cc_CFG_conn_no k))) else y) l

/-- The image that the bytes of a slot hold, as the member runs it (R470, R472). -/
def Lane.slotImage (c : Ctx) (l : Lane) (k : Nat) : Image :=
  let id := imageId (l.hashOf k)
  let im := imageFor c.part.member (Config.imageOf (l.hashOf k))
  { im with id := id, marshal := im.marshal.map (fun t => { t with imageId := id }) }

/-- The image of a slot comes into force (R166, R479, R526): its fields are filled, its legs take their home engines, its
code goes into the TCM of every fit engine, the Nolxis node is enabled, and the fit engines are held against the image's
minimum (R525). -/
def Lane.loadImage (c : Ctx) (l : Lane) (k : Nat) : Lane :=
  let im := l.slotImage c k
  let l1 := ((({ l with image := im }).fillImage im.regs).settleImage c).nameConns im.id
  let l2 := (l1.wr R.CF_ID0 (im.id.setWidth 32)).wr R.CF_ID1 (im.id.extractLsb' 32 32)
  let l3 := ((l2.put R.CF_STATUS_agreed 1).put R.CF_STATUS_slot k).putB R.CF_STATUS_fallback (l.cf.boot != some k)
  let l4 := im.sram.foldl (fun y e => y.setByte e.1 e.2) l3
  let l5 := (List.range (engineCount c.part.member)).foldl (fun y e =>
    if y.engFit c e then y.setBytes (0x10000 * e) im.code else y) l4
  let l6 := im.legs.foldl (fun y p => y.homeLeg p.1 p.2) l5
  let l7 := [0, 1].foldl (fun y n => if y.bit (R.CNk_CFG_enable n) then y.put (R.CNk_STATUS_state n) 0 else y) l6
  let l8 := { l7 with phase := .agreed, cf := { l7.cf with running := some k } }
  ((l8.put R.NX_CTRL_enable 1).nxGo c nxListen).countEngines c

/-- The lane stays out of service (R477): unfit, its node in OFF. -/
def Lane.outOfService (c : Ctx) (l : Lane) : Lane :=
  let l1 := ((l.put R.CF_STATUS_out_of_service 1).flag R.CF_FLAGS_minority).becomeUnfit c 0xC 1 0xC .inhibit
  { l1 with phase := .halted }

/-- The offer of a lane in agreement: the ID of its candidate. -/
def Lane.offerNow (l : Lane) : Option (BitVec 64) := l.cf.cand.map (fun k => imageId (l.hashOf k))

/-- IMAGE_FRAME_SEND (R476): the lane's offer on every link, every 100 µs. -/
def imageFrameSendL (c : Ctx) (l : Lane) : Lane :=
  if l.phase ≠ .agreeing then l
  else match l.offerNow with
    | some id => l.queueAll c ⟨5, [id.setWidth 32, id.extractLsb' 32 32, if l.cf.cand = some 1 then 1 else 0]⟩ (othersOf c)
    | none => l

/-- IMAGE_FRAME_SEND. -/
def execImageFrameSend (ln : LaneId) (s : State) : Answer := onAlive ln (fun c l => imageFrameSendL c l) s

/-- A journal entry of the agreement (R477, R488). -/
def Lane.agreeEntry (c : Ctx) (l : Lane) (op : Nat) (id : BitVec 64) : Lane :=
  l.journal c ⟨op, 0, id.setWidth 32, id.extractLsb' 32 32, 0, 0, 0, 0, 0⟩

/-- A TRIAL candidate is marked REJECTED (R477). -/
def Lane.rejectTrial (c : Ctx) (l : Lane) : Lane :=
  match l.cf.cand with
  | some k =>
    if l.slotState k = 2 then ((l.moveSlot k 4).flag R.CF_FLAGS_trial_rejected).agreeEntry c 0x81 (imageId (l.hashOf k)) else l
  | none => l

/-- The fallback as it stands (R475, R491): a slot erased since the boot is valid no more. -/
def Lane.fallback (l : Lane) : Option Nat :=
  match l.cf.fall with
  | some k => if l.slotMayRun k then some k else none
  | none => none

/-- A minority lane (R477): a TRIAL candidate is rejected, and the fallback runs where it is the majority's image. -/
def Lane.minority (c : Ctx) (l : Lane) (id : BitVec 64) : Lane :=
  let l1 := l.rejectTrial c
  match l1.fallback with
  | some k => if imageId (l1.hashOf k) = id then l1.loadImage c k else l1.outOfService c
  | none => l1.outOfService c

/-- The decision is shown and journalled (R477, R494). -/
def Lane.agreeDone (c : Ctx) (l : Lane) (outcome lanes rounds : Nat) (id : BitVec 64) : Lane :=
  let l1 := (((l.put R.CF_AGREE_outcome outcome).put R.CF_AGREE_lanes lanes).put R.CF_AGREE_rounds rounds).flag R.CF_FLAGS_agree_done
  l1.agreeEntry c 0x80 id

/-- The lane can run an image: it is its candidate's or its fallback's (R477). -/
def Lane.holds (l : Lane) (id : BitVec 64) : Bool :=
  decide (l.offerNow = some id) || decide (l.fallback.map (fun k => imageId (l.hashOf k)) = some id)

/-- A late lane agrees with the image of the running lanes, or stays out of service as a minority lane (R478). -/
def Lane.lateAgree (c : Ctx) (l : Lane) (id : BitVec 64) : Lane :=
  let l1 := l.agreeDone c (if l.holds id then 4 else 2) (maskSet (l.get R.LM_ROLE_fit_lanes) c.id (l.holds id)) (l.get R.CF_AGREE_rounds) id
  if l.offerNow = some id then
    match l1.cf.cand with
    | some k => l1.loadImage c k
    | none => l1.outOfService c
  else l1.minority c id

/-- IMAGE_FRAME_RECEIVE (R38, R476, R478): a starting lane notes the offer and agrees with a running sender; a running lane
answers every one with its own image, but for that of a lane which runs an image itself by its last heartbeat: that is an answer, and
none follows it. -/
def imageFrameReceiveL (c : Ctx) (sender : LaneId) (id : BitVec 64) (alt : Bool) (l : Lane) : Lane :=
  if sender = c.id then l
  else
    let p := l.peer sender
    let same := decide (p.offer = some (id, alt))
    let l1 := l.setPeer sender { p with offer := some (id, alt), offerAt := if same then p.offerAt else c.now }
    let runs := match p.hb with
      | some ws => decide ((frameWord ws 0).toNat / 2 ^ 30 < 2)
      | none => false
    if l1.bit R.CF_STATUS_agreed then
      (if l1.ea.started && !runs then
        l1.queueFrame c sender ⟨5, [l1.runId.setWidth 32, l1.runId.extractLsb' 32 32, BitVec.ofNat 32 (l1.get R.CF_STATUS_slot)]⟩
       else l1)
    else if l1.phase = .agreeing ∧ l1.knowsFit sender = true then l1.lateAgree c id
    else l1

/-- IMAGE_FRAME_RECEIVE. -/
def execImageFrameReceive (ln : LaneId) (sender : LaneId) (imageId : BitVec 64) (alt : Bool) (s : State) : Answer :=
  onAlive ln (fun c l => imageFrameReceiveL c sender imageId alt l) s

/-- The lanes present in a round with their offers (R476): this lane, and those whose IMAGE frames arrived. -/
def Lane.offers (c : Ctx) (l : Lane) : List (LaneId × BitVec 64) :=
  let own := match l.offerNow with
    | some id => [(c.id, id)]
    | none => []
  own ++ (othersOf c).filterMap (fun x => (l.peer x).offer.map (fun o => (x, o.1)))

/-- How many lanes are present in a round without an offer (R476): this lane with no image left to offer, and those of which only a
heartbeat came. -/
def Lane.offerless (c : Ctx) (l : Lane) : Nat :=
  cond l.offerNow.isNone 1 0 + ((othersOf c).filter (fun x => (l.peer x).offer.isNone && (l.peer x).hb.isSome && decide (l.cf.roundAt ≤ (l.peer x).hbAt))).length

/-- Every present lane has shown the same offer for 1 ms (R476). -/
def Lane.offersStand (c : Ctx) (l : Lane) : Bool :=
  let os := l.offers c
  decide (l.offerless c = 0) && os.all (fun o => os.all (fun q => decide (o.2 = q.2))) && decide (l.cf.roundAt + 1000000 ≤ c.now) &&
    (othersOf c).all (fun x => (l.peer x).offer.isNone || decide ((l.peer x).offerAt + 1000000 ≤ c.now))

/-- The offer held by more than half of the present lanes, of which `mute` have shown none (R476). -/
def majorityOf (os : List (LaneId × BitVec 64)) (mute : Nat) : Option (BitVec 64) :=
  (os.find? (fun o => decide (os.length + mute < 2 * (os.filter (fun q => decide (q.2 = o.2))).length))).map (fun o => o.2)

/-- The mask of the lanes that offer an image. -/
def lanesOffering (os : List (LaneId × BitVec 64)) (id : BitVec 64) : Nat :=
  os.foldl (fun m o => if o.2 = id then maskSet m o.1 true else m) 0

/-- A round begins (R476): what was offered before it counts no more. -/
def Lane.forgetOffers (c : Ctx) (l : Lane) : Lane :=
  let forget := fun (p : Peer) => { p with offer := none, offerAt := c.now }
  { l with peerA := forget l.peerA, peerB := forget l.peerB, peerC := forget l.peerC }

/-- The second round begins (R477): a TRIAL candidate is rejected and the fallback offered. -/
def Lane.secondRound (c : Ctx) (l : Lane) : Lane :=
  let trial := match l.cf.cand with
    | some k => decide (l.slotState k = 2)
    | none => false
  let l1 := l.rejectTrial c
  let l2 := if trial then { l1 with cf := { l1.cf with cand := l1.fallback, fall := none } } else l1
  let l3 := l2.forgetOffers c
  { l3.put R.CF_AGREE_rounds 1 with cf := { l3.cf with round := 1, roundAt := c.now } }

/-- AGREEMENT_ROUND_DECIDED (R476, R477): after 1 ms of equal offers, or 20 ms after the round began. -/
def agreementRoundDecidedL (c : Ctx) (l : Lane) : Lane :=
  if l.phase ≠ .agreeing ∨ (l.offersStand c = false ∧ c.now < l.cf.roundAt + 20000000) then l
  else
    let os := l.offers c
    let n := l.cf.round + 1
    let mute := l.offerless c
    match majorityOf os mute with
    | some id =>
      let all := os.all (fun o => decide (o.2 = id)) && decide (mute = 0)
      let l1 := l.agreeDone c (if all then 1 else 2) (maskSet (lanesOffering os id) c.id (l.holds id)) n id
      (if l.offerNow = some id then
        (match l1.cf.cand with
        | some k => l1.loadImage c k
        | none => l1)
       else l1.minority c id)
    | none =>
      if l.cf.round = 0 then l.secondRound c
      else ((l.agreeDone c 3 0 n 0).flag R.CF_FLAGS_agree_fail).outOfService c

/-- AGREEMENT_ROUND_DECIDED. -/
def execAgreementRoundDecided (ln : LaneId) (s : State) : Answer := onAlive ln (fun c l => agreementRoundDecidedL c l) s

/-! ### The service port (R482 to R487) -/

/-- The first condition of R482. -/
def Lane.enableOk (l : Lane) : Bool :=
  let p := l.get R.CF_SVC_CFG_pair
  decide (p < 12) && l.bit (R.SI_DIn_STAT_state p) && decide (l.get (R.SI_DIn_STAT_fault p) = 0)

/-- Every heartbeat with role active or standby that came from a lane in the last 1 ms reports parked (R482). -/
def Peer.reportsParked (p : Peer) (now : Nat) : Bool :=
  match p.moved with
  | some t => decide (t + 1000000 < now)
  | none => true

/-- The second condition of R482: the module is parked, by FC_MODE, or in a lane without an image in force by the heartbeats
it receives. -/
def Lane.parkedOk (c : Ctx) (l : Lane) : Bool :=
  if l.bit R.CF_STATUS_agreed && !l.bit R.CF_STATUS_out_of_service then l.parked
  else (othersOf c).all (fun x => (l.peer x).reportsParked c.now)

/-- CF_STATUS with the conditions of R482 as they stand. -/
def Lane.cfStatus (c : Ctx) (l : Lane) : Word :=
  let w0 := fldPut R.CF_STATUS_enable_ok (l.rd R.CF_STATUS) (cond l.enableOk 1 0)
  let w1 := fldPut R.CF_STATUS_parked_ok w0 (cond (l.parkedOk c) 1 0)
  fldPut R.CF_STATUS_write_ok w1 (cond (l.enableOk && l.parkedOk c) 1 0)

/-- Why a write request is refused now, 0 where it is accepted (R482, R487, R448). -/
def Lane.writeGate (c : Ctx) (l : Lane) : Nat :=
  if !l.enableOk then 1 else if !l.parkedOk c then 2 else if l.unitsHalt then 11 else 0

/-- A response (R485) with its check. -/
def svcReply (q : SvcReq) (op session status : Nat) (payload : List Word) : List Word :=
  let ws : List Word := [BitVec.ofNat 32 (0x01000000 + op * 65536 + q.txn.toNat), BitVec.ofNat 32 (session * 65536 + 4 * payload.length)] ++
    [BitVec.ofNat 32 status] ++ payload
  ws ++ [crc32cWords ws]

/-- A datagram sent from the service port; with no link it is dropped, and tx_drop is set. -/
def Lane.mail (l : Lane) (ip : Word) (port : Nat) (ws : List Word) : Lane :=
  if l.bit R.ET_STATUS_link_up then { l with mailOut := l.mailOut ++ [⟨ip, port, ws, l.get R.ET_PORTS_service⟩] }
  else l.flag R.ET_FLAGS_tx_drop

/-- A request done, with its status and payload: the response is sent and kept (R485). -/
def Lane.answer (l : Lane) (q : SvcReq) (op status : Nat) (payload : List Word) : Lane :=
  let ws := svcReply q op (l.get R.CF_SESSION_id) status payload
  ({ l with cf := { l.cf with lastTxn := some q.txn, lastReply := ws } }).mail q.ip q.port.toNat ws

/-- A request is executed once (R485): one whose transaction number equals the last is answered with the stored response. -/
def Lane.onceSvc (l : Lane) (q : SvcReq) (f : Lane → Lane) : Lane :=
  if l.cf.lastTxn = some q.txn then l.mail q.ip q.port.toNat l.cf.lastReply else f l

/-- A journal record of a request. -/
def svcRec (q : SvcReq) (op status suppressed : Nat) (addr len : Word) (sha : BitVec 256) : JournalRec :=
  ⟨op, status, addr, len, q.ip, q.session.toNat, q.port.toNat, suppressed, sha⟩

/-- A refused write request (R489): journalled at most once a second for each peer, with the count suppressed since. -/
def Lane.refuseAt (c : Ctx) (l : Lane) (q : SvcReq) (op status : Nat) (addr len : Word) : Lane :=
  let l0 := l.flag R.CF_FLAGS_write_refused
  let rest := l0.cf.refusals.filter (fun r => decide (r.1 ≠ q.ip))
  let wait := l0.cf.refusals.any (fun r => decide (r.1 = q.ip) && decide (c.now < r.2.1 + 1000000000))
  let at_ := ((l0.cf.refusals.find? (fun r => decide (r.1 = q.ip))).map (fun r => r.2.1)).getD 0
  let l1 := if wait then { l0 with cf := { l0.cf with refusals := rest ++ [(q.ip, at_, l0.suppressed q.ip + 1)] } }
    else
      let y := l0.journal c (svcRec q op status (l0.suppressed q.ip) addr len 0)
      { y with cf := { y.cf with refusals := rest ++ [(q.ip, c.now, 0)] } }
  l1.answer q op status []

/-- A refused write request that names no range. -/
def Lane.refuseWrite (c : Ctx) (l : Lane) (q : SvcReq) (op status : Nat) : Lane := l.refuseAt c q op status 0 0

/-- A write request inside the session (R482, R486): refused by the conditions, or without the session. -/
def Lane.inSessionAt (c : Ctx) (l : Lane) (q : SvcReq) (op : Nat) (addr len : Word) (f : Lane → Lane) : Lane :=
  l.onceSvc q (fun y =>
    let g := y.writeGate c
    if g ≠ 0 then y.refuseAt c q op g addr len
    else if !y.bit R.CF_STATUS_session || decide (y.get R.CF_SESSION_id ≠ q.session.toNat) then y.refuseAt c q op 3 addr len
    else f { y with cf := { y.cf with reqAt := c.now } })

/-- Such a request that names no range. -/
def Lane.inSession (c : Ctx) (l : Lane) (q : SvcReq) (op : Nat) (f : Lane → Lane) : Lane := l.inSessionAt c q op 0 0 f

/-- An accepted write request: journalled before its response leaves (R489). -/
def Lane.doneWrite (c : Ctx) (l : Lane) (q : SvcReq) (op status : Nat) (addr len : Word) (sha : BitVec 256) : Lane :=
  (l.peerEntry c (svcRec q op status 0 addr len sha)).answer q op status []

/-- A request that is no write counts for the session's idle time. -/
def Lane.touch (c : Ctx) (l : Lane) : Lane := { l with cf := { l.cf with reqAt := c.now } }

/-- The words of a slot record and its image ID (R474, R486). -/
def Lane.recordWords (l : Lane) (k : Nat) : List Word := (List.range 11).map (fun i => l.granule (slotRec k + 4 * i))

/-- INFO (R486). -/
def svcInfoL (c : Ctx) (q : SvcReq) (l : Lane) : Lane :=
  l.onceSvc q (fun y =>
    let ids := [0, 1].flatMap (fun k => let d := imageId (y.slotDigest k); [d.setWidth 32, d.extractLsb' 32 32])
    (y.touch c).answer q 0x01 0 ([y.rd R.LM_ID, y.cfStatus c] ++ y.recordWords 0 ++ y.recordWords 1 ++ ids))

/-- OPEN (R486, R491): the lane's one session. -/
def svcOpenL (c : Ctx) (q : SvcReq) (l : Lane) : Lane :=
  l.onceSvc q (fun y =>
    let g := y.writeGate c
    if g ≠ 0 then y.refuseWrite c q 0x03 g
    else if y.bit R.CF_STATUS_session then y.refuseWrite c q 0x03 4
    else
      let id := y.cf.nextId % 65535 + 1
      let y1 := (((y.put R.CF_STATUS_session 1).put R.CF_SESSION_id id).put R.CF_SESSION_port q.port.toNat).wr R.CF_SESSION_IP q.ip
      let y2 := { y1 with cf := { y1.cf with nextId := id, reqAt := c.now } }.flag R.CF_FLAGS_session_open
      (y2.peerEntry c (svcRec q 0x03 0 0 0 0 0)).answer q 0x03 0 [BitVec.ofNat 32 id])

/-- CLOSE (R486): an open transaction ends as ABORTED. -/
def svcCloseL (c : Ctx) (q : SvcReq) (l : Lane) : Lane :=
  l.onceSvc q (fun y =>
    if !y.bit R.CF_STATUS_session || decide (y.get R.CF_SESSION_id ≠ q.session.toNat) then y.answer q 0x04 3 []
    else (y.answer q 0x04 0 []).abortTxn c true |>.closeSession)

/-- The slot that a write targets (R486): the one that does not run; without a running image the one that does not hold the
candidate, or the primary. -/
def Lane.writeSlot (l : Lane) : Nat :=
  match l.cf.running with
  | some k => 1 - k
  | none => match l.cf.boot with
    | some k => 1 - k
    | none => 0

/-- Where a write goes: target, offset and length to a base address, or the status it is refused with (R486, R509). -/
def Lane.writePlace (l : Lane) (target : Word) (offset len : Nat) : Nat ⊕ Nat :=
  if target = 0 then
    (if offset ≠ 0 ∨ 0xBFF000 < len ∨ len % 4 ≠ 0 then .inr 6 else .inl (slotBase l.writeSlot))
  else if target = 1 then
    (if offset % 65536 ≠ 0 ∨ len % 65536 ≠ 0 ∨ len = 0 ∨ 0x400000 < offset + len then .inr 6
     else if 0x380000 < offset + len then .inr 10
     else .inl (0x31C00000 + offset))
  else .inr 10

/-- The address that a WRITE_BEGIN names (R488): of target 1 in the calibration area, else in the slot that is written. -/
def Lane.writeAddr (l : Lane) (target : Word) (offset : Nat) : Word :=
  BitVec.ofNat 32 ((if target = 1 then 0x31C00000 else slotBase l.writeSlot) + offset)

/-- WRITE_BEGIN (R486): the target range is erased. -/
def svcWriteBeginL (c : Ctx) (q : SvcReq) (target : Word) (offset len : Nat) (sha : BitVec 256) (l : Lane) : Lane :=
  let addr := l.writeAddr target offset
  l.inSessionAt c q 0x05 addr (BitVec.ofNat 32 len) (fun y =>
    if y.cf.txn.isSome then y.refuseAt c q 0x05 4 addr (BitVec.ofNat 32 len)
    else match y.writePlace target offset len with
      | .inr st => y.refuseAt c q 0x05 st addr (BitVec.ofNat 32 len)
      | .inl base =>
        let slot := decide (target = 0)
        let y1 := y.erase base (if slot then 0xC00000 else len)
        let y2 := if slot then y1.showSlot y1.writeSlot else y1
        let y3 := { y2 with cf := { y2.cf with txn := some ⟨slot, base, len, 0, sha⟩ } }
        y3.doneWrite c q 0x05 0 (BitVec.ofNat 32 base) (BitVec.ofNat 32 len) 0)

/-- WRITE_DATA (R486): at the next expected offset; it is not journalled. -/
def svcWriteDataL (c : Ctx) (q : SvcReq) (offset : Nat) (data : List Byte) (l : Lane) : Lane :=
  l.inSession c q 0x06 (fun y =>
    match y.cf.txn with
    | none => y.refuseWrite c q 0x06 5
    | some t =>
      if offset ≠ t.next ∨ t.len < offset + data.length then y.refuseWrite c q 0x06 5
      else
        let y1 := y.setBytes (t.base + offset) data
        ({ y1 with cf := { y1.cf with txn := some { t with next := offset + data.length } } }).answer q 0x06 0 [])

/-- Whether the written range verifies (R475, R486): all of it written with the digest announced, and for a slot the header
well formed. -/
def Lane.verifies (c : Ctx) (l : Lane) (t : WriteTxn) : Bool :=
  decide (t.next = t.len) && decide (sha256 (l.bytes t.base t.len) = t.sha) &&
    (!t.slot || (l.headerOk c l.writeSlot && decide ((l.granule (t.base + 8)).toNat = t.len)))

/-- WRITE_END (R474, R486): the slot becomes STAGED with its record, or VERIFY_FAIL. -/
def svcWriteEndL (c : Ctx) (q : SvcReq) (l : Lane) : Lane :=
  l.inSession c q 0x07 (fun y =>
    match y.cf.txn with
    | none => y.refuseWrite c q 0x07 5
    | some t =>
      let y0 := { y with cf := { y.cf with txn := none } }
      if y.verifies c t then
        let k := y.writeSlot
        let y1 := if t.slot then
            (((y0.setGranule (slotRec k + 8) (BitVec.ofNat 32 t.len)).setBytes (slotRec k + 12) (digestBytes32 t.sha)).moveSlot k 1)
          else y0
        (y1.flag R.CF_FLAGS_write_done).doneWrite c q 0x07 0 (BitVec.ofNat 32 t.base) (BitVec.ofNat 32 t.len) t.sha
      else (y0.flag R.CF_FLAGS_verify_fail).doneWrite c q 0x07 8 (BitVec.ofNat 32 t.base) (BitVec.ofNat 32 t.len)
        (sha256 (y.bytes t.base t.next)))

/-- PROMOTE (R474, R486): a STAGED slot becomes TRIAL with a generation after the other slot's. -/
def svcPromoteL (c : Ctx) (q : SvcReq) (l : Lane) : Lane :=
  l.inSession c q 0x08 (fun y =>
    let k := y.writeSlot
    if y.slotState k ≠ 1 then y.refuseWrite c q 0x08 10
    else
      let y1 := y.setGranule (slotRec k + 4) (BitVec.ofNat 32 (y.slotGen (1 - k) + 1))
      ((y1.moveSlot k 2).flag R.CF_FLAGS_write_done).doneWrite c q 0x08 0 0 0 0)

/-- ABORT (R486): the open transaction ends. -/
def svcAbortL (c : Ctx) (q : SvcReq) (l : Lane) : Lane :=
  l.inSession c q 0x09 (fun y =>
    match y.cf.txn with
    | none => y.refuseWrite c q 0x09 5
    | some _ => (y.abortTxn c false).doneWrite c q 0x09 9 0 0 0)

/-- A granule of the journal as it reads (R107, R490): one with an uncorrectable error is damaged, and what it gives is left free
(log 33). -/
def Lane.journalGranule (l : Lane) (a : Nat) : Word :=
  if tabGet l.planted a = some 2 then Config.damagedWord a l.free else l.granule a

/-- READ_JOURNAL (R486, R488): up to seven entries. -/
def svcReadJournalL (c : Ctx) (q : SvcReq) (first : Word) (count : Nat) (l : Lane) : Lane :=
  l.onceSvc q (fun y =>
    let head := (y.rd R.CF_JNL_HEAD).toNat
    if 7 < count then y.answer q 0x0A 7 []
    else if first.toNat < (y.rd R.CF_JNL_OLDEST).toNat ∨ head < first.toNat + count then y.answer q 0x0A 6 []
    else
      let ws := (List.range (32 * count)).map (fun i => y.journalGranule (journalAt (first.toNat + i / 32) + 4 * (i % 32)))
      (y.touch c).draw.answer q 0x0A 0 ws)

/-- INFO. -/
def execSvcInfo (ln : LaneId) (q : SvcReq) (s : State) : Answer := onAlive ln (fun c l => svcInfoL c q l) s

/-- OPEN. -/
def execSvcOpen (ln : LaneId) (q : SvcReq) (s : State) : Answer := onAlive ln (fun c l => svcOpenL c q l) s

/-- CLOSE. -/
def execSvcClose (ln : LaneId) (q : SvcReq) (s : State) : Answer := onAlive ln (fun c l => svcCloseL c q l) s

/-- WRITE_BEGIN. -/
def execSvcWriteBegin (ln : LaneId) (q : SvcReq) (target : Word) (offset : Nat) (len : Nat) (sha : BitVec 256) (s : State) :
    Answer := onAlive ln (fun c l => svcWriteBeginL c q target offset len sha l) s

/-- WRITE_DATA. -/
def execSvcWriteData (ln : LaneId) (q : SvcReq) (offset : Nat) (data : List Byte) (s : State) : Answer :=
  onAlive ln (fun c l => svcWriteDataL c q offset data l) s

/-- WRITE_END. -/
def execSvcWriteEnd (ln : LaneId) (q : SvcReq) (s : State) : Answer := onAlive ln (fun c l => svcWriteEndL c q l) s

/-- PROMOTE. -/
def execSvcPromote (ln : LaneId) (q : SvcReq) (s : State) : Answer := onAlive ln (fun c l => svcPromoteL c q l) s

/-- ABORT. -/
def execSvcAbort (ln : LaneId) (q : SvcReq) (s : State) : Answer := onAlive ln (fun c l => svcAbortL c q l) s

/-- READ_JOURNAL. -/
def execSvcReadJournal (ln : LaneId) (q : SvcReq) (first : Word) (count : Nat) (s : State) : Answer :=
  onAlive ln (fun c l => svcReadJournalL c q first count l) s

/-- The idle time of a session in seconds (R486): 10 where no image gives one. -/
def Lane.idleTime (l : Lane) : Nat := if l.get R.CF_SVC_CFG_idle_s = 0 then 10 else l.get R.CF_SVC_CFG_idle_s

/-- SESSION_TIMEOUT (R486): idle_s without a request. -/
def sessionTimeoutL (c : Ctx) (l : Lane) : Lane :=
  if l.bit R.CF_STATUS_session = true ∧ l.cf.reqAt + l.idleTime * 1000000000 ≤ c.now then
    let l1 := (l.abortTxn c true).flag R.CF_FLAGS_session_timeout
    (l1.peerEntry c (l1.sessionRec 0x82 0)).closeSession
  else l

/-- SESSION_TIMEOUT. -/
def execSessionTimeout (ln : LaneId) (s : State) : Answer := onAlive ln (fun c l => sessionTimeoutL c l) s

/-- SERVICE_CONDITION_DROP (R483): a condition of R482 no longer holds while a session is open. -/
def serviceConditionDropL (c : Ctx) (l : Lane) : Lane :=
  if l.bit R.CF_STATUS_session && !(l.enableOk && l.parkedOk c) then (l.abortTxn c true).closeSession else l

/-- SERVICE_CONDITION_DROP. -/
def execServiceConditionDrop (ln : LaneId) (s : State) : Answer := onAlive ln (fun c l => serviceConditionDropL c l) s

/-- The places of the journal of which something is written. -/
def Lane.journalPlaces (l : Lane) : List Nat :=
  ((l.mem.filter (fun e => decide (0x31800000 ≤ e.1 ∧ e.1 < 0x31C00000))).map (fun e => (e.1 - 0x31800000) / 128)).eraseDups

/-- The entry at a place has an uncorrectable error and reads as damaged (R107, R490). -/
def Lane.entryDamaged (l : Lane) (p : Nat) : Bool :=
  l.planted.any (fun e => decide (journalAt p ≤ e.1 ∧ e.1 < journalAt p + 128 ∧ e.2 = 2))

/-- The prev link of entry k verifies (R488, R490): it is the hash of entry k - 1; a damaged one is chained across. -/
def Lane.prevVerifies (l : Lane) (k : Nat) (prev : List Byte) : Bool :=
  if k = 0 then decide (prev = List.replicate 32 0)
  else l.entryDamaged ((k - 1) % 32768) ||
    (decide ((l.granule (journalAt (k - 1))).toNat = k - 1) && decide (l.bytes (journalAt (k - 1) + 96) 32 = prev))

/-- The index of the entry at a place whose hash and prev link both verify (R490). -/
def Lane.verifiedAt (l : Lane) (p : Nat) : Option Nat :=
  let bs := l.bytes (journalAt p) 128
  let k := (l.granule (journalAt p)).toNat
  if !l.entryDamaged p && decide (k % 32768 = p) && decide (digestBytes32 (sha256 (bs.take 96)) = bs.drop 96) &&
      l.prevVerifies k ((bs.drop 64).take 32) then some k
  else none

/-- The index of the next entry (R490): after the highest one that verifies, else 0. -/
def Lane.nextEntry (l : Lane) : Nat :=
  l.journalPlaces.foldl (fun n p => match l.verifiedAt p with
    | some k => max n (k + 1)
    | none => n) 0

/-- Something is written in the rest of the sector where the next entry goes (R490); a sector that it starts is erased with it. -/
def Lane.tailWritten (l : Lane) (k : Nat) : Bool :=
  (decide (k % 512 ≠ 0) || decide (k = 0)) &&
    l.mem.any (fun e => decide (journalAt k ≤ e.1 ∧ e.1 < journalAt k + (65536 - 128 * (k % 512))))

/-- JOURNAL_SCAN (R490, R491): once after the lane's reset; bytes after the last entry are erased with their sector tail, and the next
entry then carries gap, as it does where a session was lost with the supply. -/
def journalScanL (l : Lane) : Lane :=
  if l.cf.scanned then l
  else
    let k := l.nextEntry
    let l0 := { l with cf := { l.cf with scanned := true, lost := false } }
    let l1 := (l0.wr R.CF_JNL_HEAD (BitVec.ofNat 32 k)).wr R.CF_JNL_OLDEST (BitVec.ofNat 32 ((k - 1) / 512 * 512 - 32256))
    if l.tailWritten k ∨ l.cf.lost = true then
      let l2 := if l.tailWritten k then l1.erase (journalAt k) (65536 - 128 * (k % 512)) else l1
      { l2 with cf := { l2.cf with gap := true } }.flag R.CF_FLAGS_journal_gap
    else l1

/-- JOURNAL_SCAN. -/
def execJournalScan (ln : LaneId) (_ _ : Found) (s : State) : Answer := onAlive ln (fun _ l => journalScanL l) s

/-! ### CAN FD (R492, R493, R496) -/

/-- Frames of active_only mailboxes that wait are cancelled; one on the bus completes (R493). -/
def Lane.canDrop (l : Lane) (k : Nat) : Lane :=
  (List.range 16).foldl (fun (y : Lane) m =>
    if y.bit (R.CNk_TXm_CTRL_pending k m) && y.bit (R.CNk_TXm_CTRL_active_only k m) && decide ((y.canOf k).onBus ≠ some m) then
      (y.put (R.CNk_TXm_CTRL_pending k m) 0).flag (R.CNk_FLAGS_tx_cancel k)
    else y) l

/-- The first enabled filter that a frame matches (R496). -/
def Lane.canFilter (l : Lane) (k : Nat) (f : CanFrame) : Option Nat :=
  (List.range 32).find? (fun n =>
    l.bit (R.CNk_FLTf_ID_en k n) && decide (l.bit (R.CNk_FLTf_ID_ide k n) = f.ide) &&
      (let m := l.rd (R.CNk_FLTf_MASK k n) &&& 0x1FFFFFFF
       decide (f.id.setWidth 32 &&& m = l.rd (R.CNk_FLTf_ID k n) &&& m)))

/-- CAN_FRAME_RECEIVE (R492, R496): a remote frame is discarded; a frame that a filter takes goes to the FIFO of 32. -/
def canFrameReceiveL (k : Fin 2) (f : CanFrame) (l : Lane) : Lane :=
  let n := k.val
  if !l.canOn n then l
  else if f.remote then l.flag (R.CNk_FLAGS_remote_rx n)
  else match l.canFilter n f with
    | none => l
    | some i =>
      let x := l.canOf n
      if 32 ≤ x.fifo.length then
        (l.setCan n { x with heard := tabPut x.heard i (l.stamp, f.data) }).flag (R.CNk_FLAGS_rx_overrun n)
      else
        let r : CanRx := ⟨f, i, l.stamp⟩
        ((l.setCan n { x with fifo := x.fifo ++ [r], heard := tabPut x.heard i (l.stamp, f.data) }).put (R.CNk_STATUS_rx_level n) (x.fifo.length + 1)).flag (R.CNk_FLAGS_rx n)

/-- CAN_FRAME_RECEIVE. -/
def execCanFrameReceive (ln : LaneId) (k : Fin 2) (f : CanFrame) (s : State) : Answer :=
  onAlive ln (fun _ l => canFrameReceiveL k f l) s

/-- CAN_CANCEL (R496): a frame that waits and is not on the bus. -/
def Lane.canCancel (l : Lane) (n m : Nat) : Lane :=
  if l.bit (R.CNk_TXm_CTRL_pending n m) && decide ((l.canOf n).onBus ≠ some m) then
    (l.put (R.CNk_TXm_CTRL_pending n m) 0).flag (R.CNk_FLAGS_tx_cancel n)
  else l

/-- CAN_SEND (R493, R496): a write of CNk_TXm_CTRL sets dlc and active_only; send queues the frame, cancel takes it back. -/
def canSendL (k : Fin 2) (m : Fin 16) (v : Word) (l : Lane) : Lane :=
  let n := k.val
  let i := m.val
  let l0 := { (l.put (R.CNk_TXm_CTRL_dlc n i) (v.toNat / 16 % 16)).putB (R.CNk_TXm_CTRL_active_only n i) (v.getLsbD 3) with bus := .done }
  let l1 := if v.getLsbD 0 then (l0.put (R.CNk_TXm_CTRL_pending n i) 1).canStart n else l0
  if v.getLsbD 1 then l1.canCancel n i else l1

/-- CAN_SEND. -/
def execCanSend (ln : LaneId) (k : Fin 2) (m : Fin 16) (value : Word) (s : State) : Answer :=
  onAlive ln (fun _ l => canSendL k m value l) s

/-- CAN_CANCEL. -/
def execCanCancel (ln : LaneId) (k : Fin 2) (m : Fin 16) (s : State) : Answer :=
  onAlive ln (fun _ l => { l.canCancel k.val m.val with bus := .done }) s

/-- CAN_TX_DONE (R496): the frame on the bus ends, and the next one starts. -/
def canTxDoneL (k : Fin 2) (m : Fin 16) (l : Lane) : Lane :=
  let n := k.val
  if (l.canOf n).onBus = some m.val then
    let l1 := ((l.put (R.CNk_TXm_CTRL_pending n m.val) 0).stampAt (R.CNk_TXm_STAMP n m.val)).flag (R.CNk_FLAGS_tx_done n)
    (l1.setCan n { l1.canOf n with onBus := none }).canStart n
  else l

/-- CAN_TX_DONE. -/
def execCanTxDone (ln : LaneId) (k : Fin 2) (m : Fin 16) (s : State) : Answer := onAlive ln (fun _ l => canTxDoneL k m l) s

/-- CAN_RX_POP (R496): a 1 removes the head frame. -/
def canRxPopL (k : Fin 2) (v : Word) (l : Lane) : Lane :=
  let n := k.val
  let x := l.canOf n
  let l0 := { l with bus := .done }
  if v.getLsbD 0 then (l0.setCan n { x with fifo := x.fifo.drop 1 }).put (R.CNk_STATUS_rx_level n) (x.fifo.length - 1) else l0

/-- CAN_RX_POP. -/
def execCanRxPop (ln : LaneId) (k : Fin 2) (value : Word) (s : State) : Answer := onAlive ln (fun _ l => canRxPopL k value l) s

/-- CAN_BUS_OFF_RECOVER (R493): 128 occurrences of 11 recessive bits after recovery was started, or with auto_recover. -/
def canBusOffRecoverL (k : Fin 2) (l : Lane) : Lane :=
  let n := k.val
  if l.get (R.CNk_STATUS_state n) = 2 ∧ (l.bit (R.CNk_CFG_auto_recover n) || (l.canOf n).recovering) = true then
    let l1 := ((l.put (R.CNk_STATUS_state n) 0).put (R.CNk_STATUS_tec n) 0).put (R.CNk_STATUS_rec n) 0
    (l1.setCan n { l1.canOf n with recovering := false, onBus := none }).canStart n
  else l

/-- CAN_BUS_OFF_RECOVER. -/
def execCanBusOffRecover (ln : LaneId) (k : Fin 2) (s : State) : Answer := onAlive ln (fun _ l => canBusOffRecoverL k l) s

/-- CAN_RECOVER_WRITE (R493, R496). -/
def canRecoverWriteL (k : Fin 2) (v : Word) (l : Lane) : Lane :=
  let n := k.val
  let l0 := { l with bus := .done }
  if v.getLsbD 0 = true ∧ l.get (R.CNk_STATUS_state n) = 2 then l0.setCan n { l0.canOf n with recovering := true } else l0

/-- CAN_RECOVER_WRITE. -/
def execCanRecoverWrite (ln : LaneId) (k : Fin 2) (value : Word) (s : State) : Answer :=
  onAlive ln (fun _ l => canRecoverWriteL k value l) s

/-- The error counters after an event (ISO 11898-1, R492): transmit, receive. -/
def canCounts (tec rec_ : Nat) : CanError → Nat × Nat
  | .txError => (tec + 8, rec_)
  | .rxError => (tec, rec_ + 1)
  | .rxErrorSevere => (tec, rec_ + 8)
  | .txOk => (tec - 1, rec_)
  | .rxOk => (tec, if 127 < rec_ then 127 else rec_ - 1)

/-- CAN_ERROR_EVENT (R492, R496): the counters, and the state they give. -/
def canErrorEventL (k : Fin 2) (ev : CanError) (l : Lane) : Lane :=
  let n := k.val
  if !l.canOn n then l
  else
    let (t, r) := canCounts (l.get (R.CNk_STATUS_tec n)) (l.get (R.CNk_STATUS_rec n)) ev
    let l1 := (l.put (R.CNk_STATUS_tec n) (min t 255)).put (R.CNk_STATUS_rec n) (min r 255)
    let bad := decide (ev = .txError) || decide (ev = .rxError) || decide (ev = .rxErrorSevere)
    let l2 := l1.flagIf bad (R.CNk_FLAGS_proto_err n)
    let was := l.get (R.CNk_STATUS_state n)
    let st := if 255 < t then 2 else if 127 < t ∨ 127 < r then 1 else 0
    let l3 := (l2.put (R.CNk_STATUS_state n) st).flagIf (decide (st = 2)) (R.CNk_FLAGS_bus_off n)
    let l4 := l3.flagIf (decide (st = 1 ∧ was = 0)) (R.CNk_FLAGS_passive n)
    if st = 2 then l4.setCan n { l4.canOf n with onBus := none } else l4

/-- CAN_ERROR_EVENT. -/
def execCanErrorEvent (ln : LaneId) (k : Fin 2) (ev : CanError) (s : State) : Answer := onAlive ln (fun _ l => canErrorEventL k ev l) s

/-! ### Ethernet (R484, R495) -/

/-- ETHERNET_LINK_CHANGE (R495). -/
def ethernetLinkChangeL (up : Bool) (sqi : BitVec 3) (l : Lane) : Lane :=
  let l1 := (l.putB R.ET_STATUS_link_up up).put R.ET_STATUS_sqi sqi.toNat
  l1.flagIf (l.bit R.ET_STATUS_link_up != up) R.ET_FLAGS_link_change

/-- ETHERNET_LINK_CHANGE. -/
def execEthernetLinkChange (ln : LaneId) (up : Bool) (sqi : BitVec 3) (s : State) : Answer :=
  onAlive ln (fun _ l => ethernetLinkChangeL up sqi l) s

/-- Bytes as words, least significant byte first, the last one filled with 0. -/
def bytesToWords : Nat → List Byte → List Word
  | 0, _ => []
  | n + 1, bs => (((bs[3]?).getD 0) ++ ((bs[2]?).getD 0) ++ ((bs[1]?).getD 0) ++ ((bs[0]?).getD 0) : Word) :: bytesToWords n (bs.drop 4)

/-- A frame that Ethernet loses (R495): one with a bad FCS or without a buffer is counted, and its flag set. -/
def Lane.frameLost (l : Lane) : EthFate → Lane
  | .good => l
  | .badFcs => (l.inc R.ET_ERR_crc).flag R.ET_FLAGS_crc_err
  | .noBuffer => (l.inc R.ET_ERR_dropped).flag R.ET_FLAGS_rx_drop

/-- ARP_OR_ICMP_ECHO_RECEIVE (R484): an ARP request for the lane's address is answered with its addresses, an echo request to it with its
data, both to the peer. -/
def arpOrIcmpEchoReceiveL (fate : EthFate) (x : AskFrame) (l : Lane) : Lane :=
  if !l.bit R.ET_STATUS_link_up then l
  else if fate ≠ .good then l.frameLost fate
  else if x.target ≠ l.rd R.ET_IP then l
  else
    let ws := if x.icmp then bytesToWords ((x.bytes.length + 3) / 4) x.bytes else [l.rd R.ET_MAC_LO, l.rd R.ET_MAC_HI, l.rd R.ET_IP]
    { l with mailOut := l.mailOut ++ [⟨x.peer, 0, ws, 0⟩] }

/-- ARP_OR_ICMP_ECHO_RECEIVE. -/
def execArpOrIcmpEchoReceive (ln : LaneId) (fate : EthFate) (ask : AskFrame) (s : State) : Answer :=
  onAlive ln (fun _ l => arpOrIcmpEchoReceiveL fate ask l) s

end Sys2Proof.Machine
end

