-- ==== Sys2Proof/Machine/Stage.lean ====
section
/-! DEFINITION. Power stages: the safe torque off tests (R242, R243), bridge faults (R244 to R246), the firmware requests
(R250), the chopper (R252, R253) and DC-link overvoltage (R255 to R258). -/

namespace Sys2Proof.Machine

/-- The flag of a bridge fault kind (R262). -/
def Lane.kindFlag (l : Lane) (ch kind : Nat) : Lane :=
  match kind with
  | 1 => l.flag (R.PS_FLAGS_desat ch)
  | 2 => l.flag (R.PS_FLAGS_overcurrent ch)
  | 3 => l.flag (R.PS_FLAGS_gate_mismatch ch)
  | 4 => l.flag (R.PS_FLAGS_vg_low ch)
  | 5 => l.flag (R.PS_FLAGS_boot_low ch)
  | 7 => l.flag (R.PS_FLAGS_open_phase ch)
  | _ => l

/-- Whether a switch code names a high side (R262). -/
def isHighSide (sw : Nat) : Bool := decide (sw % 2 = 0)

/-- The set after a bridge fault of kinds 1 to 8 (R244): shorted on the side opposite a desaturated switch, or on the side
of a gate stuck on, else open; in a lane that stays active under R118 open becomes ASC on the low side, for which kind 4 itself
says that VG is too low (R245). -/
def Lane.holdKind (c : Ctx) (l : Lane) (ch kind sw : Nat) (stuckOn : Bool) : Lane :=
  if kind = 1 then l.ascEnter c ch (!isHighSide sw)
  else if kind = 3 ∧ stuckOn then l.ascEnter c ch (isHighSide sw)
  else l.holdFaulty c ch (decide (kind = 4))

/-- A bridge fault of kinds 1 to 8 (R244, R245): recorded, the gates off, the set held, the channel in FAULT, and a class
0x4 fault of the lane with cause 0xC. -/
def Lane.bridge (c : Ctx) (l : Lane) (ch kind sw : Nat) (stuckOn : Bool) : Lane :=
  if kind = 8 then l.channelFault c ch
  else
    let l1 := (l.kindFlag ch kind).mcSet ch mcFault
    let l2 := ((l1.recordBridge ch kind sw false).holdKind c ch kind sw stuckOn).showAsc ch
    l2.becomeUnfit c 0xC 4 ch (.setOrCoil (some ch))

/-- The gates of a power stage switch (R244): by the pipeline, or by the pulse test (R219). -/
def Lane.gatesSwitch (c : Ctx) (l : Lane) (ch : Nat) : Bool :=
  l.switchesNow c ch || (decide (l.mcState ch = mcPulse) && !l.wantsOther c ch)

/-- The gate of a switch of R262 is on at this instant. -/
def Lane.gateOn (c : Ctx) (l : Lane) (ch sw : Nat) : Bool :=
  match (l.gates c ch)[sw / 2]? with
  | some (high, low) => if isHighSide sw then high else low
  | none => false

/-- Whether the conditions of R244 that the state holds allow this kind of a switch: kind 1 while its gate is on, kinds 4 and 5 while
the gates switch, kind 6 after two failed tests of one path, kind 7 after 64 samples, and no desaturation or overcurrent during the ASC
of kind 9 (R258). A stage with a fault latched detects further ones. -/
def Lane.bridgeCan (c : Ctx) (l : Lane) (ch kind sw : Nat) : Bool :=
  let m := l.mc ch
  match kind with
  | 1 => !m.ascKind9 && l.gateOn c ch sw
  | 2 => !m.ascKind9
  | 3 => true
  | 4 => l.gatesSwitch c ch
  | 5 => l.gatesSwitch c ch
  | 6 => decide (2 ≤ m.badCut) || decide (2 ≤ m.badLogic)
  | 7 => decide (64 ≤ m.nOpen)
  | 8 => m.losOpen
  | _ => false

/-- BRIDGE_FAULT (R244 to R246). DESIGN CHOICE (log 75): PS_FAULT shows the last fault, and the set is held as the last one gives. -/
def bridgeFaultL (c : Ctx) (ch : Fin 2) (kind : Fin 10) (sw : BitVec 3) (stuckOn : Bool) (l : Lane) : Lane :=
  if l.bridgeCan c ch.val kind.val sw.toNat then l.bridge c ch.val kind.val sw.toNat stuckOn else l

/-- STO_TEST_PULSE (R242, R243): the same path failing in two consecutive heats is a bridge fault of kind 6. -/
def stoTestPulseL (c : Ctx) (ch : Fin 2) (path : StoPath) (passed : Bool) (l : Lane) : Lane :=
  let n := ch.val
  let m := l.mc n
  let okF := match path with
    | .cut => R.PS_STO_cut_ok n
    | .logic => R.PS_STO_logic_ok n
  if passed then
    (l.setMc n (match path with
      | .cut => { m with badCut := 0 }
      | .logic => { m with badLogic := 0 })).put okF 1
  else
    let m1 := match path with
      | .cut => { m with badCut := m.badCut + 1 }
      | .logic => { m with badLogic := m.badLogic + 1 }
    let l1 := (((l.setMc n m1).put okF 0).flag (R.PS_FLAGS_sto_test_fail n)).inc (R.PS_STO_fail_count n)
    let run := match path with
      | .cut => m1.badCut
      | .logic => m1.badLogic
    if 2 ≤ run then l1.bridge c n 6 7 false else l1

/-- An active short circuit is commanded by something other than asc_test (R249): a bridge fault, or SAFE. -/
def Lane.ascOtherwise (l : Lane) (n : Nat) : Bool :=
  (l.mc n).ascKind9 || (l.bit (R.PS_STATUS_fault n) && l.bit (R.PS_FAULT_asc n)) ||
    (decide (l.get R.FC_MODE_mode = 6) && !l.safeOpen n)

/-- ASC_TEST_WRITE (R249, R250, R448): a 1 is accepted only in a lane that is not active and parked, and not during a sleep vote;
clearing releases the set into CATCH, where its window starts (R222), unless the active short circuit is commanded otherwise too
(R249, R258). A test whose supply is missing holds the set open until it is cleared (R248). -/
def ascTestWriteL (c : Ctx) (ch : Fin 2) (v : Word) (l : Lane) : Lane :=
  let n := ch.val
  if v.getLsbD 1 then
    if l.active = false ∧ l.parked = true ∧ l.unitsHalt = false then
      (if l.bit (R.PS_CTRL_asc_test n) then l
       else
        let l1 := l.put (R.PS_CTRL_asc_test n) 1
        if l1.ascPowered n (l.bit (R.PS_CFG_asc_high n)) && !l1.wantsCut n then l1.ascEnter c n (l.bit (R.PS_CFG_asc_high n))
        else ((l1.flag (R.PS_FLAGS_asc_fail n)).setMc n { l1.mc n with testOpen := true }).sto c n)
    else l
  else if l.bit (R.PS_CTRL_asc_test n) then
    let held := (l.mc n).testOpen
    let l1 := (l.put (R.PS_CTRL_asc_test n) 0).setMc n { l.mc n with testOpen := false }
    if l1.ascOtherwise n || (!l1.bit (R.PS_STATUS_asc n) && (!held || l1.wantsCut n)) then l1.sto c n
    else if held then (l1.startWindow c n).toCatch c n
    else
      let l2 := l1.ascOff n
      if l2.mcState n = mcAsc then (l2.startWindow c n).toCatch c n else l2.sto c n
  else l

/-- STO_REQ_WRITE (R241, R250, R448): a 1 is accepted only in a lane that is not active and parked, and not during a sleep vote. -/
def stoReqWriteL (c : Ctx) (ch : Fin 2) (v : Word) (l : Lane) : Lane :=
  let n := ch.val
  if v.getLsbD 0 then
    if l.active = false ∧ l.parked = true ∧ l.unitsHalt = false then (l.put (R.PS_CTRL_sto_req n) 1).sto c n else l
  else (l.put (R.PS_CTRL_sto_req n) 0).sto c n

/-- CHOPPER_ON (R252). DESIGN CHOICE (log 80): the run of failed readbacks that R253 counts starts again with every turn-on, as with every
turn-off. -/
def chopperOnL (c : Ctx) (ch : Fin 2) (l : Lane) : Lane :=
  let n := ch.val
  if l.bit (R.PS_STATUS_chop_on n) then l.setMc n { l.mc n with chopTest := false }
  else (l.put (R.PS_STATUS_chop_on n) 1).setMc n { l.mc n with chopAt := c.now, chopTest := false, chopBadOn := 0 }

/-- The chopper turns off. -/
def Lane.chopOff (c : Ctx) (l : Lane) (n : Nat) : Lane :=
  let m := l.mc n
  (l.put (R.PS_STATUS_chop_on n) 0).setMc n
    { m with chopAt := c.now, chopTest := false, chopBadOff := 0, chopOnNs := m.chopOnNs + (c.now - max m.chopAt l.ea.heatAt) }

/-- CHOPPER_OFF (R252): below the hysteresis and at least 2 µs after turn-on; a test pulse ends after 10 µs whatever v_dc is. -/
def chopperOffL (c : Ctx) (ch : Fin 2) (vdc : W40) (l : Lane) : Lane :=
  let n := ch.val
  let m := l.mc n
  let below := decide (qv vdc < l.q (R.PS_V_CHOP_ON n) - l.q (R.PS_V_CHOP_HYST n))
  if l.bit (R.PS_STATUS_chop_on n) ∧ (if m.chopTest then m.chopAt + 10000 ≤ c.now else below = true ∧ m.chopAt + 2000 ≤ c.now) then
    l.chopOff c n
  else l

/-- CHOPPER_TEST_PULSE (R252, R261, R524): with v_dc at least 12 V, after 1 s off, or at the first heat in which v_dc is that high
after a check that could not test the on-state. -/
def chopperTestPulseL (c : Ctx) (ch : Fin 2) (vdc : W40) (l : Lane) : Lane :=
  let n := ch.val
  let m := l.mc n
  if l.bit (R.PS_STATUS_chop_on n) = false ∧ (m.chopUntested = true ∨ m.chopAt + 1000000000 ≤ c.now) ∧ 12 * qOne ≤ qv vdc then
    (l.put (R.PS_STATUS_chop_on n) 1).setMc n { m with chopAt := c.now, chopTest := true, chopBadOn := 0, chopUntested := false }
  else l

/-- Whether a chopper current passes the readback check (R253). -/
def Lane.chopPasses (l : Lane) (n : Nat) (on : Bool) (vdc cur : Int) : Bool :=
  let want := qr vdc / l.par (R.PS_R_CHOP n)
  if on then decide (mkRat 7 10 * want ≤ qr cur) && decide (qr cur ≤ mkRat 13 10 * want)
  else decide (cur < l.q (R.PS_I_CHOP_MIN n))

/-- chop_fault is latched (R253): the lane's remaining life is 0 at once (R507), below any threshold (R508), and with that update of it a relay pass with cause
0x5 starts where R508 calls for one. -/
def Lane.chopLost (c : Ctx) (l : Lane) (n : Nat) : Lane :=
  let l1 := (l.put (R.PS_STATUS_chop_fault n) 1).flag (R.PS_FLAGS_chop_fault n)
  let l2 := ((l1.put R.HA_LIFE_life_h 0).put R.HA_LIFE_limiting 0xF).setLifeOf c.id 0
  let low := decide (0 < l2.get R.HA_CFG_age_thr_h)
  let l3 := l2.flagIf (low && !l2.bit R.HA_STATUS_age_warning) R.HA_FLAGS_age_warning
  ((l3.putB R.HA_STATUS_age_warning low).putB R.LM_STATUS_age_warning low).lifePass c

/-- One readback of a chopper commanded on or off, at a link voltage (R253): two consecutive failures while on latch chop_fault; while
off they set chop_stuck. -/
def Lane.chopRead (c : Ctx) (l : Lane) (n : Nat) (on : Bool) (vdc cur : Int) : Lane :=
  let m := l.mc n
  let l1 := l.putQ (R.PS_CHOP_I n) cur
  if l.chopPasses n on vdc cur then
    l1.setMc n (if on then { m with chopBadOn := 0 } else { m with chopBadOff := 0, chopOkNow := true })
  else
    let l2 := (l1.flag (R.PS_FLAGS_chop_check_fail n)).inc (R.PS_CHOP_STAT_failed n)
    if on then
      let l3 := l2.setMc n { m with chopBadOn := m.chopBadOn + 1 }
      if m.chopBadOn = 1 then l3.chopLost c n else l3
    else
      let l3 := l2.setMc n { m with chopBadOff := m.chopBadOff + 1, chopOkNow := false }
      if m.chopBadOff = 1 then l3.flag (R.PS_FLAGS_chop_stuck n) else l3

/-- CHOPPER_READBACK (R253): every 5 µs, from 5 µs after a command on. -/
def chopperReadbackL (c : Ctx) (ch : Fin 2) (vdc cur : W40) (l : Lane) : Lane :=
  if c.now < (l.mc ch.val).chopAt + 5000 then l
  else l.chopRead c ch.val (l.bit (R.PS_STATUS_chop_on ch.val)) (qv vdc) (qv cur)

/-- The set shorted by stage 3 (R248, R255), recorded as kind 9 with what holds it; an active short circuit that already stands is
kept. -/
def Lane.shortSet (c : Ctx) (l : Lane) (n : Nat) : Lane :=
  let l1 := (l.mcSet n mcFault).recordBridge n 9 7 false
  let l2 := if l1.bit (R.PS_STATUS_asc n) then l1 else l1.ascEnter c n (l1.bit (R.PS_CFG_asc_high n))
  (l2.setMc n { l2.mc n with ascKind9 := l2.bit (R.PS_STATUS_asc n) }).showAsc n

/-- DC_LINK_OVERVOLTAGE (R255 to R258): ASC and an urgent pass in the active lane with a fit standby, inside a zone too; with none,
the fault is counted at once and the set stays shorted (R118); in another lane the gates stay off, or an ASC that stands is kept, and
the lane becomes unfit. The incoming lane of a zone counts as one that is not active, since it does not hold the baton (DEDUCED, log 80):
it becomes unfit inside the zone (R69). -/
def dcLinkOvervoltageL (c : Ctx) (ch : Fin 2) (l : Lane) : Lane :=
  let n := ch.val
  let l0 := (l.put (R.PS_STATUS_ovp_active n) 1).flag (R.PS_FLAGS_ovp n)
  if (l.mc n).ascKind9 then l0
  else if l.holdsBaton c then
    let l1 := l0.shortSet c n
    match l1.nextFit c with
    | some _ => (List.range (solenoidCount c.part.member)).foldl Lane.showCoil ((l1.shareOf c n 0).urgentPass c 7)
    | none => l1.becomeUnfit c 7 4 n (.setOrCoil (some n))
  else if l.bit (R.PS_STATUS_asc n) then (l0.shortSet c n).becomeUnfit c 7 4 n (.setOrCoil (some n))
  else (((l0.mcSet n mcFault).recordBridge n 9 7 false).holdOpen c n).becomeUnfit c 7 4 n (.setOrCoil (some n))

/-- ASC_OVP_RELEASE (R249): in a lane that is not active, 1 ms below V_ovp − 2 V opens the set of a kind-9 fault. -/
def ascOvpReleaseL (c : Ctx) (ch : Fin 2) (l : Lane) : Lane :=
  let n := ch.val
  if l.active = false ∧ (l.mc n).ascKind9 = true ∧ l.q (R.PS_VDC n) < l.q (R.PS_V_OVP n) - 2 * qOne then
    ((l.put (R.PS_STATUS_ovp_active n) 0).put (R.PS_FAULT_asc n) 0).holdOpen c n
  else l

/-- The chopper's on-time of the heat just ended, in 1/1000 (R262), and whether its off-state readback passed in that heat (R261). -/
def Lane.psHeat (c : Ctx) (l : Lane) (n : Nat) : Lane :=
  let m := l.mc n
  let on := m.chopOnNs + (if l.bit (R.PS_STATUS_chop_on n) then c.now - max m.chopAt l.ea.heatAt else 0)
  let pm := if l.heatLen = 0 then 0 else min (on * 1000 / l.heatLen) 1000
  let l1 := { l with ha := { l.ha with chopNs := l.ha.chopNs + on } }
  (l1.put (R.PS_CHOP_STAT_permille n) pm).setMc n { m with chopOnNs := 0, chopOkOff := m.chopOkNow, chopOkNow := false }

/-! ### The commands -/

/-- BRIDGE_FAULT. -/
def execBridgeFault (ln : LaneId) (ch : Fin 2) (kind : Fin 10) (switch : BitVec 3) (stuckOn : Bool) (s : State) : Answer :=
  onMotor ln ch (fun c l => bridgeFaultL c ch kind switch stuckOn l) s

/-- STO_TEST_PULSE. -/
def execStoTestPulse (ln : LaneId) (ch : Fin 2) (path : StoPath) (passed : Bool) (s : State) : Answer :=
  onMotor ln ch (fun c l => stoTestPulseL c ch path passed l) s

/-- ASC_TEST_WRITE. -/
def execAscTestWrite (ln : LaneId) (ch : Fin 2) (value : Word) (s : State) : Answer :=
  writeMotor ln ch (fun c l => ascTestWriteL c ch value l) s

/-- STO_REQ_WRITE. -/
def execStoReqWrite (ln : LaneId) (ch : Fin 2) (value : Word) (s : State) : Answer :=
  writeMotor ln ch (fun c l => stoReqWriteL c ch value l) s

/-- CHOPPER_ON. -/
def execChopperOn (ln : LaneId) (ch : Fin 2) (s : State) : Answer :=
  onMotor ln ch (fun c l => chopperOnL c ch l) s

/-- CHOPPER_OFF. -/
def execChopperOff (ln : LaneId) (ch : Fin 2) (vdc : W40) (s : State) : Answer :=
  onMotor ln ch (fun c l => chopperOffL c ch vdc l) s

/-- CHOPPER_TEST_PULSE. -/
def execChopperTestPulse (ln : LaneId) (ch : Fin 2) (vdc : W40) (s : State) : Answer :=
  onMotor ln ch (fun c l => chopperTestPulseL c ch vdc l) s

/-- CHOPPER_READBACK. -/
def execChopperReadback (ln : LaneId) (ch : Fin 2) (vdc : W40) (current : W40) (s : State) : Answer :=
  onMotor ln ch (fun c l => chopperReadbackL c ch vdc current l) s

/-- DC_LINK_OVERVOLTAGE. -/
def execDcLinkOvervoltage (ln : LaneId) (ch : Fin 2) (s : State) : Answer :=
  onMotor ln ch (fun c l => dcLinkOvervoltageL c ch l) s

/-- ASC_OVP_RELEASE. -/
def execAscOvpRelease (ln : LaneId) (ch : Fin 2) (s : State) : Answer :=
  onMotor ln ch (fun c l => ascOvpReleaseL c ch l) s

end Sys2Proof.Machine
end

