-- ==== Sys2Proof/Machine/Baton.lean ====
section
/-! DEFINITION. Baton decisions, relay passes, rotation and pins (R62 to R84, R563, R565). -/

namespace Sys2Proof.Machine

/-! ### Records (R563, R565) -/

/-- The peers that this lane's record of a lane may name: every lane of the member but this one. -/
def Lane.isPeer (c : Ctx) (x : LaneId) : Bool := (othersOf c).contains x

/-- A handover recorded (R565): kind 0 a relay pass, 1 a dropped baton. -/
def Lane.recordHandover (l : Lane) (kind : Nat) (out inc : LaneId) (cause : Nat) (stamp : Word) : Lane :=
  let n := min (l.get R.LM_HANDOVER_count + 1) 65535
  let l1 := l.wr R.LM_HANDOVER (BitVec.ofNat 32 (n * 65536 + cause % 16 * 256 + laneCode inc * 16 + laneCode out * 4 + kind))
  let l2 := (l1.wr R.LM_HANDOVER_TIME stamp).flag R.LM_FLAGS_handover_seen
  let k := l2.ha.counts
  { l2 with ha := { l2.ha with counts :=
      if kind = 0 then { k with relay := k.relay + 1 } else { k with dropped := k.dropped + 1 } } }

/-- The cause of another lane's unfitness is awaited for 20 µs (R563). -/
def Lane.awaitCause (c : Ctx) (l : Lane) (x : LaneId) : Lane :=
  let p := l.peer x
  if p.leaving.isSome || p.awaitLeaving.isSome then l else l.setPeer x { p with awaitLeaving := some c.now }

/-- The cause with which a lane dropped the baton, as far as it is known: that of its LEAVING (R563), but 0xC for an awarded lane that
did not assert its lines (R532). -/
def Lane.dropCause (l : Lane) (x : LaneId) : Option Nat :=
  if l.st.awardFailed = some x then some 0xC else (l.peer x).leaving.map (·.cause)

/-- A dropped baton recorded with its cause, or kept until LEAVING arrives or 20 µs have passed (R563, R565). -/
def Lane.recordDrop (c : Ctx) (l : Lane) (out inc : LaneId) (stamp : Word) : Lane :=
  match l.dropCause out with
  | some cause => l.recordHandover 1 out inc cause stamp
  | none =>
    let l1 := { l with baton := { l.baton with handoverWait := some (out, inc, c.now, stamp) } }
    l1.awaitCause c out

/-- The cause of a lane's unfitness is known: a handover that waits for it is recorded. -/
def Lane.causeKnown (l : Lane) (x : LaneId) (cause : Nat) : Lane :=
  match l.baton.handoverWait with
  | some (out, inc, _, stamp) =>
    if out = x then ({ l with baton := { l.baton with handoverWait := none } }).recordHandover 1 out inc cause stamp else l
  | none => l

/-! ### Dwells (R80) -/

/-- The life of a fit lane that the dwells are computed from: its own, the last one received, or prior_life_h. -/
def Lane.dwellLife (c : Ctx) (l : Lane) (x : LaneId) : Nat :=
  if x = c.id then l.get R.HA_LIFE_life_h
  else match (l.peer x).life with
    | some v => v.toNat
    | none => l.get R.HA_CFG_prior_life_h

/-- The exact dwell of a lane before and after its bounds (R80). -/
def Lane.dwellOf (c : Ctx) (l : Lane) (x : LaneId) : Rat × Rat :=
  let p : Rat := ((l.get R.LM_ROT_PERIOD_seconds : Nat) : Rat)
  let fit := l.fitLanes c
  let sum := (fit.map (fun y => l.dwellLife c y)).sum
  let raw : Rat := if sum = 0 then p else p * ((fit.length * l.dwellLife c x : Nat) : Rat) / ((sum : Nat) : Rat)
  let lo := p * ((l.get R.LM_ROT_ENV_weight_min : Nat) : Rat) / 256
  let hi := p * ((l.get R.LM_ROT_ENV_weight_max : Nat) : Rat) / 256
  (raw, if raw < lo then lo else if hi < raw then hi else raw)

/-- The register of a lane's dwell. -/
def dwellReg : LaneId → Nat
  | .a => R.LM_DWELL_A
  | .b => R.LM_DWELL_B
  | .c => R.LM_DWELL_C

/-- DWELL_COMPUTE (R80, R513): the dwells of all fit lanes, rounded to whole seconds and sent in WEIGHTS; this lane's own
runs from now, outside RUN from the return to it (R446), but for a pin, DISPUTED or a single fit lane. -/
def Lane.startDwell (c : Ctx) (l : Lane) : Lane :=
  let one := fun (y : Lane) (x : LaneId) =>
    if y.knowsFit x then
      let d := y.dwellOf c x
      (y.wr (dwellReg x) (BitVec.ofNat 32 (nearest d.2).toNat)).flagIf (decide (d.1 ≠ d.2)) R.LM_FLAGS_rot_conflict
    else y.wr (dwellReg x) 0
  let l1 := [LaneId.a, .b, .c].foldl one l
  let l2 := l1.sendAll c 0x0C [(l1.rd R.LM_DWELL_A).toNat, (l1.rd R.LM_DWELL_B).toNat, (l1.rd R.LM_DWELL_C).toNat]
  let runs := decide ((l2.fitLanes c).length ≥ 2) && !l2.bit R.LM_ROLE_pinned && !l2.bit R.LM_ROLE_disputed
  let len := (l2.rd (dwellReg c.id)).toNat * 1000000000
  let l3 := { l2 with baton := { l2.baton with
      dwellEnds := if runs && decide (l2.pwState = 0) then some (c.now + len) else none,
      freshDwell := false, rotTarget := none, deferredAt := none, skipped := [] } }
  if l3.pwState = 0 then l3 else { l3 with pw := { l3.pw with dwellLeft := if runs then some len else none } }

/-- WEIGHTS (R80). -/
def weightsL (c : Ctx) (sender : LaneId) (da db dc : Word) (l : Lane) : Lane :=
  if Lane.isPeer c sender then ((l.wr R.LM_DWELL_A da).wr R.LM_DWELL_B db).wr R.LM_DWELL_C dc else l

/-- WEIGHTS. -/
def execWeights (ln : LaneId) (sender : LaneId) (da db dc : Word) (s : State) : Answer :=
  onAlive ln (fun c l => weightsL c sender da db dc l) s

/-! ### Baton decisions (R70 to R75) -/

/-- The lane's channels are enabled as an incoming lane (R74, R221), where the drive permit is set. -/
def Lane.enableAll (c : Ctx) (l : Lane) : Lane :=
  if !l.bit R.BK_STATUS_permit then l
  else (List.range (motorCount c.part.member)).foldl (fun y ch => y.enable c ch) l

/-- The stages that an incoming lane drives: all handed over while engaged, else the steppers, and but for STILL the safety outputs
(R356, R443). -/
def Lane.incomingStages (c : Ctx) (l : Lane) : BitVec 32 :=
  if l.bit R.BK_STATUS_engaged then handedMask c.part.member
  else handedMask c.part.member &&& if l.get R.PW_STATUS_state = 0 then 0xFF0F00 else 0xF00

/-- The successor after a lane in the cyclic order (R71): the first fit standby but the failed lane. -/
def Lane.successor (c : Ctx) (l : Lane) (failed after : LaneId) : Option LaneId :=
  (cyclicAfter c after).find? (fun x => decide (x ≠ failed) && (if x = c.id then l.standby else l.knowsFit x))

/-- The incoming lane of a pass with cause 0x7 that ends before its zone drives no longer: its bridges were enabled for that pass alone
(R221, R256). -/
def Lane.leaveOvp (c : Ctx) (l : Lane) : Lane :=
  match l.baton.pass with
  | some p =>
    if p.incoming = c.id ∧ p.cause = 7 ∧ p.phase ≠ .zone ∧ p.phase ≠ .returning then (l.disableAll c).takeShare c 0 else l
  | none => l

/-- A baton decision begins (R70 to R73): a pass in progress is abandoned (R69), and on the TS-8630 the successor sends
CLAIM. -/
def Lane.beginDecision (c : Ctx) (l : Lane) (failed after : LaneId) (stamp : Word) (counted : Nat) : Lane :=
  let l0 := l.leaveOvp c
  let l1 := { l0 with baton := { l0.baton with pass := none, note := none, window := none, request := none } }
  let l2 := (l1.put R.LM_ROLE_baton_lane 3).put R.LM_ROLE_in_zone 0
  match l2.successor c failed after with
  | none => { l2 with baton := { l2.baton with decision := none } }.put R.LM_ROLE_deciding 0
  | some y =>
    let mine := decide (y = c.id) && isTriple c.part.member
    let l3 := if mine then l2.sendAll c 0x01 [laneCode failed, (l2.dropCause failed).getD 0xC] else l2
    ({ l3 with baton := { l3.baton with
        decision := some ⟨failed, y, counted, stamp, c.now, if mine then some c.now else none⟩ } }).put R.LM_ROLE_deciding 1

/-- The active lane's deassertion counts (R70): it is unfit from here, its cause awaited (R563). -/
def Lane.startDecision (c : Ctx) (l : Lane) (failed : LaneId) : Lane :=
  let p := l.peer failed
  let l1 := (l.setPeer failed { p with decisionAt := some c.now }).awaitCause c failed
  (((l1.setFit failed false).pinLost failed).judgePorts c).beginDecision c failed failed l.stamp c.now

/-- The incoming lane's decision is complete (R74, R78, R80, R322): it is active, its bridges are enabled, its demand is that
of its last adopted mirror up to the next heat boundary, its takeover window is open and its dwell starts. -/
def Lane.complete (c : Ctx) (l : Lane) : Lane :=
  match l.baton.decision with
  | some d =>
    if d.successor ≠ c.id then l
    else
      let w : Window := ⟨c.id, d.failed, c.now + 250000, d.countedAt, d.stamp, false⟩
      let l1 := (((l.setRole roleActive).put R.LM_ROLE_baton_lane (laneCode c.id)).put R.LM_ROLE_deciding 0).put
        R.LM_STATUS_takeover_pending 1
      let own := if l1.baton.ownDemand.isSome then l1.baton.ownDemand else some l1.demand
      let l2 := { (if l1.baton.mirDemand = [] then l1 else l1.showDemand l1.baton.mirDemand) with
        baton := { l1.baton with decision := none, window := some w, gateOffAt := some d.countedAt, ownDemand := own } }
      let l3 := (l2.flag R.LM_FLAGS_drop_taken).recordDrop c d.failed c.id d.stamp
      let l4 := (l3.failAllHoming.takeShare c 256).enableAll c
      (l4.startDwell c).canStarts
  | none => l

/-- BATON_DECISION_COMPLETE (R71, R72): 1 µs after the deassertion on two-lane members; on the TS-8630 at once where the
third lane is unfit or silent. -/
def batonDecisionCompleteL (c : Ctx) (l : Lane) : Lane :=
  match l.baton.decision with
  | some d =>
    if d.successor ≠ c.id then l
    else if isTriple c.part.member then
      let third := (othersOf c).filter (fun x => decide (x ≠ d.failed))
      if third.all (fun x => !l.knowsFit x || (l.peer x).silentAt.isSome) then l.complete c else l
    else if d.countedAt + 1000 ≤ c.now then l.complete c
    else l
  | none => l

/-- BATON_DECISION_COMPLETE. -/
def execBatonDecisionComplete (ln : LaneId) (s : State) : Answer := onAlive ln (fun c l => batonDecisionCompleteL c l) s

/-- Whether lane `x` comes before lane `y` in the cyclic order after the failed lane (R72). -/
def comesFirst (c : Ctx) (failed x y : LaneId) : Bool := decide ((cyclicAfter c failed).head? = some x) && decide (x ≠ y)

/-- CLAIM (R72): a lane agrees with a claimant unless its own claim comes first; it answers CLAIM_ACK, records the claimant
as active and opens its takeover window. DESIGN CHOICE (log 28): the third lane records the dropped baton here, before the
claimant's decision is complete. -/
def claimL (c : Ctx) (sender failed : LaneId) (l : Lane) : Lane :=
  if !isTriple c.part.member || !Lane.isPeer c sender || decide (failed = sender) || decide (failed = c.id) || !l.standby then l
  else
    let keeps := match l.baton.decision with
      | some d => decide (d.successor = c.id) && decide (d.failed = failed) && comesFirst c failed c.id sender
      | none => false
    if keeps then l
    else
      let stamp := match l.baton.decision with
        | some d => d.stamp
        | none => l.stamp
      let l0 := match l.baton.decision with
        | some _ => l
        | none => (((l.setFit failed false).pinLost failed).judgePorts c).awaitCause c failed
      let l1 := (l0.sendTo c sender 0x02 [laneCode failed]).put R.LM_ROLE_baton_lane (laneCode sender)
      let counted := match l.baton.decision with
        | some d => d.countedAt
        | none => c.now
      let w : Window := ⟨sender, failed, c.now + 250000, counted, stamp, false⟩
      let l2 := { l1 with baton := { l1.baton with decision := none, window := some w, pass := none, note := none } }
      (l2.put R.LM_ROLE_deciding 0).recordDrop c failed sender stamp

/-- CLAIM. -/
def execClaim (ln : LaneId) (sender failed : LaneId) (_cause : BitVec 4) (s : State) : Answer :=
  onAlive ln (fun c l => claimL c sender failed l) s

/-- CLAIM_ACK (R72): it completes the claimant's decision. -/
def claimAckL (c : Ctx) (sender failed : LaneId) (l : Lane) : Lane :=
  match l.baton.decision with
  | some d => if d.successor = c.id ∧ d.failed = failed ∧ d.claimAt.isSome = true ∧ Lane.isPeer c sender = true then l.complete c else l
  | none => l

/-- CLAIM_ACK. -/
def execClaimAck (ln : LaneId) (sender failed : LaneId) (s : State) : Answer := onAlive ln (fun c l => claimAckL c sender failed l) s

/-- CLAIM_TIMEOUT (R72): 8 µs after CLAIM. -/
def claimTimeoutL (c : Ctx) (l : Lane) : Lane :=
  match l.baton.decision with
  | some d =>
    match d.claimAt with
    | some t => if t + 8000 ≤ c.now then l.complete c else l
    | none => l
  | none => l

/-- CLAIM_TIMEOUT. -/
def execClaimTimeout (ln : LaneId) (s : State) : Answer := onAlive ln (fun c l => claimTimeoutL c l) s

/-- The successor is gone before its decision was complete, or before it drove (R73, R75): the next fit lane decides anew.
DESIGN CHOICE (log 28): the handover is still the one from the lane that failed first, so LM_HANDOVER will name that lane with
its cause and the stamp of its deassertion, and the gaps of R92 run from there. -/
def Lane.successorGone (c : Ctx) (l : Lane) (x : LaneId) : Lane :=
  match l.baton.decision, l.baton.window with
  | some d, _ => if d.successor = x ∧ x ≠ c.id then l.beginDecision c d.failed x d.stamp d.countedAt else l
  | none, some w => if w.incoming = x ∧ x ≠ c.id then l.beginDecision c w.failed x w.stamp w.countedAt else l
  | none, none => l

/-! ### Another lane is unfit (R69, R73, R84, R563) -/

/-- The pinned lane where it is another fit lane (R83). -/
def Lane.pinnedElsewhere (c : Ctx) (l : Lane) : Option LaneId :=
  if l.bit R.LM_ROLE_pinned then
    match laneOf (l.get R.LM_PIN_lane) with
    | some x => if x ≠ c.id ∧ l.knowsFit x then some x else none
    | none => none
  else none

/-- A pass whose cause calls for it again is asked for again at the next opportunity (R65): an urgent one at once, one of
rotation by its deferral, one of a pin while it lasts to the pinned lane (R83), one of age to the standby that R508 names, and a
firmware request not; where the incoming lane is unfit, a pass of any cause goes to the next fit standby (R69). -/
def Lane.retryPass (c : Ctx) (l : Lane) (p : Pass) : Lane :=
  if p.urgent then
    (match l.nextFit c with
    | some _ => l.urgentPass c p.cause
    | none =>
      if p.cause = 7 then
        let ch := l.ovpChannel
        l.becomeUnfit c 7 4 ch (.setOrCoil (some ch))
      else if p.cause = 6 then (l.withdraw c).setPark c 0
      else l)
  else if p.cause = 3 ∧ l.knowsFit p.incoming = true then l
  else if p.cause = 1 then
    (if l.bit R.LM_ROLE_disputed || l.bit R.LM_ROLE_pinned then l
     else { l with baton := { l.baton with rotTarget := l.nextFit c, deferredAt := some c.now } })
  else if p.cause = 2 ∧ l.knowsFit p.incoming = true then
    (match l.pinnedElsewhere c with
    | some x => l.requestPass 2 (some x)
    | none => l)
  else if p.cause = 5 ∧ l.knowsFit p.incoming = true then
    (match l.ageTarget c with
    | some x => l.requestPass 5 (some x)
    | none => l)
  else l.requestPass p.cause none

/-- The lane holds the baton alone after its pass partner went inside the zone (R69). DESIGN CHOICE (log 28): LM_GAP_PRIV and
LM_GAP_NPRIV keep their values, since this lane drove throughout and there is no gap to measure. -/
def Lane.takeAll (c : Ctx) (l : Lane) (p : Pass) : Lane :=
  let l1 := (((((l.resumeSteps c).setPass none).zoneUntil c.now).put R.LM_ROLE_in_zone 0).slotsAnew c).put R.LM_ROLE_baton_lane
    (laneCode c.id)
  let l2 := ((l1.takeShare c 256).flag R.LM_FLAGS_drop_taken).recordDrop c p.outgoing c.id l.stamp
  let l3 := (List.range 6).foldl Lane.showCoil ((l2.startDwell c).canStarts)
  if l3.leaveDue then l3.leaveNow c else l3

/-- What a relay pass in this lane becomes when its partner is unfit (R69, R258). -/
def Lane.partnerGone (c : Ctx) (l : Lane) (x : LaneId) : Lane :=
  match l.baton.pass with
  | none => l
  | some p =>
    if p.outgoing = c.id ∧ p.incoming = x then
      (if p.phase = .zone then
        (l.setPass (some { p with phase := .returning, rampAt := c.now, returnFrom := p.share })).flag R.LM_FLAGS_relay_abort
       else if p.phase = .returning then l
       else (l.abortPass c 1).retryPass c p)
    else if p.incoming = c.id ∧ p.outgoing = x then
      (if p.phase = .zone ∨ p.phase = .returning then l.takeAll c p else (l.setPass none).flag R.LM_FLAGS_relay_abort)
    else l

/-- The lane takes another lane as unfit (R563). -/
def Lane.learnUnfit (c : Ctx) (l : Lane) (x : LaneId) : Lane :=
  if !l.knowsFit x then l.judgePorts c
  else
    let l1 := (l.setFit x false).pinLost x
    let l2 := ((l1.partnerGone c x).successorGone c x).judgePorts c
    if l2.fitLanes c = [] then l2.setMode c 6 else l2

/-- Another lane's fault counted in this lane (R116). -/
def Lane.countOther (c : Ctx) (l : Lane) (x : LaneId) (cls detail : Nat) : Lane :=
  if cls = 0 then l
  else
    let f : FaultRec := ⟨cls, laneCode x, detail, l.stamp⟩
    if l.st.awardAt = none then { l with st := { l.st with waiting := l.st.waiting ++ [f] } } else l.countFault c f

/-- A fault counted against a lane whose unfitness was observed before its cause was known (R563): it was fit when the fault
arose. -/
def Lane.countAwaited (c : Ctx) (l : Lane) (x : LaneId) (cls detail : Nat) : Lane :=
  ((l.setFit x true).countOther c x cls detail).setFit x (l.knowsFit x)

/-- LEAVING (R563): the sender is unfit from here, its fault is counted under its class, and what waited for its cause is
recorded. DESIGN CHOICE (log 25): LEAVING carries a cause and a class and no channel or driver, so the detail of a W or C fault
learned by it is 0. -/
def leavingL (c : Ctx) (sender : LaneId) (cause cls : BitVec 4) (l : Lane) : Lane :=
  if !Lane.isPeer c sender then l
  else
    let p := l.peer sender
    let k := cls.toNat
    let detail := if k ≤ 3 then cause.toNat else 0
    let l1 := if p.awaitLeaving.isSome then l.countAwaited c sender k detail else l.countOther c sender k detail
    let l2 := l1.setPeer sender { p with leaving := some ⟨cause.toNat, k, c.now⟩, awaitLeaving := none,
                                         voteShown := p.voteShown || p.voteAt.isSome }
    (l2.causeKnown sender cause.toNat).learnUnfit c sender

/-- LEAVING. -/
def execLeaving (ln : LaneId) (sender : LaneId) (cause cls : BitVec 4) (s : State) : Answer :=
  onAlive ln (fun c l => leavingL c sender cause cls l) s

/-- LEAVING_TIMEOUT (R563): none within 20 µs, so cause 0xC and class 0x1 are recorded. The fault was observed while the lane
counted the other as fit. -/
def leavingTimeoutL (c : Ctx) (gone : LaneId) (l : Lane) : Lane :=
  match (l.peer gone).awaitLeaving with
  | some t =>
    if t + 20000 ≤ c.now then
      let l1 := l.setPeer gone { l.peer gone with awaitLeaving := none }
      ((l1.countAwaited c gone 1 0xC).causeKnown gone 0xC).learnUnfit c gone
    else l
  | none => l

/-- LEAVING_TIMEOUT. -/
def execLeavingTimeout (ln : LaneId) (gone : LaneId) (s : State) : Answer := onAlive ln (fun c l => leavingTimeoutL c gone l) s

/-- SUCCESSOR_CLAIM_TIMEOUT (R73): no CLAIM within 10 µs, so the successor has failed with cause 0xC. -/
def successorClaimTimeoutL (c : Ctx) (l : Lane) : Lane :=
  match l.baton.decision with
  | some d =>
    if isTriple c.part.member = true ∧ d.successor ≠ c.id ∧ d.boundFrom + 10000 ≤ c.now then
      (l.countOther c d.successor 1 0xC).learnUnfit c d.successor
    else l
  | none => l

/-- SUCCESSOR_CLAIM_TIMEOUT. -/
def execSuccessorClaimTimeout (ln : LaneId) (s : State) : Answer := onAlive ln (fun c l => successorClaimTimeoutL c l) s

/-! ### Takeover lines (R44, R45, R70, R74) -/

/-- A wake pulse may stand on the lines now, so that assertions of at most 50 µs mean nothing (R454): the module is in STILL, a vote
in it open or not. -/
def Lane.pulsesNow (c : Ctx) (l : Lane) : Bool :=
  decide (1 ≤ l.pwState ∧ l.pwState ≤ 3) ||
    match l.pw.endedAt with
    | some t => decide (c.now < t + 25000000)
    | none => false

/-- A deassertion that is a dropped baton (R70): of the lane recorded as active, in a fit standby, outside a zone and a
takeover window, and not at the end of a wake pulse or at the point of no return. -/
def Lane.dropsBaton (c : Ctx) (l : Lane) (x : LaneId) : Bool :=
  l.standby && decide (l.batonLane = some x) && !l.zoneNow c && decide (l.pwState < 4) &&
    !(l.pulsesNow c && decide (c.now ≤ (l.peer x).lineAt + 50000)) &&
    match l.baton.window with
    | some w => decide (w.incoming ≠ x)
    | none => true

/-- TAKEOVER_LINE_CHANGE (R45, R69, R70, R74, R260): DESIGN CHOICE (log 79): a deassertion in the 2 µs before or after an announced
zone, which R67 counts as inside for R70 and R69 does not speak of, starts no decision. An assertion releases the lane's holding latches and ends a takeover
window; a deassertion of the active lane starts a decision, or inside a zone leaves the incoming lane alone. -/
def takeoverLineChangeL (c : Ctx) (driver : LaneId) (asserted : Bool) (l : Lane) : Lane :=
  if !Lane.isPeer c driver || decide ((l.peer driver).line = asserted) then l
  else
    let was := l
    let l1 := l.setPeer driver { l.peer driver with line := asserted, lineAt := c.now }
    if asserted then
      let l2 := l1.releaseLatches (stageMask c.part.member)
      match l2.baton.window with
      | some w => if w.incoming = driver then { l2 with baton := { l2.baton with window := none } } else l2
      | none => l2
    else if was.dropsBaton c driver then (l1.failAllHoming).startDecision c driver
    else match l1.baton.pass, l1.baton.note with
      | some p, _ =>
        if p.phase = .zone ∧ p.incoming = c.id ∧ p.outgoing = driver ∧ c.now < p.zoneAt + 100000 then
          (l1.awaitCause c driver).learnUnfit c driver
        else l1
      | none, some z =>
        if z.outgoing = driver ∧ z.fromNs + 2000 ≤ c.now ∧ c.now + 2000 < z.toNs then
          let l2 := ({ l1 with baton := { l1.baton with note := none } }.put R.LM_ROLE_baton_lane (laneCode z.incoming))
          (l2.recordDrop c driver z.incoming l1.stamp).learnUnfit c driver
        else l1
      | none, none => l1

/-- TAKEOVER_LINE_CHANGE. -/
def execTakeoverLineChange (ln : LaneId) (driver : LaneId) (asserted : Bool) (s : State) : Answer :=
  onAlive ln (fun c l => takeoverLineChangeL c driver asserted l) s

/-- TAKEOVER_ASSERT (R74, R322): after its pre-drive check the incoming lane drives its non-privileged stages and asserts its
takeover lines; its steppers start from rest. -/
def takeoverAssertL (c : Ctx) (l : Lane) : Lane :=
  match l.baton.window with
  | some w =>
    if w.incoming = c.id ∧ w.checked = true ∧ l.active = true then
      let l1 := { l.stagesOn (l.incomingStages c) with
        refresh := true, baton := { l.baton with window := none }, pw := { l.pw with rampDue := false } }
      let l2 := ((l1.setLines true).put R.LM_STATUS_takeover_pending 0).slotsAnew c
      let l3 := l2.wr R.LM_GAP_NPRIV (BitVec.ofNat 32 (c.now - w.countedAt))
      (List.range (stepperCount c.part.member)).foldl (fun y n => y.restStepper c n) l3
    else l
  | none => l

/-- TAKEOVER_ASSERT. -/
def execTakeoverAssert (ln : LaneId) (s : State) : Answer := onAlive ln (fun c l => takeoverAssertL c l) s

/-- TAKEOVER_WINDOW_EXPIRY (R74): the third lane treats the incoming lane's lines as deasserted. -/
def takeoverWindowExpiryL (c : Ctx) (l : Lane) : Lane :=
  match l.baton.window with
  | some w =>
    if c.now < w.endsAt then l
    else if w.incoming = c.id then l.put R.LM_STATUS_takeover_pending 0
    else
      let l1 := { l with baton := { l.baton with window := none } }
      if l1.standby then l1.startDecision c w.incoming else l1
  | none => l

/-- TAKEOVER_WINDOW_EXPIRY. -/
def execTakeoverWindowExpiry (ln : LaneId) (s : State) : Answer := onAlive ln (fun c l => takeoverWindowExpiryL c l) s

/-! ### The pre-drive check (R64, R261) -/

/-- A power stage passes the pre-drive check (R261). -/
def Lane.stagePasses (l : Lane) (ch : Nat) (r : PsReading) : Bool :=
  let v := qv r.vdc
  let vg := r.vgMv.toNat
  decide (10500 ≤ vg ∧ vg ≤ 13500) && decide (95 ≤ r.bootA.toNat ∧ 95 ≤ r.bootB.toNat ∧ 95 ≤ r.bootC.toNat) &&
    l.bit (R.PS_STO_cut_ok ch) && l.bit (R.PS_STO_logic_ok ch) && r.gatesOff &&
    decide (6 * qOne ≤ v ∧ v ≤ l.q (R.PS_V_CHOP_ON ch)) && !l.bit (R.PS_STATUS_chop_fault ch) &&
    (if 12 * qOne ≤ v then l.chopPasses ch true v (qv r.chopI) else (l.mc ch).chopOkOff)

/-- A solenoid driver passes (R64): at most 4.0 A, and its last periodic test passed within 1.1 s. -/
def Lane.coilPasses (c : Ctx) (l : Lane) (n : Nat) (i : W40) : Bool :=
  let fresh := match tabGet l.bk.lastTest n with
    | some t => decide (c.now ≤ t + 1100000000)
    | none => false
  decide (l.get (R.BKn_CFG_role n) = 0) || (decide (qv i ≤ 4 * qOne) && fresh && !l.bit (R.BKn_STATUS_fault n))

/-- The stage indices that fail the pre-drive check, rising (R64). -/
def Lane.checkFails (c : Ctx) (l : Lane) (m : PreDrive) : List Nat :=
  let coils := (List.range (solenoidCount c.part.member)).filter (fun n => !l.coilPasses c n ((m.solenoid[n]?).getD 0))
  let steps := (List.range (stepperCount c.part.member)).filter (fun n => !(m.stepperOk[n]?).getD true)
  let ps := (List.range (motorCount c.part.member)).filter (fun ch =>
    match m.stages[ch]? with
    | some r => !l.stagePasses ch r
    | none => true)
  let outs := (List.range 8).filter (fun k => (m.outNode[k]?).getD false || decide (5 ≤ ((m.outMa[k]?).getD 0).toNat))
  coils ++ steps.map (fun n => 8 + n) ++ ps.map (fun ch => 16 + ch) ++ outs.map (fun k => 24 + k)

/-- What the check measured, shown; a chopper that a low DC link left untested is tested later (R261), and the readback of one that was
tested counts as every readback of a chopper commanded on (R252, R253). -/
def Lane.showCheck (c : Ctx) (l : Lane) (m : PreDrive) : Lane :=
  (List.range (motorCount c.part.member)).foldl (fun y ch =>
    match m.stages[ch]? with
    | some r =>
      let z := (((y.put (R.PS_VG_mv ch) r.vgMv.toNat).put (R.PS_BOOT_boot_a ch) r.bootA.toNat).put (R.PS_BOOT_boot_b ch)
        r.bootB.toNat).put (R.PS_BOOT_boot_c ch) r.bootC.toNat
      let w := z.setMc ch { z.mc ch with chopUntested := decide (qv r.vdc < 12 * qOne) }
      if qv r.vdc < 12 * qOne then w else w.chopRead c ch true (qv r.vdc) (qv r.chopI)
    | none => y) l

/-- The shorts that the check of the solenoid stages found (R64), each recorded as a fault of kind 1 (R286). -/
def Lane.showShorts (c : Ctx) (l : Lane) (m : PreDrive) : Lane :=
  ((List.range (solenoidCount c.part.member)).filter (fun n =>
    decide (l.get (R.BKn_CFG_role n) ≠ 0 ∧ 4 * qOne < qv ((m.solenoid[n]?).getD 0)))).foldl (fun y n => y.recordCoil n 1) l

/-- The lane becomes unfit by a failed pre-drive check (R64, R75): a solenoid as class 0x5, a power stage as class 0x4, any
other stage as class 0x1. The last fit lane too: it has driven nothing yet that R118 could keep driving, and the module stops
(R75). -/
def Lane.failCheck (c : Ctx) (l : Lane) (ix : Nat) : Lane :=
  if ix < 8 then l.loseFitness c 0xC 5 ix (.setOrCoil none)
  else if 16 ≤ ix ∧ ix < 18 then l.loseFitness c 0xC 4 (ix - 16) (.setOrCoil (some (ix - 16)))
  else l.logicFault c 0xC

/-- PRE_DRIVE_CHECK_DONE (R64, R74, R75): PASS_ACCEPT, or PASS_REFUSE with the lowest failing index and the lane unfit; in a
takeover window the check allows the lane to drive its stages. -/
def preDriveCheckDoneL (c : Ctx) (m : PreDrive) (l0 : Lane) : Lane :=
  let l := (l0.showCheck c m).showShorts c m
  let fails := l0.checkFails c m
  match l0.baton.window, l0.baton.pass with
  | some w, _ =>
    if w.incoming = c.id ∧ w.checked = false then
      (match fails with
      | [] => { l with baton := { l.baton with window := some { w with checked := true } } }
      | ix :: _ => l.failCheck c ix)
    else l0
  | none, some p =>
    if p.incoming = c.id ∧ p.phase = .checking then
      (match fails with
      | [] =>
        let h := if p.urgent then l.heat16 else p.heat
        (l.sendTo c p.outgoing 0x04 [h.toNat]).setPass (some { p with phase := .accepted })
      | ix :: _ => ((l.sendTo c p.outgoing 0x05 [ix]).setPass none).failCheck c ix)
    else l0
  | none, none => l0

/-- PRE_DRIVE_CHECK_DONE. -/
def execPreDriveCheckDone (ln : LaneId) (m : PreDrive) (s : State) : Answer := onAlive ln (fun c l => preDriveCheckDoneL c m l) s

/-! ### Relay passes (R63 to R69, R256) -/

/-- When the boundary of a heat number falls, none where it has passed. -/
def Lane.heatTime (l : Lane) (h : BitVec 16) : Option Nat :=
  let d := (h - l.heat16).toNat
  if d < 0x8000 then some (l.ea.heatAt + d * l.heatLen) else none

/-- PASS_OFFER (R64, R256): the incoming lane starts its check; an offer whose zone is less than 210 µs away is ignored. With
cause 0x7 its bridges are enabled at once with share 1.0. -/
def passOfferL (c : Ctx) (sender : LaneId) (heat : BitVec 16) (cause : BitVec 4) (urgent : Bool) (l : Lane) : Lane :=
  if !Lane.isPeer c sender || !l.standby || decide (l.batonLane ≠ some sender) || l.baton.decision.isSome then l
  else if urgent then
    let p : Pass := ⟨sender, c.id, cause.toNat, true, heat, .checking, 0, 0, 0, 0, 0⟩
    let l1 := l.setPass (some p)
    if cause = 7 then (l1.takeShare c 256).enableAll c else l1
  else match l.heatTime heat with
    | some t =>
      if t < c.now + 210000 then l
      else l.setPass (some ⟨sender, c.id, cause.toNat, false, heat, .checking, t, l.stamp + BitVec.ofNat 32 (t - c.now), 0, 0, 0⟩)
    | none => l

/-- PASS_OFFER. -/
def execPassOffer (ln : LaneId) (sender : LaneId) (heat : BitVec 16) (cause : BitVec 4) (urgent : Bool) (s : State) : Answer :=
  onAlive ln (fun c l => passOfferL c sender heat cause urgent l) s

/-- The first PWM period boundary at or after an instant (R199): periods start at heat boundaries. -/
def Lane.pwmBoundary (l : Lane) (t : Nat) : Nat :=
  let p := max (l.pwm 0) 1
  l.ea.heatAt + (t - l.ea.heatAt + p - 1) / p * p

/-- PASS_ACCEPT (R65, R67, R68): PASS_CONFIRM, or PASS_ABORT where it is less than 10 µs before the zone. -/
def passAcceptL (c : Ctx) (sender : LaneId) (heat : BitVec 16) (l : Lane) : Lane :=
  match l.baton.pass with
  | some p =>
    if p.outgoing ≠ c.id ∨ p.incoming ≠ sender ∨ p.phase ≠ .offered ∨ (p.urgent = false ∧ p.heat ≠ heat) then l
    else if p.urgent = false ∧ p.zoneAt < c.now + 10000 then (l.abortPass c 0).retryPass c p
    else
      let t := if p.urgent then l.pwmBoundary (c.now + 5000) else p.zoneAt
      let q := { p with phase := .confirmed, zoneAt := t, zoneStamp := l.stamp + BitVec.ofNat 32 (t - c.now) }
      (l.sendAll c 0x0E [laneCode sender, q.zoneStamp.toNat, p.cause]).setPass (some q)
  | none => l

/-- PASS_ACCEPT. -/
def execPassAccept (ln : LaneId) (sender : LaneId) (heat : BitVec 16) (s : State) : Answer :=
  onAlive ln (fun c l => passAcceptL c sender heat l) s

/-- PASS_ACCEPT_DEADLINE (R65): no acceptance 10 µs before the zone. -/
def passAcceptDeadlineL (c : Ctx) (l : Lane) : Lane :=
  match l.baton.pass with
  | some p =>
    if p.outgoing = c.id ∧ p.phase = .offered ∧ p.urgent = false ∧ p.zoneAt < c.now + 10000 then (l.abortPass c 0).retryPass c p
    else l
  | none => l

/-- PASS_ACCEPT_DEADLINE. -/
def execPassAcceptDeadline (ln : LaneId) (s : State) : Answer := onAlive ln (fun c l => passAcceptDeadlineL c l) s

/-- PASS_REFUSE (R64, R69): the incoming lane is unfit; the outgoing one keeps the baton and retries with the next. -/
def passRefuseL (c : Ctx) (sender : LaneId) (l : Lane) : Lane :=
  match l.baton.pass with
  | some p => if p.outgoing = c.id ∧ p.incoming = sender then (l.awaitCause c sender).learnUnfit c sender else l
  | none => l

/-- PASS_REFUSE. -/
def execPassRefuse (ln : LaneId) (sender : LaneId) (_stage : BitVec 5) (s : State) : Answer :=
  onAlive ln (fun c l => passRefuseL c sender l) s

/-- The lane gives up its outputs and is a standby (R67, R228). -/
def Lane.stepBack (c : Ctx) (l : Lane) : Lane :=
  let l1 := ((l.stagesOff (handedMask c.part.member)).setLines false).setRole roleStandby
  let l2 := { l1 with refresh := false, baton := { l1.baton with
    pass := none, note := none, dwellEnds := none, rotTarget := none, deferredAt := none, skipped := [], request := none, retry := none } }
  ((l2.put R.LM_ROLE_in_zone 0).disableAll c).takeShare c 0

/-- PASS_ABORT (R69, R228, R258): the pass ends; after a loss of synchronism in the incoming lane the outgoing one returns to
all of the drive. With reason 2 inside the zone the incoming lane steps back to standby at once, so that it can take the offer with
cause 0x7 that follows (DESIGN CHOICE, log 29). -/
def passAbortL (c : Ctx) (sender : LaneId) (reason : BitVec 2) (l : Lane) : Lane :=
  match l.baton.pass, l.baton.note with
  | some p, _ =>
    if p.outgoing = c.id ∧ p.incoming = sender then
      (if p.phase = .zone then
        ({ l with baton := { l.baton with sampleBack := decide (reason = 3), retry := if reason = 3 then some p else none } }.setPass
          (some { p with phase := .returning, rampAt := c.now, returnFrom := p.share })).flag R.LM_FLAGS_relay_abort
       else l)
    else if p.incoming = c.id ∧ p.outgoing = sender ∧ (p.phase = .zone ∨ p.phase = .returning) then
      (if reason = 2 then ((l.resumeSteps c).stepBack c).flag R.LM_FLAGS_relay_abort else l)
    else if p.incoming = c.id ∧ p.outgoing = sender then
      let l1 := (l.setPass none).flag R.LM_FLAGS_relay_abort
      if p.cause = 7 then (l1.disableAll c).takeShare c 0 else l1
    else l
  | none, some z => if z.outgoing = sender ∨ z.incoming = sender then
      ((l.resumeSteps c).setPass none).zoneUntil (min l.baton.zoneTil c.now) else l
  | none, none => l

/-- PASS_ABORT. -/
def execPassAbort (ln : LaneId) (sender : LaneId) (reason : BitVec 2) (s : State) : Answer :=
  onAlive ln (fun c l => passAbortL c sender reason l) s

/-- The interval of an announced zone, 2 µs wider on each side (R67). -/
def Lane.noteZone (l : Lane) (outgoing incoming : LaneId) (t : Nat) : Lane :=
  { l with baton := { l.baton with note := some ⟨outgoing, incoming, t - 2000, t + 102000⟩, zoneTil := t + 102000 } }

/-- PASS_CONFIRM (R67): the incoming lane knows its zone start, and every receiver notes the announced interval. -/
def passConfirmL (c : Ctx) (sender incoming : LaneId) (zoneStart : Word) (l : Lane) : Lane :=
  let t := c.now + (sdiff zoneStart l.stamp).toNat
  if !Lane.isPeer c sender || decide (sender = incoming) then l
  else if incoming = c.id then
    (match l.baton.pass with
    | some p =>
      if p.outgoing = sender ∧ p.phase = .accepted then
        (l.setPass (some { p with phase := .confirmed, zoneAt := t, zoneStamp := zoneStart })).noteZone sender incoming t
      else l
    | none => l)
  else l.noteZone sender incoming t

/-- PASS_CONFIRM. -/
def execPassConfirm (ln : LaneId) (sender incoming : LaneId) (zoneStart : Word) (_cause : BitVec 4) (s : State) : Answer :=
  onAlive ln (fun c l => passConfirmL c sender incoming zoneStart l) s

/-- The ramp shares shown on the coils. -/
def Lane.showCoils (c : Ctx) (l : Lane) : Lane := (List.range (solenoidCount c.part.member)).foldl Lane.showCoil l

/-- The compare values of share 1.0 loaded in every channel of the member. -/
def Lane.loadFulls (c : Ctx) (l : Lane) : Lane := (List.range (motorCount c.part.member)).foldl Lane.loadFull l

/-- The bridges of channels in RUN switch from this boundary on (R209, R259): inside a zone the incoming lane's do from its start. -/
def Lane.gatesFromNow (c : Ctx) (l : Lane) : Lane :=
  (List.range (motorCount c.part.member)).foldl (fun y ch => (y.setMc ch { y.mc ch with gateFrom := none }).sto c ch) l

/-- The compare values of share 0.5 loaded in every channel of the member. -/
def Lane.loadHalves (c : Ctx) (l : Lane) : Lane := (List.range (motorCount c.part.member)).foldl Lane.loadHalf l

/-- The extra update of every channel of the member, in effect from an instant on (R209). -/
def Lane.lateFulls (c : Ctx) (t : Nat) (l : Lane) : Lane := (List.range (motorCount c.part.member)).foldl (Lane.lateFull t) l

/-- ZONE_START (R66, R67, R209, R256, R493). DESIGN CHOICE (log 80): in a pass of cause 0x7 on the TS-8630 the outgoing lane's other
channel, which has no fault, keeps share 1.0 until the zone starts and has share 0 from there; the incoming lane drives both. -/
def zoneStartL (c : Ctx) (l : Lane) : Lane :=
  match l.baton.pass with
  | some p =>
    if p.phase ≠ .confirmed ∨ c.now < p.zoneAt then l
    else
      let out := decide (p.outgoing = c.id)
      let l0 := if out then l.zoneUntil (p.zoneAt + 100000) else l
      let l1 := (l0.setPass (some { p with phase := .zone, rampAt := c.now, share := if out then 100 else 0 })).put
        R.LM_ROLE_in_zone 1
      let l2 := if p.cause = 7 then l1.takeShare c (if out then 0 else 256) else (l1.takeShare c 128).loadHalves c
      if out then ((l2.canDrop 0).canDrop 1).showCoils c
      else
        let l3 := (l2.setRole roleActive).setLines true
        let l4 := ((l3.enableAll c).gatesFromNow c).stagesOn (l3.incomingStages c)
        { l4 with refresh := true, pw := { l4.pw with rampDue := false } }.showCoils c
  | none => l

/-- ZONE_START. -/
def execZoneStart (ln : LaneId) (s : State) : Answer := onAlive ln (fun c l => zoneStartL c l) s

/-- HANDOVER_UPDATE (R66, R208, R209): at 12.5 µs the incoming lane carries all of the torque, with compare values of its latest
sample for share 1.0, which take effect at 12.95 µs. -/
def handoverUpdateL (c : Ctx) (l : Lane) : Lane :=
  match l.baton.pass with
  | some p =>
    if p.phase = .zone ∧ p.zoneAt + 12500 ≤ c.now then
      (if p.outgoing = c.id then l.atHandover c else (l.atHandover c).lateFulls c (p.zoneAt + 12950))
    else l
  | none => l

/-- HANDOVER_UPDATE. -/
def execHandoverUpdate (ln : LaneId) (s : State) : Answer := onAlive ln (fun c l => handoverUpdateL c l) s

/-- The ramp share of a lane `k` steps of 10 µs after its start (R66, R69, R228). -/
def rampAfter (p : Pass) (out : Bool) (k : Nat) : Nat :=
  let n := min k 10
  if p.phase = .returning then
    (if out then p.returnFrom + (100 - p.returnFrom) * n / 10 else p.returnFrom * (10 - n) / 10)
  else if out then 100 - 10 * n else 10 * n

/-- RAMP_STEP (R66): every 10 µs. -/
def rampStepL (c : Ctx) (l : Lane) : Lane :=
  match l.baton.pass with
  | some p =>
    if p.phase = .zone ∨ p.phase = .returning then
      (l.setPass (some { p with share := rampAfter p (decide (p.outgoing = c.id)) ((c.now - p.rampAt) / 10000) })).showCoils c
    else l
  | none => l

/-- RAMP_STEP. -/
def execRampStep (ln : LaneId) (s : State) : Answer := onAlive ln (fun c l => rampStepL c l) s

/-- The outgoing lane at the end of the zone (R67, R466): standby; after a presence opening it withdraws. -/
def Lane.zoneOut (c : Ctx) (l : Lane) (p : Pass) : Lane :=
  let l1 := if p.cause = 7 then
      { (((l.stagesOff (handedMask c.part.member)).setLines false).setRole roleStandby).put R.LM_ROLE_in_zone 0 with
        refresh := false, baton := { l.baton with pass := none, dwellEnds := none, request := none } }
    else l.stepBack c
  let l2 := l1.put R.LM_ROLE_baton_lane (laneCode p.incoming)
  if p.cause = 6 ∨ (p.cause ≠ 7 ∧ l.leaveDue = true) then l2.withdraw c else l2

/-- The incoming lane at the end of the zone (R67, R80, R493, R565): it holds the baton, sends PASS_DONE and starts its
dwell. -/
def Lane.zoneIn (c : Ctx) (l : Lane) (p : Pass) : Lane :=
  let l0 := { l with baton := { l.baton with pass := none, note := none } }
  let l1 := ((l0.put R.LM_ROLE_in_zone 0).slotsAnew c).put R.LM_ROLE_baton_lane (laneCode c.id)
  let l2 := l1.sendAll c 0x06 [laneCode p.outgoing, p.cause, p.zoneStamp.toNat]
  let l3 := (l2.flag R.LM_FLAGS_relay_done).recordHandover 0 p.outgoing c.id p.cause p.zoneStamp
  let l4 := (((l3.takeShare c 256).showCoils c).startDwell c).canStarts
  if l4.leaveDue then l4.leaveNow c else l4

/-- A pass that a loss of synchronism in the incoming lane ended is asked for again once that lane's channels are back in OFF with a
lock, or another lane must take its place (R228). -/
def Lane.retryReady (c : Ctx) (recovered : LaneId → Bool) (l : Lane) : Lane :=
  match l.baton.retry, l.baton.pass with
  | some p, none =>
    if recovered p.incoming || !l.knowsFit p.incoming then
      ({ l with baton := { l.baton with retry := none } }).retryPass c p
    else l
  | _, _ => l

/-- The end of a return to the outgoing lane (R69, R228): it drives alone and asks for the pass again, after a loss of synchronism
when the incoming lane has recovered, and the other is a standby; a presence opening in the zone is acted on now. -/
def Lane.returnEnd (c : Ctx) (l0 : Lane) (p : Pass) : Lane :=
  let l := l0.zoneUntil c.now
  let due := l.leaveDue
  if p.outgoing = c.id then
    let l1 := (((((l.setPass none).put R.LM_ROLE_in_zone 0).slotsAnew c).takeShare c 256).showCoils c).canStarts
    if due then l1.leaveNow c
    else if l1.baton.retry.isSome then l1
    else l1.retryPass c p
  else
    let l1 := l.stepBack c
    if due then l1.withdraw c else l1

/-- ZONE_END (R66, R67, R69, R228): at t = 100 µs, or 100 µs after a return began. -/
def zoneEndL (c : Ctx) (l : Lane) : Lane :=
  match l.baton.pass with
  | some p =>
    if p.phase = .zone ∧ p.zoneAt + 100000 ≤ c.now then
      (if p.outgoing = c.id then (l.resumeSteps c).zoneOut c p else (l.resumeSteps c).zoneIn c p)
    else if p.phase = .returning ∧ p.rampAt + 100000 ≤ c.now then
      (l.resumeSteps c).returnEnd c p
    else l
  | none => l

/-- ZONE_END. -/
def execZoneEnd (ln : LaneId) (s : State) : Answer := onAlive ln (fun c l => zoneEndL c l) s

/-- The announced zone into a lane is over with its PASS_DONE (R69). -/
def Lane.noteEnds (c : Ctx) (l : Lane) (incoming : LaneId) : Lane :=
  match l.baton.note with
  | some z =>
    if z.incoming = incoming then
      (let y := l.resumeSteps c
       { y with baton := { y.baton with note := none } })
    else l
  | none => l

/-- PASS_DONE (R256, R565): the handover is recorded; after cause 0x7 the outgoing lane's overvoltage is counted with the
stamp of its detection, and that lane is unfit. -/
def passDoneL (c : Ctx) (sender outgoing : LaneId) (cause : BitVec 4) (zoneStart : Word) (l : Lane) : Lane :=
  if !Lane.isPeer c sender then l
  else
    let k := cause.toNat
    let l1 := (l.recordHandover 0 outgoing sender k zoneStart).noteEnds c sender
    let l2 := l1.put R.LM_ROLE_baton_lane (laneCode sender)
    if outgoing = c.id then
      let l3 := l2.flag R.LM_FLAGS_relay_done
      if k = 7 then
        let ch := l3.ovpChannel
        (l3.countFault c ⟨4, laneCode c.id, ch, l3.rd (R.PS_FAULT_TIME ch)⟩).becomeUnfit c 7 4 ch (.setOrCoil (some ch))
      else l3
    else l2

/-- PASS_DONE. -/
def execPassDone (ln : LaneId) (sender outgoing : LaneId) (cause : BitVec 4) (zoneStart : Word) (s : State) : Answer :=
  onAlive ln (fun c l => passDoneL c sender outgoing cause zoneStart l) s

/-- PASS_REQ_WRITE (R63, R92, R448): accepted only in the active lane, for another fit lane, and not during a sleep vote. -/
def passReqWriteL (c : Ctx) (value : Word) (l : Lane) : Lane :=
  let l0 := { l with bus := .done }
  let want := laneOf (fldOf R.LM_PASS_REQ_lane value)
  if fldOf R.LM_PASS_REQ_go value = 1 ∧ l0.active = true ∧ l0.unitsHalt = false then
    (match l0.passTarget c want with
    | some x => l0.requestPass 3 (some x)
    | none => l0)
  else l0

/-- PASS_REQ_WRITE. -/
def execPassReqWrite (ln : LaneId) (value : Word) (s : State) : Answer := onAlive ln (fun c l => passReqWriteL c value l) s

/-! ### Pins and rotation (R81 to R84) -/

/-- A relay pass is open (R69): of this lane, or of two other fit lanes that have announced its zone and not ended it. -/
def Lane.passOpen (l : Lane) : Bool :=
  l.baton.pass.isSome || match l.baton.note with
    | some z => l.knowsFit z.outgoing && l.knowsFit z.incoming
    | none => false

/-- A pin applied in this lane (R83, R84): 0 minutes remove it, whichever lane they name (DESIGN CHOICE, log 79, where that lane is not
fit), one of a lane that is not fit is refused, and in the active
lane a pass with cause 0x2 follows. A pin during a pass waits for its end (R69). -/
def Lane.applyPin (c : Ctx) (l : Lane) (x : LaneId) (minutes : Nat) : Lane :=
  let n := min minutes 1440
  if l.passOpen then { l with baton := { l.baton with pinHeld := some (x, n) } }
  else if n = 0 then
    (let l1 := l.wr R.LM_PIN (BitVec.ofNat 32 (laneCode x))
     if l.bit R.LM_ROLE_pinned then l1.endPin else l1)
  else if !l.knowsFit x then l.flag R.LM_FLAGS_pin_refused
  else
    let l1 := (l.wr R.LM_PIN (BitVec.ofNat 32 (n * 65536 + laneCode x))).put R.LM_ROLE_pinned 1
    let b := { l1.baton with
      pinEnds := some (c.now + n * 60000000000), dwellEnds := none, rotTarget := none, deferredAt := none,
      request := pinDropped l1.baton.request }
    let l2 := { l1 with baton := b, pw := { l1.pw with dwellLeft := none } }
    if l2.active && decide (x ≠ c.id) then l2.requestPass 2 (some x) else l2

/-- PIN_WRITE (R83, R92, R448): refused in a lane that is not fit, for a lane that is not, and during a sleep vote; else sent to every
lane and applied. -/
def pinWriteL (c : Ctx) (value : Word) (l : Lane) : Lane :=
  let l0 := { l with bus := .done }
  let minutes := fldOf R.LM_PIN_minutes value
  match laneOf (fldOf R.LM_PIN_lane value) with
  | none => l0
  | some x =>
    if !l0.fit || l0.unitsHalt || (decide (minutes ≠ 0) && !l0.knowsFit x) then l0.flag R.LM_FLAGS_pin_refused
    else (l0.sendAll c 0x08 [laneCode x, min minutes 1440]).applyPin c x minutes

/-- PIN_WRITE. -/
def execPinWrite (ln : LaneId) (value : Word) (s : State) : Answer := onAlive ln (fun c l => pinWriteL c value l) s

/-- PIN_MESSAGE (R83): every fit lane applies it. -/
def pinMessageL (c : Ctx) (sender lane : LaneId) (minutes : BitVec 11) (l : Lane) : Lane :=
  if Lane.isPeer c sender && l.fit then l.applyPin c lane minutes.toNat else l

/-- PIN_MESSAGE. -/
def execPinMessage (ln : LaneId) (sender lane : LaneId) (minutes : BitVec 11) (s : State) : Answer :=
  onAlive ln (fun c l => pinMessageL c sender lane minutes l) s

/-- PIN_EXPIRY (R84). -/
def pinExpiryL (c : Ctx) (l : Lane) : Lane :=
  match l.baton.pinEnds with
  | some t => if t ≤ c.now then l.endPin.flag R.LM_FLAGS_pin_expired else l
  | none => l

/-- PIN_EXPIRY. -/
def execPinExpiry (ln : LaneId) (s : State) : Answer := onAlive ln (fun c l => pinExpiryL c l) s

/-- ROT_PERIOD_WRITE (R80, R92): clamped to 60 to 86 400 s; it applies from the next dwell. -/
def rotPeriodWriteL (value : Word) (l : Lane) : Lane :=
  let v := fldOf R.LM_ROT_PERIOD_seconds value
  { l.put R.LM_ROT_PERIOD_seconds (min (max v 60) 86400) with bus := .done }

/-- ROT_PERIOD_WRITE. -/
def execRotPeriodWrite (ln : LaneId) (value : Word) (s : State) : Answer := onAlive ln (fun _ l => rotPeriodWriteL value l) s

/-- ROT_ENV_WRITE (R92, R513, R514): a valid envelope waits for the next heat boundary; another write is ignored. -/
def rotEnvWriteL (value : Word) (l : Lane) : Lane :=
  let l0 := { l with bus := .done }
  let hi := fldOf R.LM_ROT_ENV_weight_max value
  let lo := fldOf R.LM_ROT_ENV_weight_min value
  if 256 ≤ hi ∧ lo ≤ 256 then
    { l0 with staging := tabPut l0.staging R.LM_ROT_ENV (BitVec.ofNat 32 (hi * 65536 + lo)) }
  else l0

/-- ROT_ENV_WRITE. -/
def execRotEnvWrite (ln : LaneId) (value : Word) (s : State) : Answer := onAlive ln (fun _ l => rotEnvWriteL value l) s

/-- DWELL_EXPIRY (R81, R82): the next fit standby becomes the target of a pass at the next heat boundary. -/
def dwellExpiryL (c : Ctx) (l : Lane) : Lane :=
  match l.baton.dwellEnds with
  | some t =>
    if t ≤ c.now ∧ l.active = true ∧ l.bit R.LM_ROLE_pinned = false ∧ l.bit R.LM_ROLE_disputed = false ∧ l.baton.rotTarget = none then
      (match l.nextFit c with
      | some x => { l with baton := { l.baton with rotTarget := some x, deferredAt := some c.now, skipped := [] } }
      | none => { l with baton := { l.baton with dwellEnds := none } })
    else l
  | none => l

/-- DWELL_EXPIRY. -/
def execDwellExpiry (ln : LaneId) (s : State) : Answer := onAlive ln (fun c l => dwellExpiryL c l) s

/-- ROTATION_SKIP (R81): after 1 s of deferral the target is skipped; with every target skipped a new dwell starts. Rotation is
suspended outside RUN (R446). -/
def rotationSkipL (c : Ctx) (l : Lane) : Lane :=
  match l.baton.deferredAt, l.baton.rotTarget with
  | some t, some x =>
    if t + 1000000000 ≤ c.now ∧ l.baton.pass = none ∧ l.pwState = 0 then
      let l1 := l.flag R.LM_FLAGS_rot_skip
      let gone := x :: l1.baton.skipped
      (match (cyclicAfter c c.id).find? (fun y => l1.knowsFit y && !gone.contains y) with
      | some y => { l1 with baton := { l1.baton with rotTarget := some y, deferredAt := some c.now, skipped := gone } }
      | none => l1.startDwell c)
    else l
  | _, _ => l

/-- ROTATION_SKIP. -/
def execRotationSkip (ln : LaneId) (s : State) : Answer := onAlive ln (fun c l => rotationSkipL c l) s

/-- What defers a rotation pass (R81, R312): a zone or decision, the target's incomplete mirror or disagreement or hurdle miss
by its last heartbeat, a hurdle miss here, or homing. -/
def Lane.passDeferred (c : Ctx) (l : Lane) (x : LaneId) : Bool :=
  let st := match (l.peer x).hb with
    | some ws => ((ws[3]?).getD 0).toNat / 65536
    | none => 0
  l.zoneNow c || l.baton.decision.isSome || l.baton.window.isSome || !Nat.testBit st 0 || !Nat.testBit st 1 ||
    Nat.testBit st 5 || decide (0 < (l.peer x).disagree) || l.bit R.LM_STATUS_hurdle_miss || l.anyHoming

/-- The target of a kept cause (R62): with cause 0x4, while a port is lost here, the next fit lane that has both channels. -/
def Lane.requestTarget (c : Ctx) (l : Lane) (cause : Nat) (want : Option LaneId) : Option LaneId :=
  if cause = 4 then
    (if l.bit R.NX_STATUS_port_x_ok && l.bit R.NX_STATUS_port_y_ok then none
     else (cyclicAfter c c.id).find? (fun x => l.portElsewhere c .x x && l.portElsewhere c .y x))
  else l.passTarget c want

/-- Passes at a heat boundary (R63, R69, R81, R84, R508): a held pin is applied, a fresh dwell starts, and a kept cause or
the end of a dwell makes an offer. -/
def Lane.passHeat (c : Ctx) (l : Lane) : Lane :=
  let l0 := match l.baton.pinHeld with
    | some (x, n) => if l.passOpen then l else ({ l with baton := { l.baton with pinHeld := none } }).applyPin c x n
    | none => l
  if !l0.active || l0.baton.pass.isSome || l0.zoneNow c || l0.baton.decision.isSome || l0.baton.window.isSome ||
      decide (2 ≤ l0.pwState) then l0
  else
    let l1 := if l0.baton.freshDwell then l0.startDwell c else l0
    match l1.baton.request with
    | some (cause, want) =>
      if cause = 6 then l1.leaveNow c else
      (match l1.requestTarget c cause want with
      | none => { l1 with baton := { l1.baton with request := none } }
      | some x =>
        let late := match l1.ha.passFrom with
          | some t => decide (t + 1000000000 ≤ c.now)
          | none => true
        if cause = 5 ∧ l1.passDeferred c x = true then
          (if late then { l1 with baton := { l1.baton with request := none }, ha := { l1.ha with passFrom := none } } else l1)
        else if cause = 5 ∧ l1.bit R.LM_ROLE_pinned = true then { l1 with baton := { l1.baton with request := none } }
        else if l1.anyHoming then l1
        else ({ l1 with baton := { l1.baton with request := none } }).offerPlanned c x cause)
    | none =>
      match l1.pinnedElsewhere c, l1.baton.rotTarget with
      | some x, _ => if l1.anyHoming || l1.bit R.LM_ROLE_disputed then l1 else l1.offerPlanned c x 2
      | none, some x =>
        if l1.pwState ≠ 0 then l1
        else if l1.bit R.LM_ROLE_disputed || l1.bit R.LM_ROLE_pinned then
          { l1 with baton := { l1.baton with rotTarget := none, deferredAt := none } }
        else if !l1.knowsFit x then { l1 with baton := { l1.baton with rotTarget := l1.nextFit c } }
        else if l1.passDeferred c x then l1
        else l1.offerPlanned c x 1
      | none, none => l1

end Sys2Proof.Machine
end

