-- ==== Sys2Proof/Machine/Contain.lean ====
section
/-! DEFINITION. The fault-containment unit's commands (R25, R93 to R113): comparators, input agreement, parity, memory
errors, the scrubber, injections, management checks, and LM_SELF_UNFIT. -/

namespace Sys2Proof.Machine

/-- Whether the member has the comparator of an index (R93). -/
def hasComparator (m : Member) (i : Nat) : Bool :=
  decide (i < engineCount m) || decide (i = 24) || decide (i = 25) || decide (i = 27) ||
    (isTriple m && (decide (i = 26) || decide (i = 28)))

/-- A fault of a twin (R25, R96): its engine is scratched with a cause, or the lane is inhibited and unfit with cause 0x8 for
the supervisor core and 0xC for the others. -/
def Lane.twinFault (c : Ctx) (l : Lane) (i scratchCause : Nat) : Lane :=
  if i < 24 then l.cellFault c i scratchCause else l.hardFault c (if i = 24 then 8 else 0xC)

/-- TWIN_MISMATCH (R25, R95, R96, R103): 0b01 is a mismatch, an invalid code or a spare-bit mismatch a checker fault, and
0b10 agreement. -/
def twinMismatchL (c : Ctx) (ix : Fin 29) (rails : BitVec 2) (spare : Bool) (l : Lane) : Lane :=
  if !hasComparator c.part.member ix.val || decide (rails = 2) then l
  else if rails = 1 ∧ spare = false then (l.flag R.FC_FLAGS_mismatch).twinFault c ix.val 0
  else (l.flag R.FC_FLAGS_checker_fault).twinFault c ix.val 1

/-- TWIN_MISMATCH. -/
def execTwinMismatch (ln : LaneId) (ix : Fin 29) (rails : BitVec 2) (spare : Bool) (s : State) : Answer :=
  onAlive ln (fun c l => twinMismatchL c ix rails spare l) s

/-- INPUT_DISAGREE (R98): gone in the next sample it is tolerated and counted; in two consecutive samples it is a fault of
the twin. -/
def inputDisagreeL (c : Ctx) (ix : Fin 29) (input : BitVec 8) (again : Bool) (l : Lane) : Lane :=
  if !hasComparator c.part.member ix.val then l
  else
    let l1 := (l.put R.FC_IA_input input.toNat).put R.FC_IA_twin ix.val
    if again then (l1.flag R.FC_FLAGS_ia_fault).twinFault c ix.val 2
    else (l1.inc R.FC_IA_tolerated).flag R.FC_FLAGS_ia_disagree

/-- INPUT_DISAGREE. -/
def execInputDisagree (ln : LaneId) (ix : Fin 29) (input : BitVec 8) (again : Bool) (s : State) : Answer :=
  onAlive ln (fun c l => inputDisagreeL c ix input again l) s

/-- PARITY_ERROR (R104): handled as a mismatch of the twin. -/
def parityErrorL (c : Ctx) (ix : Fin 29) (l : Lane) : Lane :=
  if hasComparator c.part.member ix.val then (l.flag R.FC_FLAGS_parity).twinFault c ix.val 3 else l

/-- PARITY_ERROR. -/
def execParityError (ln : LaneId) (ix : Fin 29) (s : State) : Answer := onAlive ln (fun c l => parityErrorL c ix l) s

/-! ### Memory errors (R105 to R109) -/

/-- Whether an address is a granule of an SRAM of a memory code: TCMs 0, block memories 1, lane SRAM 2. -/
def inSram (m : Member) (memory a : Nat) : Bool :=
  decide (a % 4 = 0) &&
    (match memory with
    | 0 => decide (a < 0x10000 * engineCount m)
    | 1 => decide (0x10000000 ≤ a ∧ a < 0x10000000 + 0x40000 * blockCount m)
    | 2 => decide (0x20000000 ≤ a ∧ a < 0x20400000)
    | _ => false)

/-- A corrected error of a memory counted (R106). -/
def Lane.countCe (l : Lane) (memory : Nat) : Lane :=
  let n := min ((tabGet l.fc.ce memory).getD 0 + 1) 0xFFFFFFFF
  ({ l with fc := { l.fc with ce := tabPut l.fc.ce memory n } }).flag R.FC_FLAGS_ce

/-- CORRECTED_ERROR (R106): counted, and in SRAM the corrected granule is written back. -/
def correctedErrorL (c : Ctx) (memory : Fin 7) (addr value : Word) (l : Lane) : Lane :=
  let l1 := l.countCe memory.val
  if inSram c.part.member memory.val addr.toNat then l1.setGranule addr.toNat value else l1

/-- CORRECTED_ERROR. -/
def execCorrectedError (ln : LaneId) (memory : Fin 7) (addr : Word) (value : Word) (s : State) : Answer :=
  onAlive ln (fun c l => correctedErrorL c memory addr value l) s

/-- UNCORRECTABLE_ERROR (R107): handled by the level that owns the memory; a granule of the journal stays damaged until it is
written again, and its entry reads as damaged. -/
def uncorrectableErrorL (c : Ctx) (memory : Fin 7) (addr : Word) (l : Lane) : Lane :=
  let l1 := ((l.put R.FC_UE_INFO_memory memory.val).wr R.FC_UE_ADDR addr).flag R.FC_FLAGS_ue
  match memory.val with
  | 0 => l1.cellFault c (addr.toNat / 0x10000) 4
  | 1 => l1.blockFault c ((addr.toNat - 0x10000000) / 0x40000)
  | 4 => { l1.flag R.FC_FLAGS_journal_ue with planted := tabPut l1.planted (addr.toNat / 4 * 4) 2 }
  | _ => l1.hardFault c 0xC

/-- UNCORRECTABLE_ERROR. -/
def execUncorrectableError (ln : LaneId) (memory : Fin 7) (addr : Word) (s : State) : Answer :=
  onAlive ln (fun c l => uncorrectableErrorL c memory addr l) s

/-- The memory code and address of the n-th granule of a volatile scrub pass: the TCMs, the block memories, lane SRAM. -/
def scrubPlace (m : Member) (n : Nat) : Nat × Nat :=
  let t := 0x4000 * engineCount m
  let b := 0x10000 * blockCount m
  if n < t then (0, 4 * n) else if n < t + b then (1, 0x10000000 + 4 * (n - t)) else (2, 0x20000000 + 4 * (n - t - b))

/-- Granules of a volatile scrub pass. -/
def scrubCount (m : Member) : Nat := 0x4000 * engineCount m + 0x10000 * blockCount m + 0x100000

/-- Granules of an image slot. -/
def slotGranules : Nat := 0x300000

/-- What a read of a granule finds: an error planted there (R109), else what the read reports. -/
def Lane.eccAt (l : Lane) (a : Nat) (r : Ecc) : Ecc :=
  match tabGet l.planted a with
  | some k => if k = 1 then .corrected (l.granule a) else .uncorrectable
  | none => r

/-- A granule as the scrubber read it (R108): a correction is written back unless a newer write fell between. -/
def Lane.scrubbed (c : Ctx) (l : Lane) (memory a : Nat) (r : Ecc) (raced : Bool) : Lane :=
  match l.eccAt a r with
  | .clean => l
  | .corrected w =>
    let l1 := l.countCe memory
    if inSram c.part.member memory a && !raced then l1.setGranule a w else l1
  | .uncorrectable => uncorrectableErrorL c (Fin.ofNat 7 memory) (BitVec.ofNat 32 a) l

/-- One finding of a pass that meets its findings one after the other: no level of a later one takes the place of an earlier one's
(R110). -/
def Lane.findingDone (l : Lane) : Lane := { l with fc := { l.fc with lower := none, actedAt := none } }

/-- The scrubber goes on to its next granule (R108): after a volatile pass scrub_pass is set and the pass counted, and every
tenth pass is followed by one of the image slot in use. -/
def Lane.scrubNext (c : Ctx) (l : Lane) : Lane :=
  if 0 < l.fc.scrubFlash then
    let l1 := { l with fc := { l.fc with scrubFlash := l.fc.scrubFlash - 1 } }
    if l.fc.scrubFlash = 1 then l1.put R.FC_STATUS_scrub_active 0 else l1
  else if l.fc.scrubAt + 1 < scrubCount c.part.member then
    { l.put R.FC_STATUS_scrub_active 1 with fc := { l.fc with scrubAt := l.fc.scrubAt + 1 } }
  else
    let tenth := decide (l.fc.periods = 9) && l.cf.running.isSome
    let l1 := { l with fc := { l.fc with scrubAt := 0, periods := (l.fc.periods + 1) % 10,
                                         scrubFlash := if tenth then slotGranules else 0 } }
    ((l1.putB R.FC_STATUS_scrub_active tenth).inc R.FC_SCRUB_STAT_passes).flag R.FC_FLAGS_scrub_pass

/-- The next volatile pass waits until the period of FC_SCRUB_PERIOD since the start of the last one has passed (R108). -/
def Lane.scrubWaits (c : Ctx) (l : Lane) : Bool :=
  decide (l.fc.scrubFlash = 0 ∧ l.fc.scrubAt = 0) && match l.fc.scrubFrom with
    | some t => decide (c.now < t + l.get R.FC_SCRUB_PERIOD_seconds * 1000000000)
    | none => false

/-- The first read of a volatile pass starts its period (R108). -/
def Lane.scrubBegin (c : Ctx) (l : Lane) : Lane :=
  if l.fc.scrubFlash = 0 ∧ l.fc.scrubAt = 0 then { l with fc := { l.fc with scrubFrom := some c.now } } else l

/-- SCRUB_READ (R108). -/
def scrubReadL (c : Ctx) (r : Ecc) (raced : Bool) (l : Lane) : Lane :=
  if l.scrubWaits c then l
  else
    let place := if 0 < l.fc.scrubFlash then (3, slotBase (l.cf.running.getD 0) + 4 * (slotGranules - l.fc.scrubFlash))
      else scrubPlace c.part.member l.fc.scrubAt
    ((l.scrubBegin c).scrubbed c place.1 place.2 r raced).scrubNext c

/-- SCRUB_READ. -/
def execScrubRead (ln : LaneId) (r : Ecc) (raced : Bool) (s : State) : Answer := onAlive ln (fun c l => scrubReadL c r raced l) s

/-- MEM_INJ_WRITE (R109): accepted while the lane is not active and the module parked; a write with a reserved value, or one
that selects the TCM of a scratched engine 0, is ignored as a whole. -/
def memInjWriteL (c : Ctx) (value : Word) (l : Lane) : Lane :=
  let memory := fldOf R.FC_MEM_INJ_memory value
  let kind := fldOf R.FC_MEM_INJ_kind value
  let bit := fldOf R.FC_MEM_INJ_bit value
  let l0 := { l with bus := .done }
  if l.active || !l.parked || decide (memory = 3 ∨ kind = 3 ∨ 38 < bit) || (decide (memory = 0) && !l.engFit c 0) then l0
  else ((l0.put R.FC_MEM_INJ_memory memory).put R.FC_MEM_INJ_kind kind).put R.FC_MEM_INJ_bit bit

/-- MEM_INJ_WRITE. -/
def execMemInjWrite (ln : LaneId) (value : Word) (s : State) : Answer := onAlive ln (fun c l => memInjWriteL c value l) s

/-- MEM_ERROR_PLANT (R109): the next write to the selected memory carries the error, and hardware clears the register. The
granule holds the error until it is written again; the scrubber finds it, and a read by another master is a command of its own
(CORRECTED_ERROR, UNCORRECTABLE_ERROR). -/
def memErrorPlantL (c : Ctx) (addr : Word) (l : Lane) : Lane :=
  let a := addr.toNat
  let memory := l.get R.FC_MEM_INJ_memory
  let hit := match memory with
    | 0 => decide (a < 0x10000) && l.engFit c 0
    | 1 => decide (0x10000000 ≤ a ∧ a < 0x10040000)
    | 2 => decide (0x20000000 ≤ a ∧ a < 0x20400000)
    | _ => false
  let kind := l.get R.FC_MEM_INJ_kind
  if kind ≠ 0 ∧ hit = true then { l.wr R.FC_MEM_INJ 0 with planted := tabPut l.planted (a / 4 * 4) kind } else l

/-- MEM_ERROR_PLANT. -/
def execMemErrorPlant (ln : LaneId) (addr : Word) (s : State) : Answer := onAlive ln (fun c l => memErrorPlantL c addr l) s

/-! ### Injections and management checks (R102, R103, R112, R113) -/

/-- COMPARATOR_INJECTION (R102, R103): comparator i, 2 µs + i × 200 ns after the heat boundary, but for engines that are not
fit; one that is not reported in time makes the lane unfit. -/
def comparatorInjectionL (c : Ctx) (ix : Fin 29) (reported : Bool) (l : Lane) : Lane :=
  let i := ix.val
  let skipped := decide (i < 24) && !l.engFit c i
  if !l.ea.started || !hasComparator c.part.member i || skipped || decide (c.now < l.ea.heatAt + 2000 + 200 * i) then l
  else if reported then l
  else
    let l1 := { l with fc := { l.fc with injMissedNow := true } }
    let l2 := ((l1.inc R.FC_INJ_missed).put R.FC_INJ_last_missed i).flag R.FC_FLAGS_inj_missed
    l2.hardFault c 0xC

/-- COMPARATOR_INJECTION. -/
def execComparatorInjection (ln : LaneId) (ix : Fin 29) (reported : Bool) (s : State) : Answer :=
  onAlive ln (fun c l => comparatorInjectionL c ix reported l) s

/-- Whether a time after S has come. -/
def Lane.afterStart (c : Ctx) (l : Lane) (ns : Nat) : Bool :=
  match l.st.schedAt with
  | some t => decide (t + ns ≤ c.now)
  | none => false

/-- t_slot of R224 in ns: a test and its retry at the largest settings of any channel, rounded up to whole milliseconds and
at least 3 ms. -/
def Lane.slotTime (c : Ctx) (l : Lane) : Nat :=
  let chans := List.range (motorCount c.part.member)
  let big := fun (f : Nat → Fld) => chans.foldl (fun m ch => max m (l.get (f ch))) 0
  let us := 6 * (3 * big R.MC_PULSE_CFG_pulse_us + 2 * big R.MC_PULSE_CFG_gap_us)
  max 3 ((us + 999) / 1000) * 1000000

/-- The lane is in its own pulse slot of the start (R531). -/
def Lane.inPulseSlot (c : Ctx) (l : Lane) : Bool :=
  decide (l.phase = .awarding) && !l.st.late && l.st.awardAt.isNone &&
    l.afterStart c (20000000 + laneCode c.id * l.slotTime c) && !l.afterStart c (20000000 + (laneCode c.id + 1) * l.slotTime c)

/-- The lane runs the pre-drive check of R64: as the incoming lane of a pass or of a takeover window. -/
def Lane.checking (c : Ctx) (l : Lane) : Bool :=
  (match l.baton.pass with
  | some p => decide (p.incoming = c.id) && (decide (p.phase = .checking) ||
      (decide (p.cause = 7) && (decide (p.phase = .accepted) || decide (p.phase = .confirmed))))
  | none => false) ||
  (match l.baton.window with
  | some w => decide (w.incoming = c.id) && !w.checked
  | none => false)

/-- A row of R112 applies to the lane's role; a lane inside a zone of its own is exempt, and in its own pulse slot from rows 0
and 1 (R531). -/
def Lane.rowApplies (c : Ctx) (l : Lane) (row : Nat) : Bool :=
  !l.bit R.LM_ROLE_in_zone && !l.checking c && !(decide (row < 2) && l.inPulseSlot c) &&
    (if row < 4 then l.standby || decide (l.role = roleUnfit)
     else if row = 4 then l.active && l.refresh
     else l.active && (List.range (motorCount c.part.member)).any (fun ch =>
       !l.wantsLogic c ch && !l.bit (R.PS_STATUS_asc ch)))

/-- The role says otherwise than a monitor (R113): recorded, and the lane is unfit and inhibited. -/
def Lane.roleFault (c : Ctx) (l : Lane) (row : Nat) : Lane :=
  let l1 := ((l.inc R.FC_MGMT_count).put R.FC_MGMT_row row).put R.FC_STATUS_mgmt_fault 1
  (l1.flag R.FC_FLAGS_mgmt_fault).hardFault c 0xC

/-- The outputs whose switch node reads on in a lane that drives none take kind 2 (R360). -/
def Lane.nodesStuck (c : Ctx) (l : Lane) : Lane :=
  (List.range 8).foldl (fun y k => if l.nodeOn c k then y.outputFault k 2 else y) l

/-- MANAGEMENT_FAULT (R112, R113, R360): the data path is taken as true; the lane is unfit and inhibited, and by row 3 the outputs whose
node reads on record kind 2. -/
def managementFaultL (c : Ctx) (row : Fin 6) (l : Lane) : Lane :=
  if !l.rowApplies c row.val then l
  else (if row.val = 3 then l.nodesStuck c else l).roleFault c row.val

/-- MANAGEMENT_FAULT. -/
def execManagementFault (ln : LaneId) (row : Fin 6) (s : State) : Answer := onAlive ln (fun c l => managementFaultL c row l) s

/-- OUTPUT_FAULT (R112, R360): kinds 1 to 6; a node that reads on in a standby or unfit lane acts by row 3 of R112 as well. -/
def outputFaultL (c : Ctx) (k : Fin 8) (kind : Fin 7) (l : Lane) : Lane :=
  if l.mayShow c k.val kind.val then
    let l1 := l.outputFault k.val kind.val
    if kind.val = 2 ∧ l.rowApplies c 3 = true then l1.roleFault c 3 else l1
  else l

/-- OUTPUT_FAULT. -/
def execOutputFault (ln : LaneId) (k : Fin 8) (kind : Fin 7) (s : State) : Answer :=
  onAlive ln (fun c l => outputFaultL c k kind l) s

/-- SELF_UNFIT_WRITE (R92, R115): 0xA5 makes the lane unfit with cause 0xD; other values are ignored. -/
def selfUnfitWriteL (c : Ctx) (value : Word) (l : Lane) : Lane :=
  let l0 := { l with bus := .done }
  if fldOf R.LM_SELF_UNFIT_key value = 0xA5 then l0.logicFault c 0xD else l0

/-- SELF_UNFIT_WRITE. -/
def execSelfUnfitWrite (ln : LaneId) (value : Word) (s : State) : Answer := onAlive ln (fun c l => selfUnfitWriteL c value l) s

end Sys2Proof.Machine
end

