-- ==== Sys2Proof/Machine/Health.lean ====
section
/-! DEFINITION. Ageing monitors, remaining life, health records and telemetry (R497 to R518). -/

namespace Sys2Proof.Machine

/-! ### Binary32 (R506) -/

/-- A power of two. -/
def pow2 (k : Int) : Rat := if 0 ≤ k then ((2 ^ k.toNat : Nat) : Rat) else mkRat 1 (2 ^ (-k).toNat)

/-- The integer part of the logarithm to base 2 of a rational number other than 0. -/
def log2Rat (r : Rat) : Int :=
  let k : Int := (r.num.natAbs.log2 : Int) - (r.den.log2 : Int)
  if pow2 k ≤ mkRat r.num.natAbs r.den then k else k - 1

/-- A rational number that is not negative, rounded to the nearest integer, ties to even. -/
def nearestEven (r : Rat) : Nat :=
  let f := (floorRat r).toNat
  let d : Rat := r - (((f : Nat) : Int) : Rat)
  if d < mkRat 1 2 then f else if mkRat 1 2 < d then f + 1 else f + f % 2

/-- Exponent and significand of a number as binary32 holds it: the value is the significand times two to the exponent. -/
def parts32 (r : Rat) : Int × Nat :=
  if r = 0 then (-149, 0)
  else
    let a := mkRat r.num.natAbs r.den
    let e := max (log2Rat a) (-126) - 23
    let m := nearestEven (a / pow2 e)
    if m = 2 ^ 24 then (e + 1, 2 ^ 23) else (e, m)

/-- A rational number rounded to binary32, to the nearest with ties to even. -/
def round32 (r : Rat) : Rat :=
  let p := parts32 r
  let v := ((p.2 : Nat) : Rat) * pow2 p.1
  if r < 0 then -v else v

/-- The bit pattern of a number in binary32. -/
def bits32 (r : Rat) : Word :=
  let p := parts32 r
  let sign : Nat := if r < 0 then 2 ^ 31 else 0
  if p.2 < 2 ^ 23 then BitVec.ofNat 32 (sign + p.2)
  else BitVec.ofNat 32 (sign + (p.1 + 150).toNat * 2 ^ 23 + (p.2 - 2 ^ 23))

/-- The number of a binary32 bit pattern. -/
def ofBits32 (w : Word) : Rat :=
  let n : Nat := w.toNat
  let e : Nat := n / 2 ^ 23 % 256
  let f : Nat := n % 2 ^ 23
  let v := if e = 0 then ((f : Nat) : Rat) * pow2 (-149) else ((f + 2 ^ 23 : Nat) : Rat) * pow2 ((e : Int) - 150)
  if n < 2 ^ 31 then v else -v

/-! ### Monitors (R500 to R505) -/

/-- A monitor beyond its registers. -/
def Lane.mon (l : Lane) (i : Nat) : Monitor := (tabGet l.ha.mons i).getD default

/-- A monitor replaced. -/
def Lane.setMon (l : Lane) (i : Nat) (m : Monitor) : Lane := { l with ha := { l.ha with mons := tabPut l.ha.mons i m } }

/-- The bridge temperature input that the image names for a power stage (R501). -/
def Lane.tempInput (l : Lane) (ch : Nat) : Option Nat :=
  match l.image.lib.tempIn[ch]? with
  | some m => if m < 8 then some m else none
  | none => none

/-- The bridge temperature of a power stage in °C as q40: the value of a valid input. -/
def Lane.bridgeTemp (l : Lane) (ch : Nat) : Option Int :=
  match l.tempInput ch with
  | some m => if l.bit (R.SI_AIm_STAT_valid m) then some (l.q (R.SI_AIm_VALUE m)) else none
  | none => none

/-- A monitor that is present on the member and enabled by the image (R500); one of a bridge needs its temperature input (R501). -/
def Lane.monOn (c : Ctx) (l : Lane) (i : Nat) : Bool :=
  Nat.testBit (l.get R.HA_STATUS_enabled) i && (isTriple c.part.member || decide (i ≠ 2 ∧ i ≠ 4)) &&
    (decide (i ≠ 1 ∧ i ≠ 2) || (l.tempInput (i - 1)).isSome)

/-- Monitors whose baseline is learned (R500). -/
def learns (i : Nat) : Bool := decide (1 ≤ i ∧ i ≤ 4) || decide (i = 7)

/-- A state in which no sample is taken (R499). -/
def Lane.noSample (c : Ctx) (l : Lane) : Bool :=
  let odd := fun ch => l.bit (R.PS_STATUS_asc ch) || decide (l.mcState ch = mcAsc) || decide (l.mcState ch = mcPulse) ||
    decide (l.mcState ch = mcCatch)
  let set := match l.nx.timeSetAt with
    | some t => decide (c.now < t + 1000000)
    | none => false
  l.zoneNow c || decide (l.latchHold ≠ 0) || (List.range (motorCount c.part.member)).any odd || set

/-- The on-resistances of a bridge in µΩ at 25 °C that a PWM period gives (R501). -/
def Lane.bridgeRes (l : Lane) (ch : Nat) (low high : List (W40 × W40)) (vdc : W40) (temp : Int) : List Int :=
  let lim := qr (l.q (R.MC_I_MAX ch)) / 4
  let scale : Rat := 1000000 / (1 + qr l.image.lib.tcFet * (qr temp - 25))
  let abs := fun (x : Rat) => if x < 0 then -x else x
  let lo := low.filterMap (fun p =>
    let v := qr (qv p.1)
    let i := qr (qv p.2)
    if v * i < 0 ∧ lim ≤ abs i then some (nearest (abs v / abs i * scale)) else none)
  let hi := high.filterMap (fun p =>
    let d := qr (qv vdc) - qr (qv p.1)
    let i := qr (qv p.2)
    if 0 < i ∧ lim ≤ i ∧ 0 < d then some (nearest (d / i * scale)) else none)
  lo ++ hi

/-- The largest of several readings, none where there is none; a negative one counts as 0. -/
def largest : List Int → Option Nat
  | [] => none
  | x :: t =>
    match largest t with
    | some y => some (max x.toNat y)
    | none => some x.toNat

/-- The DC-link current of a conversion (R502): the phase currents whose high side is commanded on. -/
def edgeDc (e : EdgeConv) : Int :=
  ((List.range 3).map (fun x => if e.high.getLsbD x then qv ((e.i[x]?).getD 0) else 0)).sum

/-- The ESR that a switching edge gives (R502), none where the step of the DC-link current is too small. -/
def Lane.esrOf (l : Lane) (ch : Nat) (before after : EdgeConv) : Option Nat :=
  let di := edgeDc after - edgeDc before
  let dv := qv after.vdc - qv before.vdc
  if l.q (R.MC_I_MAX ch) ≤ 4 * (di.natAbs : Int) ∧ di ≠ 0 then largest [nearest (-(qr dv) / qr di * 1000000)] else none

/-- The indicator that a measurement gives a monitor, none where it is not accepted (R500 to R504): of the drivers only those that
are off are measured. -/
def Lane.indicator (c : Ctx) (l : Lane) (i : Nat) (x : AgeRaw) : Option Nat :=
  match x with
  | .ppm w => if i = 0 then some w.toNat else none
  | .gains xs =>
    if i = 5 then
      largest (xs.filterMap (fun p =>
        if p.1.val < solenoidCount c.part.member ∧ l.stageOn.getLsbD p.1.val = false then some (p.2.toNat : Int) else none))
    else none
  | .bridge low high vdc =>
    match l.bridgeTemp (i - 1) with
    | some temp =>
      if (i = 1 ∨ i = 2) ∧ l.bit (R.PS_STATUS_switching (i - 1)) = true then largest (l.bridgeRes (i - 1) low high vdc temp) else none
    | none => none
  | .esr before after =>
    match l.bridgeTemp (i - 3) with
    | some temp =>
      if (i = 3 ∨ i = 4) ∧ l.bit (R.PS_STATUS_switching (i - 3)) = true ∧ (temp - l.image.lib.tEsr).natAbs ≤ 5 * 2 ^ 24 then
        l.esrOf (i - 3) before after
      else none
    | none => none
  | .contact vs vg cur =>
    if i = 7 ∧ 2 ^ 23 ≤ qv cur then largest [nearest ((qr (qv vs) + qr (qv vg)) / qr (qv cur) * 1000000)] else none

/-- AGEING_SAMPLE (R498 to R504): a sample of an enabled monitor, unless it falls in an excluded state. -/
def ageingSampleL (c : Ctx) (i : Fin 8) (x : AgeRaw) (l : Lane) : Lane :=
  if !l.monOn c i.val || l.noSample c then l
  else match l.indicator c i.val x with
    | some v => l.setMon i.val { l.mon i.val with hour := (l.mon i.val).hour ++ [v] }
    | none => l

/-- AGEING_SAMPLE. -/
def execAgeingSample (ln : LaneId) (i : Fin 8) (x : AgeRaw) (s : State) : Answer := onAlive ln (fun c l => ageingSampleL c i x l) s

/-- A reading taken into the reversal points, newest first, with a hysteresis of 2 K (R503). -/
def addReversal (t : Int) : List Int → List Int
  | [] => [t]
  | [a] => if (t - a).natAbs < 20 then [a] else [t, a]
  | a :: b :: r =>
    if (b < a ∧ a ≤ t) ∨ (a < b ∧ t ≤ a) then t :: b :: r
    else if (t - a).natAbs < 20 then a :: b :: r
    else t :: a :: b :: r

/-- Cycles closed by four-point rainflow (R503): the remaining reversals and the ranges closed. -/
def rainflow : Nat → List Int → List Int × List Nat
  | 0, rs => (rs, [])
  | n + 1, rs =>
    match rs with
    | d :: e :: f :: g :: r =>
      let mid := (e - f).natAbs
      if mid ≤ (d - e).natAbs ∧ mid ≤ (f - g).natAbs then
        let x := rainflow n (d :: g :: r)
        (x.1, mid :: x.2)
      else (rs, [])
    | _ => (rs, [])

/-- The Miner sum that closed cycles add: those below 5 K add nothing. -/
def minerOf (m n : Nat) (ranges : List Nat) : Rat :=
  ranges.foldl (fun a d => if d < 50 then a else a + (mkRat d 1000) ^ m / ((n : Nat) : Rat)) 0

/-- DIE_TEMPERATURE_SAMPLE (R503): in 0.1 °C. -/
def dieTemperatureSampleL (c : Ctx) (t : BitVec 16) (l : Lane) : Lane :=
  let l1 := l.put R.HA_TEMP_now t.toNat
  let l2 := if l1.getS R.HA_TEMP_max < t.toInt then l1.put R.HA_TEMP_max t.toNat else l1
  let l3 := l2.flagIf (decide (l2.getS R.HA_LIMITS_temp_max < t.toInt)) R.HA_FLAGS_temp_high
  if l3.monOn c 6 then
    let rs := addReversal t.toInt l3.ha.reversals
    let f := rainflow rs.length rs
    let cnt := l3.ha.counts
    let n := (f.2.filter (fun d => decide (50 ≤ d))).length
    { l3 with ha := { l3.ha with
        reversals := f.1
        miner := l3.ha.miner + minerOf l3.image.lib.rainM l3.image.lib.rainN f.2
        counts := { cnt with cycles := cnt.cycles + BitVec.ofNat 32 n } } }
  else l3

/-- DIE_TEMPERATURE_SAMPLE. -/
def execDieTemperatureSample (ln : LaneId) (t : BitVec 16) (s : State) : Answer :=
  onAlive ln (fun c l => dieTemperatureSampleL c t l) s

/-! ### Remaining life (R505 to R508) -/

/-- A number put into a rising list. -/
def insertNat (x : Nat) : List Nat → List Nat
  | [] => [x]
  | y :: t => if x ≤ y then x :: y :: t else y :: insertNat x t

/-- The median of a list that is not empty; of two middle values their mean, rounded to the nearest. -/
def median (xs : List Nat) : Nat :=
  let ys := xs.foldr insertNat []
  let n := ys.length
  let at_ := fun (i : Nat) => (ys[i]?).getD 0
  if n % 2 = 1 then at_ (n / 2) else (at_ (n / 2 - 1) + at_ (n / 2) + 1) / 2

/-- x_lim of a monitor (R500, R518): for monitors 1 to 4 the factor in 1/1000 times x0. -/
def Lane.monLimit (l : Lane) (i : Nat) : Rat :=
  let w := (((l.rd (R.HA_MONi_LIM i)).toNat : Nat) : Rat)
  if 1 ≤ i ∧ i ≤ 4 then w * (((l.rd (R.HA_MONi_BASE i)).toNat : Nat) : Rat) / 1000 else w

/-- The damage of a monitor (R506). -/
def Lane.damage (l : Lane) (i : Nat) : Rat :=
  if i = 6 then l.ha.miner
  else if learns i && !(l.mon i).learned then 0
  else
    let x0 : Rat := (((l.rd (R.HA_MONi_BASE i)).toNat : Nat) : Rat)
    let x : Rat := (((l.rd (R.HA_MONi_VAL i)).toNat : Nat) : Rat)
    let lim := l.monLimit i
    if lim ≤ x0 then 1 else clampRat 0 1 ((x - x0) / (lim - x0))

/-- The accumulators after one more hourly point (R506), each held as binary32. -/
def addPoint (acc : List Rat) (t d : Rat) : List Rat :=
  let lam := mkRat 999 1000
  let g := fun (i : Nat) => (acc[i]?).getD 0
  [lam * g 0 + 1, lam * g 1 + t, lam * g 2 + t * t, lam * g 3 + d, lam * g 4 + t * d, lam * g 5 + d * d].map round32

/-- The rate of the regression with the square of 1.2816 times its standard error (R506). -/
def rateOf (acc : List Rat) : Option (Rat × Rat) :=
  let g := fun (i : Nat) => (acc[i]?).getD 0
  let den := g 0 * g 2 - g 1 * g 1
  if den ≤ 0 ∨ g 0 ≤ 2 then none
  else
    let r := (g 0 * g 4 - g 1 * g 3) / den
    let k := (g 3 - r * g 1) / g 0
    let s2 := max (g 5 - k * g 3 - r * g 4) 0 / (g 0 - 2)
    some (r, mkRat 12816 10000 * mkRat 12816 10000 * s2 * g 0 / den)

/-- Whether n hours at the rate bound r + √v use up no more than a reserve. -/
def reaches (r v reserve : Rat) (n : Nat) : Bool :=
  let left := reserve - ((n : Nat) : Rat) * r
  decide (0 ≤ left) && decide (((n * n : Nat) : Rat) * v ≤ left * left)

/-- The largest number below 2^k that keeps a condition which holds up to it. -/
def largestWith (p : Nat → Bool) : Nat → Nat → Nat
  | 0, base => base
  | k + 1, base => if p (base + 2 ^ k) then largestWith p k (base + 2 ^ k) else largestWith p k base

/-- The life of a monitor of damage d (R506), and whether it uses prior_life_h. -/
def Lane.monLife (l : Lane) (i : Nat) (d : Rat) : Nat × Bool :=
  let m := l.mon i
  let prior := decide (m.n < 24) || (learns i && !m.learned)
  if 1 ≤ d then (0, prior)
  else if prior then (min (floorRat ((1 - d) * ((l.get R.HA_CFG_prior_life_h : Nat) : Rat))).toNat 65535, true)
  else match rateOf m.acc with
    | some (r, v) => if r ≤ 0 ∧ v ≤ r * r then (65535, false) else (largestWith (reaches r v (1 - d)) 16 0, false)
    | none => ((Config.openLife i l.free).toNat, false)

/-- The median of an hour's samples taken into a monitor's value and learning (R500, R505): fewer than 10 leave it. -/
def Lane.hourValue (l : Lane) (i : Nat) : Lane :=
  let m := l.mon i
  if m.hour.length < 10 then l
  else
    let v := median m.hour
    let l1 := l.wr (R.HA_MONi_VAL i) (BitVec.ofNat 32 v)
    if learns i && !m.learned then
      let ps := m.points ++ [v]
      if ps.length = 24 then
        let l2 := (l1.wr (R.HA_MONi_BASE i) (BitVec.ofNat 32 (median ps))).flag R.HA_FLAGS_baseline_learned
        l2.setMon i { m with points := [], learned := true }
      else l1.setMon i { m with points := ps }
    else l1

/-- The damage and life of a monitor shown; d reaching 1 sets monitor_limit (R507), judged on the exact damage. -/
def Lane.showMon (l : Lane) (i : Nat) : Lane :=
  let d := l.damage i
  let life := (l.monLife i d).1
  let code := min (nearest (d * 65536)).toNat 65535
  let l1 := (l.put (R.HA_MONi_DMG_damage i) code).put (R.HA_MONi_DMG_life_h i) life
  (l1.flagIf (decide (1 ≤ d) && !(l.mon i).hit) R.HA_FLAGS_monitor_limit).setMon i { l.mon i with hit := decide (1 ≤ d) }

/-- One monitor at the hourly update (R500, R505, R506): an hour with a value adds a point, learned or not; a reset restarts its learning
and adds none. DESIGN CHOICE (log 60): the hours since its baseline count from where the learning of it began, a reset or the first
start, since points are added before it is learned. -/
def Lane.hourMon (c : Ctx) (l : Lane) (i : Nat) : Lane :=
  if !l.monOn c i then l
  else
    let m := l.mon i
    if m.reset then
      let fresh := { m with hour := [], points := [], n := 0, acc := [], reset := false, learned := false,
                            since := (l.rd R.HA_HOURS).toNat }
      let l1 := if learns i then l.wr (R.HA_MONi_BASE i) 0 else l
      (l1.setMon i fresh).showMon i
    else
      let l1 := if i = 6 then l.wr (R.HA_MONi_VAL 6) (BitVec.ofNat 32 (floorRat (l.ha.miner * 65536)).toNat) else l.hourValue i
      let counts := decide (i = 6) || decide (10 ≤ m.hour.length)
      let m1 := l1.mon i
      let t : Rat := (((l1.rd R.HA_HOURS).toNat - m1.since : Nat) : Rat)
      let m2 := if counts then { m1 with acc := addPoint m1.acc t (l1.damage i), n := min (m1.n + 1) 65535 } else m1
      (l1.setMon i { m2 with hour := [] }).showMon i

/-- The chopper fault of either power stage is latched (R253). -/
def Lane.chopBroken (l : Lane) : Bool := l.bit (R.PS_STATUS_chop_fault 0) || l.bit (R.PS_STATUS_chop_fault 1)

/-- The lane's remaining life shown (R507, R508): the least of its enabled monitors, 0 after chop_fault. -/
def Lane.showLife (c : Ctx) (l : Lane) : Lane :=
  let on := (List.range 8).filter (fun i => l.monOn c i)
  let each := on.map (fun i => (i, (l.monLife i (l.damage i)).1))
  let least := each.foldl (fun (b : Nat × Nat) p => if p.2 < b.2 then p else b) ((each.head?).getD (0, 65535))
  let prior := on.any (fun i => (l.monLife i (l.damage i)).2)
  let ok := (List.range 8).foldl (fun m i =>
    if l.monOn c i && (!learns i || (l.mon i).learned) then m + 2 ^ i else m) 0
  let life := if l.chopBroken then 0 else least.2
  let l1 := (l.put R.HA_LIFE_life_h life).put R.HA_LIFE_limiting (if l.chopBroken then 0xF else least.1)
  let l2 := (l1.putB R.HA_STATUS_prior prior).put R.HA_STATUS_baseline_ok ok
  let l3 := l2.putB R.HA_STATUS_learning (on.any (fun i => learns i && !(l.mon i).learned))
  let low := decide (life < l3.get R.HA_CFG_age_thr_h)
  let l4 := (l3.setLifeOf c.id life).flagIf (low && !l3.bit R.HA_STATUS_age_warning) R.HA_FLAGS_age_warning
  (l4.putB R.HA_STATUS_age_warning low).putB R.LM_STATUS_age_warning low

/-- The counters of the loops of R516: rotation, MC0, MC1, dither, stepper. -/
def Lane.conflictCounts (l : Lane) : List Nat :=
  [l.evtCount R.LM_FLAGS_rot_conflict, (l.rd (R.MC_CONFLICT 0)).toNat, (l.rd (R.MC_CONFLICT 1)).toNat] ++
    [((List.range 6).map (fun n => (l.rd (R.BKn_CONFLICT n)).toNat)).sum] ++
    [((List.range 4).map (fun n => (l.rd (R.SPn_CONFLICT n)).toNat)).sum]

/-- HA_CONFLICT at the hourly update (R516). -/
def Lane.hourConflicts (l : Lane) : Lane :=
  let now := l.conflictCounts
  let rose := (List.range 5).map (fun i => decide ((l.ha.conflictBase[i]?).getD 0 < (now[i]?).getD 0))
  let bits := (List.range 5).foldl (fun m i => if (rose[i]?).getD false then m + 2 ^ i else m) 0
  let hours := l.get R.HA_CONFLICT_hours
  let h := if bits = 0 then hours else min (hours + 1) 65535
  let l1 := (l.wr R.HA_CONFLICT (BitVec.ofNat 32 (h * 65536 + bits))).flagIf (decide (bits ≠ 0)) R.HA_FLAGS_conflict_hour
  { l1 with ha := { l1.ha with conflictBase := now } }

/-- HOURLY_LIFE_UPDATE (R497, R505 to R508, R516): after 3600 s of operating time; a record is then due, and the active lane
below the threshold asks for a pass with cause 0x5 where a fit standby is not. While a sleep vote stops the units it waits (R448). -/
def hourlyLifeUpdateL (c : Ctx) (l : Lane) : Lane :=
  if l.ha.opNs < 3600000000000 ∨ l.unitsHalt = true then l
  else
    let l0 := { l.wr R.HA_HOURS (l.rd R.HA_HOURS + 1) with ha := { l.ha with opNs := l.ha.opNs - 3600000000000 } }
    let l1 := (List.range 8).foldl (fun y i => y.hourMon c i) l0
    let ce := l1.ceTotal - l1.ha.ceBase
    let l2 := { l1.wr R.HA_CE_HOUR (BitVec.ofNat 32 ce) with ha := { l1.ha with ceBase := l1.ceTotal } }
    let l3 := (l2.flagIf (decide (l2.get R.HA_LIMITS_ce_limit < ce)) R.HA_FLAGS_ce_high).hourConflicts
    let l4 := (l3.showLife c).flag R.HA_FLAGS_life_update
    let l5 : Lane := { l4.put R.HA_STATUS_writing 1 with ha := { l4.ha with recordAt := some c.now } }
    l5.lifePass c

/-- HOURLY_LIFE_UPDATE. -/
def execHourlyLifeUpdate (ln : LaneId) (s : State) : Answer := onAlive ln (fun c l => hourlyLifeUpdateL c l) s

/-! ### Health records (R509 to R511, R517) -/

/-- Two 16-bit values in a word, the first in the lower half. -/
def halfPair (a b : Int) : Word := BitVec.ofInt 16 b ++ BitVec.ofInt 16 a

/-- The words of a health record but for its check (R509). -/
def Lane.recordBody (l : Lane) (k : Word) : List Word :=
  let ms := List.range 8
  let k0 := l.lifeCounts
  let rev := fun (i : Nat) => (l.ha.reversals[i]?).getD 0
  [k, l.rd R.HA_HOURS, BitVec.ofNat 32 l.ha.powerCycles, fldPut R.HA_LIFE_prior (l.rd R.HA_LIFE) (l.get R.HA_STATUS_prior)] ++
    ms.flatMap (fun i => [l.rd (R.HA_MONi_VAL i), l.rd (R.HA_MONi_DMG i)]) ++
    ms.flatMap (fun i => (List.range 6).map (fun j => bits32 (((l.mon i).acc[j]?).getD 0))) ++
    ms.map (fun i => halfPair (rev (2 * i)) (rev (2 * i + 1))) ++
    ms.map (fun i => BitVec.ofNat 32 ((l.mon i).n * 65536 + cond (l.mon i).learned 0x8000 0)) ++
    ms.map (fun i => l.rd (R.HA_MONi_BASE i)) ++
    [k0.relay, k0.dropped, k0.los, k0.chopS, k0.ce, k0.cycles, k0.conflictHours, 0] ++
    (List.range 12).map (fun i => (k0.faults[i]?).getD 0) ++ List.replicate 15 0

/-- Where record k lies (R509). -/
def recordAddr (k : Nat) : Nat := 0x31F80000 + 512 * (k % 1024)

/-- A telemetry datagram (R512) of a type with the words after the stamp: its sequence number and check. One for which the transmitter
has no buffer, which is left free, is dropped; it has taken its number (DESIGN CHOICE, log 60). -/
def Lane.sendTelemetry (c : Ctx) (l : Lane) (type : Nat) (body : List Word) : Lane :=
  let n := body.length + 4
  let ws : List Word := [BitVec.ofNat 32 (2 ^ 24 + type * 2 ^ 16 + laneCode c.id * 2 ^ 14 + n), l.ha.telSeq, l.stamp] ++ body
  let l1 := if Config.txFull l.free then l.flag R.ET_FLAGS_tx_drop
    else l.mail (l.rd R.ET_TEL_DEST) (l.get R.ET_TEL_port) (ws ++ [crc32cWords ws])
  { l1 with ha := { l1.ha with telSeq := l.ha.telSeq + 1 } }.draw

/-- Telemetry is sent at all (R512). -/
def Lane.telOn (l : Lane) : Bool := l.bit R.ET_STATUS_link_up && decide (l.get R.ET_TEL_period_ms ≠ 0)

/-- The index of the next record (R509). -/
def Lane.nextRecord (l : Lane) : Nat := if l.ha.lastRecord = [] then 0 else (l.rd R.HA_REC).toNat + 1

/-- The place of the next record made ready: its sector is erased where it starts one (R510). -/
def Lane.recordPlace (l : Lane) : Lane := if l.nextRecord % 128 = 0 then l.erase (recordAddr l.nextRecord) 65536 else l

/-- HEALTH_RECORD_WRITE (R509, R510, R512): the record that is due is written and sent as a record datagram. -/
def healthRecordWriteL (c : Ctx) (l : Lane) : Lane :=
  match l.ha.recordAt with
  | none => l
  | some _ =>
    let k := l.nextRecord
    let body := l.recordBody (BitVec.ofNat 32 k)
    let ws := body ++ [crc32cWords body]
    let l1 := (l.recordPlace.setBytes (recordAddr k) (ws.flatMap wordBytes)).wr R.HA_REC (BitVec.ofNat 32 k)
    let l2 := (l1.put R.HA_STATUS_writing 0).flag R.HA_FLAGS_record_written
    let kept := l2.ha.mons.map (fun p => (p.1, (p.2.since, p.2.points)))
    let l3 := { l2 with ha := { l2.ha with recordAt := none, lastRecord := ws, kept := kept } }
    if l3.telOn then l3.sendTelemetry c 2 ws else l3

/-- HEALTH_RECORD_WRITE. -/
def execHealthRecordWrite (ln : LaneId) (s : State) : Answer := onAlive ln healthRecordWriteL s

/-- The supply is lost while a record is being written (R517): its words stand in flash but for the check, which stays erased.
DESIGN CHOICE (log 60): the spec does not say how far the write has come. -/
def Lane.tearRecord (l : Lane) : Lane :=
  match l.ha.recordAt with
  | none => l
  | some _ => l.recordPlace.setBytes (recordAddr l.nextRecord) ((l.recordBody (BitVec.ofNat 32 l.nextRecord)).flatMap wordBytes)

/-- The places of records of which something is written (R511). -/
def Lane.recordSlots (l : Lane) : List Nat :=
  ((l.mem.filter (fun e => decide (0x31F80000 ≤ e.1 ∧ e.1 < 0x32000000))).map (fun e => (e.1 - 0x31F80000) / 512)).eraseDups

/-- The words at a record's place. -/
def Lane.recordAt (l : Lane) (slot : Nat) : List Word := (List.range 128).map (fun i => l.granule (recordAddr slot + 4 * i))

/-- A record whose CRC is correct, at its own place (R509, R511). -/
def recordOk (slot : Nat) (ws : List Word) : Bool :=
  decide (crc32cWords (ws.take 127) = wordAt ws 127) && decide ((wordAt ws 0).toNat % 1024 = slot)

/-- The record with the highest index whose CRC is correct (R511). -/
def Lane.lastGood (l : Lane) : Option (List Word) :=
  l.recordSlots.foldl (fun best k =>
    let ws := l.recordAt k
    if recordOk k ws then
      (match best with
      | some b => if (wordAt b 0).toNat < (wordAt ws 0).toNat then some ws else best
      | none => some ws)
    else best) none

/-- A monitor as a record gives it (R509, R511), with what flash holds beside the records. -/
def recordMon (ws : List Word) (kept : Tab (Nat × List Nat)) (i : Nat) : Monitor :=
  let w := (wordAt ws (76 + i)).toNat
  let k := (tabGet kept i).getD (0, [])
  { (default : Monitor) with
    n := w / 65536
    learned := decide (w / 32768 % 2 = 1)
    since := k.1
    points := if w / 32768 % 2 = 1 then [] else k.2
    acc := (List.range 6).map (fun j => ofBits32 (wordAt ws (20 + 6 * i + j))) }

/-- The monitors of a record. -/
def recordMons (ws : List Word) (kept : Tab (Nat × List Nat)) : Tab Monitor := (List.range 8).map (fun i => (i, recordMon ws kept i))

/-- The open reversals of a record (R509): up to the last one that is not 0. -/
def recordReversals (ws : List Word) : List Int :=
  let all := ((ws.drop 68).take 8).flatMap (fun w => [(w.setWidth 16 : BitVec 16).toInt, (w.extractLsb' 16 16 : BitVec 16).toInt])
  (all.reverse.dropWhile (fun x => decide (x = 0))).reverse

/-- The life counters of a record. -/
def recordCounts (ws : List Word) : LifeCounts :=
  ⟨wordAt ws 92, wordAt ws 93, wordAt ws 94, wordAt ws 95, wordAt ws 96, wordAt ws 97, wordAt ws 98, (ws.drop 100).take 12⟩

/-- The accumulators as the last record left them (R461, R511). -/
def Lane.accumulatorsOf (l : Lane) (ws : List Word) : Lane :=
  { l with ha := { l.ha with
      mons := recordMons ws l.ha.kept, reversals := recordReversals ws, miner := mkRat (wordAt ws 16).toNat 65536 } }

/-- The registers that a record fills (R518). -/
def Lane.recordRegs (l : Lane) (ws : List Word) : Lane :=
  let one := fun (y : Lane) (i : Nat) =>
    let y1 := (y.wr (R.HA_MONi_VAL i) (wordAt ws (4 + 2 * i))).wr (R.HA_MONi_BASE i) (wordAt ws (84 + i))
    y1.put (R.HA_MONi_DMG_damage i) ((wordAt ws (5 + 2 * i)).toNat % 65536)
  let l1 := (List.range 8).foldl one ((l.wr R.HA_HOURS (wordAt ws 1)).wr R.HA_REC (wordAt ws 0))
  l1.put R.HA_CONFLICT_hours ((wordAt ws 98).toNat % 65536)

/-- The record scan of a start (R511): accumulators, baselines and counters of the record, and then, where retention bank 3 is valid,
what that bank holds in their place; the faults of the power cycle before, from bank 0, are added (R510). -/
def Lane.takeRecord (l : Lane) (keep : Bool) : Lane :=
  let bad := l.recordSlots.any (fun k => !recordOk k (l.recordAt k))
  let l0 := l.flagIf bad R.HA_FLAGS_record_fail
  match l0.lastGood with
  | none => { l0 with ha := { l0.ha with powerCycles := l0.ha.powerCycles + 1 } }
  | some ws =>
    let l1 := l0.recordRegs ws
    let counts := recordCounts ws
    let add := fun (i : Nat) => (counts.faults[i]?).getD 0 + (l0.ha.counts.faults[i]?).getD 0
    let ha := { l1.ha with powerCycles := (wordAt ws 2).toNat + 1, lastRecord := ws }
    if keep then { l1 with ha := ha }
    else { l1 with ha := { ha with counts := { counts with faults := (List.range 12).map add } } }.accumulatorsOf ws

/-- The life of each monitor as it stands at a start (R511, R518); a damage of 1 has been reached before. -/
def Lane.startLives (c : Ctx) (l : Lane) : Lane :=
  (List.range 8).foldl (fun (y : Lane) i =>
    if y.monOn c i then
      (y.setMon i { y.mon i with hit := decide (1 ≤ y.damage i) }).put (R.HA_MONi_DMG_life_h i) (y.monLife i (y.damage i)).1
    else y) l

/-! ### Telemetry and baselines (R505, R512) -/

/-- TELEMETRY_SEND (R512): the periodic datagram. -/
def telemetrySendL (c : Ctx) (l : Lane) : Lane :=
  let due := match l.ha.telAt with
    | some t => decide (t ≤ c.now)
    | none => true
  if l.telOn && due then
    let body := [l.rd R.LM_ROLE, l.rd R.FC_MODE, fldPut R.HA_LIFE_prior (l.rd R.HA_LIFE) (l.get R.HA_STATUS_prior), l.rd R.HA_TEMP] ++
      [l.rd R.EA_LOAD, l.rd R.EA_RA_COMMIT, l.rd R.EA_RA_SQUASH, l.rd R.EA_MISS_CNT, l.rd R.HA_CONFLICT, l.rd R.LM_HANDOVER]
    let l1 := l.sendTelemetry c 1 body
    { l1 with ha := { l1.ha with telAt := some (c.now + l1.get R.ET_TEL_period_ms * 1000000) } }
  else l

/-- TELEMETRY_SEND. -/
def execTelemetrySend (ln : LaneId) (s : State) : Answer := onAlive ln telemetrySendL s

/-- BASELINE_RESET (R505): 0x96 while parked; the monitors of the mask restart at the next update (R517). -/
def baselineResetL (value : Word) (l : Lane) : Lane :=
  let l0 := { l with bus := .done }
  if fldOf R.HA_BASELINE_RESET_key value = 0x96 ∧ l.parked = true then
    let mask := fldOf R.HA_BASELINE_RESET_mask value
    ((List.range 8).foldl (fun y i =>
      if Nat.testBit mask i then y.setMon i { y.mon i with reset := true } else y) l0).flag R.HA_FLAGS_baseline_reset
  else l0

/-- BASELINE_RESET. -/
def execBaselineReset (ln : LaneId) (value : Word) (s : State) : Answer := onAlive ln (fun _ l => baselineResetL value l) s

end Sys2Proof.Machine
end

