-- ==== Sys2Proof/Machine/Plaus.lean ====
section
/-! DEFINITION. Cross-lane plausibility (R85 to R88, R119, R229, R341, R342, R366, R529), DISPUTED, the inhibit votes and their
test pulses (R46, R47, R89, R90), and the hold latches (R58 to R60). -/

namespace Sys2Proof.Machine

/-! ### PLAUS frames (R38, R85, R341, R366) -/

/-- The words of a value with its valid bit: bits 31:0, then bits 39:32 with the valid bit at bit 31. -/
def plausPair (ok : Bool) (v : W40) : List Word :=
  [v.setWidth 32, (v.extractLsb' 32 8).setWidth 32 ||| (if ok then 0x80000000 else 0)]

/-- R229: the torque reference of a channel is invalid while this lane's channel is in CATCH, PULSE or FAULT, or, in a lane that does
not drive itself, the driving lane's in the last adopted mirror. -/
def Lane.torqueValid (l : Lane) (ch : Nat) : Bool :=
  let bad := fun (st : Nat) => decide (st = mcCatch) || decide (st = mcPulse) || decide (st = mcFault)
  !bad (l.mcState ch) && (l.active || !bad ((tabGet l.baton.mirMotor ch).getD mcOff))

/-- The words of one quantity of this lane's PLAUS frame. -/
def Lane.plausWords (l : Lane) (q : PlausQty) : List Word :=
  match q.src with
  | .torque ch => plausPair (l.torqueValid ch) (l.pair (R.MC_TORQUE ch))
  | .solenoid n => plausPair true (qw ((tabGet l.bk.iLeg n).getD 0))
  | .stepper n => plausPair true (l.pair (R.SPn_TARGET n))
  | .outputs => plausPair true (BitVec.ofNat 40 (l.get R.SI_DO_STATE_cmd))
  | .angle n =>
    let ok := (l.af n).heatOk && !l.bit (R.AFn_STATUS_sa_fault n)
    l.rd (R.AFn_ANGLE n) :: plausPair ok (l.pair (R.AFn_SPEED_RAD n))
  | .analog m =>
    plausPair (l.bit (R.SI_AIm_STAT_valid m) && !l.bit (R.SI_AIm_STAT_sp_fault m)) (l.pair (R.SI_AIm_VALUE m))

/-- Words placed in a frame from a word on. -/
def placeWords (frame : List Word) (at_ : Nat) (ws : List Word) : List Word :=
  (List.range frame.length).map (fun i => if at_ ≤ i then (ws[i - at_]?).getD ((frame[i]?).getD 0) else (frame[i]?).getD 0)

/-- The quantities of the PLAUS layout that are in use (R341, R366): an analog input only in a role of 2 to 4. -/
def Lane.quantities (l : Lane) : List PlausQty :=
  l.image.plaus.filter (fun q => match q.src with
    | .analog m => decide (2 ≤ l.get (R.SI_AIm_CFG_role m) ∧ l.get (R.SI_AIm_CFG_role m) ≤ 4)
    | _ => true)

/-- The 32 data words of this lane's PLAUS frame, in the layout of the image. -/
def Lane.plausFrame (l : Lane) : List Word :=
  l.quantities.foldl (fun f q => placeWords f q.word (l.plausWords q)) (List.replicate 32 0)

/-- Where the value of a quantity starts in a frame: an angle has its turn32 word before its speed. -/
def valueWord (q : PlausQty) : Nat :=
  match q.src with
  | .angle _ => q.word + 1
  | _ => q.word

/-- Whether a frame reports a quantity valid. -/
def plausOk (ws : List Word) (q : PlausQty) : Bool := (frameWord ws (valueWord q + 1)).getLsbD 31

/-- The 40-bit value of a quantity in a frame: a command, an analog value, or the speed of an angle. -/
def plausValue (ws : List Word) (q : PlausQty) : Int :=
  qv ((frameWord ws (valueWord q + 1)).setWidth 8 ++ frameWord ws (valueWord q))

/-- A quantity is a sensor's: its key is n for an angle and 8 + m for an analog input. -/
def sensorKey (q : PlausQty) : Option Nat :=
  match q.src with
  | .angle n => some n
  | .analog m => some (8 + m)
  | _ => none

/-- The difference of a quantity between two frames: counts for an angle (R341), LSB for the rest. -/
def Lane.plausDiff (l : Lane) (q : PlausQty) (wa wb : List Word) : Int :=
  match q.src with
  | .angle n => nearest (mkRat (sdiff (frameWord wa q.word) (frameWord wb q.word) * l.afTurn n) (2 ^ 32))
  | _ => plausValue wa q - plausValue wb q

/-- The tolerance of a quantity (R85, R341, R366). -/
def Lane.plausTol (l : Lane) (q : PlausQty) : Nat :=
  match q.src with
  | .angle n => l.get (R.AFn_PLAUS_TOL_counts n)
  | .analog m => (l.q (R.SI_AIm_PLAUS_TOL m)).toNat
  | _ => q.tol

/-- Two frames differ in a quantity by more than its tolerance. -/
def Lane.plausDiffers (l : Lane) (q : PlausQty) (wa wb : List Word) : Bool :=
  decide (l.plausTol q < (l.plausDiff q wa wb).natAbs)

/-! ### Judging a heat -/

/-- A frame kept for a heat. -/
def frameFor (now prev : Option (BitVec 16 × List Word)) (h : BitVec 16) : Option (List Word) :=
  match now with
  | some (k, ws) => if k = h then some ws else match prev with
    | some (j, vs) => if j = h then some vs else none
    | none => none
  | none => none

/-- The frame that this lane holds of a fit lane for a heat, its own among them. -/
def Lane.heatFrame (c : Ctx) (l : Lane) (h : BitVec 16) (x : LaneId) : Option (List Word) :=
  if !l.knowsFit x then none
  else if x = c.id then frameFor l.ownPlaus l.ownPlausPrev h
  else frameFor (l.peer x).plaus (l.peer x).plausPrev h

/-- Every pair of lanes, with the key its run is kept under. -/
def lanePairs (m : Member) : List (Nat × LaneId × LaneId) :=
  if isTriple m then [(0, .a, .b), (1, .b, .c), (2, .a, .c)] else [(0, .a, .b)]

/-- How two lanes' frames of a heat compare over some quantities: none where nothing was compared, else whether they
disagree (R85). -/
def Lane.pairJudge (c : Ctx) (l : Lane) (h : BitVec 16) (qs : List PlausQty) (x y : LaneId) : Option Bool :=
  match l.heatFrame c h x, l.heatFrame c h y with
  | some wx, some wy =>
    (match qs.filter (fun q => plausOk wx q && plausOk wy q) with
    | [] => none
    | both => some (both.any (fun q => l.plausDiffers q wx wy)))
  | _, _ => none

/-- The lane that disagrees with both others while those agree, over one quantity or several (R86, R342); it takes three fit
lanes. -/
def Lane.oddLane (c : Ctx) (l : Lane) (h : BitVec 16) (qs : List PlausQty) : Option LaneId :=
  match l.fitLanes c with
  | [_, _, _] =>
    [LaneId.a, .b, .c].find? (fun x =>
      decide (l.pairJudge c h qs x (nextLane .ts8630 x) = some true) &&
      decide (l.pairJudge c h qs x (prevLane .ts8630 x) = some true) &&
      decide (l.pairJudge c h qs (nextLane .ts8630 x) (prevLane .ts8630 x) = some false))
  | _ => none

/-- A mask of lanes. -/
def lanesMask (xs : List LaneId) : Nat := (xs.map (fun x => 2 ^ laneBit x)).sum

/-- The other lanes whose valid frame differs from this lane's in a quantity. -/
def Lane.differing (c : Ctx) (l : Lane) (h : BitVec 16) (q : PlausQty) : List LaneId :=
  (othersOf c).filter (fun x => decide (l.pairJudge c h [q] c.id x = some true))

/-- The difference of a quantity from another lane's frame, for AFn_DISAGREE.diff. -/
def Lane.diffFrom (c : Ctx) (l : Lane) (h : BitVec 16) (q : PlausQty) (x : LaneId) : Int :=
  match l.heatFrame c h c.id, l.heatFrame c h x with
  | some wa, some wb => l.plausDiff q wa wb
  | _, _ => 0

/-- What one heat shows on a sensor's registers (R343, R369). -/
def Lane.showSensor (c : Ctx) (l : Lane) (h : BitVec 16) (q : PlausQty) (odd : Option LaneId) (run : Nat) : Lane :=
  let xs := l.differing c h q
  let other := decide (odd = none) && decide (xs ≠ [])
  match q.src with
  | .angle n =>
    let l1 := ((l.putB (R.AFn_STATUS_disagree n) (decide (xs ≠ []))).put (R.AFn_DISAGREE_lanes n) (lanesMask xs)).put
      (R.AFn_DISAGREE_heats n) (min run 3)
    let l2 := match xs with
      | x :: _ => l1.put (R.AFn_DISAGREE_diff n) (BitVec.ofInt 16 (clampInt (-32768) 32767 (l.diffFrom c h q x))).toNat
      | [] => l1
    l2.flagIf other (R.AF_FLAGS_disagree n)
  | .analog m => (l.putB (R.SI_AIm_STAT_disagree m) (decide (xs ≠ []))).flagIf other R.SI_FLAGS_ai_disagree
  | _ => l

/-- One sensor quantity of a heat (R342, R366): the run of heats in which this lane is the outlier, and the fault at three. -/
def Lane.judgeSensor (c : Ctx) (h : BitVec 16) (l : Lane) (q : PlausQty) : Lane :=
  match sensorKey q with
  | none => l
  | some key =>
    let odd := l.oddLane c h [q]
    let valid := fun (x : LaneId) => match l.heatFrame c h x with
      | some ws => plausOk ws q
      | none => false
    let all := decide ((l.fitLanes c).length = 3) && (l.fitLanes c).all valid
    let old := (tabGet l.baton.sensorRun key).getD 0
    let run := if odd = some c.id then min (old + 1) 3 else if all then 0 else old
    let l1 := ({ l with baton := { l.baton with sensorRun := tabPut l.baton.sensorRun key run } }).showSensor c h q odd run
    if odd = some c.id ∧ run = 3 then
      (match q.src with
      | .angle n => l1.saFault c n 7
      | .analog m => l1.spFault c m 4
      | _ => l1)
    else l1

/-- A sensor disagreement without a majority in a heat (R342, R529). -/
def Lane.noMajority (c : Ctx) (l : Lane) (h : BitVec 16) : Bool :=
  l.quantities.any (fun q =>
    (sensorKey q).isSome && decide (l.oddLane c h [q] = none) &&
      (lanePairs c.part.member).any (fun p => decide (l.pairJudge c h [q] p.2.1 p.2.2 = some true)))

/-- The command quantities that a heat compares: those fed by a sensor with an outlier are left out (R342). -/
def Lane.comparedCommands (c : Ctx) (l : Lane) (h : BitVec 16) : List PlausQty :=
  let out := (l.quantities.filter (fun q => (l.oddLane c h [q]).isSome)).filterMap sensorKey
  l.image.plaus.filter (fun q => decide (sensorKey q = none) && q.fedBy.all (fun k => !out.contains k))

/-- A run of heats continued, ended, or left as it is where nothing was compared (R85). -/
def runStep (old : Nat) : Option Bool → Nat
  | some true => min (old + 1) 3
  | some false => 0
  | none => old

/-- DISPUTED_ENTRY (R87, R88): shown, counted once as U, and a stop requested; the module stays on the active lane. -/
def Lane.enterDisputed (c : Ctx) (l : Lane) (q : Nat) : Lane :=
  if l.bit R.LM_ROLE_disputed then l
  else
    let l1 := (l.put R.LM_ROLE_disputed 1).flag R.LM_FLAGS_disputed
    ((l1.stayOnLane c).countNow c 0xC 3 (q % 256)).remode c

/-- DISPUTED found by this lane, which sends DISPUTED on every link (R87). -/
def Lane.findDisputed (c : Ctx) (l : Lane) (q : Nat) : Lane :=
  if l.bit R.LM_ROLE_disputed then l else (l.sendAll c 0x0A [q]).enterDisputed c q

/-- The runs of the pairs, of the outvoted lanes and of a three-way disagreement after a heat (R85 to R87). -/
def Lane.stepRuns (c : Ctx) (l : Lane) (h : BitVec 16) (qs : List PlausQty) : Lane :=
  let judge := fun (x y : LaneId) => l.pairJudge c h qs x y
  let pairs := (lanePairs c.part.member).foldl
    (fun t p => tabPut t p.1 (runStep ((tabGet t p.1).getD 0) (judge p.2.1 p.2.2))) l.baton.pairRun
  let res := (lanePairs c.part.member).map (fun p => judge p.2.1 p.2.2)
  let out := fun (t : Tab Nat) (x : LaneId) =>
    let k := laneCode x
    let old := (tabGet t k).getD 0
    if l.oddLane c h qs = some x then tabPut t k (min (old + 1) 4)
    else if res.contains (some false) && decide (judge x (nextLane .ts8630 x) ≠ some true ∨ judge x (prevLane .ts8630 x) ≠ some true)
      then tabPut t k 0
    else if res.all (fun r => decide (r ≠ none)) then tabPut t k 0
    else t
  let outs := if isTriple c.part.member then (lanesOf c.part.member).foldl out l.baton.outRun else l.baton.outRun
  let all := if res.contains (some false) then 0
    else if res.all (fun r => decide (r = some true)) then min (l.baton.allRun + 1) 3
    else l.baton.allRun
  { l with baton := { l.baton with pairRun := pairs, outRun := outs, allRun := all } }

/-- The key of this lane's pair with another one. -/
def pairKey (m : Member) (x y : LaneId) : Nat :=
  match (lanePairs m).find? (fun p => decide ((p.2.1 = x ∧ p.2.2 = y) ∨ (p.2.1 = y ∧ p.2.2 = x))) with
  | some p => p.1
  | none => 0

/-- The heats in a row in which this lane disagreed with another one, shown in its record. -/
def Lane.showPeerRuns (c : Ctx) (l : Lane) : Lane :=
  (othersOf c).foldl (fun y x =>
    y.setPeer x { y.peer x with disagree := (tabGet y.baton.pairRun (pairKey c.part.member c.id x)).getD 0 }) l

/-- The commands of a heat compared (R85 to R87, R120): the registers, DISAGREE for an outvoted lane, and DISPUTED. -/
def Lane.judgeCommands (c : Ctx) (l : Lane) (h : BitVec 16) : Lane :=
  let qs := l.comparedCommands c h
  let bad := (othersOf c).filter (fun x => decide (l.pairJudge c h qs c.id x = some true))
  let worst := (List.range l.image.plaus.length).filter (fun i =>
    match l.image.plaus[i]? with
    | some q => qs.contains q && decide (l.differing c h q ≠ [])
    | none => false)
  let l1 := (l.stepRuns c h qs).showPeerRuns c
  let heats := ((othersOf c).map (fun x => (l1.peer x).disagree)).foldl max 0
  let was := ((othersOf c).map (fun x => (l.peer x).disagree)).foldl max 0
  let l2 := (l1.put R.LM_DISAGREE_lanes (lanesMask bad)).put R.LM_DISAGREE_heats heats
  let l3 := match worst.getLast? with
    | some i => l2.put R.LM_DISAGREE_quantity i
    | none => l2
  let l4 := l3.flagIf (decide (heats = 3 ∧ was < 3)) R.LM_FLAGS_disagree
  let q := l4.get R.LM_DISAGREE_quantity
  let outvoted := (othersOf c).filter (fun x => decide ((tabGet l4.baton.outRun (laneCode x)).getD 0 = 3))
  let l5 := outvoted.foldl (fun (y : Lane) x => y.sendAll c 0x09 [lanesMask [x], q, 3]) l4
  let fits := l5.fitLanes c
  let split := match fits with
    | [x, y] => decide ((tabGet l5.baton.pairRun (pairKey c.part.member x y)).getD 0 = 3)
    | [_, _, _] => decide (l5.baton.allRun = 3)
    | _ => false
  if split then l5.findDisputed c q else l5

/-- When a heat of this lane began, by its number. -/
def Lane.heatStart (l : Lane) (h : BitVec 16) : Nat := l.ea.heatAt - (l.heat16 - h).toNat * l.heatLen

/-- Whether a heat's commands are compared: those of the heats after the award (R530). -/
def Lane.commandsCompared (l : Lane) (h : BitVec 16) : Bool :=
  match l.st.awardAt with
  | some t => decide (t < l.heatStart h)
  | none => false

/-- PLAUS_COMPARE (R85, R341, R366, R529, R530): the sensors first, then the commands; LM_STATUS.plaus_ok shows agreement with
every other fit lane. -/
def Lane.judgeHeat (c : Ctx) (l : Lane) (h : BitVec 16) : Lane :=
  let l1 := (othersOf c).foldl (fun y x => y.setPeer x { y.peer x with judgedHeat := some h }) l
  let run := if l1.noMajority c h then l1.st.noMajority + 1 else 0
  let l2 := { l1 with st := { l1.st with noMajority := run } }
  let l3 := l1.quantities.foldl (Lane.judgeSensor c h) l2
  let cmds := l1.commandsCompared h
  let qs := (if cmds then l1.comparedCommands c h else []) ++ l1.quantities.filter (fun q => (sensorKey q).isSome)
  let agrees := fun (x : LaneId) => !l1.knowsFit x || ((l1.heatFrame c h x).isSome && decide (l1.pairJudge c h qs c.id x ≠ some true))
  let l4 := l3.putB R.LM_STATUS_plaus_ok ((othersOf c).all agrees)
  if cmds then l4.judgeCommands c h else l4

/-- A heat is judged as soon as every other fit lane's frame is there, and not again. -/
def Lane.tryJudge (c : Ctx) (l : Lane) (h : BitVec 16) (wait : Bool) : Lane :=
  let done := (othersOf c).any (fun x => decide ((l.peer x).judgedHeat = some h))
  let mine := (l.heatFrame c h c.id).isSome
  let all := (othersOf c).all (fun x => !l.knowsFit x || (l.heatFrame c h x).isSome)
  if done || !mine || (wait && !all) then l else l.judgeHeat c h

/-- PLAUS_SEND (R38): once per heat, by a fit lane. -/
def plausSendL (c : Ctx) (l : Lane) : Lane :=
  let h := l.heat16
  if !l.fit || !l.ea.started || (match l.ownPlaus with
      | some (k, _) => decide (k = h)
      | none => false) then l
  else
    let ws := l.plausFrame
    let l1 := { l with ownPlausPrev := l.ownPlaus, ownPlaus := some (h, ws) }
    (l1.queueAll c ⟨4, BitVec.ofNat 32 h.toNat :: ws⟩ (othersOf c)).tryJudge c h true

/-- PLAUS_SEND. -/
def execPlausSend (ln : LaneId) (s : State) : Answer :=
  sharingSensors ln s (onAlive ln (fun c l => plausSendL c l) s)

/-- A PLAUS frame taken (R38, R85). -/
def Lane.takePlaus (c : Ctx) (l : Lane) (x : LaneId) (h : BitVec 16) (ws : List Word) : Lane :=
  let p := l.peer x
  (l.setPeer x { p with plausPrev := p.plaus, plaus := some (h, ws) }).tryJudge c h true

/-- The previous heat judged at a heat boundary with the frames that came (R85). -/
def Lane.plausHeat (c : Ctx) (l : Lane) : Lane := l.tryJudge c (l.heat16 - 1) false

/-- DISAGREE (R86): recorded; a lane that it names has been disagreeing. DESIGN CHOICE (log 20): a received DISAGREE overwrites
the fields of LM_DISAGREE, and it sets the disagree flag in the outvoted lane too. -/
def disagreeL (c : Ctx) (sender : LaneId) (lanes : BitVec 3) (quantity : BitVec 16) (heats : BitVec 2) (l : Lane) : Lane :=
  if !Lane.isPeer c sender then l
  else
    let l1 := l.put R.LM_DISAGREE_quantity quantity.toNat
    if maskHas lanes.toNat c.id then
      ((l1.put R.LM_DISAGREE_lanes (maskSet (l1.get R.LM_DISAGREE_lanes) sender true)).put R.LM_DISAGREE_heats heats.toNat).flag
        R.LM_FLAGS_disagree
    else l1

/-- DISAGREE. -/
def execDisagree (ln : LaneId) (sender : LaneId) (lanes : BitVec 3) (quantity : BitVec 16) (heats : BitVec 2) (s : State) : Answer :=
  onAlive ln (fun c l => disagreeL c sender lanes quantity heats l) s

/-- DISPUTED (R87). -/
def disputedL (c : Ctx) (sender : LaneId) (quantity : BitVec 16) (l : Lane) : Lane :=
  if Lane.isPeer c sender then l.enterDisputed c quantity.toNat else l

/-- DISPUTED. -/
def execDisputed (ln : LaneId) (sender : LaneId) (quantity : BitVec 16) (s : State) : Answer :=
  onAlive ln (fun c l => disputedL c sender quantity l) s

/-! ### Substitution (R119) -/

/-- A valid value of a quantity in a lane's frame of the previous heat. -/
def Lane.sourceFrame (c : Ctx) (l : Lane) (q : PlausQty) : Option (List Word) :=
  let h := l.heat16 - 1
  (((lanesOf c.part.member).filter (fun x => decide (x ≠ c.id))).filterMap (fun x =>
    match l.heatFrame c h x with
    | some ws => if plausOk ws q then some ws else none
    | none => none)).head?

/-- One faulty sensor's value in a heat: another fit lane's, or reported lost (R119). -/
def Lane.substOne (c : Ctx) (l : Lane) (q : PlausQty) : Lane :=
  match q.src with
  | .angle n =>
    if !l.bit (R.AFn_STATUS_sa_fault n) then l
    else match l.sourceFrame c q with
      | some ws => l.substAngle n (frameWord ws q.word) (plausValue ws q)
      | none => l.put R.FC_SENSOR_sa_subst (bitPut (l.get R.FC_SENSOR_sa_subst) n false)
  | .analog m =>
    if !l.bit (R.SI_AIm_STAT_sp_fault m) then l
    else match l.sourceFrame c q with
      | some ws => l.substAnalog m (plausValue ws q)
      | none => l.put R.FC_SENSOR_sp_subst (bitPut (l.get R.FC_SENSOR_sp_subst) m false)
  | _ => l

/-- Every faulty sensor's substitution in a heat (R119). -/
def Lane.substHeat (c : Ctx) (l : Lane) : Lane := l.quantities.foldl (fun y q => y.substOne c q) l

/-! ### Inhibit votes (R46, R89, R90) -/

/-- The takeover line of a lane has been asserted for a time, and for more than 50 µs where it may be a wake pulse (R454). -/
def Lane.lineFor (c : Ctx) (l : Lane) (x : LaneId) (ns : Nat) : Bool :=
  let p := l.peer x
  let t := if l.pulsesNow c then max ns 50001 else ns
  p.line && decide (p.lineAt + t ≤ c.now)

/-- The line has been asserted for a time outside a changeover zone (R67, R89): what it was asserted inside the last zone does
not count, nor does it in the 2 µs after an announced one, in the lane that now holds the baton too. -/
def Lane.lineOutside (c : Ctx) (l : Lane) (x : LaneId) (t : Nat) : Bool :=
  l.lineFor c x t && !l.zoneNow c && (decide (l.baton.zoneTil + t ≤ c.now) ||
    match l.baton.note with
    | some z => decide (c.now < z.fromNs)
    | none => false)

/-- Whether a row of R89 holds in the voter against a target. -/
def Lane.voteRow (c : Ctx) (l : Lane) (x : LaneId) (row : Nat) : Bool :=
  let p := l.peer x
  match row with
  | 0 => decide (3 ≤ (tabGet l.baton.outRun (laneCode x)).getD 0)
  | 1 => l.active && l.lineOutside c x 2000
  | 2 => l.standby && (othersOf c).any (fun y =>
      decide (y ≠ x ∧ l.batonLane = some y) && l.lineOutside c x 2000 && l.lineOutside c y 2000)
  | 3 => (match p.silentAt with
      | some t => decide (t + 20000 ≤ c.now) && p.line
      | none => false)
  | _ => (match p.hb with
      | some ws => decide ((frameWord ws 0).toNat / 2 ^ 30 = roleUnfit) && l.lineFor c x 2000
      | none => false)

/-- VOTE_ASSERT (R89, R90): the line is asserted, vote_cast set and VOTE sent. -/
def voteAssertL (c : Ctx) (x : LaneId) (row : Nat) (l : Lane) : Lane :=
  let p := l.peer x
  let l1 := (l.setPeer x { p with voteAt := some c.now, voteShown := false }).put R.LM_VOTE_votes_out
    (maskSet (l.get R.LM_VOTE_votes_out) x true)
  (l1.flag R.LM_FLAGS_vote_cast).sendAll c 0x0B [laneCode x, row]

/-- Whether a lane may cast a vote against another one now. -/
def Lane.mayVote (c : Ctx) (l : Lane) (x : LaneId) (row : Nat) : Bool :=
  isTriple c.part.member && l.alive && l.fit && Lane.isPeer c x && decide ((l.peer x).voteAt = none) && l.voteRow c x row

/-- VOTE_ASSERT. -/
def execVoteAssert (ln : LaneId) (target : LaneId) (row : Fin 5) (s : State) : Answer :=
  let c := s.ctx ln
  if s.has ln && s.has target && (s.lane ln).mayVote c target row.val then
    let s1 := s.setLane ln (voteAssertL c target row.val (s.lane ln))
    let t := s1.lane target
    .next (s1.setLane target ((t.put R.LM_VOTE_votes_in (maskSet (t.get R.LM_VOTE_votes_in) ln true)).setPeer ln
      { t.peer ln with inAt := some (s.ctx target).now, outAt := none }))
  else .next s

/-- Whether a vote may end (R90): 2 µs after its assertion, with the target's line deasserted and the target shown unfit since,
or the target silent. -/
def Lane.mayRelease (l : Lane) (now : Nat) (x : LaneId) : Bool :=
  let p := l.peer x
  match p.voteAt with
  | some t => decide (t + 2000 ≤ now) && ((!p.line && p.voteShown) || p.silentAt.isSome)
  | none => false

/-- VOTE_RELEASE (R90). -/
def execVoteRelease (ln : LaneId) (target : LaneId) (s : State) : Answer :=
  let l := s.lane ln
  if s.has ln && s.has target && l.mayRelease (s.ctx ln).now target then
    let l1 := (l.setPeer target { l.peer target with voteAt := none, voteShown := false }).put R.LM_VOTE_votes_out
      (maskSet (l.get R.LM_VOTE_votes_out) target false)
    let s1 := s.setLane ln l1
    let t := s1.lane target
    .next (s1.setLane target ((t.put R.LM_VOTE_votes_in (maskSet (t.get R.LM_VOTE_votes_in) ln false)).setPeer ln
      { t.peer ln with outAt := some (s.ctx target).now }))
  else .next s

/-- VOTE (R90): what another lane reports of its vote. -/
def voteL (c : Ctx) (sender target : LaneId) (row : Fin 5) (l : Lane) : Lane :=
  if Lane.isPeer c sender then l.setPeer sender { l.peer sender with said := some (target, row.val) } else l

/-- VOTE. -/
def execVote (ln : LaneId) (sender target : LaneId) (row : Fin 5) (s : State) : Answer :=
  onAlive ln (fun c l => voteL c sender target row l) s

/-- The delay of a vote line from the voter's driver to the filtered line: the isolator and the receiver's filter (R46). -/
def voteDelay : Nat := 150

/-- A filtered vote line into this lane was asserted throughout the 500 ns before an instant (R46). -/
def Peer.votedUntil (p : Peer) (t : Nat) : Bool :=
  (match p.inAt with
  | some a => decide (a + voteDelay + 500 ≤ t)
  | none => false) &&
  match p.outAt with
  | some b => decide (t ≤ b + voteDelay)
  | none => true

/-- The last instant up to which a filtered vote line is known to be asserted. -/
def Peer.voteEnd (now : Nat) (p : Peer) : Nat :=
  match p.outAt with
  | some b => min now (b + voteDelay)
  | none => now

/-- INHIBIT_TRIP (R46, R96): both filtered vote lines together for 500 ns; the inhibit latches until the lane's next reset. -/
def inhibitTripL (c : Ctx) (l : Lane) : Lane :=
  let votes := (othersOf c).map l.peer
  let t := votes.foldl (fun k p => min k (p.voteEnd c.now)) c.now
  if !(isTriple c.part.member && votes.all (fun p => p.votedUntil t)) then l
  else if l.role = roleUnfit then l.dropOutputs c .votes
  else l.becomeUnfit c 0xB 1 0xB .votes

/-- INHIBIT_TRIP. -/
def execInhibitTrip (ln : LaneId) (s : State) : Answer := onAlive ln (fun c l => inhibitTripL c l) s

/-! ### Vote-line tests (R47) -/

/-- The offset of a vote line's test pulse from the heat boundary, none for a pair that has no line. -/
def pulseOffset : LaneId → LaneId → Option Nat
  | .a, .b => some 10000
  | .a, .c => some 20000
  | .b, .a => some 30000
  | .b, .c => some 40000
  | .c, .a => some 50000
  | .c, .b => some 60000
  | _, _ => none

/-- Whether the test pulse of a line falls now or has fallen in this heat. -/
def Lane.pulseDue (c : Ctx) (l : Lane) (x : LaneId) : Bool :=
  match pulseOffset c.id x with
  | some o => isTriple c.part.member && l.alive && l.ea.started && decide (l.ea.heatAt + o ≤ c.now)
  | none => false

/-- VOTE_TEST_PULSE (R47): the target's next heartbeats report whether it came. -/
def execVoteTestPulse (ln : LaneId) (target : LaneId) (received : Bool) (s : State) : Answer :=
  let l := s.lane ln
  if s.has ln && s.has target && l.pulseDue (s.ctx ln) target then
    let s1 := s.setLane ln (l.setPeer target { l.peer target with
      pulseMiss := if received then 0 else (l.peer target).pulseMiss + 1 })
    let t := s1.lane target
    let f := if onLink0 (s.ctx target) ln then R.LM_STATUS_pulse_rx_0 else R.LM_STATUS_pulse_rx_1
    .next (if t.alive then s1.setLane target (t.putB f received) else s1)
  else .next s

/-- The voter's record of a failed line test (R47, R92). -/
def voteTestFailL (x : LaneId) (l : Lane) : Lane :=
  ((l.flag R.LM_FLAGS_pulse_fail).inc R.LM_VOTE_test_fail).setPeer x { l.peer x with pulseMiss := 0 }

/-- VOTE_TEST_FAIL (R47): after two consecutive heats without a pulse the target lane becomes unfit. -/
def execVoteTestFail (ln : LaneId) (target : LaneId) (s : State) : Answer :=
  let l := s.lane ln
  if s.has ln && s.has target && l.alive && decide (ln ≠ target ∧ 2 ≤ (l.peer target).pulseMiss) then
    let s1 := s.setLane ln (voteTestFailL target l)
    let t := s1.lane target
    .next (if t.alive then s1.setLane target (t.becomeUnfit (s.ctx target) 0xA 1 0xA .inhibit) else s1)
  else .next s

/-! ### Hold latches (R58 to R60) -/

/-- LATCH_HOLD (R46, R58, R59, R61): a latch of a stage that is on enters holding; two votes disable the latches. -/
def latchHoldL (c : Ctx) (st : Stage) (l : Lane) : Lane :=
  let i := stageIx st
  let m := BitVec.ofNat 32 (2 ^ i) &&& stageMask c.part.member
  if !l.stageOn.getLsbD i || m = 0 then l
  else if l.baton.inhibited then l.stagesOff (m &&& 0x00FFFFFF)
  else l.holdLatches c m

/-- LATCH_HOLD. -/
def execLatchHold (ln : LaneId) (st : Stage) (s : State) : Answer := onAlive ln (fun c l => latchHoldL c st l) s

/-- LATCH_TIMEOUT (R60): after 1 ms of holding the stage switches off. -/
def latchTimeoutL (c : Ctx) (st : Stage) (l : Lane) : Lane :=
  let i := stageIx st
  match tabGet l.latchAt i with
  | some t =>
    if l.latchHold.getLsbD i = true ∧ t + 1000000 ≤ c.now then
      let l1 := l.releaseLatches (BitVec.ofNat 32 (2 ^ i))
      if l1.alive then l1.flag R.LM_FLAGS_latch_timeout else l1
    else l
  | none => l

/-- LATCH_TIMEOUT. -/
def execLatchTimeout (ln : LaneId) (st : Stage) (s : State) : Answer := onLane ln (fun c l => latchTimeoutL c st l) s

end Sys2Proof.Machine
end

