-- ==== Sys2Proof/Machine/Mirror.lean ====
section
/-! DEFINITION. The mirror (R41, R56, R57, R78, R151, R217, R229, R317, R320): what the active lane sends in a heat, and what a
standby adopts of it. -/

namespace Sys2Proof.Machine

/-! ### What is carried -/

/-- A value as two words: bits 31:0, then the upper eight bits sign-extended (R170). -/
def wordPair (v : Int) : List Word := [(qw v).setWidth 32, ((qw v).extractLsb' 32 8).signExtend 32]

/-- The value of two words. -/
def pairAt (ws : List Word) (i : Nat) : Int := qv ((frameWord ws (2 * i + 1)).setWidth 8 ++ frameWord ws (2 * i))

/-- A wider value as two words, 64 bits: bits 31:0, then bits 63:32. -/
def widePair (v : Int) : List Word := [BitVec.ofInt 32 v, BitVec.ofInt 32 (v / 2 ^ 32)]

/-- The value of two words of a wide pair. -/
def wideAt (ws : List Word) (i : Nat) : Int := (frameWord ws (2 * i + 1)).toInt * 2 ^ 32 + (frameWord ws (2 * i)).toNat

/-- The motor item of a channel: current references, observer and loops, then angle, commanded angle, and state with offset. -/
def Lane.motorItem (l : Lane) (ch : Nat) : List Word :=
  let m := l.mc ch
  ([m.idRef, m.iqRef, m.wE, m.psiAl, m.psiBe, m.wInt, m.xD, m.xQ, m.idFw, m.steer.wRef, m.steer.aRef, m.steer.xW,
    m.steer.wTgt].flatMap wordPair) ++
    [l.rd (R.MC_ANGLE ch), m.steer.thCmd, BitVec.ofNat 32 (l.get (R.MC_CFG_set_offset ch) * 256 + l.mcState ch)]

/-- The stepper item of a channel (R320): position, target, profile with the time to its next step as its stride counts it and where
its homing began, then its states and currents. -/
def Lane.stepperItem (c : Ctx) (l : Lane) (n : Nat) : List Word :=
  let x := l.stepper n
  let left : Int := match x.stepAt with
    | some t => t - c.now
    | none => 0
  ([((l.pair (R.SPn_POS n)).toNat : Int), (l.pair (R.SPn_TARGET n)).toNat, x.v, x.a, x.dlt, x.vNext, x.stride,
    (c.now - x.lastStep : Nat), left, x.homeFrom].flatMap widePair) ++
    [BitVec.ofNat 32 (cond x.stalled 1 0 * 2 ^ 10 + cond x.braking 1 0 * 2 ^ 9 + cond x.stepAt.isSome 1 0 * 2 ^ 8 + l.get (R.SPn_STATUS_dir n) * 2 ^ 5 +
      l.get (R.SPn_STATUS_homing_required n) * 2 ^ 4 + l.homeState n),
     BitVec.ofNat 32 (l.get (R.SPn_CUR_i_run n))]

/-- The words of one item. -/
def Lane.mirrorItem (c : Ctx) (l : Lane) : MirrorItem → List Word
  | .demand w => [frameWord l.demand w]
  | .motor ch => l.motorItem ch
  | .solenoid n => wordPair ((tabGet l.bk.iLeg n).getD 0)
  | .stepper n => l.stepperItem c n
  | .outputs => [BitVec.ofNat 32 (l.get R.SI_DO_SET_out * 256 + l.get R.SI_DO_STATE_cmd)]
  | .legState leg slot => match l.legDesc leg with
    | some d => if d.mirrored then wordPair (qv (l.slot (d.stateAt + 8 * slot))) else [0, 0]
    | none => [0, 0]
  | .brakeLoop i => wordPair (if i = 0 then l.bk.loop0.x else l.bk.loop1.x)

/-- How many words an item takes. -/
def itemWords : MirrorItem → Nat
  | .demand _ => 1
  | .motor _ => 29
  | .solenoid _ => 2
  | .stepper _ => 22
  | .outputs => 1
  | .legState _ _ => 2
  | .brakeLoop _ => 2

/-- The mirror of this heat: the demand's age and the stamp of its values, then the items in the image's order. -/
def Lane.mirrorWords (c : Ctx) (l : Lane) : List Word :=
  l.rd R.BK_DEM_AGE :: l.stamp :: l.image.mirror.flatMap (Lane.mirrorItem c l)

/-- Words cut into segments of 32, the last one filled with zeros. -/
def segmentsOf : Nat → List Word → List (List Word)
  | 0, _ => []
  | n + 1, ws => ((ws ++ List.replicate 32 0).take 32) :: segmentsOf n (ws.drop 32)

/-- The lane drives alone or is on its way out of a pass: it is the one that sends the mirror. -/
def Lane.sendsMirror (c : Ctx) (l : Lane) : Bool :=
  l.active && l.ea.started && match l.baton.pass with
    | some p => decide (p.incoming ≠ c.id)
    | none => true

/-- When the commit window of a hurdle ends (R138). -/
def Lane.windowEnd (l : Lane) (h : Nat) : Nat := l.hurdleAt h + if h = 0 then 200 else 2000

/-- The commit window of the last hurdle that has legs is over (R151): no leg waits for its hurdle or for the early commit, no word for
the end of its window, and in RUN, where the library's legs run for hurdle 0, that window has ended. -/
def Lane.commitsOver (c : Ctx) (l : Lane) : Bool :=
  decide (l.ea.staged = []) && l.ea.legs.all (fun p => !p.2.due) && decide (l.bk.waiting = []) &&
    decide (l.pwState ≠ 0 ∨ l.windowEnd 0 ≤ c.now) &&
    l.image.legs.all (fun p => decide (l.windowEnd p.2.hurdle ≤ c.now))

/-- MIRROR_SEND (R41, R56, R151): one MIRROR frame for each segment to every fit standby, once this heat's values are
committed. -/
def mirrorSendL (c : Ctx) (l : Lane) : Lane :=
  if !l.sendsMirror c || !l.commitsOver c then l
  else
    let ws := l.mirrorWords c
    let n := (ws.length + 31) / 32
    let segs := segmentsOf n ws
    let to_ := (othersOf c).filter l.knowsFit
    let head := fun (i : Nat) => BitVec.ofNat 32 (l.heat16.toNat * 65536 + i % 256 * 256 + n % 256)
    let l1 := (List.range n).foldl (fun (y : Lane) i => y.queueAll c ⟨3, head i :: (segs[i]?).getD []⟩ to_) l
    l1.put R.LM_STATUS_mirror_ok 1

/-- MIRROR_SEND. -/
def execMirrorSend (ln : LaneId) (s : State) : Answer := onAlive ln (fun c l => mirrorSendL c l) s

/-! ### Receiving -/

/-- The mirror of a heat stays incomplete (R41). -/
def Lane.mirrorLost (l : Lane) : Lane := (l.put R.LM_STATUS_mirror_ok 0).flag R.LM_FLAGS_mirror_incomplete

/-- A MIRROR frame (R38, R41): kept by segment; the mirror is complete when every segment is there without a discard. -/
def Lane.takeMirror (l : Lane) (x : LaneId) (ws : List Word) : Lane :=
  if !l.standby then l
  else
    let w0 := (frameWord ws 0).toNat
    let h := BitVec.ofNat 16 (w0 / 65536)
    let seg := w0 / 256 % 256
    let n := w0 % 256
    let p := l.peer x
    let (l0, rx) : Lane × MirrorRx := match p.mirrorRx with
      | some r => if r.heat = h then (l, r) else (if r.broken then l else l.mirrorLost, ⟨h, n, [], false⟩)
      | none => (l, ⟨h, n, [], false⟩)
    let r := { rx with segs := tabPut rx.segs seg (ws.drop 1) }
    if r.broken = false ∧ r.segs.length = n then
      (l0.setPeer x { l0.peer x with mirrorRx := none, mirrorReady := some r }).put R.LM_STATUS_mirror_ok 1
    else l0.setPeer x { l0.peer x with mirrorRx := some r }

/-- A frame discarded while a mirror comes in breaks that mirror (R41). -/
def Lane.breakMirror (l : Lane) (x : LaneId) : Lane :=
  match (l.peer x).mirrorRx with
  | some r =>
    if r.broken then l
    else (l.setPeer x { l.peer x with mirrorRx := some { r with broken := true } }).mirrorLost
  | none => l

/-! ### Adopting -/

/-- A word of a list set, the list lengthened with zeros where it is too short. -/
def setWordAt (ws : List Word) (i : Nat) (w : Word) : List Word :=
  (List.range (max ws.length (i + 1))).map (fun k => if k = i then w else (ws[k]?).getD 0)

/-- A motor item adopted (R57, R210, R215, R217, R229): the mirrored references and integrators, the steering leg's state, the
driving lane's channel state, and the seed of an unlocked channel. -/
def Lane.adoptMotor (c : Ctx) (l : Lane) (ch : Nat) (ws : List Word) (ahead : Nat) : Lane :=
  let m := l.mc ch
  let q := pairAt ws
  let st := (frameWord ws 28).toNat % 256
  let steer : SteerLoop := { m.steer with wRef := q 9, aRef := q 10, xW := q 11, wTgt := q 12, thCmd := frameWord ws 27 }
  let held := decide (l.get (R.MC_SHARE_share ch) = 0)
  let l1 := l.setMc ch { m with
    mirId := q 0, mirIq := q 1, mirXd := q 6, mirXq := q 7, mirFw := q 8, steer := steer,
    xD := if held then q 6 else m.xD, xQ := if held then q 7 else m.xQ, idFw := if held then q 8 else m.idFw }
  let l2 := { l1 with baton := { l1.baton with mirMotor := tabPut l1.baton.mirMotor ch st } }
  l2.seedMirror c ch (frameWord ws 26) ((frameWord ws 28).toNat / 256 % 256) (q 2) ahead

/-- A stepper item adopted (R317, R320). -/
def Lane.adoptStepper (c : Ctx) (l : Lane) (n : Nat) (ws : List Word) (ahead : Nat) : Lane :=
  let q := wideAt ws
  let f := (frameWord ws 20).toNat
  let x := l.stepper n
  let need := f / 2 ^ 4 % 2
  let rises := decide (need = 1) && !l.bit (R.SPn_STATUS_homing_required n)
  let l1 := l.setStepper n { x with
    v := (q 2).toNat, a := q 3, dlt := (q 4).toNat, vNext := (q 5).toNat, stride := (q 6).toNat,
    lastStep := c.now - ahead - (q 7).toNat,
    stepAt := if f / 2 ^ 8 % 2 = 1 then some ((c.now : Int) + q 8 - ahead).toNat else none,
    homeFrom := (q 9).toNat, braking := decide (f / 2 ^ 9 % 2 = 1), stalled := decide (f / 2 ^ 10 % 2 = 1) }
  let l2 := (l1.putU (R.SPn_POS n) (qw (q 0)).toNat).putU (R.SPn_TARGET n) (qw (q 1)).toNat
  let l3 := ((l2.put (R.SPn_STATUS_dir n) (f / 2 ^ 5 % 2)).put (R.SPn_STATUS_homing_required n) need).put
    (R.SPn_HOME_STAT_state n) (f % 8)
  (l3.put (R.SPn_CUR_i_run n) (frameWord ws 21).toNat).flagIf rises (R.SPn_FLAGS_homing_required n)

/-- One item adopted. -/
def Lane.adoptItem (c : Ctx) (l : Lane) (i : MirrorItem) (ws : List Word) (ahead : Nat) : Lane :=
  match i with
  | .demand w => { l with baton := { l.baton with mirDemand := setWordAt l.baton.mirDemand w (frameWord ws 0) } }
  | .motor ch => l.adoptMotor c ch ws ahead
  | .solenoid n => { l with bk := { l.bk with iLeg := tabPut l.bk.iLeg n (pairAt ws 0) } }.showCoil n
  | .stepper n => l.adoptStepper c n ws ahead
  | .outputs =>
    (l.put R.SI_DO_STATE_cmd ((frameWord ws 0).toNat % 256)).put R.SI_DO_SET_out ((frameWord ws 0).toNat / 256 % 256)
  | .legState leg slot => match l.legDesc leg with
    | some d =>
      let v := qw (pairAt ws 0)
      if d.mirrored then (l.setSlot (d.stateAt + 8 * slot) v).setSlot (blockState ((l.leg leg).home / 4) d + 8 * slot) v else l
    | none => l
  | .brakeLoop k =>
    if k = 0 then { l with bk := { l.bk with loop0 := { l.bk.loop0 with x := pairAt ws 0 } } }
    else { l with bk := { l.bk with loop1 := { l.bk.loop1 with x := pairAt ws 0 } } }

/-- The items adopted from the words of a complete mirror, in the image's order. -/
def Lane.adoptItems (c : Ctx) (l : Lane) (ahead : Nat) : List MirrorItem → List Word → Lane
  | [], _ => l
  | i :: t, ws => (l.adoptItem c i (ws.take (itemWords i)) ahead).adoptItems c ahead t (ws.drop (itemWords i))

/-- A complete mirror adopted (R57). -/
def Lane.adopt (c : Ctx) (l : Lane) (x : LaneId) (r : MirrorRx) : Lane :=
  let ws := r.segs.flatMap (fun e => e.2)
  let ahead := (sdiff l.stamp (frameWord ws 1)).toNat
  let l1 := l.setPeer x { l.peer x with mirrorReady := none }
  l1.adoptItems c ahead l1.image.mirror (ws.drop 2)

/-- The mirror of an earlier heat that never came whole (R41). -/
def Lane.mirrorStale (l : Lane) (x : LaneId) : Bool :=
  match (l.peer x).mirrorRx with
  | some r => decide (r.heat ≠ l.heat16 - 1)
  | none => match l.st.awardAt with
    | some t => decide (t + 2 * l.heatLen ≤ l.ea.heatAt)
    | none => false

/-- The mirror at a heat boundary (R57): a standby adopts a complete one of the lane that holds the baton. -/
def Lane.mirrorHeat (c : Ctx) (l : Lane) : Lane :=
  match l.batonLane with
  | some x =>
    if l.standby = false ∨ x = c.id then l
    else match (l.peer x).mirrorReady with
      | some r => l.adopt c x r
      | none =>
        if l.mirrorStale x then (l.setPeer x { l.peer x with mirrorRx := none }).mirrorLost else l
  | none => l

end Sys2Proof.Machine
end

