-- ==== Sys2Proof/Machine/Links.lean ====
section
/-! DEFINITION. The cross-lane links (R34 to R43, R91): heartbeats, frames sent and received, links down and whom they are
charged to; and the loss of a Nolxis port (R394). -/

namespace Sys2Proof.Machine

/-! ### Heartbeats (R39, R40) -/

/-- Every gate supply of the lane reads within its limits (R261). -/
def Lane.gatesOk (c : Ctx) (l : Lane) : Bool :=
  (List.range (motorCount c.part.member)).all (fun ch =>
    decide (10500 ≤ l.get (R.PS_VG_mv ch)) && decide (l.get (R.PS_VG_mv ch) ≤ 13500))

/-- LM_STATUS (R92) with its copies of other registers' bits as they stand. -/
def Lane.lmStatus (c : Ctx) (l : Lane) : Word :=
  let b := fun (w : Word) (f g : Fld) => fldPut f w (l.get g)
  let w1 := b (l.rd R.LM_STATUS) R.LM_STATUS_in_zone R.LM_ROLE_in_zone
  let w2 := b (b w1 R.LM_STATUS_pinned R.LM_ROLE_pinned) R.LM_STATUS_disputed R.LM_ROLE_disputed
  let w3 := b (b w2 R.LM_STATUS_nx_x_ok R.NX_STATUS_port_x_ok) R.LM_STATUS_nx_y_ok R.NX_STATUS_port_y_ok
  let w4 := b w3 R.LM_STATUS_parked R.FC_MODE_parked
  fldPut R.LM_STATUS_gate_supply_ok w4 (cond (l.gatesOk c) 1 0)

/-- The lanes from which this lane holds a valid heartbeat. -/
def Lane.heardMask (c : Ctx) (l : Lane) : Nat :=
  lanesMask ((othersOf c).filter (fun x => (l.peer x).hb.isSome && decide ((l.peer x).silentAt = none ∧ (l.peer x).downAt = none)))

/-- The heartbeat payload at its start delimiter (R39). -/
def Lane.heartbeat (c : Ctx) (l : Lane) : List Word :=
  let w0 := l.role * 2 ^ 30 + l.heardMask c * 2 ^ 27 + l.get R.LM_VOTE_votes_out * 2 ^ 24 +
    l.get R.FC_STATUS_fit_engines % 256 * 2 ^ 16 + l.heat16.toNat
  [BitVec.ofNat 32 w0, l.stamp, l.rd R.CF_ID0,
   BitVec.ofNat 32 ((l.lmStatus c).toNat % 65536 * 65536 + l.get R.HA_LIFE_life_h % 65536)]

/-- HEARTBEAT_SEND (R38, R39): every 5 µs on each link, by every powered lane, with role starting from its boot ROM on; its
payload is formed as it starts. -/
def heartbeatSendL (c : Ctx) (l : Lane) : Lane := l.queueAll c ⟨1, []⟩ (othersOf c)

/-- HEARTBEAT_SEND. -/
def execHeartbeatSend (ln : LaneId) (s : State) : Answer := onAlive ln (fun c l => heartbeatSendL c l) s

/-! ### Sending frames (R35, R36, R38) -/

/-- The frame of highest priority in a queue, the oldest among equals, with the rest. -/
def nextFrame (q : List OutFrame) : Option (OutFrame × List OutFrame) :=
  match [1#4, 2#4, 3#4, 4#4, 5#4].find? (fun t => q.any (fun f => decide (f.ftype = t))) with
  | some t =>
    let i := q.findIdx (fun f => decide (f.ftype = t))
    match q[i]? with
    | some f => some (f, q.eraseIdx i)
    | none => none
  | none => none

/-- The header word of a frame (R36). -/
def linkHeader (f : LinkFrame) : Word :=
  BitVec.ofNat 32 (f.ftype.toNat * 2 ^ 28 + f.sender.toNat * 2 ^ 26 + f.reserved.toNat * 2 ^ 24 + f.len.toNat * 2 ^ 16 + f.seq.toNat)

/-- The check of a frame (R35). -/
def linkCheck (f : LinkFrame) : Word := crc32cWords (linkHeader f :: f.payload)

/-- A frame with a sequence number, its check formed. -/
def buildFrame (c : Ctx) (ftype : BitVec 4) (seq : BitVec 16) (payload : List Word) : LinkFrame :=
  let f : LinkFrame := ⟨ftype, BitVec.ofNat 2 (laneCode c.id), 0, BitVec.ofNat 8 payload.length, seq, payload, 0⟩
  { f with check := linkCheck f }

/-- LINK_FRAME_SEND (R38): the queued frame of highest priority starts; a lane that lost its supply sends within its
hold-up (R544, R563). -/
def linkFrameSendL (c : Ctx) (x : LaneId) (l : Lane) : Lane :=
  let p := l.peer x
  let held := match l.pw.leavingAt with
    | some t => decide (l.phase = .off ∧ c.now ≤ t + 20000)
    | none => false
  if !(l.alive || held) || !Lane.isPeer c x || p.downAt.isSome then l
  else match nextFrame p.txq with
    | some (f, rest) =>
      let ws := if f.ftype = 1 then l.heartbeat c else f.payload
      l.setPeer x { p with txq := rest, txSeq := p.txSeq + 1, txNow := some (buildFrame c f.ftype p.txSeq ws) }
    | none => l

/-- LINK_FRAME_SEND. -/
def execLinkFrameSend (ln : LaneId) (dest : LaneId) (s : State) : Answer := onLane ln (fun c l => linkFrameSendL c dest l) s

/-! ### Links down (R42, R43) -/

/-- A link goes down in this lane: recorded, and nothing more is sent or taken on it. -/
def Lane.linkLost (c : Ctx) (l : Lane) (x : LaneId) : Lane :=
  let p := l.peer x
  if p.downAt.isSome then l
  else
    let l1 := l.setPeer x { p with downAt := some c.now, judged := false, txq := [], txNow := none, mirrorRx := none,
                                   farUnfitAtDown := !l.knowsFit x || p.leaving.isSome }
    (l1.setLinkUp c x false).flag R.LM_FLAGS_link_down

/-- Two instants at most 20 µs apart, the second one possibly absent. -/
def within20 (a : Nat) : Option Nat → Bool
  | some b => decide (a ≤ b + 20000 ∧ b ≤ a + 20000)
  | none => false

/-- The far lane's own unfitness accounts for the silence (R42). -/
def Peer.accounted (p : Peer) (downAt : Nat) : Bool :=
  p.farUnfitAtDown || within20 downAt (p.leaving.map (fun r => r.atNs)) || within20 downAt p.decisionAt

/-- The lane that a link fault is charged to (R42): the one that is not active, or of two standbys the later in the order. -/
def Lane.chargedLane (c : Ctx) (l : Lane) (x : LaneId) : LaneId :=
  if l.active then x
  else if l.batonLane = some x then c.id
  else if laneCode x < laneCode c.id then c.id else x

/-- LINK_FAULT_CHARGE (R42): 20 µs after the link was found down. -/
def linkFaultChargeL (c : Ctx) (x : LaneId) (l : Lane) : Lane :=
  let p := l.peer x
  match p.downAt with
  | some t =>
    if c.now < t + 20000 ∨ p.judged = true ∨ Lane.isPeer c x = false then l
    else
      let l1 := l.setPeer x { p with judged := true }
      if p.accounted t then l1
      else if l1.chargedLane c x = c.id then
        (if onLink0 c x then l1.put R.LM_LINK_STAT_link0_charged 1 else l1.put R.LM_LINK_STAT_link1_charged 1).logicFault c 0xC
      else (l1.countOther c x 1 0xC).learnUnfit c x
  | none => l

/-- LINK_FAULT_CHARGE. -/
def execLinkFaultCharge (ln : LaneId) (peer : LaneId) (s : State) : Answer :=
  onAlive ln (fun c l => linkFaultChargeL c peer l) s

/-- This lane finds lane `x` silent, or on the TS-8630 has lost its link to it (R40). -/
def Lane.silentHere (c : Ctx) (l : Lane) (x : LaneId) : Bool :=
  (l.peer x).silentAt.isSome || (isTriple c.part.member && (l.peer x).downAt.isSome)

/-- A lane is silent to the module (R40): beside this lane, every other one finds it silent or has lost its link to it, by its own
last heartbeat. A lane that this lane cannot hear itself reports nothing. -/
def Lane.moduleSilent (c : Ctx) (l : Lane) (x : LaneId) : Bool :=
  ((othersOf c).filter (fun y => decide (y ≠ x))).all (fun y =>
    l.silentHere c y || match (l.peer y).hb with
      | some ws => !Nat.testBit ((frameWord ws 0).toNat / 2 ^ 27 % 8) (laneBit x)
      | none => true)

/-- A lane that this lane finds silent, with its takeover line deasserted, is unfit once it is silent to the module (R40). -/
def Lane.judgeSilent (c : Ctx) (l : Lane) (x : LaneId) : Lane :=
  if l.silentHere c x && !(l.peer x).line && l.knowsFit x && l.moduleSilent c x then (l.awaitCause c x).learnUnfit c x else l

/-- A link found down (R42), whose far lane may now be silent to the module (R40). -/
def Lane.linkDown (c : Ctx) (l : Lane) (x : LaneId) : Lane := (l.linkLost c x).judgeSilent c x

/-- LINK_DOWN. -/
def execLinkDown (ln : LaneId) (peer : LaneId) (s : State) : Answer :=
  onAlive ln (fun c l => if Lane.isPeer c peer then l.linkDown c peer else l) s

/-- A lane has become silent on this link (R40, R43, R73): an active one whose line is still asserted is unreachable and its
link counts as down; with its line deasserted a silent lane is unfit. -/
def Lane.nowSilent (c : Ctx) (l : Lane) (x : LaneId) : Lane :=
  let line := (l.peer x).line
  if decide (l.batonLane = some x) && line && l.standby then (l.flag R.LM_FLAGS_unreachable).linkLost c x
  else if line then l
  else if decide (l.batonLane = some x) && l.standby && !l.zoneNow c && decide (l.pwState < 4) && decide (l.baton.decision = none) &&
      decide (l.baton.window = none) then l.startDecision c x
  else (l.successorGone c x).judgeSilent c x

/-- HEARTBEAT_MISSED (R40): one after 8 µs, and silence after 13 µs. -/
def heartbeatMissedL (c : Ctx) (x : LaneId) (l : Lane) : Lane :=
  let p := l.peer x
  if !Lane.isPeer c x || decide (p.hb = none) || decide (c.now < p.hbAt + 8000) then l
  else if c.now < p.hbAt + 13000 then l.setPeer x { p with missed := 1 }
  else if p.silentAt.isSome then l
  else (l.setPeer x { p with missed := 2, silentAt := some c.now }).nowSilent c x

/-- HEARTBEAT_MISSED. -/
def execHeartbeatMissed (ln : LaneId) (sender : LaneId) (s : State) : Answer := onAlive ln (fun c l => heartbeatMissedL c sender l) s

/-! ### Receiving frames (R37, R91) -/

/-- FC_FAULT0 or FC_FAULT1 names a lane in this power cycle (R467). -/
def Lane.countedAgainst (l : Lane) (x : LaneId) : Bool :=
  (l.bit R.FC_FAULT0_valid && decide (l.get R.FC_FAULT0_lane = laneCode x)) ||
    (l.bit R.FC_FAULT1_valid && decide (l.get R.FC_FAULT1_lane = laneCode x))

/-- A lane whose scheduler runs within the first cycle of this lane's is a joint lane (R527). -/
def Lane.noteJoint (c : Ctx) (l : Lane) (x : LaneId) : Lane :=
  match l.st.schedAt with
  | some t =>
    if !l.st.late && !l.st.joint.contains x && decide (c.now < t + l.cycleLen) then
      { l with st := { l.st with joint := l.st.joint ++ [x] } }
    else l
  | none => l

/-- CF_AGREE.lanes follows the image that another lane's heartbeat says it runs (R39, R494). -/
def Lane.noteImage (l : Lane) (x : LaneId) (runs : Bool) (id : Word) : Lane :=
  if l.bit R.CF_STATUS_agreed && runs then
    l.put R.CF_AGREE_lanes (maskSet (l.get R.CF_AGREE_lanes) x (decide (id = l.rd R.CF_ID0)))
  else l

/-- A valid heartbeat (R40, R42, R467): the watchdog restarts; role, life and the lane that holds the baton are noted. -/
def Lane.noteHeartbeat (c : Ctx) (l : Lane) (x : LaneId) (ws : List Word) : Lane :=
  let role := (frameWord ws 0).toNat / 2 ^ 30
  let life := (frameWord ws 3).setWidth 16
  let p := l.peer x
  let runs := decide (role = roleActive ∨ role = roleStandby)
  let l1 := (l.setPeer x { p with
    ran := if runs then some (c.now, ws) else p.ran,
    moved := if runs && !(frameWord ws 3).getLsbD 28 then some c.now else p.moved,
    hb := some ws, hbAt := c.now, missed := 0, silentAt := none, life := some life,
    voteShown := p.voteShown || (p.voteAt.isSome && decide (role = roleUnfit)),
    leaving := if role = roleStarting then none else p.leaving }).setLifeOf x life.toNat
  let l1 := l1.noteImage x runs (frameWord ws 2)
  let l2 := { l1 with st := { l1.st with heard := if l1.st.heard.contains x then l1.st.heard else l1.st.heard ++ [x] } }
  if role = roleUnfit then (if l2.knowsFit x then (l2.awaitCause c x).learnUnfit c x else l2)
  else if role = roleStarting then (if l2.knowsFit x then (l2.awaitCause c x).learnUnfit c x else l2)
  else
    let l3 := (if l2.countedAgainst x then l2 else l2.setFit x true).noteJoint c x
    if role = roleActive ∧ l3.batonLane = none ∧ l3.baton.decision = none ∧ l3.standby = true then
      l3.put R.LM_ROLE_baton_lane (laneCode x)
    else l3

/-- What a heartbeat tells of the other lanes is judged with it: whether a lane silent here is now silent to the module (R40),
and whether a channel lost here is now lost at every fit lane (R116). -/
def Lane.takeHeartbeat (c : Ctx) (l : Lane) (x : LaneId) (ws : List Word) : Lane :=
  let l1 := l.noteHeartbeat c x ws
  (((othersOf c).filter (fun y => decide (y ≠ x))).foldl (fun y z => y.judgeSilent c z) l1).judgePorts c

/-- A ROLE message carried out (R91); none where its code is not one of the table. -/
def Lane.takeRole (c : Ctx) (l : Lane) (x : LaneId) (ws : List Word) : Option Lane :=
  let w0 := (frameWord ws 0).toNat
  let a := fun (i : Nat) => frameWord ws i
  let lane := fun (i : Nat) (f : LaneId → Lane) => match laneOf (a i).toNat with
    | some y => some (f y)
    | none => some l
  match w0 / 2 ^ 24 with
  | 0x01 => lane 1 (fun y => claimL c x y l)
  | 0x02 => lane 1 (fun y => claimAckL c x y l)
  | 0x03 => some (passOfferL c x ((a 1).setWidth 16) ((a 2).setWidth 4) ((a 3).getLsbD 0) l)
  | 0x04 => some (passAcceptL c x ((a 1).setWidth 16) l)
  | 0x05 => some (passRefuseL c x l)
  | 0x06 => lane 1 (fun y => passDoneL c x y ((a 2).setWidth 4) (a 3) l)
  | 0x07 => some (passAbortL c x ((a 1).setWidth 2) l)
  | 0x08 => lane 1 (fun y => pinMessageL c x y ((a 2).setWidth 11) l)
  | 0x09 => some (disagreeL c x ((a 1).setWidth 3) ((a 2).setWidth 16) ((a 3).setWidth 2) l)
  | 0x0A => some (disputedL c x ((a 1).setWidth 16) l)
  | 0x0B => lane 1 (fun y => voteL c x y (Fin.ofNat 5 (a 2).toNat) l)
  | 0x0C => some (weightsL c x (a 1) (a 2) (a 3) l)
  | 0x0D => some (leavingL c x ((a 1).setWidth 4) ((a 2).setWidth 4) l)
  | 0x0E => lane 1 (fun y => passConfirmL c x y (a 2) l)
  | _ => none

/-- A ROLE frame of a code that is none of the table's (R91). -/
def unknownRole (f : LinkFrame) : Bool :=
  let code := (frameWord f.payload 0).toNat / 2 ^ 24
  decide (f.ftype = 2) && decide (code = 0 ∨ 0x0E < code)

/-- The receiver's reasons to discard a frame (R37, R91). -/
def discards (x : LaneId) (f : LinkFrame) : Bool :=
  decide (f.check ≠ linkCheck f) || decide (33 < f.len.toNat) || decide (f.len.toNat ≠ f.payload.length) ||
    decide (f.sender.toNat ≠ laneCode x) || decide (f.ftype.toNat = 0 ∨ 5 < f.ftype.toNat) || unknownRole f

/-- A discarded frame (R37, R41, R42): counted; the fourth in a row takes the link down. -/
def Lane.discardFrame (c : Ctx) (l : Lane) (x : LaneId) : Lane :=
  let p := l.peer x
  let n := p.badRun + 1
  let l1 := ((l.setPeer x { p with badRun := n }).inc
    (if onLink0 c x then R.LM_LINK0_ERR_count else R.LM_LINK1_ERR_count)).breakMirror x
  if 4 ≤ n then l1.linkDown c x else l1

/-- A frame's content by its type (R38); a ROLE frame for another lane is left alone. -/
def Lane.takeFrame (c : Ctx) (l : Lane) (x : LaneId) (f : LinkFrame) : Lane :=
  let ws := f.payload
  let w0 := frameWord ws 0
  match f.ftype.toNat with
  | 1 => l.takeHeartbeat c x ws
  | 2 =>
    let dest := w0.toNat / 2 ^ 16 % 256
    (match l.takeRole c x ws with
    | some y => if dest = 0xFF ∨ dest = laneCode c.id then y else l
    | none => l)
  | 3 => l.takeMirror x ws
  | 4 => l.takePlaus c x (w0.setWidth 16) (ws.drop 1)
  | _ => imageFrameReceiveL c x (frameWord ws 1 ++ frameWord ws 0) ((frameWord ws 2).getLsbD 0) l

/-- LINK_FRAME_RECEIVE (R37, R38, R42): discarded, or counted for gaps and taken. A link that went down stays out of use: R42 says
so of one that is not charged, and DESIGN CHOICE (log 24) of a charged one, which it lets recover without saying that it is used again.
DESIGN CHOICE (log 24): the sequence number last seen is that of the last accepted frame, so that a discarded frame is also a
gap at the next accepted one. -/
def linkFrameReceiveL (c : Ctx) (x : LaneId) (f : LinkFrame) (l : Lane) : Lane :=
  let p := l.peer x
  if !Lane.isPeer c x || p.downAt.isSome then l
  else if discards x f then l.discardFrame c x
  else
    let gap := match p.rxSeq with
      | some q => decide (f.seq ≠ q + 1)
      | none => false
    let l1 := (l.setPeer x { p with badRun := 0, rxSeq := some f.seq }).setLinkUp c x true
    let l2 := if gap then l1.inc (if onLink0 c x then R.LM_LINK0_LOST_count else R.LM_LINK1_LOST_count) else l1
    l2.takeFrame c x f

/-- LINK_FRAME_RECEIVE. -/
def execLinkFrameReceive (ln : LaneId) (src : LaneId) (f : LinkFrame) (s : State) : Answer :=
  sharingSensors ln s (onAlive ln (fun c l => linkFrameReceiveL c src f l) s)

/-! ### Ports of the lane (R394) -/

/-- A port lost in a lane (R116, R394): the channel is counted once no other fit lane has it, and the active lane asks for a
pass with cause 0x4 where a fit standby has both. The channel of an embedded marshal without supply is lost by class 0x8
(R50; DESIGN CHOICE, log 79: a failed marshal is one without supply at that instant). -/
def Lane.losePort (c : Ctx) (l : Lane) (ch : Chan) (marshalGone : Bool) : Lane :=
  let (f, own) := portOf ch
  let byMarshal := marshalGone && decide (l.image.marshalOn = ch)
  let k := match ch with
    | .x => 0
    | .y => 1
  let lost := match ch with
    | .x => l.nx.lostX
    | .y => l.nx.lostY
  if lost then l
  else
    let n := match ch with
      | .x => { l.nx with lostX := true }
      | .y => { l.nx with lostY := true }
    let l0 := ({ l with nx := n }.put f 0).flag R.NX_FLAGS_port_lost
    let l2 := ({ l0 with fc := { l0.fc with gone := tabPut l0.fc.gone k (if byMarshal then 8 else own) } }).judgePort c ch
    if (othersOf c).any (fun x => l2.portElsewhere c .x x && l2.portElsewhere c .y x) then l2.requestPass 4 none else l2

/-- The loss of a port on a channel is judged from the award on, and where the marshal has loaded tables since its start from 4
cycles after it reports SYNCED (R526). -/
def State.portJudged (s : State) (ln : LaneId) (ch : Chan) : Bool :=
  (s.lane ln).st.awardAt.isSome && match s.marshal.tables with
    | some t =>
      !(s.part.marshal && s.marshal.loaded && decide (t.channel = ch)) || (match s.marshal.syncedAt with
        | some x => decide (x + 4 * t.cycleLen.toNat ≤ s.now)
        | none => false)
    | none => true

/-- No valid frame has come on a channel for 2 cycles (R394): by the cycles of a node that counts them, else by their length. -/
def Lane.portSilent (c : Ctx) (l : Lane) (ch : Chan) : Bool :=
  let (k, t) := match ch with
    | .x => (l.nx.silentX, l.nx.validX)
    | .y => (l.nx.silentY, l.nx.validY)
  decide (2 ≤ k) || (!l.cycleRuns && decide (l.nxState ≠ nxOff) && decide (t + 2 * (l.rd R.NX_CYCLE_LEN).toNat ≤ c.now))

/-- PORT_LOST (R394). -/
def execPortLost (ln : LaneId) (ch : Chan) (s : State) : Answer :=
  let s := if s.part.marshal && s.marshal.powered then s.settleMarshal else s
  let l := s.lane ln
  let silent := l.portSilent (s.ctx ln) ch
  if s.portJudged ln ch && (silent || s.branchOut ln ch) then onAlive ln (fun c l => l.losePort c ch (s.part.marshal && !s.marshal.powered)) s else .next s

end Sys2Proof.Machine
end

