-- ==== Sys2Proof/Machine/View.lean ====
section
/-! DEFINITION. What a read of a register returns (R16): the register as it stands, with the fields that show what the lane
holds elsewhere: event counters (R114), counts, copies, times left and selected records. -/

namespace Sys2Proof.Machine

/-- A mask of the indices below n that satisfy a condition. -/
def maskOf (n : Nat) (f : Nat → Bool) : Nat := ((List.range n).map (fun i => if f i then 2 ^ i else 0)).sum

/-- A word with several fields filled. -/
def withFields (w : Word) (fs : List (Fld × Nat)) : Word := fs.foldl (fun a p => fldPut p.1 a p.2) w

/-- Whole seconds left until an instant, rounded up. -/
def secsLeft (now t : Nat) : Nat := (t - now + 999999999) / 1000000000

/-! ### Event counters (R114) -/

/-- The count that a unit's EVT_CNT register shows: of the flag register 12 bytes below it, by the index register between
them. -/
def Lane.evtView (l : Lane) (cnt : Nat) : Option Word :=
  if cnt = R.SP_EVT_CNT then
    let i := l.get R.SP_EVT_SEL_index
    some (BitVec.ofNat 32 (l.evtCount ⟨R.SPn_FLAGS (l.get R.SP_EVT_SEL_channel), i, i⟩))
  else if flagRegs.contains (cnt - 12) && decide (irqLine cnt ≠ 8) then
    let i := (l.rd (cnt - 4)).toNat % 16
    some (BitVec.ofNat 32 (l.evtCount ⟨cnt - 12, i, i⟩))
  else none

/-! ### Lane manager, containment and scheduler -/

/-- Registers of the lane manager (R92) that show what the lane holds elsewhere. -/
def Lane.viewLm (c : Ctx) (l : Lane) (a : Nat) : Option Word :=
  if a = R.LM_STATUS then some (l.lmStatus c)
  else if a = R.LM_ROT_NEXT then
    match l.baton.dwellEnds with
    | some t => if l.bit R.LM_ROLE_pinned || l.bit R.LM_ROLE_disputed then some 0xFFFFFFFF else some (BitVec.ofNat 32 (secsLeft c.now t))
    | none => some 0xFFFFFFFF
  else if a = R.LM_PIN_LEFT then
    match l.baton.pinEnds with
    | some t => some (BitVec.ofNat 32 (secsLeft c.now t))
    | none => some 0
  else none

/-- FC_CE_CNT (R107, R132). -/
def Lane.viewFc (l : Lane) (a : Nat) : Option Word :=
  if a = R.FC_CE_CNT then some (BitVec.ofNat 32 ((tabGet l.fc.ce (l.get R.FC_CE_SEL_memory)).getD 0)) else none

/-- The status of a leg of the library by its ID (R167, R198, R276, R282): run_ahead on the TS-8630, hurdle 0, and privileged but for a
brake leg; 0 for an ID that is none's. -/
def Lane.libStat (c : Ctx) (l : Lane) (id : Nat) : Word :=
  let r := l.leg id
  match (l.libLegs c 0).find? (fun k => decide (l.image.lib.legIds[k]? = some id)) with
  | some k => withFields 0 [(R.EA_LEG_STAT_privileged, cond (decide (k < 2)) 1 0), (R.EA_LEG_STAT_run_ahead, cond (isTriple c.part.member) 1 0),
      (R.EA_LEG_STAT_last_end, r.lastEnd), (R.EA_LEG_STAT_defined, 1)]
  | none => 0

/-- The status of a leg (R167), 0 where the image defines none. -/
def Lane.legStat (c : Ctx) (l : Lane) (k : Nat) : Word :=
  match l.legDesc k with
  | none => l.libStat c k
  | some d =>
    let r := l.leg k
    withFields 0 [(R.EA_LEG_STAT_misses, r.misses), (R.EA_LEG_STAT_consecutive, r.consecutive), (R.EA_LEG_STAT_privileged, cond d.privileged 1 0),
      (R.EA_LEG_STAT_run_ahead, cond d.runAhead 1 0), (R.EA_LEG_STAT_hurdle, d.hurdle), (R.EA_LEG_STAT_last_engine, r.lastEngine),
      (R.EA_LEG_STAT_last_end, r.lastEnd), (R.EA_LEG_STAT_defined, 1)]

/-- Entries in all deques. -/
def Lane.queued (l : Lane) : Nat := (l.ea.engines.map (fun x => x.deque.length)).sum

/-- Registers of the scheduler (R167). -/
def Lane.viewEa (c : Ctx) (l : Lane) (a : Nat) : Option Word :=
  if a = R.EA_STATUS then
    some (withFields (l.rd a) [(R.EA_STATUS_queued, min l.queued 255), (R.EA_STATUS_spawning, cond (decide (c.now < l.ea.spawnTil)) 1 0),
      (R.EA_STATUS_running, cond l.ea.started 1 0)])
  else if a = R.EA_AWAKE then
    some (BitVec.ofNat 32 (maskOf l.ea.engines.length (fun e => !(l.eng e).gated)))
  else if a = R.EA_LEG_STAT then some (l.legStat c (l.get R.EA_LEG_SEL_leg))
  else if a = R.EA_LEG_TIME then some (BitVec.ofNat 32 (l.leg (l.get R.EA_LEG_SEL_leg)).lastTime)
  else if a = R.EA_DEQUE then
    let x := l.eng (l.get R.EA_DEQUE_SEL_engine)
    some (withFields 0 [(R.EA_DEQUE_max_depth, x.maxDepth), (R.EA_DEQUE_depth, x.deque.length)])
  else none

/-! ### Actuators -/

/-- Registers of the solenoid drivers (R294). -/
def Lane.viewBk (l : Lane) (a : Nat) : Option Word :=
  if a = R.BK_PARK then some (fldPut R.BK_PARK_parked (l.rd a) (cond l.parked 1 0))
  else
    match (List.range 6).find? (fun n => decide (a = R.BKn_STATUS n)) with
    | some n => some (withFields (l.rd a) [(R.BKn_STATUS_holding n, cond (l.latchHold.getLsbD n) 1 0),
        (R.BKn_STATUS_driving n, cond (l.stageOn.getLsbD n) 1 0)])
    | none => none

/-- SPn_STATUS (R323). DESIGN CHOICE (log 79): right after a lane reset the reset column gives at_target 0 and R323's meaning of the
field 1 (pos and target are 0, and v is 0); the field reads by its meaning. -/
def Lane.spStatus (l : Lane) (n : Nat) : Word :=
  let x := l.stepper n
  withFields (l.rd (R.SPn_STATUS n)) [(R.SPn_STATUS_limit_active n, cond (x.onNeg || x.onPos) 1 0), (R.SPn_STATUS_homing n, cond (l.homing n) 1 0),
    (R.SPn_STATUS_holding n, cond (l.latchHold.getLsbD (8 + n)) 1 0), (R.SPn_STATUS_driving n, cond (l.stageOn.getLsbD (8 + n)) 1 0),
    (R.SPn_STATUS_at_target n, cond (decide (l.posError n = 0) && decide (x.v = 0)) 1 0), (R.SPn_STATUS_moving n, cond (decide (0 < x.v)) 1 0)]

/-- The part of its current that a stepper driver has in force around a sleep, in ns of 20 ms (R318): it falls from the point of no
return on, and rises from the wake on. -/
def Lane.sleepShare (c : Ctx) (l : Lane) : Nat :=
  match l.pw.ponrAt, l.pw.wokeAt with
  | some t, _ => 20000000 - (c.now - t)
  | none, some t => min (c.now - t) 20000000
  | none, none => 20000000

/-- The current in force in a stepper driver (R304), by the ramp share of a zone (R66) and the ramps of a sleep (R318); none while the
driver is off. -/
def Lane.spCurrent (c : Ctx) (l : Lane) (n : Nat) : Nat :=
  let i := if l.bit (R.SPn_STATUS_hold_current n) then l.get (R.SPn_I_LIMITS_i_hold n) else l.get (R.SPn_CUR_i_run n)
  if l.stageOn.getLsbD (8 + n) then (rnaDiv (i * l.rampShare * l.sleepShare c : Nat) 2000000000).toNat else 0

/-- The microstep phase of a channel (R297): its position modulo the 1024 counts of an electrical cycle. -/
def Lane.spPhase (l : Lane) (n : Nat) : Nat := (l.pair (R.SPn_POS n)).toNat % 1024

/-- The currents that a driving stepper regulates its phases A and B to, q40 A (R297): √2·i at the microstep phase, the turn
taken as crot computes it (R186); 0 while its stage is off. -/
def Lane.spPhases (c : Ctx) (l : Lane) (n : Nat) : Int × Int :=
  let i := mkRat (l.spCurrent c n) 1000
  if l.stageOn.getLsbD (8 + n) then crotRaw (sqrtDown (2 * i * i)) 0 (BitVec.ofNat 32 (l.spPhase n * 2 ^ 22)).toInt else (0, 0)

/-- Registers of the steppers (R323). DESIGN CHOICE (log 79): the reset column of SP_STATUS.homing_required is 0, while every channel's
own homing_required is 1 after a lane reset; the field reads as its meaning says. -/
def Lane.viewSp (c : Ctx) (l : Lane) (a : Nat) : Option Word :=
  if a = R.SP_STATUS then
    some (withFields 0 [(R.SP_STATUS_fault, maskOf 4 (fun n => l.bit (R.SPn_STATUS_fault n))), (R.SP_STATUS_homing_required, maskOf 4 (fun n => l.bit (R.SPn_STATUS_homing_required n))),
      (R.SP_STATUS_moving, maskOf 4 (fun n => decide (0 < (l.stepper n).v)))])
  else
    match (List.range 4).find? (fun n => decide (R.SPn_STATUS n ≤ a) && decide (a < R.SPn_STATUS n + 0x100)) with
    | none => none
    | some n =>
      if a = R.SPn_STATUS n then some (l.spStatus n)
      else if a = R.SPn_CMP_CFG n then some (fldPut (R.SPn_CMP_CFG_armed n) (l.rd a) (l.get (R.SPn_STATUS_cmp_armed n)))
      else if a = R.SPn_SPEED n then some (BitVec.ofNat 32 ((l.stepper n).v / 65536))
      else if a = R.SPn_CUR n then some (fldPut (R.SPn_CUR_i_now n) (l.rd a) (l.spCurrent c n))
      else none

/-! ### Angles and safety I/O -/

/-- Registers of the angle interfaces (R343). -/
def Lane.viewAf (l : Lane) (a : Nat) : Option Word :=
  if a = R.AF_STATUS then
    some (withFields 0 [(R.AF_STATUS_sa_fault, maskOf 2 (fun n => l.bit (R.AFn_STATUS_sa_fault n))), (R.AF_STATUS_valid, maskOf 2 (fun n => l.bit (R.AFn_STATUS_valid n))),
      (R.AF_STATUS_started, maskOf 2 (fun n => l.bit (R.AFn_STATUS_started n)))])
  else
    match (List.range 2).find? (fun n => decide (a = R.AFn_STATUS n)) with
    | some n => some (fldPut (R.AFn_STATUS_substituted n) (l.rd a) (l.get R.FC_SENSOR_sa_subst / 2 ^ n % 2))
    | none => none

/-- Whether an output's pin reads on (R357): its switch is on, or what is wired to it decides. -/
def Lane.pinOn (c : Ctx) (l : Lane) (k : Nat) : Bool := l.outputOn c k || Config.pinLevel k l.free

/-- A contact of pair n is masked now (R350). -/
def Lane.pairMasked (c : Ctx) (l : Lane) (n : Nat) : Bool :=
  decide (l.get (R.SI_DIn_CFG_mode n) ≠ 0) && (l.masked c 0 || l.masked c 1)

/-- Registers of one output (R369). -/
def Lane.viewDo (c : Ctx) (l : Lane) (a k : Nat) : Option Word :=
  if a = R.SI_DOk_STAT k then
    some (withFields (l.rd a) [(R.SI_DOk_STAT_holding k, cond (l.latchHold.getLsbD (16 + k)) 1 0), (R.SI_DOk_STAT_driving k, cond (l.stageOn.getLsbD (16 + k)) 1 0),
      (R.SI_DOk_STAT_pin k, cond (l.pinOn c k) 1 0), (R.SI_DOk_STAT_switch k, cond (l.nodeOn c k) 1 0),
      (R.SI_DOk_STAT_cmd k, l.get R.SI_DO_STATE_cmd / 2 ^ k % 2)])
  else if a = R.SI_DOk_I k then some ((Config.outputMa k l.free).setWidth 32)
  else none

/-- Registers of the safety I/O (R369). -/
def Lane.viewSi (c : Ctx) (l : Lane) (a : Nat) : Option Word :=
  if a = R.SI_STATUS then
    some (withFields 0 [(R.SI_STATUS_sup_ok, maskOf 2 (fun s => l.bit (R.SI_SUP_on s) && !offWindow (BitVec.ofNat 16 (l.get (R.SI_SUP_mv s))))), (R.SI_STATUS_ai_valid, maskOf 8 (fun m => l.bit (R.SI_AIm_STAT_valid m))),
      (R.SI_STATUS_do_fault, maskOf 8 (fun k => l.bit (R.SI_DOk_STAT_valid k))), (R.SI_STATUS_sp_fault, maskOf 8 (fun m => l.bit (R.SI_AIm_STAT_sp_fault m)))])
  else if a = R.SI_DI_STATE then
    some (withFields 0 [(R.SI_DI_STATE_fault, maskOf 12 (fun n => decide (l.get (R.SI_DIn_STAT_fault n) ≠ 0))),
      (R.SI_DI_STATE_state, maskOf 12 (fun n => l.bit (R.SI_DIn_STAT_state n)))])
  else if a = R.SI_DO_STATE then
    some (withFields (l.rd a) [(R.SI_DO_STATE_pin, maskOf 8 (l.pinOn c)), (R.SI_DO_STATE_switch, maskOf 8 (l.nodeOn c))])
  else
    match (List.range 2).find? (fun s => decide (a = R.SI_SUP s)) with
    | some s => some (fldPut (R.SI_SUP_ma s) (l.rd a) (Config.supplyMa s l.free).toNat)
    | none =>
      match (List.range 12).find? (fun n => decide (a = R.SI_DIn_STAT n)) with
      | some n => some (fldPut (R.SI_DIn_STAT_masked n) (l.rd a) (cond (l.pairMasked c n) 1 0))
      | none =>
        match (List.range 8).find? (fun m => decide (a = R.SI_AIm_STAT m)) with
        | some m => some (fldPut (R.SI_AIm_STAT_substituted m) (l.rd a) (l.get R.FC_SENSOR_sp_subst / 2 ^ m % 2))
        | none => (List.range 8).findSome? (l.viewDo c a)

/-! ### Time, envelopes, networks, power and service -/

/-- Registers of time and actions (R427). -/
def Lane.viewTm (l : Lane) (a : Nat) : Option Word :=
  let armed := fun (t : Nat) => l.bit (R.TMt_CFG_armed t)
  if a = R.TM_STATUS then
    some (withFields (l.rd a) [(R.TM_STATUS_armed, ((List.range 64).filter armed).length), (R.TM_STATUS_slewing, cond (decide (l.nx.slewLeft ≠ 0)) 1 0),
      (R.TM_STATUS_synced, cond (decide (l.get R.NX_STATUS_state = 6)) 1 0)])
  else if a = R.TM_NOW then some l.stamp
  else if a = R.TM_IRQ_RAISE then some (bankGet l.irqRaise (l.get R.TM_IRQ_SEL_line))
  else if a = R.TM_IRQ_ENTRY then some (bankGet l.irqEntry (l.get R.TM_IRQ_SEL_line))
  else if a = R.TM_ACT_ARMED0 then some (BitVec.ofNat 32 (maskOf 32 armed))
  else if a = R.TM_ACT_ARMED1 then some (BitVec.ofNat 32 (maskOf 32 (fun t => armed (32 + t))))
  else none

/-- Whether connection k is a defined producer. -/
def Lane.isProducer (l : Lane) (k : Nat) : Bool := l.bit (R.SE_Cc_CFG_defined k) && l.bit (R.SE_Cc_CFG_role k)

/-- Registers of the safety envelope unit (R442). -/
def Lane.viewSe (l : Lane) (a : Nat) : Option Word :=
  let k := l.get R.SE_PL_SEL_conn
  let x := l.conn k
  if a = R.SE_STATUS then
    some (withFields 0 [(R.SE_STATUS_defined, ((List.range 64).filter (fun i => l.bit (R.SE_Cc_CFG_defined i))).length),
      (R.SE_STATUS_blocked, ((List.range 64).filter (fun i => l.bit (R.SE_Cc_CFG_defined i) && !l.bit (R.SE_Cc_CFG_role i) &&
        decide (seBlocked ≤ l.get (R.SE_Cc_STAT_state i)))).length),
      (R.SE_STATUS_producing, l.get R.TM_STATUS_set)])
  else if a = R.SE_PL_STAT then
    some (withFields 0 [(R.SE_PL_STAT_seq, if x.held then l.get (R.SE_Cc_STAT_seq k) else 0), (R.SE_PL_STAT_length, l.get (R.SE_Cc_CFG_length k)),
      (R.SE_PL_STAT_held, cond x.held 1 0)])
  else if a = R.SE_PL_STAMP then some (if x.held then l.rd (R.SE_Cc_STAMP k) else 0)
  else if a = R.SE_PL_ARRIVAL then some x.arrival
  else if R.SE_PL_DATAw 0 ≤ a ∧ a < R.SE_PL_DATAw 61 then some (wordAt x.payload ((a - R.SE_PL_DATAw 0) / 4))
  else if R.SE_TX_DATAw 0 ≤ a ∧ a < R.SE_TX_DATAw 61 then some 0
  else
    match (List.range 64).find? (fun i => decide (a = R.SE_Cc_STAT i)) with
    | some i => if l.isProducer i then some (fldPut (R.SE_Cc_STAT_state i) (l.rd a) (l.get R.TM_STATUS_set)) else none
    | none => none

/-- The head of a CAN receive FIFO (R496), 0 where it is empty. -/
def Lane.viewCan (l : Lane) (a k : Nat) : Option Word :=
  let f := (l.canOf k).fifo.head?
  let show_ := fun (g : CanRx → Word) => some (match f with
    | some r => g r
    | none => 0)
  if a = R.CNk_RX_HDR k then
    show_ (fun r => withFields 0 [(R.CNk_RX_HDR_ide k, cond r.frame.ide 1 0), (R.CNk_RX_HDR_fdf k, cond r.frame.fdf 1 0), (R.CNk_RX_HDR_brs k, cond r.frame.brs 1 0),
      (R.CNk_RX_HDR_id k, r.frame.id.toNat)])
  else if a = R.CNk_RX_INFO k then
    show_ (fun r => withFields 0 [(R.CNk_RX_INFO_filter k, r.filter), (R.CNk_RX_INFO_valid k, 1), (R.CNk_RX_INFO_dlc k, r.frame.dlc.toNat)])
  else if a = R.CNk_RX_STAMP k then show_ (fun r => r.stamp)
  else if R.CNk_RX_DATAw k 0 ≤ a ∧ a < R.CNk_RX_DATAw k 16 then
    show_ (fun r => (r.frame.data[(a - R.CNk_RX_DATAw k 0) / 4]?).getD 0)
  else none

/-- The always-on count (R455), a pair, CF_STATUS, the seconds into the hour (R518), and the monitors, of which one that is
absent or disabled reads 0 (R500). -/
def Lane.viewSvc (c : Ctx) (l : Lane) (a : Nat) : Option Word :=
  let n : W40 := BitVec.ofNat 40 (l.aonNow c)
  if a = R.PW_AON_NOW then some (n.setWidth 32)
  else if a = R.PW_AON_NOW + 4 then some ((n.extractLsb' 32 8).setWidth 32)
  else if a = R.CF_STATUS then some (l.cfStatus c)
  else if a = R.HA_HOUR_SEC then some (BitVec.ofNat 32 (l.ha.opNs / 1000000000))
  else if a = R.HA_LIFE then some (fldPut R.HA_LIFE_prior (l.rd a) (l.get R.HA_STATUS_prior))
  else if 0x40068040 ≤ a ∧ a < 0x400680C0 ∧ l.monOn c ((a - 0x40068040) / 16) = false then some 0
  else none

/-- PSn_STATUS as the paths are at this instant (R226, R241, R262). DESIGN CHOICE (log 80): the reset column of logic_disable is 0, while
a channel in OFF, as after a lane reset, asserts that path; the field reads as its meaning says. -/
def Lane.viewPs (c : Ctx) (l : Lane) (a : Nat) : Option Word :=
  match (List.range (motorCount c.part.member)).find? (fun n => decide (a = R.PS_STATUS n)) with
  | some n => some (withFields (l.rd a) [(R.PS_STATUS_supply_cut n, cond (l.wantsCut n) 1 0),
      (R.PS_STATUS_logic_disable n, cond (l.wantsLogic c n) 1 0), (R.PS_STATUS_switching n, cond (l.switchesNow c n) 1 0)])
  | none => none

/-- The view of a register by its unit. -/
def Lane.viewUnit (c : Ctx) (l : Lane) (a : Nat) : Option Word :=
  match irqLine a with
  | 0 => l.viewLm c a
  | 1 => l.viewFc a
  | 2 => l.viewEa c a
  | 5 => l.viewPs c a
  | 6 => l.viewPs c a
  | 7 => l.viewBk a
  | 8 => l.viewSp c a
  | 9 => l.viewAf a
  | 10 => l.viewSi c a
  | 11 => if 0x40042000 ≤ a then some (l.granule a) else none
  | 13 => l.viewTm a
  | 14 => l.viewSe a
  | 15 => l.viewSvc c a
  | 16 => l.viewSvc c a
  | 17 => l.viewSvc c a
  | 18 => if a < 0x40071000 then l.viewCan a 0 else l.viewCan a 1
  | _ => none

/-- What a read of a lane's register returns: an event counter, a view, or the register itself. -/
def Lane.view (c : Ctx) (l : Lane) (a : Nat) : Word :=
  match l.evtView a with
  | some w => w
  | none =>
    match l.viewUnit c a with
    | some w => w
    | none => l.rd a

/-- The pair of _LO and _HI as a read of them returns it. -/
def Lane.viewPair (c : Ctx) (l : Lane) (a : Nat) : W40 := (l.view c (a + 4)).setWidth 8 ++ l.view c a

/-! ### The marshal's registers (R409) -/

/-- What a lane reads in the marshal's window: mgmt_lost, the enables and the selector are its own; the others are the
marshal's. Every one reads 0 while the lane does not reach it. MS_FLAGS bit 9 is counted in the lane. -/
def State.msView (s : State) (ln : LaneId) (a : Nat) : Word :=
  let l := s.lane ln
  if s.reaches ln = false then 0
  else if a = R.MS_FLAGS then (l.rd a &&& 0x200) ||| (bankGet s.marshal.regs a &&& 0x1FF)
  else if a = R.MS_FLAG_EN ∨ a = R.MS_EVT_SEL then l.rd a
  else if a = R.MS_EVT_CNT then
    let i := l.get R.MS_EVT_SEL_index
    if i = 9 then BitVec.ofNat 32 (l.evtCount ⟨R.MS_FLAGS, 9, 9⟩) else BitVec.ofNat 32 ((tabGet s.marshal.evt i).getD 0)
  else
    let w := bankGet s.marshal.regs a
    if a = R.MS_BR_ACT then fldPut R.MS_BR_ACT_active w (maskOf 16 (fun b => s.marshal.forwarding.any (fun x => decide (x.branch = b) && !x.ended s.now)))
    else
      match (List.range 16).find? (fun b => decide (R.MS_BRb_STAT b = a)) with
      | some b => fldPut (R.MS_BRb_STAT_level b) w (s.levelNow b)
      | none => w

/-- What a lane's core reads at a register. -/
def State.readReg (s : State) (ln : LaneId) (a : Nat) : Word :=
  if irqLine a = 12 then s.msView ln a else (s.lane ln).view (s.ctx ln) a

end Sys2Proof.Machine
end

