-- ==== Sys2Proof/Machine/Heat.lean ====
section
/-! DEFINITION. The heat (R133 to R164): the boundary with its snapshots and pushes, hurdles' commit windows, the early
commit of run-ahead legs, and PWM period boundaries (R199, R209). -/

namespace Sys2Proof.Machine

/-! ### Committed words take effect (R149, R160) -/

/-- A committed word of an output stage or of lane SRAM takes effect; words of transmit buffers are gathered per buffer. -/
def Lane.applyWord (c : Ctx) (l : Lane) (s : Staged) : Lane :=
  match s.route with
  | .torque ch => if ch < motorCount c.part.member then l.putQ (R.MC_TORQUE ch) (qv s.value) else l
  | .solenoid n => l.commitCoil c n s.value
  | .stepper n => l.commitStepper c n s.value
  | .outputs => l.setRole1 c (s.value.toNat % 256)
  | .sram a => l.setSlot a s.value
  | _ => l

/-- The words of a list of (place, value) entries over an older payload of n words; a later entry wins. -/
def overlay (n : Nat) (old : List Word) (ws : List (Nat × Word)) : List Word :=
  (List.range n).map (fun i => match (ws.reverse.find? (fun p => decide (p.1 = i))) with
    | some p => p.2
    | none => wordAt old i)

/-- The words that a set of staged words routes to one buffer. -/
def wordsFor (ss : List Staged) (f : Route → Option Nat) : List (Nat × Word) :=
  ss.filterMap (fun s => (f s.route).map (fun w => (w, s.value.setWidth 32)))

/-- Nolxis transmit buffer n takes its leg words (R383), where legs feed it. -/
def Lane.applyNx (ss : List Staged) (l : Lane) (n : Nat) : Lane :=
  let ws := wordsFor ss (fun r => match r with
    | .nxTx b w => if b = n then some w else none
    | _ => none)
  if ws = [] ∨ l.bit (R.NX_TXn_CFG_source n) = true then l
  else l.loadTx n (overlay (l.get (R.NX_TXn_CFG_length n)) (l.txBuf n).payload ws)

/-- CAN mailbox m of controller k takes its leg words and waits for the bus (R493). -/
def Lane.applyCan (ss : List Staged) (k : Nat) (l : Lane) (m : Nat) : Lane :=
  let ws := wordsFor ss (fun r => match r with
    | .canTx j b w => if j = k ∧ b = m then some w else none
    | _ => none)
  if ws = [] then l
  else ((ws.foldl (fun y p => y.wr (R.CNk_TXm_DATAw k m p.1) p.2) l).put (R.CNk_TXm_CTRL_pending k m) 1).canStart k

/-- Producing connection k builds an envelope of its leg words (R432), where legs feed it. -/
def Lane.applySe (ss : List Staged) (l : Lane) (k : Nat) : Lane :=
  let ws := wordsFor ss (fun r => match r with
    | .seTx j w => if j = k then some w else none
    | _ => none)
  if ws = [] ∨ l.bit (R.SE_Cc_CFG_source k) = true then l
  else (l.produce k (overlay (l.get (R.SE_Cc_CFG_length k)) [] ws)).canStarts

/-- Staged words take effect together. -/
def Lane.applyWords (c : Ctx) (l : Lane) (ss : List Staged) : Lane :=
  let l1 := ss.foldl (fun y s => y.applyWord c s) l
  let l2 := (List.range 16).foldl (Lane.applyNx ss) l1
  let l3 := (List.range 16).foldl (Lane.applyCan ss 1) ((List.range 16).foldl (Lane.applyCan ss 0) l2)
  (List.range 64).foldl (Lane.applySe ss) l3

/-- The words staged for one hurdle take effect and are staged no longer; the window ends for its legs (R156). -/
def Lane.takeEffect (c : Ctx) (l : Lane) (h : Nat) : Lane :=
  let ss := l.ea.staged.filter (fun s => decide (s.hurdle = h))
  let shut := fun (r : LegRun) => if r.window = some h then { r with window := none } else r
  { l with ea := { l.ea with
      staged := l.ea.staged.filter (fun s => decide (s.hurdle ≠ h)), legs := l.ea.legs.map (fun (p : Nat × LegRun) => (p.1, shut p.2)) } }.applyWords c ss

/-- HURDLE_REACHED (R138, R149): the offset of a used hurdle has come. Its legs are committed in their order; what they route to
no output stage is written at once. -/
def hurdleReachedL (c : Ctx) (h : Fin 8) (l : Lane) : Lane :=
  if l.ea.started ∧ (l.rd (R.EA_HURDLE h.val)).toNat ≠ 0 then
    (l.atHurdleAll c h.val l.image.legs).takeEffect c atOnce
  else l

/-- HURDLE_REACHED. -/
def execHurdleReached (ln : LaneId) (h : Fin 8) (s : State) : Answer := onAlive ln (fun c l => hurdleReachedL c h l) s

/-- COMMIT_TAKES_EFFECT (R138, R149): the commit window of a hurdle ends. -/
def commitTakesEffectL (c : Ctx) (h : Fin 8) (l : Lane) : Lane := l.takeEffect c h.val

/-- COMMIT_TAKES_EFFECT. -/
def execCommitTakesEffect (ln : LaneId) (h : Fin 8) (s : State) : Answer :=
  onAlive ln (fun c l => commitTakesEffectL c h l) s

/-- One run-ahead leg committed early (R160, R189): with its corrected words, counted, its spawn list pushed. -/
def Lane.commitAhead (c : Ctx) (l : Lane) (p : Nat × LegDesc) : Lane :=
  let r := l.leg p.1
  match l.ea.done.find? (fun d => decide (d.leg = p.1) && d.ahead) with
  | some d =>
    if p.2.runAhead && r.due && !r.squashed then
      let l1 := (l.commitLeg 8 (l.corrected p.2 d) 2).inc R.EA_RA_COMMIT_count
      let l2 := { l1 with ea := { l1.ea with done := l1.ea.done.filter (fun x => decide (x ≠ d)) } }
      l2.pushSpawns c d.engine d.spawn
    else l
  | none => l

/-- The library's legs that ran ahead within their bands are committed (R160). -/
def Lane.commitLibrary (c : Ctx) (l : Lane) : Lane :=
  let l1 := { l with bk := { l.bk with waiting := [] } }
  l.bk.waiting.foldl (fun y p => (y.takeOut c 8 p.1 2 p.2).inc R.EA_RA_COMMIT_count) l1

/-- EARLY_COMMIT (R160): the legs within their bands, in ascending ID order; their words take effect together. -/
def earlyCommitL (c : Ctx) (l : Lane) : Lane :=
  ((l.image.legs.foldl (fun y p => y.commitAhead c p) (l.commitLibrary c)).takeEffect c atOnce).takeEffect c 8

/-- EARLY_COMMIT. -/
def execEarlyCommit (ln : LaneId) (s : State) : Answer := onAlive ln (fun c l => earlyCommitL c l) s

/-! ### Snapshots and predictions (R137, R155, R157) -/

/-- The value of a snapshot source as it stands (R133). -/
def Lane.snapValue (c : Ctx) (l : Lane) : SnapSrc → W40
  | .pair a => l.viewPair c a
  | .reg a => (l.view c a).setWidth 40
  | .demand w => (wordAt l.demand (w + 1)).setWidth 8 ++ wordAt l.demand w
  | .record k w => (wordAt (l.conn k).payload (w + 1)).setWidth 8 ++ wordAt (l.conn k).payload w
  | .recordArrival k => (l.conn k).arrival.setWidth 40
  | .recordValid k => cond (l.conn k).valid 1 0
  | .sram a => l.slot a
  | .const v => v

/-- The snapshot of a leg as it is frozen at this boundary. -/
def Lane.freeze (c : Ctx) (l : Lane) (d : LegDesc) : List W40 := d.snapshot.map (fun x => l.snapValue c x)

/-- The two ends of an analog input's valid band as values (R363), lower first. -/
def Lane.bandEnds (l : Lane) (m : Nat) : Int × Int :=
  let mode := l.get (R.SI_AIm_CFG_mode m)
  let a := l.analogValue m (bandOf mode (l.get (R.SI_AIm_BAND_lo m)))
  let b := l.analogValue m (bandOf mode (l.get (R.SI_AIm_BAND_hi m)))
  (min a b, max a b)

/-- The prediction of an input for the next boundary (R157). -/
def Lane.predict (l : Lane) : PredKind → W40
  | .rotorAngle ch => (l.predAngle ch).setWidth 40
  | .rotorSpeed ch => qw (l.predSpeed ch)
  | .position n => l.pair (R.AFn_POS_HEAT n) +
      BitVec.ofInt 40 (nearest (((l.rd (R.AFn_SPEED_CPS n)).toInt : Rat) * secs l.heatLen))
  | .angleTurn n => (l.rd (R.AFn_ANGLE n) + turnsOf (l.par (R.AFn_SPEED_RAD n) * secs l.heatLen)).setWidth 40
  | .angleRad n => qw (rq (l.par (R.AFn_ANGLE_RAD n) + l.par (R.AFn_SPEED_RAD n) * secs l.heatLen))
  | .speedRad n => qw (l.q (R.AFn_SPEED_RAD n))
  | .speedCps n => (l.rd (R.AFn_SPEED_CPS n)).setWidth 40
  | .analog m =>
    let (lo, hi) := l.bandEnds m
    qw (satQ (clampInt lo hi (2 * l.q (R.SI_AIm_VALUE m) - (l.analog m).last)))

/-- Some slots of a snapshot replaced. -/
def replaceSlots (vs : List W40) (ps : List PredSlot) (f : PredSlot → W40) : List W40 :=
  ps.foldl (fun a p => a.set p.slot (f p)) vs

/-! ### The boundary (R137, R139, R156) -/

/-- A leg is due at this boundary. -/
def Lane.dueNow (l : Lane) (d : LegDesc) : Bool := dueIn d l.heat16 && l.mayRun d

/-- A run-ahead leg is due at the next boundary. -/
def Lane.dueNext (l : Lane) (d : LegDesc) : Bool := d.runAhead && dueIn d (l.heat16 + 1) && l.mayRun d

/-- A leg's record at a boundary: its snapshot frozen, or for an instance that ran ahead the measured inputs put into the
snapshot it was pushed with (R155, R161). -/
def Lane.freezeLeg (c : Ctx) (l : Lane) (p : Nat × LegDesc) : Lane :=
  let r := l.leg p.1
  let vs := l.freeze c p.2
  if l.dueNow p.2 && r.ranAhead then
    l.setLeg p.1 { r with snap := replaceSlots r.predNext p.2.pred (fun q => (vs[q.slot]?).getD 0),
                          pred := r.predNext, spawned := false, squashed := false }
  else if l.dueNow p.2 then
    l.setLeg p.1 { r with snap := vs, due := true, spawned := false, squashed := false, ranAhead := false }
  else if p.2.onDemand then l.setLeg p.1 { r with snap := vs, spawned := false, squashed := false }
  else l.setLeg p.1 { r with ranAhead := false }

/-- The entries that a leg has to push at a boundary: its instance of this heat, and its instance of the next heat where it runs ahead;
that one may be taken at once where no instance of this heat stands before it (R139, R156). -/
def Lane.legEntries (l : Lane) (p : Nat × LegDesc) : List Entry :=
  (if l.dueNow p.2 && !(l.leg p.1).ranAhead then [⟨p.1, true, false, false, none⟩] else []) ++
    (if l.dueNext p.2 then [⟨p.1, !l.dueNow p.2, true, false, none⟩] else [])

/-- The entries of each block, with their home engines, in the order in which it pushes them (R139): one entry to each of its deques in
turn, the lowest-numbered engine first, deques with no entry left skipped. -/
def Lane.blockPushes (c : Ctx) (l : Lane) (ls : Tab LegDesc) : List (List (Nat × Entry)) :=
  (List.range (blockCount c.part.member)).map (fun b => inTurn ((List.range 4).map (fun i =>
    ((pushOrder ls).filter (fun p => decide ((l.leg p.1).home = 4 * b + i))).flatMap (fun p =>
      (l.legEntries p).map (fun n => (4 * b + i, n))))))

/-- What an instance that ran ahead left behind goes where its target heat does not run the leg (R136, R156). -/
def Lane.dropShadow (l : Lane) (leg : Nat) : Lane :=
  let l1 := { l with ea := { l.ea with done := l.ea.done.filter (fun d => decide (d.leg ≠ leg) || !d.ahead) } }
  l1.setLeg leg { l1.leg leg with squashCause := none }

/-- A run-ahead leg judged at its target boundary, and its predictions for the next (R156, R157, R159). -/
def Lane.aheadLeg (c : Ctx) (l : Lane) (p : Nat × LegDesc) : Lane :=
  let l1 := if l.dueNow p.2 && (l.leg p.1).ranAhead then l.judgeAhead c p.1 p.2 else l.dropShadow p.1
  let r := l1.leg p.1
  if l1.dueNext p.2 then
    l1.setLeg p.1 { r with ranAhead := true, predNext := replaceSlots (l1.freeze c p.2) p.2.pred (fun q => l1.predict q.kind) }
  else l1.setLeg p.1 { r with ranAhead := false }

/-- Every block pushes its entries, one each per engine cycle of 2 ns, until the last is done (R139). -/
def Lane.pushAll (c : Ctx) (l : Lane) : Lane :=
  let bs := l.blockPushes c l.image.legs
  let most := bs.foldl (fun n q => max n q.length) 0
  let l1 := (inTurn bs).foldl (fun y p => y.push c p.1 p.2) l
  { l1 with ea := { l1.ea with spawnTil := c.now + 2 * most } }

/-- The legs at a boundary: snapshots, late run-ahead instances stopped, pushes, and the judgement of run-ahead. -/
def Lane.legsHeat (c : Ctx) (l : Lane) : Lane :=
  let legs := l.image.legs
  let l0 := l.rehome c legs
  let l1 := legs.foldl (fun y p => if p.2.runAhead then y.stopAhead c p.1 else y) l0
  let l2 := legs.foldl (fun y p => y.freezeLeg c p) l1
  let l3 := l2.pushAll c
  legs.foldl (fun y p => if p.2.runAhead then y.aheadLeg c p else y) l3

/-- A heat that a setting of time has shortened takes at its boundary the hurdles that would fall after it (R415), in their order. -/
def Lane.cutHeat (c : Ctx) (l : Lane) : Lane :=
  let cut := match l.nx.timeSetAt with
    | some t => l.ea.started && decide (l.ea.heatAt ≤ t) && decide (c.now < l.ea.heatAt + l.heatLen)
    | none => false
  if cut then
    (List.finRange 8).foldl (fun (y : Lane) h =>
      (if c.now ≤ y.hurdleAt h.val then hurdleReachedL c h y else y).takeEffect c h.val) l
  else l

/-- What the heat that ends leaves in the scheduler's registers (R167): load, steals, a hurdle miss and the injections. DESIGN CHOICE
(log 79): inj_ok is 1 from the scheduler's first boundary, where no heat with injections has ended. -/
def Lane.closeHeat (c : Ctx) (l : Lane) : Lane :=
  let part := fun (x : Engine) => x.busy + match x.run with
    | some r => c.now - max r.startAt l.ea.heatAt
    | none => 0
  let whole := l.fitEngines c * l.heatLen
  let total := (l.ea.engines.map part).sum
  let l1 := l.put R.EA_LOAD_permille (if whole = 0 then 0 else min (total * 1000 / whole) 1000)
  let l2 := (l1.put R.EA_STEALS_local (min l.ea.localSteals 0xFFFF)).put R.EA_STEALS_remote (min l.ea.remoteSteals 0xFFFF)
  let l3 := (l2.putB R.LM_STATUS_hurdle_miss l.ea.missThisHeat).putB R.FC_STATUS_inj_ok (!l.fc.injMissedNow)
  { l3 with
    fc := { l3.fc with injMissedNow := false }
    ea := { l3.ea with
      engines := l3.ea.engines.map (fun x => { x with busy := 0 }), localSteals := 0, remoteSteals := 0,
      missThisHeat := false, staged := l3.ea.staged.filter (fun s => decide (s.hurdle ≠ 0)) } }

/-- A dwell in whole seconds moved to the nearer bound of the envelope in force (R514), rounded as a dwell is (R80). -/
def Lane.dwellInside (l : Lane) (d : Nat) : Nat :=
  let p : Rat := ((l.get R.LM_ROT_PERIOD_seconds : Nat) : Rat)
  let lo := p * ((l.get R.LM_ROT_ENV_weight_min : Nat) : Rat) / 256
  let hi := p * ((l.get R.LM_ROT_ENV_weight_max : Nat) : Rat) / 256
  if ((d : Nat) : Rat) < lo then (nearest lo).toNat else if hi < ((d : Nat) : Rat) then (nearest hi).toNat else d

/-- The dwells in force moved into a new envelope (R514): of the active lane those of all fit lanes, and its own end or rest with its
own length. -/
def Lane.moveDwells (c : Ctx) (l : Lane) : Lane :=
  if !l.active then l
  else
    let was := (l.rd (dwellReg c.id)).toNat
    let l1 := [LaneId.a, .b, .c].foldl (fun (y : Lane) x =>
      if y.rd (dwellReg x) = 0 then y else y.wr (dwellReg x) (BitVec.ofNat 32 (y.dwellInside (y.rd (dwellReg x)).toNat))) l
    let is := (l1.rd (dwellReg c.id)).toNat
    let shift := fun (t : Nat) => t + is * 1000000000 - was * 1000000000
    let ends := l1.baton.dwellEnds.map (fun t => max c.now (shift t))
    { l1 with baton := { l1.baton with dwellEnds := ends }, pw := { l1.pw with dwellLeft := l1.pw.dwellLeft.map shift } }

/-- The envelope of the dwells that waits for this boundary, and the dwells in force with it (R514). -/
def Lane.rotHeat (c : Ctx) (l : Lane) : Lane :=
  match tabGet l.staging R.LM_ROT_ENV with
  | some w => ({ l.wr R.LM_ROT_ENV w with staging := tabDel l.staging R.LM_ROT_ENV }).moveDwells c
  | none => l

/-- The demand for this heat's snapshots (R53, R78, R266): the lane's own again where a mirrored one was in force. -/
def Lane.demandHeat (c : Ctx) (l : Lane) : Lane :=
  let l0 := match l.baton.ownDemand with
    | some ws => { l.showDemand ws with baton := { l.baton with ownDemand := none } }
    | none => l
  let l1 := (l0.put R.LM_STATUS_late_demand 0).takeDemands c
  l1.ageHeat c

/-- Every source that the boundary latches (R137): angles, analog inputs, channel states; then what the lane adopts or
substitutes (R57, R119). -/
def Lane.latchHeat (c : Ctx) (l : Lane) : Lane :=
  let l1 := (l.angleHeat c).analogHeat
  let l2 := (List.range (motorCount c.part.member)).foldl (fun y ch => y.mcHeat ch) l1
  (l2.mirrorHeat c).substHeat c

/-- The adapted values and envelopes of the drivers (R285, R514), and spools that home once more (R534). -/
def Lane.driversHeat (c : Ctx) (l : Lane) : Lane :=
  let l1 := ((l.rotHeat c).coilsHeat c).envelopeHeat
  (List.range (stepperCount c.part.member)).foldl (fun y n => (y.curHeat n).homeRetry c n) l1

/-- The first predicted input of a library leg that lies outside its band (R159). -/
def Lane.libBad (l : Lane) (k : Nat) (r : AheadRun) : Option Nat :=
  let ks := l.libInputs k
  let bs := (tabGet l.image.lib.bands k).getD []
  (List.range ks.length).find? (fun j => match ks[j]? with
    | some p => decide ((bs[j]?).getD 0 < (predDiff p (l.inputNow p) ((r.inputs[j]?).getD 0)).natAbs)
    | none => false)

/-- The reference of a library leg corrected for what its predictions missed (R160), with the saturations of its run and of
the correction (R176); its sensitivities are free values, and 0 where the leg's reference is 0 whatever its inputs are (log 31). -/
def Lane.libCorrect (l : Lane) (k : Nat) (r : AheadRun) : LegOut :=
  let ks := l.libInputs k
  let deltas := (List.range ks.length).map (fun j => predDelta l (ks[j]?.getD default) (l.inputNow (ks[j]?.getD default)) ((r.inputs[j]?).getD 0))
  let sens := (List.range ks.length).map (fun j => if r.res.fixed then 0 else qv (Config.libSens k j l.free))
  let hits := ((List.range ks.length).map (fun j =>
    deltaHits l (ks[j]?.getD default) (predDiff (ks[j]?.getD default) (l.inputNow (ks[j]?.getD default)) ((r.inputs[j]?).getD 0)))).sum
  { r.res with out := corrValue r.res.out sens deltas, sat := r.res.sat + hits + cond (satHit (corrSum r.res.out sens deltas)) 1 0 }

/-- A library leg whose run ahead missed a band is squashed (R161, R167), recorded with its leg ID. -/
def Lane.libSquash (l : Lane) (k j : Nat) : Lane :=
  ((l.flag R.EA_FLAGS_ra_squash).inc R.EA_RA_SQUASH_count).wr R.EA_RA_LAST
    (BitVec.ofNat 32 (l.heat16.toNat * 2 ^ 16 + (l.image.lib.legIds[k]?.getD 0) % 256 * 256 + j))

/-- The lane as a squashed leg of the library sees it (R155, R161): the snapshot frozen when it was pushed, with the measured inputs in
place of the predicted ones. -/
def Lane.redo (l : Lane) (k : Nat) (r : AheadRun) : Lane :=
  (l.libInputs k).foldl (fun y p => y.withInput p (l.inputNow p)) { l with
    regs := r.regs, demand := r.demand, fc := { l.fc with starving := r.starving },
    bk := { l.bk with still := r.still, parkedAt := r.parkedAt, rotorHold := r.rotorHold } }

/-- A library leg in its heat (R156, R159 to R161): an instance that ran ahead within its bands waits for the early commit; a squashed
one runs again on the snapshot of its push with measured inputs, and one that did not run ahead runs now, for hurdle 0. The answer has
the state that the instance leaves. -/
def Lane.libLeg (c : Ctx) (l : Lane) (k : Nat) : Lane × (SteerLoop × BrakeLoop) :=
  match tabGet l.bk.ahead k with
  | some r =>
    match l.libBad k r with
    | some j =>
      let again := (l.redo k r).legOut c k (l.libState k)
      ((l.libSquash k j).takeOut c 0 k 3 again, (again.steer, again.loop))
    | none => ({ l with bk := { l.bk with waiting := tabPut l.bk.waiting k (l.libCorrect k r) } }.draw, (r.res.steer, r.res.loop))
  | none =>
    let now := l.legOut c k (l.libState k)
    (l.takeOut c 0 k 1 now, (now.steer, now.loop))

/-- The lane as a leg of the library sees it that runs ahead (R155, R157): its predicted inputs in place, in the next heat. -/
def Lane.predicted (l : Lane) (k : Nat) : Lane :=
  ((l.libInputs k).foldl (fun y p => y.withInput p (l.predict p)) l).wr R.EA_HEAT_CNT (l.rd R.EA_HEAT_CNT + 1)

/-- A leg of the library runs ahead for the next heat, from the state that this heat leaves (R156, R158). -/
def Lane.libAhead (c : Ctx) (l : Lane) (k : Nat) (s : SteerLoop × BrakeLoop) : Lane :=
  let y := l.predicted k
  let r : AheadRun := ⟨(l.libInputs k).map l.predict, y.legOut { c with now := c.now + l.heatLen } k s, y.regs, y.demand,
    y.bk.still, y.bk.parkedAt, y.fc.starving, y.bk.rotorHold⟩
  { l with bk := { l.bk with ahead := tabPut l.bk.ahead k r } }

/-- The library's legs of one heat with the runs ahead for the next; only the TS-8630 runs ahead (R3, R198). -/
def Lane.libRuns (c : Ctx) (l : Lane) : Lane :=
  let count := l.rd R.EA_HEAT_CNT
  let next := if c.part.member = .ts8630 then l.libLegs c (count + 1) else []
  let step := fun (y : Lane × Tab (SteerLoop × BrakeLoop)) k => let z := y.1.libLeg c k; (z.1, tabPut y.2 k z.2)
  let (l1, states) := (l.libLegs c count).foldl step (l, [])
  let l2 := { l1 with bk := { l1.bk with ahead := [] } }
  next.foldl (fun y k => y.libAhead c k ((tabGet states k).getD (y.libState k))) l2

/-- No leg of the library runs ahead. -/
def Lane.dropAhead (l : Lane) : Lane := { l with bk := { l.bk with ahead := [], waiting := [] } }

/-- The legs of the library (R198, R263 to R291), which run in RUN. -/
def Lane.libraryHeat (c : Ctx) (l : Lane) : Lane :=
  let l0 := l.parkHeat c
  let l1 := { l0 with bk := { l0.bk with waiting := [] } }
  if l1.pwState ≠ 0 then l1.dropAhead
  else
    let lib := l1.image.lib
    let l2 := ((l1.putQ R.BK_DECEL l1.decelNow).noteRotor 0).noteRotor 1
    let l3 := (l2.libRuns c).parkLeg c
    if isTriple c.part.member && lib.handWheel then l3.feelHeat c else l3

/-- The index of the heat in its Nolxis cycle at this instant (R52, R136): whole heats since the cycle start. -/
def Lane.heatIndex (l : Lane) : Nat := if l.heatLen = 0 then 0 else l.cycleOff / l.heatLen

/-- A heat boundary has come since the last one (R52): another index, or another cycle. -/
def Lane.boundaryDue (l : Lane) : Bool :=
  decide (l.heatLen = 0) || decide (l.heatIndex ≠ l.ea.index) || decide (l.rd R.NX_CYCLE_STAMP ≠ l.ea.cycle)

/-- The supervisor core writes the digest of its own registers (R100); the model leaves its value free (log 33). -/
def Lane.coreHeat (l : Lane) : Lane := { l with ea := { l.ea with coreDigest := Config.coreDigest l.free } }.draw

/-- The units that a vote had stopped start again after its rollback (R448). -/
def Lane.unitsGoOn (l : Lane) : Lane := { l with pw := { l.pw with halted := false } }

/-- A heat boundary at this instant, with the heat count as it stands. -/
def Lane.boundary (c : Ctx) (l : Lane) : Lane :=
  let l0 := (List.range (motorCount c.part.member)).foldl (fun y ch => y.psHeat c ch) l.unitsGoOn.coreHeat
  let l1 := (l0.cutHeat c).closeHeat c
  let ea := { l1.ea with heatAt := c.now, perFrom := c.now, perLen := 0, index := l1.heatIndex, cycle := l1.rd R.NX_CYCLE_STAMP }
  let l2 := { l1.stampAt R.EA_HEAT_STAMP with ea := ea }.flag R.EA_FLAGS_heat_start
  let l3 := (l2.latchHeat c).demandHeat c
  let l4 := (l3.driversHeat c).libraryHeat c
  ((l4.legsHeat c).plausHeat c).passHeat c

/-- Every channel of a lane is in OFF with a lock (R228). DESIGN CHOICE (log 29): the spec does not say how the outgoing lane learns
it; the model lets it see the other lane's channels. -/
def State.recovered (s : State) (x : LaneId) : Bool :=
  (List.range (motorCount s.part.member)).all (fun ch =>
    decide ((s.lane x).mcState ch = mcOff) && (s.lane x).bit (R.MC_STATUS_locked ch))

/-- The heartbeat of a running lane heard in the last 20 µs (R527). -/
def Lane.runningHeard (c : Ctx) (l : Lane) : Option (LaneId × List Word) :=
  (othersOf c).findSome? (fun x =>
    match (l.peer x).ran with
    | some (t, ws) => if c.now ≤ t + 20000 then some (x, ws) else none
    | none => none)

/-- The heat that a running lane's heartbeat gives for this cycle start: its heat field and the boundaries since its
sent_at (R527). -/
def Lane.adoptedHeat (l : Lane) (ws : List Word) : Nat :=
  let gone := (sdiff l.stamp (frameWord ws 1)).toNat
  let n := if l.heatLen = 0 then 0 else (gone + l.heatLen - 1) / l.heatLen
  ((frameWord ws 0).toNat + n) % 65536

/-- The heat count of the next heat (R415, R527): one more, or after a setting of time that of a running lane heard. -/
def Lane.nextCount (c : Ctx) (l : Lane) : Lane :=
  match l.nx.recount, l.runningHeard c with
  | true, some (_, ws) => { l.wr R.EA_HEAT_CNT (BitVec.ofNat 32 (l.adoptedHeat ws)) with nx := { l.nx with recount := false } }
  | _, _ => l.wr R.EA_HEAT_CNT (l.rd R.EA_HEAT_CNT + 1)

/-- The heat in progress at a setting of time ends at the first boundary at least half a heat after it (R415). -/
def Lane.halfHeat (c : Ctx) (l : Lane) : Bool :=
  match l.nx.timeSetAt with
  | some t => decide (t + l.heatLen / 2 ≤ c.now)
  | none => true

/-- HEAT_BOUNDARY (R52, R136, R137, R139, R415): the next heat of a scheduler that runs, where a whole heat has passed since the
last one; a pass that waits for its incoming lane's channels is asked for where they are back (R228). -/
def heatBoundaryL (c : Ctx) (recovered : LaneId → Bool) (l : Lane) : Lane :=
  if l.ea.started && l.boundaryDue && l.halfHeat c then ((l.retryReady c recovered).nextCount c).boundary c
  else l

/-- HEAT_BOUNDARY. -/
def execHeatBoundary (ln : LaneId) (s : State) : Answer :=
  sharingSensors ln s (onAlive ln (fun c l => heatBoundaryL c s.recovered l) s)

/-! ### PWM periods (R199, R209, R220) -/

/-- A channel whose gates wait for this boundary starts to switch with the values of its latest sample (R209); the time
without torque after a dropped baton ends with it (R92). -/
def Lane.startGates (c : Ctx) (l : Lane) (ch : Nat) : Lane :=
  match (l.mc ch).gateFrom with
  | some t =>
    if t ≤ c.now then
      let l1 := ((l.setMc ch { l.mc ch with gateFrom := none }).loadCmp ch).sto c ch
      match l1.baton.gateOffAt with
      | some g =>
        if l1.bit (R.PS_STATUS_switching ch) then
          { l1.wr R.LM_GAP_PRIV (BitVec.ofNat 32 (c.now - g)) with baton := { l1.baton with gateOffAt := none } }
        else l1
      | none => l1
    else l
  | none => l

/-- The start of the PWM period that this instant lies in, by the schedule (R199): the heats of a cycle and their periods are counted
from the cycle start. -/
def Lane.periodStamp (l : Lane) : Word :=
  l.rd R.NX_CYCLE_STAMP + BitVec.ofNat 32 (if l.pwm 0 = 0 then l.cycleOff else l.cycleOff / l.pwm 0 * l.pwm 0)

/-- A PWM period boundary has come (R199, R410): a period has begun that was not taken yet; after a setting of time the one in progress
lasts at least P/2 (R415). -/
def Lane.periodDue (c : Ctx) (l : Lane) : Bool :=
  !l.ea.started || (decide (l.ea.perStamp ≠ some l.periodStamp) && (match l.nx.timeSetAt with
    | some t => decide (2 * t + l.pwm 0 ≤ 2 * c.now)
    | none => true))

/-- The period that begins now. -/
def Lane.takePeriod (c : Ctx) (l : Lane) : Lane :=
  { l with ea := { l.ea with perStamp := some l.periodStamp, perFrom := c.now, perLen := 0 } }

/-- What a PWM period boundary does (R68, R69, R209, R415): enabled channels start, an urgent zone begins, and an outgoing lane whose pass has
failed by an unfit incoming lane returns to share 1.0; after a loss of synchronism there it returns at its next sample (R228). -/
def Lane.periodBoundary (c : Ctx) (l : Lane) : Lane :=
  let l1 := (List.range (motorCount c.part.member)).foldl (fun y ch => y.startGates c ch) (l.takePeriod c)
  match l1.baton.pass with
  | some p =>
    if p.phase = .confirmed ∧ p.urgent = true then zoneStartL c l1
    else if p.phase = .returning ∧ p.outgoing = c.id ∧ l1.baton.sampleBack = false ∧ l1.get (R.MC_SHARE_share 0) < 256 then
      (l1.takeShare c 256).loadFulls c
    else l1
  | none => l1

/-- PWM_PERIOD_BOUNDARY (R199, R410): where one has come. -/
def pwmPeriodBoundaryL (c : Ctx) (l : Lane) : Lane := if l.periodDue c then l.periodBoundary c else l

/-- PWM_PERIOD_BOUNDARY. -/
def execPwmPeriodBoundary (ln : LaneId) (s : State) : Answer := onAlive ln (fun c l => pwmPeriodBoundaryL c l) s

end Sys2Proof.Machine
end

