-- ==== Sys2Proof/Machine/Isa.lean ====
section
/-! DEFINITION. The engine instructions (R168 to R196): each a command that an engine of a lane executes at its program
counter. -/

namespace Sys2Proof.Machine

/-- Whether an engine can execute an instruction now: fit, awake, running a leg, and not waiting for the CORDIC unit. -/
def Lane.engRuns (c : Ctx) (l : Lane) (e : Nat) : Bool :=
  l.engFit c e && !(l.eng e).gated && (l.eng e).run.isSome && decide ((l.eng e).cordic = none)

/-- The leg that an engine runs. -/
def Lane.runDesc (l : Lane) (e : Nat) : Option LegDesc := (l.eng e).run.bind (fun r => l.legDesc r.leg)

/-- An instruction may be fetched from this address (R194). -/
def fetchOk (pc : Word) : Bool := decide (pc.toNat < 0xC000) && decide (pc.toNat % 4 = 0)

/-- An engine executes one instruction: a fetch outside the code area is a window trap (R194); an engine that cannot
execute now does nothing. -/
def Lane.issue (c : Ctx) (l : Lane) (e : Nat) (f : LegDesc → Engine → Lane) : Lane :=
  match l.engRuns c e, l.runDesc e with
  | true, some d => if fetchOk (l.eng e).pc then f d (l.eng e) else l.windowTrap c e
  | _, _ => l

/-- An instruction that works on the engine's own registers and goes on to the next one. -/
def regOp (ln : LaneId) (e : EngIx) (f : Engine → Engine) (s : State) : Answer :=
  onAlive ln (fun c l => l.issue c e.val (fun _ x => l.setEng e.val (f x).next)) s

/-- An instruction that sets the program counter itself. -/
def jumpOp (ln : LaneId) (e : EngIx) (f : Engine → Engine) (s : State) : Answer :=
  onAlive ln (fun c l => l.issue c e.val (fun _ x => l.setEng e.val (f x))) s

/-- An instruction that acts on the lane. -/
def laneOp (ln : LaneId) (e : EngIx) (f : Ctx → Lane → LegDesc → Engine → Lane) (s : State) : Answer :=
  onAlive ln (fun c l => l.issue c e.val (fun d x => f c l d x)) s

/-- A q40 result, saturated and counted (R176). -/
def Engine.setQ (x : Engine) (rd : Reg) (v : Int) : Engine := (x.setReg rd (qw (satQ v))).count (satHit v)

/-- An accumulator result, saturated and counted (R178). -/
def Engine.setSat80 (x : Engine) (acc : Bool) (v : Int) : Engine :=
  (x.setAcc acc (BitVec.ofInt 80 (sat80 v))).count (sat80Hit v)

/-! ### Integer instructions (R174) -/

/-- ADD. -/
def execAdd (ln : LaneId) (e : EngIx) (rd ra rb : Reg) (s : State) : Answer :=
  regOp ln e (fun x => x.setReg rd (x.reg ra + x.reg rb)) s

/-- SUB. -/
def execSub (ln : LaneId) (e : EngIx) (rd ra rb : Reg) (s : State) : Answer :=
  regOp ln e (fun x => x.setReg rd (x.reg ra - x.reg rb)) s

/-- AND. -/
def execAnd (ln : LaneId) (e : EngIx) (rd ra rb : Reg) (s : State) : Answer :=
  regOp ln e (fun x => x.setReg rd (x.reg ra &&& x.reg rb)) s

/-- OR. -/
def execOr (ln : LaneId) (e : EngIx) (rd ra rb : Reg) (s : State) : Answer :=
  regOp ln e (fun x => x.setReg rd (x.reg ra ||| x.reg rb)) s

/-- XOR. -/
def execXor (ln : LaneId) (e : EngIx) (rd ra rb : Reg) (s : State) : Answer :=
  regOp ln e (fun x => x.setReg rd (x.reg ra ^^^ x.reg rb)) s

/-- The shift amount rb[5:0]. -/
def shAmt (v : W40) : Nat := v.toNat % 64

/-- A shift of a kind (R174): left, logical right, arithmetic right, with the results for 40 and more. -/
def shiftBy (kind : Nat) (v : W40) (n : Nat) : W40 :=
  match kind with
  | 0 => v <<< n
  | 1 => v >>> n
  | _ => v.sshiftRight n

/-- SLL. -/
def execSll (ln : LaneId) (e : EngIx) (rd ra rb : Reg) (s : State) : Answer :=
  regOp ln e (fun x => x.setReg rd (shiftBy 0 (x.reg ra) (shAmt (x.reg rb)))) s

/-- SRL. -/
def execSrl (ln : LaneId) (e : EngIx) (rd ra rb : Reg) (s : State) : Answer :=
  regOp ln e (fun x => x.setReg rd (shiftBy 1 (x.reg ra) (shAmt (x.reg rb)))) s

/-- SRA. -/
def execSra (ln : LaneId) (e : EngIx) (rd ra rb : Reg) (s : State) : Answer :=
  regOp ln e (fun x => x.setReg rd (shiftBy 2 (x.reg ra) (shAmt (x.reg rb)))) s

/-- MIN. -/
def execMin (ln : LaneId) (e : EngIx) (rd ra rb : Reg) (s : State) : Answer :=
  regOp ln e (fun x => x.setReg rd (if (x.reg rb).slt (x.reg ra) then x.reg rb else x.reg ra)) s

/-- MAX. -/
def execMax (ln : LaneId) (e : EngIx) (rd ra rb : Reg) (s : State) : Answer :=
  regOp ln e (fun x => x.setReg rd (if (x.reg ra).slt (x.reg rb) then x.reg rb else x.reg ra)) s

/-- MINU. -/
def execMinu (ln : LaneId) (e : EngIx) (rd ra rb : Reg) (s : State) : Answer :=
  regOp ln e (fun x => x.setReg rd (if (x.reg rb).ult (x.reg ra) then x.reg rb else x.reg ra)) s

/-- MAXU. -/
def execMaxu (ln : LaneId) (e : EngIx) (rd ra rb : Reg) (s : State) : Answer :=
  regOp ln e (fun x => x.setReg rd (if (x.reg ra).ult (x.reg rb) then x.reg rb else x.reg ra)) s

/-- MUL: the low 40 bits of the product. -/
def execMul (ln : LaneId) (e : EngIx) (rd ra rb : Reg) (s : State) : Answer :=
  regOp ln e (fun x => x.setReg rd (x.reg ra * x.reg rb)) s

/-- SEL. -/
def execSel (ln : LaneId) (e : EngIx) (p : Pred) (rd ra rb : Reg) (s : State) : Answer :=
  regOp ln e (fun x => x.setReg rd (if x.pred p then x.reg ra else x.reg rb)) s

/-- The number of leading zeros in 40 bits. -/
def clz40 (v : W40) : Nat := if v = 0 then 40 else 39 - v.toNat.log2

/-- CLZ. -/
def execClz (ln : LaneId) (e : EngIx) (rd ra : Reg) (s : State) : Answer :=
  regOp ln e (fun x => x.setReg rd (BitVec.ofNat 40 (clz40 (x.reg ra)))) s

/-- JR. -/
def execJr (ln : LaneId) (e : EngIx) (ra : Reg) (s : State) : Answer :=
  jumpOp ln e (fun x => { x with pc := (x.reg ra).setWidth 32 }) s

/-! ### Immediate instructions (R175) -/

/-- ADDI. -/
def execAddi (ln : LaneId) (e : EngIx) (rd ra : Reg) (imm : BitVec 16) (s : State) : Answer :=
  regOp ln e (fun x => x.setReg rd (x.reg ra + imm.signExtend 40)) s

/-- ANDI. -/
def execAndi (ln : LaneId) (e : EngIx) (rd ra : Reg) (imm : BitVec 16) (s : State) : Answer :=
  regOp ln e (fun x => x.setReg rd (x.reg ra &&& imm.setWidth 40)) s

/-- ORI. -/
def execOri (ln : LaneId) (e : EngIx) (rd ra : Reg) (imm : BitVec 16) (s : State) : Answer :=
  regOp ln e (fun x => x.setReg rd (x.reg ra ||| imm.setWidth 40)) s

/-- XORI. -/
def execXori (ln : LaneId) (e : EngIx) (rd ra : Reg) (imm : BitVec 16) (s : State) : Answer :=
  regOp ln e (fun x => x.setReg rd (x.reg ra ^^^ imm.setWidth 40)) s

/-- ORH. -/
def execOrh (ln : LaneId) (e : EngIx) (rd ra : Reg) (imm : BitVec 16) (s : State) : Answer :=
  regOp ln e (fun x => x.setReg rd (x.reg ra ||| (imm.setWidth 40 <<< 16))) s

/-- LDX: bits 39:32 from the immediate, bits 31:0 cleared. -/
def execLdx (ln : LaneId) (e : EngIx) (rd : Reg) (imm : BitVec 8) (s : State) : Answer :=
  regOp ln e (fun x => x.setReg rd (imm.setWidth 40 <<< 32)) s

/-- Conditions 0 to 7 of R179. -/
def condHolds (k : Nat) (a b : W40) : Bool :=
  match k with
  | 0 => decide (a = b)
  | 1 => decide (a ≠ b)
  | 2 => a.slt b
  | 3 => a.sle b
  | 4 => a.ult b
  | 5 => a.ule b
  | 6 => decide (sdiff (a.setWidth 32) (b.setWidth 32) < 0)
  | _ => decide (sdiff (a.setWidth 32) (b.setWidth 32) ≤ 0)

/-- CMPI: the immediate is sign-extended and then compared as the condition says (R175, R179). -/
def execCmpi (ln : LaneId) (e : EngIx) (cond : Fin 8) (p : Pred) (ra : Reg) (imm : BitVec 16) (s : State) : Answer :=
  regOp ln e (fun x => x.setPred p (condHolds cond.val (x.reg ra) (imm.signExtend 40))) s

/-- SHI. -/
def execShi (ln : LaneId) (e : EngIx) (rd ra : Reg) (kind : Fin 3) (amount : BitVec 6) (s : State) : Answer :=
  regOp ln e (fun x => x.setReg rd (shiftBy kind.val (x.reg ra) amount.toNat)) s

/-! ### Fixed-point instructions (R177) -/

/-- QADD. -/
def execQadd (ln : LaneId) (e : EngIx) (rd ra rb : Reg) (s : State) : Answer :=
  regOp ln e (fun x => x.setQ rd (qv (x.reg ra) + qv (x.reg rb))) s

/-- QSUB. -/
def execQsub (ln : LaneId) (e : EngIx) (rd ra rb : Reg) (s : State) : Answer :=
  regOp ln e (fun x => x.setQ rd (qv (x.reg ra) - qv (x.reg rb))) s

/-- QMUL. -/
def execQmul (ln : LaneId) (e : EngIx) (rd ra rb : Reg) (s : State) : Answer :=
  regOp ln e (fun x => x.setQ rd (rna (qv (x.reg ra) * qv (x.reg rb)) 24)) s

/-- QDIV: a zero divisor gives the maximum, the minimum or 0, counted as one saturation where ra is not 0. -/
def execQdiv (ln : LaneId) (e : EngIx) (rd ra rb : Reg) (s : State) : Answer :=
  regOp ln e (fun x =>
    let a := qv (x.reg ra)
    let b := qv (x.reg rb)
    (x.setReg rd (qw (qDiv a b))).count
      (if b = 0 then decide (a ≠ 0) else satHit (rnaDiv (a * 2 ^ 24) b))) s

/-- QSAT: a limit reached is not counted. -/
def execQsat (ln : LaneId) (e : EngIx) (rd ra rb : Reg) (s : State) : Answer :=
  regOp ln e (fun x => x.setReg rd (qw (qsatV (qv (x.reg ra)) (qv (x.reg rb))))) s

/-- QABS. -/
def execQabs (ln : LaneId) (e : EngIx) (rd ra : Reg) (s : State) : Answer :=
  regOp ln e (fun x => x.setQ rd |qv (x.reg ra)|) s

/-- QNEG. -/
def execQneg (ln : LaneId) (e : EngIx) (rd ra : Reg) (s : State) : Answer :=
  regOp ln e (fun x => x.setQ rd (-(qv (x.reg ra)))) s

/-- QSHL. -/
def execQshl (ln : LaneId) (e : EngIx) (rd ra rb : Reg) (s : State) : Answer :=
  regOp ln e (fun x => x.setQ rd (qv (x.reg ra) * 2 ^ shAmt (x.reg rb))) s

/-- A rounding right shift (R177): the value itself for 0, and 0 for 40 and more. -/
def shiftRound (v : Int) (k : Nat) : Int := if k = 0 then v else if 40 ≤ k then 0 else rna v k

/-- QSRR. -/
def execQsrr (ln : LaneId) (e : EngIx) (rd ra rb : Reg) (s : State) : Answer :=
  regOp ln e (fun x => x.setReg rd (qw (shiftRound (qv (x.reg ra)) (shAmt (x.reg rb))))) s

/-! ### Accumulator instructions (R178) -/

/-- QMAC. -/
def execQmac (ln : LaneId) (e : EngIx) (acc : Bool) (ra rb : Reg) (s : State) : Answer :=
  regOp ln e (fun x => x.setSat80 acc ((x.acc acc).toInt + qv (x.reg ra) * qv (x.reg rb))) s

/-- QMSU. -/
def execQmsu (ln : LaneId) (e : EngIx) (acc : Bool) (ra rb : Reg) (s : State) : Answer :=
  regOp ln e (fun x => x.setSat80 acc ((x.acc acc).toInt - qv (x.reg ra) * qv (x.reg rb))) s

/-- AMUL. -/
def execAmul (ln : LaneId) (e : EngIx) (acc : Bool) (ra rb : Reg) (s : State) : Answer :=
  regOp ln e (fun x => x.setAcc acc (BitVec.ofInt 80 (qv (x.reg ra) * qv (x.reg rb)))) s

/-- ACLR. -/
def execAclr (ln : LaneId) (e : EngIx) (acc : Bool) (s : State) : Answer :=
  regOp ln e (fun x => x.setAcc acc 0) s

/-- ALD. -/
def execAld (ln : LaneId) (e : EngIx) (acc : Bool) (ra : Reg) (s : State) : Answer :=
  regOp ln e (fun x => x.setAcc acc (BitVec.ofInt 80 (qv (x.reg ra) * 2 ^ 24))) s

/-- ARD. -/
def execArd (ln : LaneId) (e : EngIx) (acc : Bool) (rd : Reg) (s : State) : Answer :=
  regOp ln e (fun x => x.setQ rd (rna (x.acc acc).toInt 24)) s

/-- ARH. -/
def execArh (ln : LaneId) (e : EngIx) (acc : Bool) (rd : Reg) (s : State) : Answer :=
  regOp ln e (fun x => x.setReg rd ((x.acc acc).extractLsb' 40 40)) s

/-- ARL. -/
def execArl (ln : LaneId) (e : EngIx) (acc : Bool) (rd : Reg) (s : State) : Answer :=
  regOp ln e (fun x => x.setReg rd ((x.acc acc).extractLsb' 0 40)) s

/-- AWR. -/
def execAwr (ln : LaneId) (e : EngIx) (acc : Bool) (ra rb : Reg) (s : State) : Answer :=
  regOp ln e (fun x => x.setAcc acc (x.reg ra ++ x.reg rb)) s

/-! ### Compares and predicates (R179) -/

/-- EQ. -/
def execEq (ln : LaneId) (e : EngIx) (p : Pred) (ra rb : Reg) (s : State) : Answer :=
  regOp ln e (fun x => x.setPred p (condHolds 0 (x.reg ra) (x.reg rb))) s

/-- NE. -/
def execNe (ln : LaneId) (e : EngIx) (p : Pred) (ra rb : Reg) (s : State) : Answer :=
  regOp ln e (fun x => x.setPred p (condHolds 1 (x.reg ra) (x.reg rb))) s

/-- LT. -/
def execLt (ln : LaneId) (e : EngIx) (p : Pred) (ra rb : Reg) (s : State) : Answer :=
  regOp ln e (fun x => x.setPred p (condHolds 2 (x.reg ra) (x.reg rb))) s

/-- LE. -/
def execLe (ln : LaneId) (e : EngIx) (p : Pred) (ra rb : Reg) (s : State) : Answer :=
  regOp ln e (fun x => x.setPred p (condHolds 3 (x.reg ra) (x.reg rb))) s

/-- LTU. -/
def execLtu (ln : LaneId) (e : EngIx) (p : Pred) (ra rb : Reg) (s : State) : Answer :=
  regOp ln e (fun x => x.setPred p (condHolds 4 (x.reg ra) (x.reg rb))) s

/-- LEU. -/
def execLeu (ln : LaneId) (e : EngIx) (p : Pred) (ra rb : Reg) (s : State) : Answer :=
  regOp ln e (fun x => x.setPred p (condHolds 5 (x.reg ra) (x.reg rb))) s

/-- LTW. -/
def execLtw (ln : LaneId) (e : EngIx) (p : Pred) (ra rb : Reg) (s : State) : Answer :=
  regOp ln e (fun x => x.setPred p (condHolds 6 (x.reg ra) (x.reg rb))) s

/-- LEW. -/
def execLew (ln : LaneId) (e : EngIx) (p : Pred) (ra rb : Reg) (s : State) : Answer :=
  regOp ln e (fun x => x.setPred p (condHolds 7 (x.reg ra) (x.reg rb))) s

/-- PAND. -/
def execPand (ln : LaneId) (e : EngIx) (p pa pb : Pred) (s : State) : Answer :=
  regOp ln e (fun x => x.setPred p (x.pred pa && x.pred pb)) s

/-- POR. -/
def execPor (ln : LaneId) (e : EngIx) (p pa pb : Pred) (s : State) : Answer :=
  regOp ln e (fun x => x.setPred p (x.pred pa || x.pred pb)) s

/-- PXOR. -/
def execPxor (ln : LaneId) (e : EngIx) (p pa pb : Pred) (s : State) : Answer :=
  regOp ln e (fun x => x.setPred p (x.pred pa != x.pred pb)) s

/-- PNOT. -/
def execPnot (ln : LaneId) (e : EngIx) (p pa : Pred) (s : State) : Answer :=
  regOp ln e (fun x => x.setPred p (!x.pred pa)) s

/-! ### Branches (R180) -/

/-- The branch target: the address of the branch plus 4 × sext(offset21), modulo 2^32. -/
def branchTo (pc : Word) (off : BitVec 21) : Word := pc + off.signExtend 32 * 4

/-- BR. -/
def execBr (ln : LaneId) (e : EngIx) (off : BitVec 21) (s : State) : Answer :=
  jumpOp ln e (fun x => { x with pc := branchTo x.pc off }) s

/-- BP. -/
def execBp (ln : LaneId) (e : EngIx) (p : Pred) (off : BitVec 21) (s : State) : Answer :=
  jumpOp ln e (fun x => if x.pred p then { x with pc := branchTo x.pc off } else x.next) s

/-- BNP. -/
def execBnp (ln : LaneId) (e : EngIx) (p : Pred) (off : BitVec 21) (s : State) : Answer :=
  jumpOp ln e (fun x => if x.pred p then x.next else { x with pc := branchTo x.pc off }) s

/-- JAL: with x = 0 it acts as BR. -/
def execJal (ln : LaneId) (e : EngIx) (rd : Reg) (off : BitVec 21) (s : State) : Answer :=
  jumpOp ln e (fun x => { x.setReg rd ((x.pc + 4).setWidth 40) with pc := branchTo x.pc off }) s

/-! ### Loads, stores and ports (R181 to R184) -/

/-- LD40. -/
def execLd40 (ln : LaneId) (e : EngIx) (rt ra : Reg) (disp : BitVec 12) (s : State) : Answer :=
  laneOp ln e (fun c l d x =>
    let a := memAddr x ra disp 8
    if loadOk d a 8 then l.setEng e.val (x.setReg rt (l.slot (tcmAddr e.val a))).next else l.windowTrap c e.val) s

/-- ST40. -/
def execSt40 (ln : LaneId) (e : EngIx) (rt ra : Reg) (disp : BitVec 12) (s : State) : Answer :=
  laneOp ln e (fun c l d x =>
    let a := memAddr x ra disp 8
    if storeOk d a 8 then (l.setSlot (tcmAddr e.val a) (x.reg rt)).setEng e.val x.next else l.windowTrap c e.val) s

/-- LD32, sign- or zero-extended. -/
def execLd32 (ln : LaneId) (e : EngIx) (zext : Bool) (rt ra : Reg) (disp : BitVec 12) (s : State) : Answer :=
  laneOp ln e (fun c l d x =>
    let a := memAddr x ra disp 4
    let g := l.granule (tcmAddr e.val a)
    if loadOk d a 4 then l.setEng e.val (x.setReg rt (if zext then g.setWidth 40 else g.signExtend 40)).next
    else l.windowTrap c e.val) s

/-- ST32. -/
def execSt32 (ln : LaneId) (e : EngIx) (rt ra : Reg) (disp : BitVec 12) (s : State) : Answer :=
  laneOp ln e (fun c l d x =>
    let a := memAddr x ra disp 4
    if storeOk d a 4 then (l.setGranule (tcmAddr e.val a) ((x.reg rt).setWidth 32)).setEng e.val x.next
    else l.windowTrap c e.val) s

/-- PIN: a snapshot slot by index, whole or its low granule zero-extended; in a run-ahead leg the window holds the
predicted values (R184). -/
def execPin (ln : LaneId) (e : EngIx) (low : Bool) (rt ra : Reg) (disp : BitVec 12) (s : State) : Answer :=
  laneOp ln e (fun c l d x =>
    let k := slotIx x ra disp
    if slotIn k d.snapshot.length then
      let a := tcmAddr e.val (0xC000 + 8 * k.toNat)
      l.setEng e.val (x.setReg rt (if low then (l.granule a).setWidth 40 else l.slot a)).next
    else l.windowTrap c e.val) s

/-- POUT: a buffer slot by index, whole or the low granule with the high granule 0. -/
def execPout (ln : LaneId) (e : EngIx) (low : Bool) (rt ra : Reg) (disp : BitVec 12) (s : State) : Answer :=
  laneOp ln e (fun c l d x =>
    let k := slotIx x ra disp
    if slotIn k d.buffer.length then
      let a := tcmAddr e.val (0xC100 + 8 * k.toNat)
      let v := x.reg rt
      (if low then (l.setGranule a (v.setWidth 32)).setGranule (a + 4) 0 else l.setSlot a v).setEng e.val x.next
    else l.windowTrap c e.val) s

/-! ### Traps and CORDIC (R185, R186, R195) -/

/-- The effect of an undefined encoding (R195): encoding_trap, and the engine is scratched with cause 5. -/
def Lane.encodingTrap (c : Ctx) (l : Lane) (e : Nat) : Lane := (l.flag R.EA_FLAGS_encoding_trap).cellFault c e 5

/-- ENCODING_TRAP (R172, R173, R195): a word that spells no instruction. -/
def execEncodingTrap (ln : LaneId) (e : EngIx) (word : Word) (s : State) : Answer :=
  laneOp ln e (fun c l _ _ => if decodeEngineWord ln e word = none then l.encodingTrap c e.val else l) s

/-- The register after another. -/
def regAfter (r : Reg) : Reg := Fin.ofNat 32 (r.val + 1)

/-- An operation handed to the CORDIC unit: the engine stalls until its result, 36 engine cycles later. -/
def Lane.issueCordic (c : Ctx) (l : Lane) (e : Nat) (x : Engine) (op : CordicOp) : Lane :=
  l.setEng e { x with cordic := some { op with readyAt := c.now + 72 } }

/-- CROT: a pairing rule broken is an undefined encoding (R173). -/
def execCrot (ln : LaneId) (e : EngIx) (rd ra rb : Reg) (s : State) : Answer :=
  laneOp ln e (fun c l _ x =>
    if pairOk false rd ra then
      l.issueCordic c e.val x ⟨false, x.reg ra, x.reg (regAfter ra), (x.reg rb).setWidth 32, rd, 0⟩
    else l.encodingTrap c e.val) s

/-- CATAN. -/
def execCatan (ln : LaneId) (e : EngIx) (rd ra rb : Reg) (s : State) : Answer :=
  laneOp ln e (fun c l _ x =>
    if pairOk true rd ra then l.issueCordic c e.val x ⟨true, x.reg ra, x.reg rb, 0, rd, 0⟩
    else l.encodingTrap c e.val) s

/-- The engine after its CORDIC result (R186): the pair written, saturations counted, and the next instruction. -/
def Engine.cordicDone (x : Engine) (op : CordicOp) : Engine :=
  let y := { x with cordic := none }
  if op.atan then
    let (m, z) := if op.x = 0 ∧ op.y = 0 then (0, 0) else catanRaw (qv op.x) (qv op.y)
    ((y.setQ op.rd m).setReg (regAfter op.rd) (z.setWidth 40)).next
  else
    let (a, b) := crotRaw (qv op.x) (qv op.y) op.angle.toInt
    ((y.setQ op.rd a).setQ (regAfter op.rd) b).next

/-- CORDIC_RESULT (R185). -/
def execCordicResult (ln : LaneId) (e : EngIx) (s : State) : Answer :=
  onAlive ln (fun c l =>
    match (l.eng e.val).cordic with
    | some op => if op.readyAt ≤ c.now then l.setEng e.val ((l.eng e.val).cordicDone op) else l
    | none => l) s

/-! ### Leg control (R187 to R192) -/

/-- YIELD (R141, R190): the context goes onto the top of the own deque, or the leg goes on where that deque is full. -/
def execYield (ln : LaneId) (e : EngIx) (s : State) : Answer :=
  laneOp ln e (fun c l d x =>
    match x.run with
    | some r =>
      if x.deque.length < 16 then
        let sv : Saved := ⟨x.w, x.acc0, x.acc1, x.p, x.pc + 4, x.sat, x.spawn, l.bufferBytes e.val d, l.stateBytes e.val d, r.firstAt⟩
        let n : Entry := ⟨r.leg, true, r.ahead, r.second, some sv⟩
        let y := { x with deque := x.deque ++ [n], maxDepth := max x.maxDepth (x.deque.length + 1) }
        (l.setEng e.val y).freeEngine c e.val
      else l.setEng e.val x.next
    | none => l) s

/-- The instant that a leg's time left counts to (R188): its hurdle, or before its target boundary that boundary. -/
def Lane.timeLimit (l : Lane) (d : LegDesc) (r : Run) : Nat :=
  if r.ahead then l.ea.heatAt + l.heatLen else l.hurdleAt d.hurdle

/-- HURDLE (R147, R188). -/
def execHurdle (ln : LaneId) (e : EngIx) (t : BitVec 17) (s : State) : Answer :=
  laneOp ln e (fun c l d x =>
    match x.run with
    | some r => if l.timeLimit d r < c.now + t.toNat * 10 then l.endRun c e.val 2 else l.setEng e.val x.next
    | none => l) s

/-- SPAWN (R189): a leg that is not defined or not on_demand, or a full list, is a window trap. -/
def execSpawn (ln : LaneId) (e : EngIx) (leg : BitVec 8) (s : State) : Answer :=
  laneOp ln e (fun c l _ x =>
    match l.legDesc leg.toNat with
    | some g =>
      if g.onDemand = true ∧ x.spawn.length < 4 then l.setEng e.val { x with spawn := x.spawn ++ [leg.toNat] }.next
      else l.windowTrap c e.val
    | none => l.windowTrap c e.val) s

/-- DIGEST (R192). -/
def execDigest (ln : LaneId) (e : EngIx) (s : State) : Answer :=
  regOp ln e (fun x => x.writeDigest x.pc) s

/-- COMMIT (R146, R191). -/
def execCommit (ln : LaneId) (e : EngIx) (s : State) : Answer :=
  laneOp ln e (fun c l _ _ => l.commitRun c e.val) s

/-- SQUASH (R147). -/
def execSquash (ln : LaneId) (e : EngIx) (s : State) : Answer :=
  laneOp ln e (fun c l _ _ => l.endRun c e.val 1) s

/-! ### Scheduling commands -/

/-- LEG_START. -/
def execLegStart (ln : LaneId) (e : EngIx) (s : State) : Answer := onAlive ln (fun c l => legStartL c e l) s

/-- STEAL_SWEEP. -/
def execStealSweep (ln : LaneId) (e : EngIx) (s : State) : Answer := onAlive ln (fun c l => stealSweepL c e l) s

/-- ENGINE_WAKE. -/
def execEngineWake (ln : LaneId) (e : EngIx) (cause : WakeCause) (s : State) : Answer :=
  onAlive ln (fun c l => engineWakeL c e cause l) s

/-- RA_LEG_READY. -/
def execRaLegReady (ln : LaneId) (leg : BitVec 8) (s : State) : Answer := onAlive ln (fun _ l => raLegReadyL leg l) s

/-- TCM_WRITE. -/
def execTcmWrite (ln : LaneId) (addr : Word) (value : Word) (s : State) : Answer :=
  onAlive ln (fun c l => tcmWriteL c addr value l) s

end Sys2Proof.Machine
end

