-- ==== Sys2Proof/Machine/Registers.lean ====
section
/-! DEFINITION. A core's writes and the read of a pair (R8, R16 to R22, R561, R562): which addresses the member has, what a
write does to each field, and the effect of the registers that act when written. -/

namespace Sys2Proof.Machine

/-! ### Which addresses there are -/

/-- An address within block `n` of a run of register blocks. -/
def inBlock (base stride a n : Nat) : Bool := decide (base + stride * n ≤ a) && decide (a < base + stride * (n + 1))

/-- Whether the member has the unit or channel of a register (R8, R22): link 1 and lane C (R92), the run-ahead counters
(R167), MC1 and PS1, the drivers and channels of the larger members, and the marshal's window on -M parts. -/
def regFitted (c : Ctx) (a : Nat) : Bool :=
  match irqLine a with
  | 0 => isTriple c.part.member || !([R.LM_LINK1_ERR, R.LM_LINK1_LOST, R.LM_LIFE_C, R.LM_DWELL_C].contains a)
  | 2 => isTriple c.part.member || !([R.EA_RA_COMMIT, R.EA_RA_SQUASH, R.EA_RA_LAST].contains a)
  | 4 => isTriple c.part.member
  | 6 => isTriple c.part.member
  | 7 => (List.range 6).all (fun n => decide (n < solenoidCount c.part.member) || !inBlock 0x40030100 0x40 a n)
  | 8 => (List.range 4).all (fun n => decide (n < stepperCount c.part.member) || !inBlock 0x40034100 0x100 a n)
  | 12 => c.part.marshal
  | _ => true

/-- A transmit buffer's window, write-only (R408). -/
def inTxWindow (a : Nat) : Bool := decide (0x40041000 ≤ a) && decide (a < 0x40042000) && decide (a % 4 = 0)

/-- A receive buffer's front copy, read-only (R408). -/
def inRxWindow (a : Nat) : Bool := decide (0x40042000 ≤ a) && decide (a < 0x40044000) && decide (a % 4 = 0)

/-- Whether an address of the peripheral region is a register of this member. -/
def regThere (c : Ctx) (a : Nat) : Bool := regFitted c a && ((findRow a).isSome || inTxWindow a || inRxWindow a)

/-! ### Writes -/

/-- A write's effect on the fields that only hold what is written: rw fields are set, w1c fields are cleared by 1, ro fields
and reserved bits stay (R16, R17). -/
def Lane.writeFields (l : Lane) (r : RegRow) (a : Nat) (v : Word) : Lane :=
  let rw := BitVec.ofNat 32 r.rw
  (l.wr a ((l.rd a &&& ~~~rw) ||| (v &&& rw))).clearFlags a v (BitVec.ofNat 32 r.w1c)

/-- The lane manager's registers. -/
def Lane.writeLm (c : Ctx) (l : Lane) (a : Nat) (v : Word) : Option Lane :=
  if a = R.LM_SELF_UNFIT then some (selfUnfitWriteL c v l)
  else if a = R.LM_ROT_PERIOD then some (rotPeriodWriteL v l)
  else if a = R.LM_ROT_ENV then some (rotEnvWriteL v l)
  else if a = R.LM_PIN then some (pinWriteL c v l)
  else if a = R.LM_PASS_REQ then some (passReqWriteL c v l)
  else none

/-- The containment unit's registers: a scrub period outside 1 to 600 is clamped (R132). -/
def Lane.writeFc (c : Ctx) (l : Lane) (a : Nat) (v : Word) : Option Lane :=
  if a = R.FC_MEM_INJ then some (memInjWriteL c v l)
  else if a = R.FC_SCRUB_PERIOD then
    some (l.put R.FC_SCRUB_PERIOD_seconds (min (max (fldOf R.FC_SCRUB_PERIOD_seconds v) 1) 600))
  else none

/-- A motor channel's or power stage's registers. PSn_CTRL holds both requests. -/
def Lane.writeMc (c : Ctx) (l : Lane) (a : Nat) (v : Word) (ch : Fin 2) : Option Lane :=
  if a = R.MC_OBS_ENV ch.val then some (obsEnvWriteL ch v l)
  else if a = R.PS_CTRL ch.val then some (ascTestWriteL c ch v (stoReqWriteL c ch v l))
  else none

/-- SPn_CTRL (R323): home and stop. -/
def Lane.writeSpCtrl (c : Ctx) (l : Lane) (n : Fin 4) (v : Word) : Lane :=
  let l1 := if v.getLsbD 1 then homeCommandL c n l else l
  if v.getLsbD 2 then stopCommandL c n l1 else l1

/-- A stepper's registers. -/
def Lane.writeSp (c : Ctx) (l : Lane) (a : Nat) (v : Word) (n : Fin 4) : Option Lane :=
  if a = R.SPn_CTRL n.val then some (l.writeSpCtrl c n v)
  else if a = R.SPn_TARGET n.val + 4 then some (targetWriteL c n v l)
  else if a = R.SPn_CMP n.val + 4 then some (cmpArmL c n v l)
  else if a = R.SPn_CMP_CFG n.val then
    let l1 := l.putB (R.SPn_CMP_CFG_fire_if_passed n.val) (v.getLsbD 1)
    some (if v.getLsbD 3 then cmpDisarmL c n l1 else l1)
  else if a = R.SPn_CUR_ENV n.val then some (curEnvWriteL c n v l)
  else none

/-- The Nolxis controller's registers: NX_CTRL holds both requests, and a word of a transmit window is stored (R408). -/
def Lane.writeNx (c : Ctx) (l : Lane) (a : Nat) (v : Word) : Option Lane :=
  if a = R.NX_CTRL then some (passiveReqL c v (nxEnableL c v l))
  else if inTxWindow a then some (l.setGranule a v)
  else if inRxWindow a then some l
  else ((List.range 16).find? (fun n => decide (a = R.NX_TXn_CTRL n))).map (fun n => txCommitL (Fin.ofNat 16 n) v l)

/-- The registers of timer t: TMt_DUE arms it, TMt_CFG.disarm disarms it, and TMt_PERIOD takes 0 or 1000 to
2 147 483 647 ns only (R420, R422, R427). -/
def Lane.writeTimer (c : Ctx) (l : Lane) (a : Nat) (v : Word) (r : RegRow) (t : Fin 64) : Lane :=
  if a = R.TMt_DUE t.val then timerDueWriteL c t v l
  else if a = R.TMt_CFG t.val then
    let l1 := (l.fireUpTo c t.val).writeFields r a v
    if v.getLsbD 3 then { l1.put (R.TMt_CFG_armed t.val) 0 with bus := .done } else l1
  else if a = R.TMt_PERIOD t.val then
    (if v = 0 ∨ (1000 ≤ v.toNat ∧ v.toNat ≤ 2147483647) then (l.fireUpTo c t.val).wr a v else l)
  else l.writeFields r a v

/-- The envelope unit's registers: the payload staged for SE_TX_SEL.conn, and its commit (R442). -/
def Lane.writeSe (l : Lane) (a : Nat) (v : Word) : Option Lane :=
  if a = R.SE_TX_CTRL then some (seTxCommitL v l)
  else if R.SE_TX_DATAw 0 ≤ a ∧ a < R.SE_TX_DATAw 61 then some (l.stageTx ((a - R.SE_TX_DATAw 0) / 4) v)
  else none

/-- The registers of CAN controller k (R496). -/
def Lane.writeCan (l : Lane) (a : Nat) (v : Word) (k : Fin 2) : Option Lane :=
  if a = R.CNk_CTRL k.val then some (canRecoverWriteL k v l)
  else if a = R.CNk_RX_POP k.val then some (canRxPopL k v l)
  else ((List.range 16).find? (fun m => decide (a = R.CNk_TXm_CTRL k.val m))).map (fun m => canSendL k (Fin.ofNat 16 m) v l)

/-- The effect of a register that acts when written, by its unit; none where it only holds what is written. -/
def Lane.writeActs (c : Ctx) (l : Lane) (r : RegRow) (a : Nat) (v : Word) : Option Lane :=
  match irqLine a with
  | 0 => l.writeLm c a v
  | 1 => l.writeFc c a v
  | 3 => l.writeMc c a v 0
  | 4 => l.writeMc c a v 1
  | 5 => l.writeMc c a v 0
  | 6 => l.writeMc c a v 1
  | 7 => ((List.range 6).find? (fun n => decide (a = R.BKn_DITHER_ENV n))).map (fun n => ditherEnvWriteL c (Fin.ofNat 6 n) v l)
  | 8 => ((List.range 4).find? (inBlock 0x40034100 0x100 a)).bind (fun n => l.writeSp c a v (Fin.ofNat 4 n))
  | 10 => if a = R.SI_DO_SET then some (doSetWriteL c v l) else none
  | 11 => l.writeNx c a v
  | 13 => ((List.range 64).find? (inBlock 0x40050100 0x20 a)).map (fun t => l.writeTimer c a v r (Fin.ofNat 64 t))
  | 14 => l.writeSe a v
  | 15 => if a = R.PW_PAD_RELEASE then some (padReleaseL v l) else none
  | 17 => if a = R.HA_BASELINE_RESET then some (baselineResetL v l) else none
  | 18 => l.writeCan a v (if a < 0x40071000 then 0 else 1)
  | _ => none

/-- The _LO register of a pair that firmware writes: it is held in staging (R19). -/
def stagedLow (r : RegRow) (a : Nat) : Bool := r.pair && decide (r.rw ≠ 0) && !rowHigh r a

/-- A 32-bit write of a register of the lane: staging of a _LO register, the register's own effect, or its fields. A line
that an enable raises takes its raise stamp (R419). -/
def Lane.writeReg (c : Ctx) (l : Lane) (a : Nat) (v : Word) : Lane :=
  let r := (findRow a).getD ⟨a, 0, 1, 0, 1, 1, false, false, 0, 0, 0, 0⟩
  let l1 :=
    if stagedLow r a then { l with staging := tabPut l.staging a v }
    else (l.writeActs c r a v).getD (l.writeFields r a v)
  Lane.irqNote l { l1 with bus := .done } (irqLine a)

/-- Bytes in the block memories that are fitted and not quarantined (R21). -/
def Lane.blockThere (c : Ctx) (l : Lane) (a n : Nat) : Bool :=
  decide (0x10000000 ≤ a ∧ a + n ≤ 0x10000000 + 0x40000 * blockCount c.part.member) &&
    !Nat.testBit (l.get R.FC_BLOCKS_quarantined) ((a - 0x10000000) / 0x40000) &&
    !Nat.testBit (l.get R.FC_BLOCKS_quarantined) ((a + n - 1 - 0x10000000) / 0x40000)

/-- A store outside the peripheral region: lane SRAM and a fitted block that is not quarantined take the bytes, an engine's
TCM is written as R166 allows, and the flash window takes no store; every other address is a bus error (R21, R28, R562). -/
def Lane.writeMem (c : Ctx) (l : Lane) (a n : Nat) (v : Word) : Lane :=
  if a < 0x10000000 then
    (if l.tcmThere c a n && l.beforeHeat then { l.setBytes a ((wordBytes v).take n) with bus := .done } else { l with bus := .error })
  else if l.blockThere c a n then
    { l.setBytes a ((wordBytes v).take n) with bus := .done }
  else if 0x20000000 ≤ a ∧ a + n ≤ 0x20400000 then { l.setBytes a ((wordBytes v).take n) with bus := .done }
  else if 0x30000000 ≤ a ∧ a + n ≤ 0x32000000 then { l with bus := .done }
  else { l with bus := .error }

/-- A write by the lane's supervisor core. A peripheral access that is not of 32 bits, is misaligned or finds no register is a
bus error and changes no register (R8, R22, R561). -/
def Lane.coreWrite (c : Ctx) (l : Lane) (a n : Nat) (v : Word) : Lane :=
  if a < 0x40000000 ∨ 0x50000000 ≤ a then l.writeMem c a n v
  else if n = 4 ∧ a % 4 = 0 ∧ regThere c a = true then l.writeReg c a v
  else { l with bus := .error }

/-- A lane's flag register cleared where the lane has it. -/
def State.msClear (s : State) (v : Word) (x : LaneId) : State :=
  if s.has x && s.reaches x then s.setLane x ((s.lane x).clearFlags R.MS_FLAGS v 0x1FF) else s

/-- A write in the marshal's window by a lane that reaches it (R409): MS_FLAGS is one register of the marshal, so every
lane's copy is cleared, but for mgmt_lost, which is the lane's; MS_REQUAL acts; the enables and the selector are the lane's. -/
def State.msWrite (s : State) (ln : LaneId) (a : Nat) (v : Word) : State :=
  if a = R.MS_FLAGS then
    let w := bankGet s.marshal.regs R.MS_FLAGS &&& ~~~(v &&& 0x1FF &&& ~~~(s.lane ln).setNow R.MS_FLAGS)
    let s0 := { s with marshal := { s.marshal with regs := bankSet s.marshal.regs R.MS_FLAGS w } }
    let s1 := ((s0.msClear v .a).msClear v .b).msClear v .c
    s1.setLane ln ((s1.lane ln).clearFlags a v 0x200)
  else if a = R.MS_REQUAL then
    (if (s.lane ln).parked then
      (List.range 16).foldl (fun x b => if v.getLsbD b && x.marshal.disq b then x.requalify b else x) s
    else s)
  else s.setLane ln ((s.lane ln).writeReg (s.ctx ln) a v)

/-- REGISTER_WRITE (R16, R8, R561): one access of the supervisor core of a powered lane. -/
def execRegisterWrite (ln : LaneId) (addr : Word) (size : Nat) (value : Word) (s : State) : Answer :=
  let a := addr.toNat
  if irqLine a = 12 ∧ 0x40048000 ≤ a ∧ a < 0x4004C000 then
    (if !(s.has ln && (s.lane ln).alive) then .next s
    else if size = 4 ∧ a % 4 = 0 ∧ regThere (s.ctx ln) a = true then
      let s1 := s.setLane ln { s.lane ln with bus := .done }
      .next (if s.reaches ln then s1.msWrite ln a value else s1)
    else .next (s.setLane ln { s.lane ln with bus := .error }))
  else onAlive ln (fun c l => l.coreWrite c a size value) s

/-! ### Pairs (R18 to R20) -/

/-- PAIR_LO_WRITE (R19): the low word is held in staging, replacing what was held; a pair that firmware does not write, or an
address that is no _LO register, is written as any register. -/
def pairLoWriteL (c : Ctx) (a : Nat) (v : Word) (l : Lane) : Lane :=
  if regThere c a = true ∧ (findRow a).any (fun r => stagedLow r a) = true then { l with staging := tabPut l.staging a v, bus := .done }
  else l.coreWrite c a 4 v

/-- PAIR_LO_WRITE. -/
def execPairLoWrite (ln : LaneId) (addr : Word) (value : Word) (s : State) : Answer :=
  onAlive ln (fun c l => pairLoWriteL c addr.toNat value l) s

/-- PAIR_HI_WRITE (R19): the staged low word and the new high word take effect together, as the pair's unit has it: a target
(R303) or a compare position (R313). -/
def pairHiWriteL (c : Ctx) (a : Nat) (v : Word) (l : Lane) : Lane := l.coreWrite c a 4 v

/-- PAIR_HI_WRITE. -/
def execPairHiWrite (ln : LaneId) (addr : Word) (value : Word) (s : State) : Answer :=
  onAlive ln (fun c l => pairHiWriteL c addr.toNat value l) s

/-- What the core's read of a register gives: the _HI register of a pair whose _LO was read last gives the upper bits of that
snapshot, once (R20); a _LO register gives its value and takes the snapshot. -/
def Lane.coreRead (c : Ctx) (l : Lane) (a : Nat) : Lane :=
  match findRow a with
  | none => { l with bus := .value (l.view c a) }
  | some r =>
    if rowHigh r a then
      match tabGet l.snap (a - 4) with
      | some w => { l with bus := .value w, snap := tabDel l.snap (a - 4) }
      | none => { l with bus := .value (l.view c a) }
    else if r.pair then { l with bus := .value (l.view c a), snap := tabPut l.snap a (l.view c (a + 4)) }
    else { l with bus := .value (l.view c a) }

/-- Bytes outside the peripheral region that the supervisor core can read (R21, R28, R166): fit engines' TCMs, fitted blocks that
are not quarantined, lane SRAM, and the flash window. -/
def Lane.memThere (c : Ctx) (l : Lane) (a n : Nat) : Bool :=
  l.tcmThere c a n || l.blockThere c a n || decide (0x20000000 ≤ a ∧ a + n ≤ 0x20400000) ||
    decide (0x30000000 ≤ a ∧ a + n ≤ 0x32000000)

/-- PAIR_LO_READ (R20). The next read of the _HI register is this command at that address. A free readback is drawn anew for
every read. Outside the peripheral region the core reads four bytes of memory. -/
def pairLoReadL (c : Ctx) (a : Nat) (l : Lane) : Lane :=
  if 0x40000000 ≤ a ∧ a < 0x50000000 ∧ a % 4 = 0 ∧ regThere c a = true ∧ irqLine a ≠ 12 then (l.coreRead c a).draw
  else if l.memThere c a 4 then { l with bus := .value (l.granule a) }
  else { l with bus := .error }

/-- PAIR_LO_READ. The marshal's registers are no pairs: they read as msView has them. -/
def execPairLoRead (ln : LaneId) (addr : Word) (s : State) : Answer :=
  let a := addr.toNat
  if irqLine a = 12 ∧ a % 4 = 0 ∧ regThere (s.ctx ln) a = true then
    let s := if s.reaches ln then s.settleMarshal else s
    onAlive ln (fun _ l => { l with bus := .value (s.msView ln a) }) s
  else onAlive ln (fun c l => pairLoReadL c a l) s

end Sys2Proof.Machine
end

