-- ==== Sys2Proof/Machine/ServicePort.lean ====
section
/-! DEFINITION. The service port's messages (R484 to R487): their check, their dispatch by opcode, and the READ request. -/

namespace Sys2Proof.Machine

/-! ### READ (R486) -/

/-- Peripheral words read one after the other; a free readback is drawn anew for each. None where one read is a bus error. -/
def State.readWords (ln : LaneId) (a : Nat) : Nat → State → Option (List Word)
  | 0, _ => some []
  | n + 1, s =>
    if regThere (s.ctx ln) a then
      ((s.setLane ln (s.lane ln).draw).readWords ln (a + 4) n).map (fun ws => s.readReg ln a :: ws)
    else none

/-- What READ finds: flash, or registers read as 32-bit words (R561); none gives BAD_ADDR. -/
def State.svcFetch (s : State) (ln : LaneId) (a len : Nat) : Option (List Word) :=
  if 0x30000000 ≤ a ∧ a + len ≤ 0x32000000 then
    some ((List.range (len / 4)).map (fun i => (s.lane ln).granule (a + 4 * i)))
  else if 0x40000000 ≤ a ∧ a + len ≤ 0x50000000 ∧ a % 4 = 0 then s.readWords ln a (len / 4)
  else none

/-- READ (R486): a length above 1024 bytes or that is no multiple of 4 is malformed, since a payload is whole words (R485). -/
def svcReadL (s : State) (c : Ctx) (q : SvcReq) (addr : Word) (len : Nat) (l : Lane) : Lane :=
  l.onceSvc q (fun y =>
    if 1024 < len ∨ len % 4 ≠ 0 then (y.touch c).answer q 0x02 7 []
    else
      match s.svcFetch c.id addr.toNat len with
      | some ws => { (y.touch c).answer q 0x02 0 ws with free := y.free + len / 4 }
      | none => (y.touch c).answer q 0x02 6 [])

/-- READ. -/
def execSvcRead (ln : LaneId) (q : SvcReq) (addr : Word) (len : Nat) (s : State) : Answer :=
  onAlive ln (fun c l => svcReadL s c q addr len l) s

/-! ### Messages (R485) -/

/-- Whether a message of `bytes` bytes is well formed: 16 to 1040 bytes, version 1, a payload length that is a multiple of 4 up
to 1024 and fills the message, no status and no reserved bit, and the check over all words before it. -/
def svcWellFormed (ws : List Word) (bytes : Nat) : Bool :=
  let w0 := (wordAt ws 0).toNat
  let len := (wordAt ws 1).toNat % 65536
  decide (bytes ≤ 1040) && decide (w0 / 2 ^ 24 = 1) && decide (len % 4 = 0) && decide (len ≤ 1024) && decide (bytes = 16 + len) &&
    decide (ws.length = 4 + len / 4) && decide (wordAt ws 2 = 0) && decide (crc32cWords ws.dropLast = wordAt ws (3 + len / 4))

/-- What a malformed message is answered with; it is no request handled, so the stored response stays. -/
def Lane.badFormat (l : Lane) (q : SvcReq) (op : Nat) : Lane :=
  l.mail q.ip q.port.toNat (svcReply q op (l.get R.CF_SESSION_id) 7 [])

/-- The request of an opcode with its payload: none where the opcode is none of R486 or the payload is not its own. -/
def svcDispatch (s : State) (c : Ctx) (q : SvcReq) (op : Nat) (p : List Word) (l : Lane) : Option Lane :=
  let n := p.length
  match op with
  | 0x01 => if n = 0 then some (svcInfoL c q l) else none
  | 0x02 => if n = 2 then some (svcReadL s c q (wordAt p 0) (wordAt p 1).toNat l) else none
  | 0x03 => if n = 0 then some (svcOpenL c q l) else none
  | 0x04 => if n = 0 then some (svcCloseL c q l) else none
  | 0x05 =>
    if n = 11 then
      some (svcWriteBeginL c q (wordAt p 0) (wordAt p 1).toNat (wordAt p 2).toNat (digestOf ((p.drop 3).flatMap wordBytes)) l)
    else none
  | 0x06 => if 0 < n ∧ n ≤ 255 then some (svcWriteDataL c q (wordAt p 0).toNat ((p.drop 1).flatMap wordBytes) l) else none
  | 0x07 => if n = 0 then some (svcWriteEndL c q l) else none
  | 0x08 => if n = 0 then some (svcPromoteL c q l) else none
  | 0x09 => if n = 0 then some (svcAbortL c q l) else none
  | 0x0A => if n = 2 then some (svcReadJournalL c q (wordAt p 0) (wordAt p 1).toNat l) else none
  | _ => none

/-- SERVICE_MESSAGE_RECEIVE (R484, R485): a datagram to another port than the service port is no service message; one of less than 16
bytes is discarded; another malformed one is answered
BAD_FORMAT; a repeated transaction number is answered from the store; the others are dispatched. -/
def serviceMessageReceiveL (s : State) (c : Ctx) (fate : EthFate) (peer : UdpPeer) (target : BitVec 16) (data : UdpData) (l : Lane) : Lane :=
  if l.bit R.ET_STATUS_link_up = false then l
  else if fate ≠ .good then l.frameLost fate
  else if data.bytes < 16 ∨ target.toNat ≠ l.get R.ET_PORTS_service then l
  else
    let l0 := l.flag R.ET_FLAGS_svc_rx
    let ws := data.words
    let w0 := (wordAt ws 0).toNat
    let op := w0 / 65536 % 256
    let q : SvcReq := ⟨BitVec.ofNat 16 w0, (wordAt ws 1).extractLsb' 16 16, peer.ip, peer.port⟩
    if svcWellFormed ws data.bytes then
      (if l0.cf.lastTxn = some q.txn then l0.mail q.ip q.port.toNat l0.cf.lastReply
      else (svcDispatch s c q op ((ws.drop 3).dropLast) l0).getD (l0.badFormat q op))
    else l0.badFormat q op

/-- SERVICE_MESSAGE_RECEIVE. -/
def execServiceMessageReceive (ln : LaneId) (fate : EthFate) (peer : UdpPeer) (target : BitVec 16) (data : UdpData) (s : State) :
    Answer :=
  onAlive ln (fun c l => serviceMessageReceiveL s c fate peer target data l) s

end Sys2Proof.Machine
end

