-- ==== Sys2Proof/Machine/Wake.lean ====
section
/-! DEFINITION. Waking from NAP and DORMANT (R452 to R461): the retention banks read back, and loss of supply (R76, R468, R517). -/

namespace Sys2Proof.Machine

/-! ### The retention store read back (R458 to R461) -/

/-- Registers copied from one bank of registers into another. -/
def copyRegs (src : Bank) (dst : Bank) : List Nat → Bank
  | [] => dst
  | a :: t => copyRegs src (bankSet dst a (bankGet src a)) t

/-- What a bank of registers holds of one stepper channel put in place (R318, R460). -/
def Lane.takeChannel (l : Lane) (src : Bank) (n : Nat) : Lane :=
  let f := fun (x : Fld) => fldOf x (bankGet src x.addr)
  let l1 := { l with regs := copyRegs src l.regs [R.SPn_POS n, R.SPn_POS n + 4, R.SPn_TARGET n, R.SPn_TARGET n + 4] }
  ((l1.put (R.SPn_CUR_i_run n) (f (R.SPn_CUR_i_run n))).put (R.SPn_HOME_STAT_state n) (f (R.SPn_HOME_STAT_state n))).put
    (R.SPn_STATUS_homing_required n) (f (R.SPn_STATUS_homing_required n))

/-- The granules of a bank as they are read (R458): a corrected one has its word. -/
def readGranules (ws : List Word) (bad : List (Nat × Ecc)) : List Word :=
  bad.foldl (fun y p => match p.2 with
    | .corrected w => y.set p.1 w
    | _ => y) ws

/-- A bank of the store; one never saved has a cleared check word. -/
def Lane.bank (l : Lane) (k : Nat) : RetBank := (tabGet l.pw.banks k).getD default

/-- How a bank reads on wake (R459): 0 valid, 1 empty, 2 failed; `bad` lists the granules that did not decode clean. -/
def Lane.bankState (l : Lane) (k : Nat) (bad : List (Nat × Ecc)) : Nat :=
  let b := l.bank k
  if b.check = 0 then 1
  else if bad.any (fun p => decide (p.2 = .uncorrectable)) then 2
  else if b.check = bankCheck (readGranules b.words bad) (l.get R.PW_RET_STAT_entries) then 0 else 2

/-- How many granules of a bank were corrected. -/
def correctedOf (bad : List (Nat × Ecc)) : Nat := (bad.filter (fun p => decide (p.2 ≠ .clean ∧ p.2 ≠ .uncorrectable))).length

/-- One bank checked on wake (R459, R461): shown in PW_WAKE_CAUSE and PW_RET_STAT; corrected granules are corrected and counted. -/
def Lane.checkBank (l : Lane) (k : Nat) (bad : List (Nat × Ecc)) : Lane :=
  let st := l.bankState k bad
  let n := correctedOf bad
  let b := l.bank k
  let l0 := { l with pw := { l.pw with banks := tabPut l.pw.banks k { b with words := readGranules b.words bad } } }
  let l1 := (l0.incBy R.PW_RET_STAT_ce n).flagIf (decide (0 < n)) R.PW_FLAGS_ret_ce
  let l2 := l1.put R.PW_RET_STAT_valid (bitPut (l1.get R.PW_RET_STAT_valid) k (decide (st = 0)))
  let l3 := l2.put R.PW_WAKE_CAUSE_bank_empty (bitPut (l2.get R.PW_WAKE_CAUSE_bank_empty) k (decide (st = 1)))
  let l4 := l3.put R.PW_WAKE_CAUSE_bank_fail (bitPut (l3.get R.PW_WAKE_CAUSE_bank_fail) k (decide (st = 2)))
  l4.flagIf (decide (st = 2)) R.PW_FLAGS_bank_fail

/-- The banks checked in order. -/
def Lane.checkBanks (l : Lane) (es : List (List (Nat × Ecc))) : Lane :=
  (List.range 4).foldl (fun y k => y.checkBank k ((es[k]?).getD [])) l

/-- A bank is valid at this wake. -/
def Lane.bankOk (l : Lane) (k : Nat) : Bool := Nat.testBit (l.get R.PW_RET_STAT_valid) k

/-- The registers that a bank's granules hold (R460). -/
def Lane.bankMap (c : Ctx) (l : Lane) (k : Nat) : Bank :=
  ((bankRegs c.part.member k).zip (l.bank k).words).foldl (fun b p => bankSet b p.1 p.2) []

/-- A number of 64 bits in the granules of a bank that follow its registers. -/
def Lane.bankWide (c : Ctx) (l : Lane) (k i : Nat) : Nat :=
  let at_ := (bankRegs c.part.member k).length + i
  (wordAt (l.bank k).words at_).toNat + 2 ^ 32 * (wordAt (l.bank k).words (at_ + 1)).toNat

/-- Registers take their reset values. -/
def Lane.resetOf (c : Ctx) (l : Lane) (as : List Nat) : Lane :=
  { l with regs := copyRegs (resetRegs c.part (laneCode c.id)) l.regs as }

/-- Registers taken from a bank. -/
def Lane.fromBank (c : Ctx) (l : Lane) (k : Nat) (as : List Nat) : Lane := { l with regs := copyRegs (l.bankMap c k) l.regs as }

/-- The position banks and the firmware area on either wake (R460, R461, R316): of a channel its position, target, i_run and homing
state alone. -/
def Lane.restore12 (c : Ctx) (l : Lane) : Lane :=
  let chans := List.range (stepperCount c.part.member)
  let l1 := if l.bankOk 1 then chans.foldl (fun (y : Lane) n => y.takeChannel (l.bankMap c 1) n) l
    else chans.foldl (fun (y : Lane) n =>
      (y.takeChannel (resetRegs c.part (laneCode c.id)) n).flag (R.SPn_FLAGS_homing_required n)) l
  let l2 := chans.foldl (fun y n => y.stopSteps n) l1
  if l2.bankOk 2 then l2.fromBank c 2 bank2Regs else l2.resetOf c bank2Regs

/-- The shunt offsets of bank 3 and which of them are valid (R239, R460). -/
def Lane.takeOffsets (c : Ctx) (l : Lane) : Lane :=
  let off := fun (i : Nat) => (BitVec.ofNat 64 (l.bankWide c 3 (2 * i))).toInt
  let ok := l.bankWide c 3 12
  let l1 := { l with mc0 := { l.mc0 with offs := [off 0, off 1, off 2] }, mc1 := { l.mc1 with offs := [off 3, off 4, off 5] } }
  (l1.put (R.PS_STATUS_offset_valid 0) (ok % 2)).put (R.PS_STATUS_offset_valid 1) (ok / 2 % 2)

/-- No shunt offset is valid (R461). -/
def Lane.dropOffsets (l : Lane) : Lane :=
  let l1 := { l with mc0 := { l.mc0 with offs := [] }, mc1 := { l.mc1 with offs := [] } }
  (l1.put (R.PS_STATUS_offset_valid 0) 0).put (R.PS_STATUS_offset_valid 1) 0

/-- Bank 3 on either wake (R460, R461): envelopes, shunt offsets and what the health unit had not written; without it the health unit
has the accumulators of its last record. -/
def Lane.restore3 (c : Ctx) (l : Lane) : Lane :=
  let m := c.part.member
  if l.bankOk 3 then
    let b := l.bank 3
    let l1 := (l.fromBank c 3 (bank3Regs m)).takeOffsets c
    { l1 with ha := { l1.ha with mons := b.mons, reversals := b.reversals, miner := b.miner, opNs := b.opNs } }
  else
    let l1 := ((l.resetOf c (bank3Regs m)).dropOffsets).accumulatorsOf l.ha.lastRecord
    { l1 with ha := { l1.ha with opNs := 0 } }

/-- The times left of dwell and pin that bank 0 holds (R460). -/
def Lane.takeTimes (c : Ctx) (l : Lane) : Lane :=
  let left := l.bankWide c 0 0
  let pin := l.bankWide c 0 2
  let l1 := { l with
    pw := { l.pw with dwellLeft := if left + 1 < 2 ^ 64 then some left else none }
    baton := { l.baton with pinEnds := if 0 < pin then some (c.now + pin) else none } }
  l1.putB R.LM_ROLE_pinned (decide (0 < pin))

/-- What of bank 0 a lane woken from NAP takes (R460): the entry record is captured after the save (R451) and stays as it is. -/
def nap0Regs : List Nat :=
  [R.PW_REQ, R.LM_PIN, R.FC_SCRATCH, R.FC_BLOCKS, R.FC_MODE, R.FC_FAULT0, R.FC_FAULT0_TIME, R.FC_FAULT1, R.FC_FAULT1_TIME]

/-- Bank 0 after NAP (R460, R461): failed or empty, its registers take their reset values, with no fault counted and no pin, and the
lane is unfit, since its records are unknown. -/
def Lane.napBank0 (c : Ctx) (l : Lane) : Lane :=
  if l.bankOk 0 then
    ((l.fromBank c 0 nap0Regs).put R.LM_ROLE_baton_lane (fldOf R.LM_ROLE_baton_lane (bankGet (l.bankMap c 0) R.LM_ROLE))).takeTimes c
  else
    let l1 := ((l.resetOf c nap0Regs).put R.LM_ROLE_baton_lane 3).put R.LM_ROLE_pinned 0
    let l2 := { l1 with
      fc := { l1.fc with faults := [] }
      baton := { l1.baton with pinEnds := none, dwellEnds := none }
      pw := { l1.pw with dwellLeft := none } }
    l2.logicFault c 0xC

/-- The flags of a wake (R469). -/
def Lane.wakeFlags (l : Lane) : Lane :=
  let src := l.get R.PW_WAKE_CAUSE_sources
  ((l.flag R.PW_FLAGS_wake).flagIf (Nat.testBit src 4) R.PW_FLAGS_peer_wake).flagIf (l.bit R.PW_WAKE_CAUSE_replayed)
    R.PW_FLAGS_replay

/-- One angle interface starts again after a sleep (R331, R333): no position, angle or speed is kept, and nothing of its last valid
sample. -/
def Lane.restartAngle (l : Lane) (n : Nat) : Lane :=
  let x := l.af n
  let l1 := l.setAf n { (default : Angle) with seenAt := x.seenAt, okAt := x.okAt }
  let l2 := [R.AFn_STATUS_started n, R.AFn_STATUS_valid n, R.AFn_STATUS_method n, R.AFn_STATUS_coasting n, R.AFn_STATUS_direction n].foldl
    (fun y f => y.put f 0) l1
  let l3 := ((l2.putU (R.AFn_POS n) 0).putU (R.AFn_POS_HEAT n) 0).wr (R.AFn_ANGLE n) 0
  ((l3.wr (R.AFn_SPEED_CPS n) 0).putQ (R.AFn_ANGLE_RAD n) 0).putQ (R.AFn_SPEED_RAD n) 0

/-- The angle interfaces start again (R331, R333, R455). -/
def Lane.restartAngles (c : Ctx) (l : Lane) : Lane :=
  let l1 := (l.restartAngle 0).restartAngle 1
  { l1 with si := { l1.si with checkFrom := some c.now } }

/-- What a woken lane knows of another's heartbeats: none heard since the wake (R40; DEDUCED, log 52). -/
def Peer.unheard (p : Peer) : Peer := { p with hb := none, missed := 0, silentAt := none }

/-- No heartbeat of another lane heard. -/
def Lane.unheard (l : Lane) : Lane := { l with peerA := l.peerA.unheard, peerB := l.peerB.unheard, peerC := l.peerC.unheard }

/-- The memory code of an address of SRAM (R106), none elsewhere. -/
def sramCode (m : Member) (a : Nat) : Option Nat := [0, 1, 2].find? (fun k => inSram m k a)

/-- The scrub pass over the retained memories before their first use (R455): errors planted there and those it met. -/
def Lane.wakeScrub (c : Ctx) (l : Lane) (met : List (Word × Ecc)) : Lane :=
  let one := fun (y : Lane) (p : Nat × Ecc) =>
    match sramCode c.part.member p.1 with
    | some k => (y.scrubbed c k p.1 p.2 false).findingDone
    | none => y
  let all := l.planted.map (fun p => (p.1, Ecc.clean)) ++ met.map (fun p => (p.1.toNat / 4 * 4, p.2))
  let l1 := all.foldl one l
  let l2 := { l1 with fc := { l1.fc with scrubAt := 0, scrubFlash := 0, scrubFrom := some c.now } }
  ((l2.put R.FC_STATUS_scrub_active 0).inc R.FC_SCRUB_STAT_passes).flag R.FC_FLAGS_scrub_pass

/-- NAP_WAKE (R318, R454, R455, R460, R461): the module is in STILL, the baton on the listener, which holds its steppers; no power cycle
begins, and the lane is to pulse the others. -/
def napWakeL (c : Ctx) (x : WakeRead) (l : Lane) : Lane :=
  if l.phase ≠ .asleepNap ∨ l.get R.PW_WAKE_CAUSE_sources = 0 then l
  else
    let l0 := { l with phase := if l.st.ready then .ready else .awarding }
    let l1 := (((l0.wakeScrub c x.scrub).put R.PW_WAKE_CAUSE_from 0).checkBanks x.banks).wakeFlags
    let l2 := ((l1.restore12 c).restore3 c).settleCurrents c
    let l3 := ((l2.setPw 1).suppliesOn).restartAngles c
    let l4 := if l3.active then l3.stagesOn (handedMask c.part.member &&& 0xF00) else l3
    let l5 := (List.range (motorCount c.part.member)).foldl (fun y ch =>
      ((y.put (R.MC_STATUS_locked ch) 0).put (R.MC_STATUS_lock_src ch) 0).setMc ch { y.mc ch with lockRun := 0, lockAt := none, catchFrom := some c.now }) l4
    let l6 := if l5.bit R.NX_CTRL_enable then l5.nxGo c nxListen else l5
    let l7 := { l6.unheard.setLines l6.active with
      pw := { l6.pw with pulses := othersOf c, ponrAt := none, endedAt := some c.now, wokeAt := some c.now }
      bk := { l6.bk with ageWas := 0xFFFFFFFF } }
    l7.napBank0 c

/-- NAP_WAKE. -/
def execNapWake (ln : LaneId) (x : WakeRead) (s : State) : Answer := onLane ln (fun c l => napWakeL c x l) s

/-- Faults that bank 0 records, as FC_FAULT0 and FC_FAULT1 show them, added to the life counters (R456, R510). -/
def addHistory (counts : LifeCounts) : List Word → LifeCounts
  | [] => counts
  | w :: t =>
    addHistory (if w.msb then { counts with faults := raiseAt counts.faults (fldOf R.FC_FAULT0_class w - 1) } else counts) t

/-- DORMANT_WAKE (R456, R460, R461, R538): a power cycle begins at step 2 of the start, with the always-on domain as it was
and the retention store in place of reset values; the pads stay held (R462), and the lane is to pulse the others (R454). -/
def dormantWakeL (c : Ctx) (banks : List (List (Nat × Ecc))) (l : Lane) : Lane :=
  if l.phase ≠ .asleepDormant ∨ l.get R.PW_WAKE_CAUSE_sources = 0 then l
  else
    let aon := [R.PW_STATUS, R.PW_SLEEP_STAMP, R.PW_SLEEP_AON, R.PW_SLEEP_AON + 4, R.PW_WAKE_EN, R.PW_WAKE_CAUSE, R.PW_WAKE_STAMP] ++
      [R.PW_WAKE_AT, R.PW_WAKE_AT + 4, R.PW_RET_STAT, R.PW_PRES_TIME]
    let l0 := l.reborn c
    let l1 := { l0 with regs := copyRegs l.regs l0.regs aon, pw := { l.pw with pulses := othersOf c, ponrAt := none, vote := none, bootAt := none, wokeAt := none, rampDue := true },
                        st := { l0.st with afterDormant := true } }
    let l2 := (((l1.setPw 0).put R.PW_STATUS_new_cycle 1).put R.PW_WAKE_CAUSE_from 1).put R.PW_FLAGS_entered 1
    let l2 := (List.range (stepperCount c.part.member)).foldl (fun y n => y.put (R.SPn_STATUS_hold_current n) 1) l2
    let l3 := ((l2.checkBanks banks).wakeFlags.restore12 c).restore3 c
    let l4 := if l3.bankOk 3 then { l3 with ha := { l3.ha with counts := (l3.bank 3).counts } } else l3
    if l4.bankOk 0 then
      let m := l4.bankMap c 0
      let l5 := (l4.fromBank c 0 [R.PW_REQ, R.LM_PIN]).takeTimes c
      { l5 with ha := { l5.ha with counts := addHistory l5.ha.counts [bankGet m R.FC_FAULT0, bankGet m R.FC_FAULT1] } }
    else { l4 with pw := { l4.pw with dwellLeft := none } }

/-- DORMANT_WAKE. -/
def execDormantWake (ln : LaneId) (banks : List (List (Nat × Ecc))) (s : State) : Answer :=
  supplyAfter (onLane ln (fun c l => dormantWakeL c banks l) s)

/-! ### Loss of supply (R76, R468, R517, R544) -/

/-- The banks as a loss of supply during the save leaves them (R451, R468): those whose turn has passed are saved, the one being written
fails its check, the others are as before. DESIGN CHOICE (log 52): each bank takes 25 µs of the save's 100 µs, and the check word of
the one being written is the inverse of the right one. -/
def Lane.tornBanks (c : Ctx) (l : Lane) : Tab RetBank :=
  match l.pw.ponrAt with
  | some t =>
    if l.pwState = 4 ∧ l.pw.saved = false ∧ t + 20000000 ≤ c.now then
      let turn := (c.now - (t + 20000000)) / 25000
      [0, 1, 2, 3].foldl (fun b k =>
        let x := l.saveBank c k
        if k < turn then tabPut b k x else if k = turn then tabPut b k { x with check := ~~~x.check } else b) l.pw.banks
    else l.pw.banks
  | none => l.pw.banks

/-- BROWN_OUT (R60, R76, R544, R564): the lane is unfit as class 0x2 with cause 0x9, LEAVING goes out within the hold-up,
and the lane is off; a sleeping lane only goes off. A save or a health record that is being written is torn (R468, R517). -/
def brownOutL (c : Ctx) (l : Lane) : Lane :=
  if l.phase = .off then l
  else if l.asleep then { (((l.ascOff 0).ascOff 1).stoAll c) with phase := .off }
  else
    let l0 := { l.tearRecord with pw := { l.pw with banks := l.tornBanks c } }
    let l1 := l0.becomeUnfit c 9 2 9 .supply
    let l2 := (((l1.stagesOff 0xFFFFFFFF).setLines false).ascOff 0).ascOff 1
    { l2 with phase := .off, refresh := false, pw := { l2.pw with leavingAt := some c.now } }

/-- BROWN_OUT. -/
def execBrownOut (ln : LaneId) (s : State) : Answer :=
  votesEndAfter ln (supplyAfter (onLane ln (fun c l => brownOutL c l) s))

end Sys2Proof.Machine
end

