-- ==== Sys2Proof/Machine/Startup.lean ====
section
/-! DEFINITION. The start from supply to READY (R519 to R538): boot ROM, self-test, scheduler start, sensor check, pulse
slots, award, spool homing and READY. -/

namespace Sys2Proof.Machine

/-! ### Boot ROM (R522) -/

/-- Fields that the calibration area gives (R481). -/
def calFields : List Fld :=
  [R.AFn_CAL_OFS_ofs_s 0, R.AFn_CAL_OFS_ofs_c 0, R.AFn_CAL_GP_g_c 0, R.AFn_CAL_GP_k_ph 0, R.AFn_CAL_ZERO_zero_phase 0] ++
  [R.AFn_CAL_OFS_ofs_s 1, R.AFn_CAL_OFS_ofs_c 1, R.AFn_CAL_GP_g_c 1, R.AFn_CAL_GP_k_ph 1, R.AFn_CAL_ZERO_zero_phase 1] ++
  [R.CF_SVC_CFG_pair, R.ET_STATUS_master, R.ET_MAC_LO_mac, R.ET_MAC_HI_mac, R.ET_IP_ip, R.ET_PORTS_service] ++
  [R.HA_MONi_BASE_x0 0, R.HA_MONi_BASE_x0 5]

/-- The bytes of the calibration sectors that have been written (R481, R509): the sectors below the health records. -/
def Lane.calBytes (l : Lane) : List Host.Cell := l.mem.filter (fun e => decide (0x31C00000 ≤ e.1 ∧ e.1 < 0x31F80000))

/-- The shunt gains of a channel taken from the calibration area (R239). -/
def Lane.loadGains (c : Ctx) (l : Lane) (ch : Nat) : Lane :=
  l.setMc ch { l.mc ch with gains := (List.range 3).map (fun ph => Config.shuntGain (laneCode c.id) l.calBytes ch ph) }

/-- The calibration fields and gains filled from the lane's own area of flash; with that blank, service has its default port (R484). -/
def Lane.calibrate (c : Ctx) (l : Lane) : Lane :=
  let l1 := calFields.foldl (fun y f => y.put f (fldOf f (Config.calReg (laneCode c.id) l.calBytes f.addr))) l
  let l2 := if l.calBytes = [] then l1.put R.ET_PORTS_service 47110 else l1
  (l2.loadGains c 0).loadGains c 1

/-- A calibration sector fails (R481): one in use whose last word is not the CRC-32C of its other bytes. DESIGN CHOICE (log 77): a sector
is in use once any byte of it is written. -/
def Lane.calBad (l : Lane) (k : Nat) : Bool :=
  let base := 0x31C00000 + 0x10000 * k
  l.calBytes.any (fun e => decide (e.1 / 0x10000 = base / 0x10000)) &&
    decide (crc32c (l.bytes base 65532) ≠ l.granule (base + 65532))

/-- The presence contact allows a start: closed since before the reset, or for 50 ms (R467). -/
def Lane.presenceOk (c : Ctx) (l : Lane) : Bool :=
  match l.pw.closedAt with
  | some t => l.bit R.PW_STATUS_presence && decide (t + 50000000 ≤ c.now)
  | none => true

/-- BOOT_ROM (R481, R511, R521, R522): calibration, slot records, the health record and the start of the image hash. -/
def bootRomL (c : Ctx) (l : Lane) : Lane :=
  if l.phase ≠ .boot ∨ l.presenceOk c = false then l
  else
    let l1 := l.put R.PW_STATUS_presence 1
    let l2 := ((l1.takeRecord (l1.st.afterDormant && l1.bankOk 3)).calibrate c).showLife c
    let l3 := { (l2.showSlot 0).showSlot 1 with phase := .hashing, pw := { l2.pw with bootAt := some c.now } }
    if (List.range 56).any l.calBad then l3.logicFault c 0xC else l3

/-- BOOT_ROM. -/
def execBootRom (ln : LaneId) (_ _ : Found) (s : State) : Answer := onAlive ln bootRomL s

/-! ### Self-test (R523 to R525) -/

/-- A block that failed its test: quarantined for the power cycle (R525). -/
def Lane.blockFailed (c : Ctx) (l : Lane) (b : Nat) : Lane :=
  if b < blockCount c.part.member then
    (l.put R.FC_BLOCKS_readmit_fail (bitPut (l.get R.FC_BLOCKS_readmit_fail) b true)).quarantine c b
  else l

/-- Comparator injection, parity and checkers (R95, R102, R104, R523): an injection that was not detected, and a fault of a twin. -/
def Lane.testTwins (c : Ctx) (l : Lane) (r : SelfTest) : Lane :=
  let l1 := r.missed.foldl (fun (y : Lane) i =>
    ((((y.inc R.FC_INJ_missed).put R.FC_INJ_last_missed i.val).flag R.FC_FLAGS_inj_missed).logicFault c 0xC).findingDone) l
  r.parity.foldl (fun y i => (parityErrorL c i y).findingDone) l1

/-- The granules that the march test did not read clean (R109, R523): errors planted there, and those it met. -/
def Lane.marchFound (l : Lane) (met : List (Word × Ecc)) : List (Nat × Ecc) :=
  (l.planted.map (fun p => (p.1, l.eccAt p.1 .clean)) ++ met.map (fun p => (p.1.toNat / 4 * 4, l.eccAt (p.1.toNat / 4 * 4) p.2)))

/-- The 64 KiB pieces of memory that fail the march test (R523): an uncorrectable granule, or more than one corrected. -/
def marchBad (found : List (Nat × Ecc)) : List Nat :=
  let piece := fun (k : Nat) => found.filter (fun p => decide (p.1 / 0x10000 = k))
  (found.map (fun p => p.1 / 0x10000)).eraseDups.filter (fun k =>
    (piece k).any (fun p => decide (p.2 = .uncorrectable)) ||
      decide (1 < ((piece k).filter (fun p => decide (p.2 ≠ .clean))).length))

/-- A failed piece of memory (R525): its engine is scratched, its block stays quarantined, or the lane is unfit. -/
def Lane.marchFail (c : Ctx) (l : Lane) (k : Nat) : Lane :=
  match sramCode c.part.member (0x10000 * k) with
  | some 0 => l.scratch c k 4
  | some 1 => l.blockFailed c ((0x10000 * k - 0x10000000) / 0x40000)
  | some 2 => l.logicFault c 0xC
  | _ => l

/-- The scrub-and-test pass (R29, R523, R525). -/
def Lane.testMemory (c : Ctx) (l : Lane) (r : SelfTest) : Lane :=
  let found := l.marchFound r.memory
  let l1 := found.foldl (fun (y : Lane) p => match sramCode c.part.member p.1 with
    | some k => (y.scrubbed c k p.1 p.2 false).findingDone
    | none => y) l
  (marchBad found).foldl (fun y k => (y.marchFail c k).findingDone) l1

/-- A power stage's VG or a bootstrap outside its limits (R524, R525): the kind, its flag, and the lane unfit as any other part. -/
def Lane.stageBad (c : Ctx) (l : Lane) (ch kind : Nat) (bad : Bool) : Lane :=
  if bad then ((l.kindFlag ch kind).recordBridge ch kind 7 false).logicFault c 0xC else l

/-- A path of a power stage in its tests (R242, R524): alone it must stop the switching, and its off-pulse test must pass. -/
def Lane.pathTest (c : Ctx) (l : Lane) (ch : Fin 2) (path : StoPath) (passed : Bool) : Lane :=
  let l1 := stoTestPulseL c ch path passed l
  if passed then l1 else l1.logicFault c 0xC

/-- The tests of one power stage (R524); the chopper test pulse is CHOPPER_TEST_PULSE (R252). DESIGN CHOICE (log 86): VG above 13.5 V
has no kind of its own, and a stage fails one fault at most in PSn_FAULT, the last found. -/
def Lane.testStage (c : Ctx) (l : Lane) (ch : Fin 2) (x : StageTest) : Lane :=
  let vg := qr (qv x.vg)
  let l1 := l.stageBad c ch.val 4 (decide (vg < mkRat 105 10))
  let l2 := if mkRat 135 10 < vg then l1.logicFault c 0xC else l1
  let l3 := l2.stageBad c ch.val 5 ((List.range 3).any (fun i => decide (qr (qv ((x.boots[i]?).getD 0)) < mkRat 95 10)))
  (l3.pathTest c ch .logic (x.logicOff && x.logicPulse)).pathTest c ch .cut (x.cutOff && x.cutPulse)

/-- The role of a solenoid driver in the self-test. DEDUCED (log 86): "in use" is by the image of the lane's candidate, which step 4 has
chosen, since the role fields are only loaded after the agreement (R479). -/
def Lane.testRole (c : Ctx) (l : Lane) (n : Nat) : Nat :=
  match l.cf.cand with
  | some k => (l.fillImage (l.slotImage c k).regs).get (R.BKn_CFG_role n)
  | none => 0

/-- The output checks (R286, R352, R357, R523, R525). -/
def Lane.testOutputs (c : Ctx) (l : Lane) (r : SelfTest) : Lane :=
  let l1 := (List.range (solenoidCount c.part.member)).foldl (fun (y : Lane) n =>
    let role := y.testRole c n
    if role = 0 then y else y.coilTest c n role ((r.coils[n]?).getD 0)) l
  let l2 := r.outputs.foldl (fun y k => y.outputFault k.val 2) l1
  let l3 := r.steppers.foldl (fun y n => (stepperDriverFaultL c n 2 y).logicFault c 0xC) l2
  r.sources.foldl (fun y n => (tpSourceFaultL n y).logicFault c 0xC) l3

/-- SELF_TEST_DONE (R476, R523 to R525, R538): every part is judged and acts as its row says; after DORMANT the output checks wait for
the release of the pads. The first round of the agreement begins, with no offer heard. -/
def selfTestDoneL (c : Ctx) (r : SelfTest) (l : Lane) : Lane :=
  if l.phase ≠ .testing ∨ l.bit R.PW_STATUS_pads_held = true then l
  else
    let l1 := (l.testTwins c r).testMemory c r
    let l2 := r.digests.foldl (fun y e => y.scratch c e.val 0) l1
    let l3 := if r.converters.any (fun d => decide (2000 < d)) then l2.logicFault c 0xC else l2
    let l4 := ([0, 1].filter (fun (n : Fin 2) => decide (n.val < motorCount c.part.member))).foldl (fun (y : Lane) n =>
      y.testStage c n ((r.stages[n.val]?).getD default)) l3
    let l5 := (l4.testOutputs c r).forgetOffers c
    { l5 with phase := .agreeing, cf := { l5.cf with round := 0, roundAt := c.now } }

/-- SELF_TEST_DONE. -/
def execSelfTestDone (ln : LaneId) (r : SelfTest) (s : State) : Answer := onAlive ln (fun c l => selfTestDoneL c r l) s

/-! ### Scheduler start (R527, R528) -/

/-- The role of a lane whose scheduler starts: standby, but in a lane already unfit (R521). -/
def Lane.startRole (c : Ctx) (l : Lane) : Lane :=
  if l.role = roleUnfit then l else ((l.setRole roleStandby).setFit c.id true).put R.FC_STATUS_lane_fit 1

/-- The scheduler of a lane woken from NAP starts again at a cycle start (R136, R455): the heat count comes from a running lane
heard, or is 0; no start sequence follows. DEDUCED, log 52: R455 gives "heat count from heartbeats", the rest is R527. -/
def Lane.heatsAgain (c : Ctx) (l : Lane) : Lane :=
  let heat := match l.runningHeard c with
    | some (_, ws) => l.adoptedHeat ws
    | none => 0
  { l.wr R.EA_HEAT_CNT (BitVec.ofNat 32 heat) with ea := { l.ea with started := true, heatAt := c.now } }

/-- SCHEDULER_START (R455, R527): in the first heat of a Nolxis cycle, a joint lane at heat 0, or a late lane at the heat of a
running one; a lane woken from NAP takes up its heats again. -/
def schedulerStartL (c : Ctx) (l : Lane) : Lane :=
  if l.nxState ≠ nxActive ∨ l.ea.started = true ∨ l.heatIndex ≠ 0 then l
  else if l.phase = .ready ∨ l.phase = .awarding then (l.heatsAgain c).boundary c
  else if l.phase ≠ .agreed then l
  else
    let from_ := l.runningHeard c
    let heat := match from_ with
      | some (_, ws) => l.adoptedHeat ws
      | none => 0
    let l1 := (l.wr R.EA_HEAT_CNT (BitVec.ofNat 32 heat)).startRole c
    let l2 := match from_ with
      | some (x, ws) => if (frameWord ws 0).toNat / 2 ^ 30 = roleActive then l1.put R.LM_ROLE_baton_lane (laneCode x) else l1
      | none => l1
    let l3 := { l2 with
      phase := .sensing
      ea := { l2.ea with started := true, heatAt := c.now }
      st := { l2.st with schedAt := some c.now, late := from_.isSome, awardAt := if from_.isSome then some c.now else none }
      si := { l2.si with checkFrom := some c.now } }
    (((l3.countEngines c).startLives c).showLife c).boundary c

/-- SCHEDULER_START. -/
def execSchedulerStart (ln : LaneId) (s : State) : Answer := onAlive ln (fun c l => schedulerStartL c l) s

/-! ### Sensor check (R529) -/

/-- An angle interface in use that has not started takes an SA fault of kind 6 (R529). -/
def Lane.notStarted (c : Ctx) (l : Lane) (n : Nat) : Lane :=
  if l.get (R.AFn_CFG_mode n) ≠ 0 ∧ l.afStarted n = false then l.saFault c n 6 else l

/-- SENSOR_CHECK_END (R529): S + 20 ms. -/
def sensorCheckEndL (c : Ctx) (l : Lane) : Lane :=
  if l.phase ≠ .sensing ∨ l.afterStart c 20000000 = false then l
  else
    let l1 := (l.notStarted c 0).notStarted c 1
    let l2 := if 8 ≤ l1.st.noMajority then l1.findDisputed c 0 else l1
    { l2 with phase := .awarding }

/-- SENSOR_CHECK_END. -/
def execSensorCheckEnd (ln : LaneId) (s : State) : Answer :=
  sharingSensors ln s (onAlive ln (fun c l => sensorCheckEndL c l) s)

/-! ### Motor catch (R531) -/

/-- A channel without a back-EMF lock above the standstill threshold moves from OFF to PULSE (R220, R531). -/
def Lane.startPulse (c : Ctx) (l : Lane) (ch : Nat) : Lane :=
  let turns := l.bit (R.MC_STATUS_locked ch) && decide (l.get (R.MC_STATUS_lock_src ch) = 1) && !l.isStill ch
  if l.mcState ch = mcOff ∧ turns = false then l.toPulse c ch else l

/-- PULSE_SLOT_START (R531): the slot of a fit joint lane. -/
def pulseSlotStartL (c : Ctx) (l : Lane) : Lane :=
  if l.phase = .awarding ∧ l.st.late = false ∧ l.st.awardAt = none ∧ l.role = roleStandby ∧
      l.afterStart c (20000000 + laneCode c.id * l.slotTime c) = true then
    (List.range (motorCount c.part.member)).foldl (fun y ch => y.startPulse c ch) l
  else l

/-- PULSE_SLOT_START. -/
def execPulseSlotStart (ln : LaneId) (s : State) : Answer := onAlive ln (fun c l => pulseSlotStartL c l) s

/-! ### The award (R532, R533) -/

/-- A joint lane that is fit, as this lane holds it. -/
def Lane.fitJoint (c : Ctx) (l : Lane) (x : LaneId) : Bool :=
  l.knowsFit x && (decide (x = c.id) || l.st.joint.contains x)

/-- The lane that the award names (R532). -/
def Lane.awarded (c : Ctx) (l : Lane) : Option LaneId :=
  let fits := (lanesOf c.part.member).filter (l.fitJoint c)
  match laneOf (l.get R.LM_ROLE_preferred) with
  | some x => if fits.contains x then some x else fits.head?
  | none => fits.head?

/-- A fault that waited for the award names a lane as unfit, so the lane counts no further (R116, R536). -/
def Lane.waitsFor (l : Lane) (x : LaneId) : Bool :=
  l.st.waiting.any (fun f => decide (f.lane = laneCode x) && [.w, .c, .l].contains (symOf f.cls))

/-- What the award counts (R533): the faults that waited, silent lanes as class 0x2, and unfit or late lanes as class 0x1, but for a
lane that is unfit by a fault that waited. -/
def Lane.awardFaults (c : Ctx) (l : Lane) : List FaultRec :=
  let other := fun (x : LaneId) =>
    if l.waitsFor x then []
    else if x = c.id then (if l.role = roleUnfit then [(⟨1, laneCode x, 0xC, l.stamp⟩ : FaultRec)] else [])
    else if !l.st.heard.contains x then [⟨2, laneCode x, 0, l.stamp⟩]
    else if !l.fitJoint c x then [⟨1, laneCode x, match (l.peer x).leaving with
      | some r => r.cause
      | none => 0, l.stamp⟩]
    else []
  l.st.waiting ++ (lanesOf c.part.member).flatMap other

/-- The lanes that are no fit joint lanes stand as unfit from the award (R467, R533). -/
def Lane.dropLate (c : Ctx) (l : Lane) : Lane :=
  (othersOf c).foldl (fun y x => if l.fitJoint c x then y else y.setFit x false) l

/-- BATON_AWARD (R461, R493, R532, R533): at the first heat boundary after the pulse slots; a dwell restored after DORMANT goes on in
place of a fresh one. -/
def batonAwardL (c : Ctx) (l : Lane) : Lane :=
  if l.phase ≠ .awarding ∨ l.st.late = true ∨ l.st.awardAt ≠ none ∨
      l.afterStart c (20000000 + (lanesOf c.part.member).length * l.slotTime c) = false then l
  else
    let fs := l.awardFaults c
    let l1 := { l with st := { l.st with awardAt := some c.now, waiting := [] } }
    let l2 := fs.foldl (fun y f => y.addFault c f) (l1.dropLate c)
    match l.awarded c with
    | none => l2.setMode c 6
    | some x =>
      let l3 := l2.put R.LM_ROLE_baton_lane (laneCode x)
      if x = c.id then
        let l4 := (((l3.setRole roleActive).setLines true).takeShare c 256).slotsAnew c
        let l5 := l4.startDwell c
        (if l5.baton.dwellEnds.isSome then l5.resumeDwell c else l5).canStarts
      else l3

/-- BATON_AWARD. -/
def execBatonAward (ln : LaneId) (s : State) : Answer := onAlive ln (fun c l => batonAwardL c l) s

/-- AWARD_ASSERT_TIMEOUT (R532): 10 µs after the award the awarded lane's lines have not been asserted since; it is the failed lane of
a decision, with cause 0xC whatever it reports. -/
def awardAssertTimeoutL (c : Ctx) (l : Lane) : Lane :=
  match l.st.awardAt, l.batonLane with
  | some t, some x =>
    if (l.phase = .awarding ∨ l.phase = .ready) ∧ x ≠ c.id ∧ l.standby = true ∧ l.st.late = false ∧ t + 10000 ≤ c.now ∧
        (l.peer x).line = false ∧ (l.peer x).lineAt ≤ t ∧ l.baton.decision = none then
      { l with st := { l.st with awardFailed := some x } }.startDecision c x
    else l
  | _, _ => l

/-- AWARD_ASSERT_TIMEOUT. -/
def execAwardAssertTimeout (ln : LaneId) (s : State) : Answer := onAlive ln (fun c l => awardAssertTimeoutL c l) s

/-! ### Spool homing and READY (R534, R535, R480) -/

/-- One spool channel starts its homing (R534). -/
def Lane.startSpool (c : Ctx) (l : Lane) (n : Nat) : Lane :=
  if l.spRole n = 1 ∧ l.bit (R.SPn_STATUS_homing_required n) = true ∧ tabGet l.st.homeTry n = none ∧
      l.bit (R.SPn_STATUS_fault n) = false then
    ({ (l.stagesOn (BitVec.ofNat 32 (2 ^ (8 + n)))).startRamp c with st := { l.st with homeTry := tabPut l.st.homeTry n 1 } }).startHoming c n
  else l

/-- SPOOL_HOMING_START (R1, R534): in the active lane, before READY, while it is not engaged and the park brake is applied; not
in a lane that joined a running module. -/
def spoolHomingStartL (c : Ctx) (l : Lane) : Lane :=
  if l.active ∧ l.st.ready = false ∧ l.st.awardAt ≠ none ∧ l.st.late = false ∧ l.bit R.BK_STATUS_engaged = false ∧
      l.get R.BK_PARK_state = 0 then
    (List.range (stepperCount c.part.member)).foldl (fun y n => y.startSpool c n) l
  else l

/-- SPOOL_HOMING_START. -/
def execSpoolHomingStart (ln : LaneId) (s : State) : Answer := onAlive ln (fun c l => spoolHomingStartL c l) s

/-- No spool channel waits for its homing. -/
def Lane.spoolsHomed (c : Ctx) (l : Lane) : Bool :=
  (List.range (stepperCount c.part.member)).all (fun n => decide (l.spRole n ≠ 1) || !l.bit (R.SPn_STATUS_homing_required n))

/-- SLOT_MARK_GOOD (R480): the running TRIAL slot becomes GOOD. -/
def Lane.markGood (l : Lane) : Lane :=
  match l.cf.running with
  | some k => if l.slotState k = 2 then l.moveSlot k 3 else l
  | none => l

/-- READY (R289, R480, R535): not engaged, the permit clear, every output stage off, and parked unless the machine moves. An unfit lane
that runs the image marks its slot as the others do. -/
def readyL (c : Ctx) (l : Lane) : Lane :=
  if l.phase ≠ .awarding ∨ l.batonLane = none then l
  else if l.fit = false then l.markGood
  else if l.spoolsHomed c = false then l
  else
    let moves := match l.bk.movingAt with
      | some t => decide (c.now < t + (l.rd R.FC_STILL_TIME).toNat)
      | none => false
    let l1 := (l.disengage.stagesOff (handedMask c.part.member)).markGood
    { l1 with phase := .ready, st := { l1.st with ready := true }, bk := { l1.bk with still := !moves } }.showParked c

/-- READY. -/
def execReady (ln : LaneId) (s : State) : Answer := onAlive ln (fun c l => readyL c l) s

end Sys2Proof.Machine
end

