-- ==== Sys2Proof/Machine/Dispatch.lean ====
section
/-! DEFINITION. One arm for each command: the meaning it has. -/

namespace Sys2Proof.Machine

/-- What a command does to the module, its queue apart. -/
def exec (i : Instr) (s : State) : Host.Outcome State Fault Refusal :=
  match i with
  | .registerWrite ln addr size value => Sys2Proof.Machine.execRegisterWrite ln addr size value s
  | .pairLoWrite ln addr value => Sys2Proof.Machine.execPairLoWrite ln addr value s
  | .pairHiWrite ln addr value => Sys2Proof.Machine.execPairHiWrite ln addr value s
  | .laneSupplyRise ln => Sys2Proof.Machine.execLaneSupplyRise ln s
  | .bootRom ln calibration record => Sys2Proof.Machine.execBootRom ln calibration record s
  | .imageHashDone ln primary alternate => Sys2Proof.Machine.execImageHashDone ln primary alternate s
  | .selfTestDone ln r => Sys2Proof.Machine.execSelfTestDone ln r s
  | .imageFrameSend ln => Sys2Proof.Machine.execImageFrameSend ln s
  | .imageFrameReceive ln sender imageId alt => Sys2Proof.Machine.execImageFrameReceive ln sender imageId alt s
  | .agreementRoundDecided ln => Sys2Proof.Machine.execAgreementRoundDecided ln s
  | .schedulerStart ln => Sys2Proof.Machine.execSchedulerStart ln s
  | .sensorCheckEnd ln => Sys2Proof.Machine.execSensorCheckEnd ln s
  | .pulseSlotStart ln => Sys2Proof.Machine.execPulseSlotStart ln s
  | .batonAward ln => Sys2Proof.Machine.execBatonAward ln s
  | .awardAssertTimeout ln => Sys2Proof.Machine.execAwardAssertTimeout ln s
  | .spoolHomingStart ln => Sys2Proof.Machine.execSpoolHomingStart ln s
  | .ready ln => Sys2Proof.Machine.execReady ln s
  | .presenceClose ln => Sys2Proof.Machine.execPresenceClose ln s
  | .twinMismatch ln ix rails spare => Sys2Proof.Machine.execTwinMismatch ln ix rails spare s
  | .inputDisagree ln ix input again => Sys2Proof.Machine.execInputDisagree ln ix input again s
  | .parityError ln ix => Sys2Proof.Machine.execParityError ln ix s
  | .correctedError ln memory addr value => Sys2Proof.Machine.execCorrectedError ln memory addr value s
  | .uncorrectableError ln memory addr => Sys2Proof.Machine.execUncorrectableError ln memory addr s
  | .scrubRead ln r raced => Sys2Proof.Machine.execScrubRead ln r raced s
  | .memInjWrite ln value => Sys2Proof.Machine.execMemInjWrite ln value s
  | .memErrorPlant ln addr => Sys2Proof.Machine.execMemErrorPlant ln addr s
  | .comparatorInjection ln ix reported => Sys2Proof.Machine.execComparatorInjection ln ix reported s
  | .managementFault ln row => Sys2Proof.Machine.execManagementFault ln row s
  | .selfUnfitWrite ln value => Sys2Proof.Machine.execSelfUnfitWrite ln value s
  | .heartbeatSend ln => Sys2Proof.Machine.execHeartbeatSend ln s
  | .linkFrameReceive ln from_ f => Sys2Proof.Machine.execLinkFrameReceive ln from_ f s
  | .heartbeatMissed ln sender => Sys2Proof.Machine.execHeartbeatMissed ln sender s
  | .linkDown ln peer => Sys2Proof.Machine.execLinkDown ln peer s
  | .linkFaultCharge ln peer => Sys2Proof.Machine.execLinkFaultCharge ln peer s
  | .mirrorSend ln => Sys2Proof.Machine.execMirrorSend ln s
  | .plausSend ln => Sys2Proof.Machine.execPlausSend ln s
  | .claim ln sender failed cause => Sys2Proof.Machine.execClaim ln sender failed cause s
  | .claimAck ln sender failed => Sys2Proof.Machine.execClaimAck ln sender failed s
  | .claimTimeout ln => Sys2Proof.Machine.execClaimTimeout ln s
  | .successorClaimTimeout ln => Sys2Proof.Machine.execSuccessorClaimTimeout ln s
  | .passOffer ln sender heat cause urgent => Sys2Proof.Machine.execPassOffer ln sender heat cause urgent s
  | .preDriveCheckDone ln m => Sys2Proof.Machine.execPreDriveCheckDone ln m s
  | .passAccept ln sender heat => Sys2Proof.Machine.execPassAccept ln sender heat s
  | .passRefuse ln sender stage => Sys2Proof.Machine.execPassRefuse ln sender stage s
  | .passAbort ln sender reason => Sys2Proof.Machine.execPassAbort ln sender reason s
  | .passConfirm ln sender incoming zoneStart cause => Sys2Proof.Machine.execPassConfirm ln sender incoming zoneStart cause s
  | .passDone ln sender outgoing cause zoneStart => Sys2Proof.Machine.execPassDone ln sender outgoing cause zoneStart s
  | .zoneStart ln => Sys2Proof.Machine.execZoneStart ln s
  | .handoverUpdate ln => Sys2Proof.Machine.execHandoverUpdate ln s
  | .rampStep ln => Sys2Proof.Machine.execRampStep ln s
  | .zoneEnd ln => Sys2Proof.Machine.execZoneEnd ln s
  | .passReqWrite ln value => Sys2Proof.Machine.execPassReqWrite ln value s
  | .pinWrite ln value => Sys2Proof.Machine.execPinWrite ln value s
  | .pinMessage ln sender lane minutes => Sys2Proof.Machine.execPinMessage ln sender lane minutes s
  | .pinExpiry ln => Sys2Proof.Machine.execPinExpiry ln s
  | .rotPeriodWrite ln value => Sys2Proof.Machine.execRotPeriodWrite ln value s
  | .rotEnvWrite ln value => Sys2Proof.Machine.execRotEnvWrite ln value s
  | .dwellExpiry ln => Sys2Proof.Machine.execDwellExpiry ln s
  | .weights ln sender da db dc => Sys2Proof.Machine.execWeights ln sender da db dc s
  | .rotationSkip ln => Sys2Proof.Machine.execRotationSkip ln s
  | .takeoverLineChange ln driver asserted => Sys2Proof.Machine.execTakeoverLineChange ln driver asserted s
  | .batonDecisionComplete ln => Sys2Proof.Machine.execBatonDecisionComplete ln s
  | .takeoverAssert ln => Sys2Proof.Machine.execTakeoverAssert ln s
  | .takeoverWindowExpiry ln => Sys2Proof.Machine.execTakeoverWindowExpiry ln s
  | .leaving ln sender cause cls => Sys2Proof.Machine.execLeaving ln sender cause cls s
  | .leavingTimeout ln gone => Sys2Proof.Machine.execLeavingTimeout ln gone s
  | .disagree ln sender lanes quantity heats => Sys2Proof.Machine.execDisagree ln sender lanes quantity heats s
  | .disputed ln sender quantity => Sys2Proof.Machine.execDisputed ln sender quantity s
  | .vote ln sender target row => Sys2Proof.Machine.execVote ln sender target row s
  | .voteAssert ln target row => Sys2Proof.Machine.execVoteAssert ln target row s
  | .voteRelease ln target => Sys2Proof.Machine.execVoteRelease ln target s
  | .inhibitTrip ln => Sys2Proof.Machine.execInhibitTrip ln s
  | .voteTestPulse ln target received => Sys2Proof.Machine.execVoteTestPulse ln target received s
  | .voteTestFail ln target => Sys2Proof.Machine.execVoteTestFail ln target s
  | .latchHold ln st => Sys2Proof.Machine.execLatchHold ln st s
  | .latchTimeout ln st => Sys2Proof.Machine.execLatchTimeout ln st s
  | .starvationHoldEnd ln => Sys2Proof.Machine.execStarvationHoldEnd ln s
  | .standstillConfirmed ln => Sys2Proof.Machine.execStandstillConfirmed ln s
  | .engagementEnd ln => Sys2Proof.Machine.execEngagementEnd ln s
  | .heatBoundary ln => Sys2Proof.Machine.execHeatBoundary ln s
  | .legStart ln e => Sys2Proof.Machine.execLegStart ln e s
  | .stealSweep ln e => Sys2Proof.Machine.execStealSweep ln e s
  | .engineWake ln e cause => Sys2Proof.Machine.execEngineWake ln e cause s
  | .hurdleReached ln h => Sys2Proof.Machine.execHurdleReached ln h s
  | .commitTakesEffect ln h => Sys2Proof.Machine.execCommitTakesEffect ln h s
  | .earlyCommit ln => Sys2Proof.Machine.execEarlyCommit ln s
  | .raLegReady ln leg => Sys2Proof.Machine.execRaLegReady ln leg s
  | .tcmWrite ln addr value => Sys2Proof.Machine.execTcmWrite ln addr value s
  | .insAdd ln e rd ra rb => Sys2Proof.Machine.execAdd ln e rd ra rb s
  | .insSub ln e rd ra rb => Sys2Proof.Machine.execSub ln e rd ra rb s
  | .insAnd ln e rd ra rb => Sys2Proof.Machine.execAnd ln e rd ra rb s
  | .insOr ln e rd ra rb => Sys2Proof.Machine.execOr ln e rd ra rb s
  | .insXor ln e rd ra rb => Sys2Proof.Machine.execXor ln e rd ra rb s
  | .insSll ln e rd ra rb => Sys2Proof.Machine.execSll ln e rd ra rb s
  | .insSrl ln e rd ra rb => Sys2Proof.Machine.execSrl ln e rd ra rb s
  | .insSra ln e rd ra rb => Sys2Proof.Machine.execSra ln e rd ra rb s
  | .insMin ln e rd ra rb => Sys2Proof.Machine.execMin ln e rd ra rb s
  | .insMax ln e rd ra rb => Sys2Proof.Machine.execMax ln e rd ra rb s
  | .insMinu ln e rd ra rb => Sys2Proof.Machine.execMinu ln e rd ra rb s
  | .insMaxu ln e rd ra rb => Sys2Proof.Machine.execMaxu ln e rd ra rb s
  | .insMul ln e rd ra rb => Sys2Proof.Machine.execMul ln e rd ra rb s
  | .insSel ln e p rd ra rb => Sys2Proof.Machine.execSel ln e p rd ra rb s
  | .insClz ln e rd ra => Sys2Proof.Machine.execClz ln e rd ra s
  | .insJr ln e ra => Sys2Proof.Machine.execJr ln e ra s
  | .insAddi ln e rd ra imm => Sys2Proof.Machine.execAddi ln e rd ra imm s
  | .insAndi ln e rd ra imm => Sys2Proof.Machine.execAndi ln e rd ra imm s
  | .insOri ln e rd ra imm => Sys2Proof.Machine.execOri ln e rd ra imm s
  | .insXori ln e rd ra imm => Sys2Proof.Machine.execXori ln e rd ra imm s
  | .insOrh ln e rd ra imm => Sys2Proof.Machine.execOrh ln e rd ra imm s
  | .insLdx ln e rd imm => Sys2Proof.Machine.execLdx ln e rd imm s
  | .insCmpi ln e cond p ra imm => Sys2Proof.Machine.execCmpi ln e cond p ra imm s
  | .insShi ln e rd ra kind amount => Sys2Proof.Machine.execShi ln e rd ra kind amount s
  | .insQadd ln e rd ra rb => Sys2Proof.Machine.execQadd ln e rd ra rb s
  | .insQsub ln e rd ra rb => Sys2Proof.Machine.execQsub ln e rd ra rb s
  | .insQmul ln e rd ra rb => Sys2Proof.Machine.execQmul ln e rd ra rb s
  | .insQdiv ln e rd ra rb => Sys2Proof.Machine.execQdiv ln e rd ra rb s
  | .insQsat ln e rd ra rb => Sys2Proof.Machine.execQsat ln e rd ra rb s
  | .insQabs ln e rd ra => Sys2Proof.Machine.execQabs ln e rd ra s
  | .insQneg ln e rd ra => Sys2Proof.Machine.execQneg ln e rd ra s
  | .insQshl ln e rd ra rb => Sys2Proof.Machine.execQshl ln e rd ra rb s
  | .insQsrr ln e rd ra rb => Sys2Proof.Machine.execQsrr ln e rd ra rb s
  | .insQmac ln e acc ra rb => Sys2Proof.Machine.execQmac ln e acc ra rb s
  | .insQmsu ln e acc ra rb => Sys2Proof.Machine.execQmsu ln e acc ra rb s
  | .insAmul ln e acc ra rb => Sys2Proof.Machine.execAmul ln e acc ra rb s
  | .insAclr ln e acc => Sys2Proof.Machine.execAclr ln e acc s
  | .insAld ln e acc ra => Sys2Proof.Machine.execAld ln e acc ra s
  | .insArd ln e acc rd => Sys2Proof.Machine.execArd ln e acc rd s
  | .insArh ln e acc rd => Sys2Proof.Machine.execArh ln e acc rd s
  | .insArl ln e acc rd => Sys2Proof.Machine.execArl ln e acc rd s
  | .insAwr ln e acc ra rb => Sys2Proof.Machine.execAwr ln e acc ra rb s
  | .insEq ln e p ra rb => Sys2Proof.Machine.execEq ln e p ra rb s
  | .insNe ln e p ra rb => Sys2Proof.Machine.execNe ln e p ra rb s
  | .insLt ln e p ra rb => Sys2Proof.Machine.execLt ln e p ra rb s
  | .insLe ln e p ra rb => Sys2Proof.Machine.execLe ln e p ra rb s
  | .insLtu ln e p ra rb => Sys2Proof.Machine.execLtu ln e p ra rb s
  | .insLeu ln e p ra rb => Sys2Proof.Machine.execLeu ln e p ra rb s
  | .insLtw ln e p ra rb => Sys2Proof.Machine.execLtw ln e p ra rb s
  | .insLew ln e p ra rb => Sys2Proof.Machine.execLew ln e p ra rb s
  | .insPand ln e p pa pb => Sys2Proof.Machine.execPand ln e p pa pb s
  | .insPor ln e p pa pb => Sys2Proof.Machine.execPor ln e p pa pb s
  | .insPxor ln e p pa pb => Sys2Proof.Machine.execPxor ln e p pa pb s
  | .insPnot ln e p pa => Sys2Proof.Machine.execPnot ln e p pa s
  | .insBr ln e off => Sys2Proof.Machine.execBr ln e off s
  | .insBp ln e p off => Sys2Proof.Machine.execBp ln e p off s
  | .insBnp ln e p off => Sys2Proof.Machine.execBnp ln e p off s
  | .insJal ln e rd off => Sys2Proof.Machine.execJal ln e rd off s
  | .insLd40 ln e rt ra disp => Sys2Proof.Machine.execLd40 ln e rt ra disp s
  | .insSt40 ln e rt ra disp => Sys2Proof.Machine.execSt40 ln e rt ra disp s
  | .insLd32 ln e zext rt ra disp => Sys2Proof.Machine.execLd32 ln e zext rt ra disp s
  | .insSt32 ln e rt ra disp => Sys2Proof.Machine.execSt32 ln e rt ra disp s
  | .insPin ln e low rt ra disp => Sys2Proof.Machine.execPin ln e low rt ra disp s
  | .insPout ln e low rt ra disp => Sys2Proof.Machine.execPout ln e low rt ra disp s
  | .encodingTrap ln e word => Sys2Proof.Machine.execEncodingTrap ln e word s
  | .insCrot ln e rd ra rb => Sys2Proof.Machine.execCrot ln e rd ra rb s
  | .insCatan ln e rd ra rb => Sys2Proof.Machine.execCatan ln e rd ra rb s
  | .cordicResult ln e => Sys2Proof.Machine.execCordicResult ln e s
  | .insYield ln e => Sys2Proof.Machine.execYield ln e s
  | .insHurdle ln e t => Sys2Proof.Machine.execHurdle ln e t s
  | .insSpawn ln e leg => Sys2Proof.Machine.execSpawn ln e leg s
  | .insDigest ln e => Sys2Proof.Machine.execDigest ln e s
  | .insCommit ln e => Sys2Proof.Machine.execCommit ln e s
  | .insSquash ln e => Sys2Proof.Machine.execSquash ln e s
  | .currentSample ln ch m => Sys2Proof.Machine.execCurrentSample ln ch m s
  | .channelEnable ln ch on => Sys2Proof.Machine.execChannelEnable ln ch on s
  | .catchWindowExpiry ln ch => Sys2Proof.Machine.execCatchWindowExpiry ln ch s
  | .pulseTestDone ln ch currents gapSpeed => Sys2Proof.Machine.execPulseTestDone ln ch currents gapSpeed s
  | .relockTimeout ln ch => Sys2Proof.Machine.execRelockTimeout ln ch s
  | .obsEnvWrite ln ch value => Sys2Proof.Machine.execObsEnvWrite ln ch value s
  | .bridgeFault ln ch kind switch stuckOn => Sys2Proof.Machine.execBridgeFault ln ch kind switch stuckOn s
  | .stoTestPulse ln ch path passed => Sys2Proof.Machine.execStoTestPulse ln ch path passed s
  | .ascTestWrite ln ch value => Sys2Proof.Machine.execAscTestWrite ln ch value s
  | .stoReqWrite ln ch value => Sys2Proof.Machine.execStoReqWrite ln ch value s
  | .chopperOn ln ch => Sys2Proof.Machine.execChopperOn ln ch s
  | .chopperOff ln ch vdc => Sys2Proof.Machine.execChopperOff ln ch vdc s
  | .chopperTestPulse ln ch vdc => Sys2Proof.Machine.execChopperTestPulse ln ch vdc s
  | .chopperReadback ln ch vdc current => Sys2Proof.Machine.execChopperReadback ln ch vdc current s
  | .dcLinkOvervoltage ln ch => Sys2Proof.Machine.execDcLinkOvervoltage ln ch s
  | .ascOvpRelease ln ch => Sys2Proof.Machine.execAscOvpRelease ln ch s
  | .demandEngage ln => Sys2Proof.Machine.execDemandEngage ln s
  | .demandHold ln => Sys2Proof.Machine.execDemandHold ln s
  | .demandPark ln => Sys2Proof.Machine.execDemandPark ln s
  | .demandFeel ln => Sys2Proof.Machine.execDemandFeel ln s
  | .speedReceive ln => Sys2Proof.Machine.execSpeedReceive ln s
  | .speedStale ln => Sys2Proof.Machine.execSpeedStale ln s
  | .takeoverReqChange ln on => Sys2Proof.Machine.execTakeoverReqChange ln on s
  | .solenoidFault ln n kind => Sys2Proof.Machine.execSolenoidFault ln n kind s
  | .solenoidOpenTest ln n current => Sys2Proof.Machine.execSolenoidOpenTest ln n current s
  | .ditherEnvWrite ln n value => Sys2Proof.Machine.execDitherEnvWrite ln n value s
  | .parkReleased ln => Sys2Proof.Machine.execParkReleased ln s
  | .parkReleaseFail ln => Sys2Proof.Machine.execParkReleaseFail ln s
  | .parkApplyStart ln => Sys2Proof.Machine.execParkApplyStart ln s
  | .parkApplied ln => Sys2Proof.Machine.execParkApplied ln s
  | .moduleStatusSend ln => Sys2Proof.Machine.execModuleStatusSend ln s
  | .stepIssue ln n lv => Sys2Proof.Machine.execStepIssue ln n lv s
  | .targetWrite ln n value => Sys2Proof.Machine.execTargetWrite ln n value s
  | .holdCurrentTimeout ln n => Sys2Proof.Machine.execHoldCurrentTimeout ln n s
  | .stepperDriverFault ln n kind => Sys2Proof.Machine.execStepperDriverFault ln n kind s
  | .homeCommand ln n => Sys2Proof.Machine.execHomeCommand ln n s
  | .stopCommand ln n => Sys2Proof.Machine.execStopCommand ln n s
  | .homingEdge ln n input active stamp chatter => Sys2Proof.Machine.execHomingEdge ln n input active stamp chatter s
  | .limitHit ln n => Sys2Proof.Machine.execLimitHit ln n s
  | .cmpArm ln n value => Sys2Proof.Machine.execCmpArm ln n value s
  | .cmpDisarm ln n => Sys2Proof.Machine.execCmpDisarm ln n s
  | .curEnvWrite ln n value => Sys2Proof.Machine.execCurEnvWrite ln n value s
  | .angleSample ln s0 s1 => Sys2Proof.Machine.execAngleSample ln s0 s1 s
  | .angleFaultTimeout ln n => Sys2Proof.Machine.execAngleFaultTimeout ln n s
  | .interfaceStartTimeout ln n => Sys2Proof.Machine.execInterfaceStartTimeout ln n s
  | .speedZeroTimeout ln n => Sys2Proof.Machine.execSpeedZeroTimeout ln n s
  | .contactSample ln n c1 c2 => Sys2Proof.Machine.execContactSample ln n c1 c2 s
  | .discrepancyTimeout ln n => Sys2Proof.Machine.execDiscrepancyTimeout ln n s
  | .testPulseStart ln src => Sys2Proof.Machine.execTestPulseStart ln src s
  | .testPulseCheck ln src c1 c2 => Sys2Proof.Machine.execTestPulseCheck ln src c1 c2 s
  | .testPulseEnd ln src => Sys2Proof.Machine.execTestPulseEnd ln src s
  | .tpSourceFault ln src => Sys2Proof.Machine.execTpSourceFault ln src s
  | .doSetWrite ln value => Sys2Proof.Machine.execDoSetWrite ln value s
  | .outputOffPulse ln k nodeOff pinOff nodeOn => Sys2Proof.Machine.execOutputOffPulse ln k nodeOff pinOff nodeOn s
  | .outputFault ln k kind => Sys2Proof.Machine.execOutputFault ln k kind s
  | .analogSample ln codes supply => Sys2Proof.Machine.execAnalogSample ln codes supply s
  | .analogFaultTimeout ln m => Sys2Proof.Machine.execAnalogFaultTimeout ln m s
  | .supplyFault ln src mv limit => Sys2Proof.Machine.execSupplyFault ln src mv limit s
  | .supplyRetry ln src => Sys2Proof.Machine.execSupplyRetry ln src s
  | .nxFrameReceive ln ch f => Sys2Proof.Machine.execNxFrameReceive ln ch f s
  | .slotStart ln ch slot => Sys2Proof.Machine.execSlotStart ln ch slot s
  | .minislotEnd ln ch idle => Sys2Proof.Machine.execMinislotEnd ln ch idle s
  | .txCommit ln n value => Sys2Proof.Machine.execTxCommit ln n value s
  | .nitCorrection ln => Sys2Proof.Machine.execNitCorrection ln s
  | .pacerSwitch ln => Sys2Proof.Machine.execPacerSwitch ln s
  | .nxEnable ln value => Sys2Proof.Machine.execNxEnable ln value s
  | .passiveReq ln value => Sys2Proof.Machine.execPassiveReq ln value s
  | .listenTimeout ln => Sys2Proof.Machine.execListenTimeout ln s
  | .cycleVerify ln => Sys2Proof.Machine.execCycleVerify ln s
  | .coldCycleDone ln => Sys2Proof.Machine.execColdCycleDone ln s
  | .collisionReceive ln ch => Sys2Proof.Machine.execCollisionReceive ln ch s
  | .backoffExpiry ln => Sys2Proof.Machine.execBackoffExpiry ln s
  | .syncLost ln => Sys2Proof.Machine.execSyncLost ln s
  | .passiveTimeout ln => Sys2Proof.Machine.execPassiveTimeout ln s
  | .portLost ln ch => Sys2Proof.Machine.execPortLost ln ch s
  | .claimSend ln => Sys2Proof.Machine.execClaimSend ln s
  | .claimGrant ln => Sys2Proof.Machine.execClaimGrant ln s
  | .grantCheck ln => Sys2Proof.Machine.execGrantCheck ln s
  | .grantRelease ln slot => Sys2Proof.Machine.execGrantRelease ln slot s
  | .marshalTableOffer ln section_ => Sys2Proof.Machine.execMarshalTableOffer ln section_ s
  | .marshalLoadDone => Sys2Proof.Machine.execMarshalLoadDone s
  | .marshalAdmit b x => Sys2Proof.Machine.execMarshalAdmit b x s
  | .marshalTruncate b k => Sys2Proof.Machine.execMarshalTruncate b k s
  | .marshalCollision => Sys2Proof.Machine.execMarshalCollision s
  | .marshalRequalify b => Sys2Proof.Machine.execMarshalRequalify b s
  | .marshalUnsync => Sys2Proof.Machine.execMarshalUnsync s
  | .msRequalWrite ln value => Sys2Proof.Machine.execMsRequalWrite ln value s
  | .correctionWindow ln => Sys2Proof.Machine.execCorrectionWindow ln s
  | .lap ln => Sys2Proof.Machine.execLap ln s
  | .interruptEntry ln line => Sys2Proof.Machine.execInterruptEntry ln line s
  | .timerDueWrite ln t value => Sys2Proof.Machine.execTimerDueWrite ln t value s
  | .timerDisarm ln t => Sys2Proof.Machine.execTimerDisarm ln t s
  | .timerFire ln t => Sys2Proof.Machine.execTimerFire ln t s
  | .watchMet ln t stamp => Sys2Proof.Machine.execWatchMet ln t stamp s
  | .watchTimeout ln t => Sys2Proof.Machine.execWatchTimeout ln t s
  | .envelopeProduce ln c payload => Sys2Proof.Machine.execEnvelopeProduce ln c payload s
  | .seTxCommit ln value => Sys2Proof.Machine.execSeTxCommit ln value s
  | .envelopeCopyJudge ln c pathB words arrival => Sys2Proof.Machine.execEnvelopeCopyJudge ln c pathB words arrival s
  | .envelopeChargeDecision ln c => Sys2Proof.Machine.execEnvelopeChargeDecision ln c s
  | .connectionUnblock ln c => Sys2Proof.Machine.execConnectionUnblock ln c s
  | .powerRequest ln w0 w1 => Sys2Proof.Machine.execPowerRequest ln w0 w1 s
  | .voteWindowExpiry ln unit => Sys2Proof.Machine.execVoteWindowExpiry ln unit s
  | .powerVoteNit ln others => Sys2Proof.Machine.execPowerVoteNit ln others s
  | .retentionSave ln => Sys2Proof.Machine.execRetentionSave ln s
  | .sleepEntryComplete ln => Sys2Proof.Machine.execSleepEntryComplete ln s
  | .wakeEvent ln source => Sys2Proof.Machine.execWakeEvent ln source s
  | .wakePulseSend ln => Sys2Proof.Machine.execWakePulseSend ln s
  | .napWake ln x => Sys2Proof.Machine.execNapWake ln x s
  | .dormantWake ln banks => Sys2Proof.Machine.execDormantWake ln banks s
  | .padRelease ln value => Sys2Proof.Machine.execPadRelease ln value s
  | .padTimeout ln => Sys2Proof.Machine.execPadTimeout ln s
  | .presenceOpen ln => Sys2Proof.Machine.execPresenceOpen ln s
  | .brownOut ln => Sys2Proof.Machine.execBrownOut ln s
  | .serviceMessageReceive ln fate peer target data => Sys2Proof.Machine.execServiceMessageReceive ln fate peer target data s
  | .svcInfo ln q => Sys2Proof.Machine.execSvcInfo ln q s
  | .svcRead ln q addr len => Sys2Proof.Machine.execSvcRead ln q addr len s
  | .svcOpen ln q => Sys2Proof.Machine.execSvcOpen ln q s
  | .svcClose ln q => Sys2Proof.Machine.execSvcClose ln q s
  | .svcWriteBegin ln q target offset len sha => Sys2Proof.Machine.execSvcWriteBegin ln q target offset len sha s
  | .svcWriteData ln q offset data => Sys2Proof.Machine.execSvcWriteData ln q offset data s
  | .svcWriteEnd ln q => Sys2Proof.Machine.execSvcWriteEnd ln q s
  | .svcPromote ln q => Sys2Proof.Machine.execSvcPromote ln q s
  | .svcAbort ln q => Sys2Proof.Machine.execSvcAbort ln q s
  | .svcReadJournal ln q first count => Sys2Proof.Machine.execSvcReadJournal ln q first count s
  | .sessionTimeout ln => Sys2Proof.Machine.execSessionTimeout ln s
  | .serviceConditionDrop ln => Sys2Proof.Machine.execServiceConditionDrop ln s
  | .journalScan ln head tail => Sys2Proof.Machine.execJournalScan ln head tail s
  | .canFrameReceive ln k f => Sys2Proof.Machine.execCanFrameReceive ln k f s
  | .canSend ln k m value => Sys2Proof.Machine.execCanSend ln k m value s
  | .canCancel ln k m => Sys2Proof.Machine.execCanCancel ln k m s
  | .canTxDone ln k m => Sys2Proof.Machine.execCanTxDone ln k m s
  | .canRxPop ln k value => Sys2Proof.Machine.execCanRxPop ln k value s
  | .canBusOffRecover ln k => Sys2Proof.Machine.execCanBusOffRecover ln k s
  | .canRecoverWrite ln k value => Sys2Proof.Machine.execCanRecoverWrite ln k value s
  | .ageingSample ln idx x => Sys2Proof.Machine.execAgeingSample ln idx x s
  | .dieTemperatureSample ln t => Sys2Proof.Machine.execDieTemperatureSample ln t s
  | .hourlyLifeUpdate ln => Sys2Proof.Machine.execHourlyLifeUpdate ln s
  | .healthRecordWrite ln => Sys2Proof.Machine.execHealthRecordWrite ln s
  | .telemetrySend ln => Sys2Proof.Machine.execTelemetrySend ln s
  | .baselineReset ln value => Sys2Proof.Machine.execBaselineReset ln value s
  | .linkFrameSend ln dest => Sys2Proof.Machine.execLinkFrameSend ln dest s
  | .passAcceptDeadline ln => Sys2Proof.Machine.execPassAcceptDeadline ln s
  | .pwmPeriodBoundary ln => Sys2Proof.Machine.execPwmPeriodBoundary ln s
  | .staticSlotEnd ln n => Sys2Proof.Machine.execStaticSlotEnd ln n s
  | .pairLoRead ln addr => Sys2Proof.Machine.execPairLoRead ln addr s
  | .marshalSupplyChange on => Sys2Proof.Machine.execMarshalSupplyChange on s
  | .managementLinkDown ln down => Sys2Proof.Machine.execManagementLinkDown ln down s
  | .ethernetLinkChange ln up sqi => Sys2Proof.Machine.execEthernetLinkChange ln up sqi s
  | .arpOrIcmpEchoReceive ln fate ask => Sys2Proof.Machine.execArpOrIcmpEchoReceive ln fate ask s
  | .canErrorEvent ln k ev => Sys2Proof.Machine.execCanErrorEvent ln k ev s

end Sys2Proof.Machine
end

