-- ==== Sys2Proof/Machine/Tick.lean ====
section
/-! DEFINITION. What a nanosecond of the model's clock does (DESIGN CHOICE): the counters of every lane that runs. -/

namespace Sys2Proof.Machine

/-- Whether operating time counts (R497): the lane is awake, in RUN, STILL or an open vote. -/
def Lane.operates (l : Lane) : Bool := decide (l.get R.PW_STATUS_state < 4) && decide (l.phase ≠ .boot)

/-- A nanosecond of one lane: its timebase where its clocks run (R410), and its operating time, counted as TM_NOW counts (R497). -/
def Lane.tickOne (now : Nat) (l : Lane) : Lane :=
  if l.powered then
    let l1 := l.tick
    if l1.operates then { l1 with ha := { l1.ha with opNs := l1.ha.opNs + (l1.clock (now + 1) - l.clock now) } } else l1
  else l

/-- A nanosecond of the module. -/
def State.tick (s : State) : State :=
  let c := if s.has .c then s.laneC.tickOne s.now else s.laneC
  { s with now := s.now + 1, laneA := s.laneA.tickOne s.now, laneB := s.laneB.tickOne s.now, laneC := c }

end Sys2Proof.Machine
end

