-- ==== Sys2Proof/WellFormed.lean ====
section
/-! DEFINITION. Which commands are well formed: lists of the length the hardware gives them, and operands in the range that
the spec's encodings admit. A command that is not well formed stands for no event of the module. -/

namespace Sys2Proof

/-- A mirror, plausibility or other link frame: at most 33 payload words (R35). -/
def LinkFrame.shortEnough (f : LinkFrame) : Bool := decide (f.payload.length ≤ 33)

/-- A Nolxis frame: at most 64 payload words (R374). -/
def NxFrame.shortEnough (f : NxFrame) : Bool := decide (f.payload.length ≤ 64)

/-- A CAN frame: at most 16 data words, an 11-bit identifier without the extension (R492, R496). -/
def CanFrame.inRange (f : CanFrame) : Bool := decide (f.data.length ≤ 16) && (f.ide || decide (f.id.toNat < 2048))

/-- What the pre-drive check measures has an entry for each driver (R64). -/
def PreDrive.complete (m : PreDrive) : Bool :=
  decide (m.solenoid.length = 6) && decide (m.stepperOk.length = 4) && decide (m.outNode.length = 8) &&
    decide (m.outMa.length = 8) && decide (m.stages.length = 2)

/-- What the self-test reads has an entry for each power stage with its three bootstraps, and one for each driver (R523, R524). -/
def SelfTest.complete (r : SelfTest) : Bool :=
  decide (r.coils.length = 6) && decide (r.stages.length = 2) && r.stages.all (fun x => decide (x.boots.length = 3))

/-- What the four retention banks read as: an entry for each, of granules it has (R458). -/
def banksComplete (banks : List (List (Nat × Ecc))) : Bool :=
  decide (banks.length = 4) && banks.all (fun b => b.all (fun p => decide (p.1 < 128)))

/-- The well-formed commands. -/
def Instr.wellFormed : Instr → Bool
  | .registerWrite _ _ size _ => decide (size = 1) || decide (size = 2) || decide (size = 4) || decide (size = 8)
  | .selfTestDone _ r => r.complete
  | .linkFrameReceive ln from_ f => f.shortEnough && decide (ln ≠ from_)
  | .preDriveCheckDone _ m => m.complete
  | .pulseTestDone _ _ currents _ => decide (currents.length ≤ 6)
  | .analogSample _ codes supply => decide (codes.length = 8) && decide (supply.length = 2)
  | .nxFrameReceive _ _ f => f.shortEnough
  | .marshalAdmit _ x => x.frame.all NxFrame.shortEnough
  | .envelopeProduce _ _ payload => decide (payload.length ≤ 64)
  | .envelopeCopyJudge _ _ _ words _ => decide (words.length ≤ 64)
  | .powerVoteNit ln others => others.all (fun p => decide (p.1 ≠ ln))
  | .napWake _ x => banksComplete x.banks
  | .dormantWake _ banks => banksComplete banks
  | .svcWriteData _ _ _ data => decide (data.length ≤ 1016)
  | .canFrameReceive _ _ f => f.inRange
  | .takeoverLineChange ln driver _ => decide (ln ≠ driver)
  | .heartbeatMissed ln sender => decide (ln ≠ sender)
  | .linkDown ln peer => decide (ln ≠ peer)
  | .linkFaultCharge ln peer => decide (ln ≠ peer)
  | .linkFrameSend ln dest => decide (ln ≠ dest)
  | .voteAssert ln target _ => decide (ln ≠ target)
  | .voteRelease ln target => decide (ln ≠ target)
  | .voteTestPulse ln target _ => decide (ln ≠ target)
  | .voteTestFail ln target => decide (ln ≠ target)
  | _ => true

end Sys2Proof
end

