-- ==== Sys2Proof/Safety.lean ====
section
/-! DEFINITION. The terms that statements are made in: what a command does in one lane, what it leaves alone, and what a safe
state is. -/

namespace Sys2Proof.Machine

/-! ### What a command does -/

/-- Lane `ln` of the module is `l`, it is on the member, powered and awake, and `c` is what a command in it knows. -/
def Here (s : State) (ln : LaneId) (c : Ctx) (l : Lane) : Prop :=
  s.has ln = true ∧ s.lane ln = l ∧ l.alive = true ∧ s.ctx ln = c

/-- Lane `ln` of the module is `l` and on the member, powered or not. -/
def There (s : State) (ln : LaneId) (c : Ctx) (l : Lane) : Prop := s.has ln = true ∧ s.lane ln = l ∧ s.ctx ln = c

/-- The command answers a next state, in which lane `ln` is `l` and nothing else has changed. -/
def Gives (i : Instr) (s : State) (ln : LaneId) (l : Lane) : Prop := exec i s = .next (s.setLane ln l)

/-- The command answers a next state, in which lane `ln` is as `P` says and nothing else has changed. -/
def Yields (i : Instr) (s : State) (ln : LaneId) (P : Lane → Prop) : Prop := ∃ l, Gives i s ln l ∧ P l

/-- The command answers a next state, in which lane `ln` is `l` and the other lanes have counted the sensor faults that are new there
(R116), and nothing else has changed. -/
def Tells (i : Instr) (s : State) (ln : LaneId) (l : Lane) : Prop := exec i s = .next (s.tellNew ln (s.setLane ln l))

/-- As `Tells`, with lane `ln` as `P` says. -/
def Told (i : Instr) (s : State) (ln : LaneId) (P : Lane → Prop) : Prop := ∃ l, Tells i s ln l ∧ P l

/-- Engine `e` of the lane can execute an instruction now, and the leg that it runs is `d` (R145, R194). -/
def Executes (c : Ctx) (l : Lane) (e : EngIx) (d : LegDesc) : Prop :=
  l.engRuns c e.val = true ∧ l.runDesc e.val = some d ∧ fetchOk (l.eng e.val).pc = true

/-- The engine instruction answers a next state in which engine `e` of the lane is `x` and all else is as before. -/
def Executed (i : Instr) (s : State) (ln : LaneId) (l : Lane) (e : EngIx) (x : Engine) : Prop :=
  Gives i s ln (l.setEng e.val x)

/-! ### What it leaves alone -/

/-- Registers outside a list are as before. -/
def SameRegs (l m : Lane) (as : List Nat) : Prop := ∀ a, a ∉ as → m.rd a = l.rd a

/-- Every byte outside a range is as before. -/
def SameBytes (l m : Lane) (base n : Nat) : Prop := ∀ a, a < base ∨ base + n ≤ a → m.byte a = l.byte a

/-- Every byte of memory is as before. -/
def SameMem (l m : Lane) : Prop := ∀ a, m.byte a = l.byte a

/-- The fields of a register but for one are as before. -/
def SameField (l m : Lane) (f : Fld) : Prop :=
  ∀ i, i < 32 → (i < f.lo ∨ f.hi < i) → (m.rd f.addr).getLsbD i = (l.rd f.addr).getLsbD i

/-! ### Safe states -/

/-- The member has no lane C, and lane C is not powered (R7). -/
def laneCAbsent (s : State) : Bool := isTriple s.part.member || decide (s.laneC.phase = .off)

/-- The module has only what its part has: lane C on three-lane members (R7), a marshal that runs only where one is fitted
(R398). -/
def State.fitted (s : State) : Bool := laneCAbsent s && (s.part.marshal || !s.marshal.powered)

/-- Memory and registers of a lane are in canonical form. -/
def Lane.canonical (l : Lane) : Bool := Memory.wf l.mem && bankWf l.regs

/-- The lane drives nothing: no stage is on and its takeover lines are deasserted. -/
def Lane.quiet (l : Lane) : Bool := decide (l.stageOn = 0) && !l.takeover

/-- A run is safe while no step stops. -/
def runsOn (n : Nat) (s : State) : Prop := ∃ t, core.run n s = .next t

end Sys2Proof.Machine
end

