-- ==== Sys2Proof/Certificates/Slice0/Obligations.lean ====
section
/-! DEFINITION. The statements for the provers. -/

open Sys2Proof Sys2Proof.Machine

/-- A peripheral access that is not of 32 bits or not aligned is a bus error and changes no register. (R561) -/
def Obligations.MisalignedAccessIsBusError : Prop :=
    (∀ (s : State) (ln : LaneId) (c : Ctx) (l : Lane) (a v : Word) (n : Nat), Here s ln c l →
      0x40000000 ≤ a.toNat →
      a.toNat < 0x50000000 →
      n ≠ 4 ∨ a.toNat % 4 ≠ 0 →
      Gives (.registerWrite ln a n v) s ln ({ l with bus := .error })) ∧
    (∀ (s : State) (ln : LaneId) (c : Ctx) (l : Lane) (a v : Word), Here s ln c l →
      0x40000000 ≤ a.toNat →
      a.toNat < 0x50000000 →
      a.toNat % 4 ≠ 0 →
      Gives (.pairLoWrite ln a v) s ln ({ l with bus := .error })) ∧
    (∀ (s : State) (ln : LaneId) (c : Ctx) (l : Lane) (a v : Word), Here s ln c l →
      0x40000000 ≤ a.toNat →
      a.toNat < 0x50000000 →
      a.toNat % 4 ≠ 0 →
      Gives (.pairHiWrite ln a v) s ln ({ l with bus := .error })) ∧
    (∀ (s : State) (ln : LaneId) (c : Ctx) (l : Lane) (a : Word), Here s ln c l →
      0x40000000 ≤ a.toNat →
      a.toNat < 0x50000000 →
      a.toNat % 4 ≠ 0 →
      Gives (.pairLoRead ln a) s ln ({ l with bus := .error }))

/-- A write where the member has no register or no memory is a bus error and changes nothing else. (R8, R22, R562) -/
def Obligations.AbsentRegisterIsBusError : Prop :=
    (∀ (s : State) (ln : LaneId) (c : Ctx) (l : Lane) (a v : Word), Here s ln c l →
      0x40000000 ≤ a.toNat →
      a.toNat < 0x50000000 →
      regThere c a.toNat = false →
      Gives (.registerWrite ln a 4 v) s ln ({ l with bus := .error })) ∧
    (∀ (s : State) (ln : LaneId) (c : Ctx) (l : Lane) (a v : Word) (n : Nat), Here s ln c l →
      0x50000000 ≤ a.toNat →
      Gives (.registerWrite ln a n v) s ln ({ l with bus := .error })) ∧
    (∀ (s : State) (ln : LaneId) (c : Ctx) (l : Lane) (a v : Word) (n : Nat), Here s ln c l →
      0x20400000 ≤ a.toNat →
      a.toNat < 0x30000000 →
      Gives (.registerWrite ln a n v) s ln ({ l with bus := .error })) ∧
    (∀ (s : State) (ln : LaneId) (c : Ctx) (l : Lane) (a v : Word) (n : Nat), Here s ln c l →
      0x10000000 ≤ a.toNat →
      a.toNat < 0x20000000 →
      0x10000000 + 0x40000 * blockCount c.part.member ≤ a.toNat →
      Gives (.registerWrite ln a n v) s ln ({ l with bus := .error }))

/-- A register write sets rw fields, clears w1c flags and leaves the rest. (R16, R17) -/
def Obligations.RegisterWriteSetsFields : Prop :=
    ∀ (s : State) (ln : LaneId) (c : Ctx) (l : Lane) (a v : Word) (r : RegRow), Here s ln c l →
      0x40000000 ≤ a.toNat →
      a.toNat < 0x50000000 →
      a.toNat % 4 = 0 →
      irqLine a.toNat ≠ 12 →
      regThere c a.toNat = true →
      findRow a.toNat = some r →
      stagedLow r a.toNat = false →
      l.writeActs c r a.toNat v = none →
      Yields (.registerWrite ln a 4 v) s ln (fun m => m.rd a.toNat = ((l.rd a.toNat &&& ~~~(BitVec.ofNat 32 r.rw)) ||| (v &&& BitVec.ofNat 32 r.rw)) &&& ~~~(v &&& BitVec.ofNat 32 r.w1c) ∧
        SameRegs l m [a.toNat] ∧ SameMem l m ∧ m.bus = .done)

/-- A 32-bit store to lane SRAM changes its four bytes and nothing else in memory. (R21, R562) -/
def Obligations.SramStoreChangesItsBytes : Prop :=
    ∀ (s : State) (ln : LaneId) (c : Ctx) (l : Lane) (a v : Word), Here s ln c l →
      0x20000000 ≤ a.toNat →
      a.toNat + 4 ≤ 0x20400000 →
      Yields (.registerWrite ln a 4 v) s ln (fun m => m.granule a.toNat = v ∧ SameBytes l m a.toNat 4 ∧ SameRegs l m [] ∧ m.bus = .done)

/-- The low word of a pair is staged, the high word takes both, and a read of the low word takes a snapshot. (R18, R19,
R20, R313) -/
def Obligations.PairWritesAndReads : Prop :=
    (∀ (s : State) (ln : LaneId) (c : Ctx) (l : Lane) (a v : Word) (r : RegRow), Here s ln c l →
      0x40000000 ≤ a.toNat →
      a.toNat < 0x50000000 →
      a.toNat % 4 = 0 →
      regThere c a.toNat = true →
      findRow a.toNat = some r →
      stagedLow r a.toNat = true →
      Yields (.pairLoWrite ln a v) s ln (fun m => m.staging = tabPut l.staging a.toNat v ∧ SameRegs l m [] ∧ SameMem l m ∧ m.bus = .done)) ∧
    (∀ (s : State) (ln : LaneId) (c : Ctx) (l : Lane) (v lo : Word) (n : Fin 4), Here s ln c l →
      n.val < stepperCount c.part.member →
      (l.stepper n.val).v = 0 →
      tabGet l.staging (R.SPn_CMP n.val) = some lo →
      l.bit (R.SPn_CMP_CFG_fire_if_passed n.val) = false →
      Yields (.pairHiWrite ln (BitVec.ofNat 32 (R.SPn_CMP n.val + 4)) v) s ln (fun m => m.pair (R.SPn_CMP n.val) = v.setWidth 8 ++ lo ∧ m.bit (R.SPn_STATUS_cmp_armed n.val) = true ∧ m.bus = .done)) ∧
    (∀ (s : State) (ln : LaneId) (c : Ctx) (l : Lane) (a : Word) (r : RegRow), Here s ln c l →
      0x40000000 ≤ a.toNat →
      a.toNat < 0x50000000 →
      a.toNat % 4 = 0 →
      irqLine a.toNat ≠ 12 →
      regThere c a.toNat = true →
      findRow a.toNat = some r →
      r.pair = true →
      rowHigh r a.toNat = false →
      Yields (.pairLoRead ln a) s ln (fun m => m.bus = .value (l.view c a.toNat) ∧ tabGet m.snap a.toNat = some (l.view c (a.toNat + 4)) ∧ SameRegs l m [] ∧ SameMem l m)) ∧
    (∀ (s : State) (ln : LaneId) (c : Ctx) (l : Lane) (a v : Word) (r : RegRow), Here s ln c l →
      0x40000000 ≤ a.toNat →
      a.toNat < 0x50000000 →
      a.toNat % 4 = 0 →
      regThere c a.toNat = true →
      findRow a.toNat = some r →
      stagedLow r a.toNat = true →
      Gives (.pairLoWrite ln a v) s ln ({ l with staging := tabPut l.staging a.toNat v, bus := .done })) ∧
    (∀ (s : State) (ln : LaneId) (c : Ctx) (l : Lane) (a v : Word) (r : RegRow), Here s ln c l →
      0x40000000 ≤ a.toNat →
      a.toNat < 0x50000000 →
      a.toNat % 4 = 0 →
      regThere c a.toNat = true →
      findRow a.toNat = some r →
      rowHigh r a.toNat = true →
      Gives (.pairHiWrite ln a v) s ln (Lane.irqNote l { (l.writeActs c r a.toNat v).getD (l.writeFields r a.toNat v) with bus := .done } (irqLine a.toNat))) ∧
    (∀ (s : State) (ln : LaneId) (c : Ctx) (l : Lane) (a : Word) (r : RegRow), Here s ln c l →
      0x40000000 ≤ a.toNat →
      a.toNat < 0x50000000 →
      a.toNat % 4 = 0 →
      irqLine a.toNat ≠ 12 →
      regThere c a.toNat = true →
      findRow a.toNat = some r →
      r.pair = true →
      rowHigh r a.toNat = false →
      Gives (.pairLoRead ln a) s ln (({ l with bus := .value (l.view c a.toNat), snap := tabPut l.snap a.toNat (l.view c (a.toNat + 4)) } : Lane).draw))

/-- Frames of the cross-lane links are queued, sent and taken. (R35, R36, R37, R38, R39, R40, R42, R56, R85) -/
def Obligations.LinkCommandsComplete : Prop :=
    (∀ (s : State) (ln : LaneId) (c : Ctx) (l : Lane), Here s ln c l →
      Gives (.heartbeatSend ln) s ln (l.queueAll c ⟨1, []⟩ (othersOf c))) ∧
    (∀ (s : State) (ln : LaneId) (c : Ctx) (l : Lane) (dest : LaneId) (f : OutFrame) (rest : List OutFrame), Here s ln c l →
      Lane.isPeer c dest = true →
      (l.peer dest).downAt = none →
      nextFrame (l.peer dest).txq = some (f, rest) →
      Gives (.linkFrameSend ln dest) s ln (l.setPeer dest { l.peer dest with txq := rest, txSeq := (l.peer dest).txSeq + 1, txNow := some (buildFrame c f.ftype (l.peer dest).txSeq (if f.ftype = 1 then l.heartbeat c else f.payload)) })) ∧
    (∀ (s : State) (ln : LaneId) (c : Ctx) (l : Lane) (src : LaneId) (f : LinkFrame), Here s ln c l →
      Lane.isPeer c src = true →
      (l.peer src).downAt = none →
      discards src f = false →
      (l.peer src).rxSeq = some (f.seq - 1) →
      Tells (.linkFrameReceive ln src f) s ln (((l.setPeer src { l.peer src with badRun := 0, rxSeq := some f.seq }).setLinkUp c src true).takeFrame c src f)) ∧
    (∀ (s : State) (ln : LaneId) (c : Ctx) (l : Lane) (src : LaneId) (f : LinkFrame) (q : BitVec 16), Here s ln c l →
      Lane.isPeer c src = true →
      (l.peer src).downAt = none →
      discards src f = false →
      (l.peer src).rxSeq = some q →
      f.seq ≠ q + 1 →
      Tells (.linkFrameReceive ln src f) s ln ((((l.setPeer src { l.peer src with badRun := 0, rxSeq := some f.seq }).setLinkUp c src true).inc (if onLink0 c src then R.LM_LINK0_LOST_count else R.LM_LINK1_LOST_count)).takeFrame c src f)) ∧
    (∀ (s : State) (ln : LaneId) (c : Ctx) (l : Lane) (src : LaneId) (f : LinkFrame), Here s ln c l →
      Lane.isPeer c src = true →
      (l.peer src).downAt = none →
      discards src f = true →
      Tells (.linkFrameReceive ln src f) s ln (l.discardFrame c src)) ∧
    (∀ (s : State) (ln : LaneId) (c : Ctx) (l : Lane) (x : LaneId) (ws : List Word), Here s ln c l →
      Lane.isPeer c x = true →
      (l.peer x).hb = some ws →
      (l.peer x).hbAt + 13000 ≤ c.now →
      (l.peer x).silentAt = none →
      Gives (.heartbeatMissed ln x) s ln ((l.setPeer x { l.peer x with missed := 2, silentAt := some c.now }).nowSilent c x)) ∧
    (∀ (s : State) (ln : LaneId) (c : Ctx) (l : Lane) (x : LaneId), Here s ln c l →
      Lane.isPeer c x = true →
      (l.peer x).downAt = none →
      Gives (.linkDown ln x) s ln (((l.setPeer x { l.peer x with downAt := some c.now, judged := false, txq := [], txNow := none, mirrorRx := none, farUnfitAtDown := !l.knowsFit x || (l.peer x).leaving.isSome }).setLinkUp c x false).flag
        R.LM_FLAGS_link_down |>.judgeSilent c x)) ∧
    (∀ (s : State) (ln : LaneId) (c : Ctx) (l : Lane) (x : LaneId) (t : Nat), Here s ln c l →
      Lane.isPeer c x = true →
      (l.peer x).downAt = some t →
      t + 20000 ≤ c.now →
      (l.peer x).judged = false →
      (l.peer x).accounted t = true →
      Gives (.linkFaultCharge ln x) s ln (l.setPeer x { l.peer x with judged := true })) ∧
    (∀ (s : State) (ln : LaneId) (c : Ctx) (l : Lane) (x : LaneId) (t : Nat), Here s ln c l →
      Lane.isPeer c x = true →
      (l.peer x).downAt = some t →
      t + 20000 ≤ c.now →
      (l.peer x).judged = false →
      (l.peer x).accounted t = false →
      (l.setPeer x { l.peer x with judged := true }).chargedLane c x = x →
      Gives (.linkFaultCharge ln x) s ln (((l.setPeer x { l.peer x with judged := true }).countOther c x 1 0xC).learnUnfit c x)) ∧
    (∀ (s : State) (ln : LaneId) (c : Ctx) (l : Lane), Here s ln c l →
      l.sendsMirror c = true →
      l.commitsOver c = true →
      Gives (.mirrorSend ln) s ln (let n := ((l.mirrorWords c).length + 31) / 32
        ((List.range n).foldl (fun (y : Lane) i => y.queueAll c ⟨3, BitVec.ofNat 32 (l.heat16.toNat * 65536 + i % 256 * 256 + n % 256) :: ((segmentsOf n (l.mirrorWords c))[i]?).getD []⟩
          ((othersOf c).filter l.knowsFit)) l).put R.LM_STATUS_mirror_ok 1)) ∧
    (∀ (s : State) (ln : LaneId) (c : Ctx) (l : Lane), Here s ln c l →
      l.fit = true →
      l.ea.started = true →
      l.ownPlaus = none →
      Tells (.plausSend ln) s ln (({ l with ownPlausPrev := none, ownPlaus := some (l.heat16, l.plausFrame) }.queueAll c ⟨4, BitVec.ofNat 32 l.heat16.toNat :: l.plausFrame⟩ (othersOf c)).tryJudge c
          l.heat16 true))

/-- Disagreements, DISPUTED and the vote lines. (R46, R47, R86, R87, R89, R90) -/
def Obligations.DisagreementCommandsComplete : Prop :=
    (∀ (s : State) (ln : LaneId) (c : Ctx) (l : Lane) (sender : LaneId) (lanes : BitVec 3) (quantity : BitVec 16) (heats : BitVec 2), Here s ln c l →
      Lane.isPeer c sender = true →
      maskHas lanes.toNat c.id = true →
      Gives (.disagree ln sender lanes quantity heats) s ln (let l1 := l.put R.LM_DISAGREE_quantity quantity.toNat
        ((l1.put R.LM_DISAGREE_lanes (maskSet (l1.get R.LM_DISAGREE_lanes) sender true)).put R.LM_DISAGREE_heats heats.toNat).flag R.LM_FLAGS_disagree)) ∧
    (∀ (s : State) (ln : LaneId) (c : Ctx) (l : Lane) (sender : LaneId) (quantity : BitVec 16), Here s ln c l →
      Lane.isPeer c sender = true →
      Gives (.disputed ln sender quantity) s ln (l.enterDisputed c quantity.toNat)) ∧
    (∀ (s : State) (ln : LaneId) (c : Ctx) (l : Lane) (sender target : LaneId) (row : Fin 5), Here s ln c l →
      Lane.isPeer c sender = true →
      Gives (.vote ln sender target row) s ln (l.setPeer sender { l.peer sender with said := some (target, row.val) })) ∧
    (∀ (s : State) (ln : LaneId) (c : Ctx) (l : Lane) (t u : Nat), Here s ln c l →
      isTriple c.part.member = true →
      c.id = .a →
      l.peerB.inAt = some t →
      l.peerC.inAt = some u →
      l.peerB.outAt = none →
      l.peerC.outAt = none →
      t + 650 ≤ c.now →
      u + 650 ≤ c.now →
      l.role ≠ roleUnfit →
      Gives (.inhibitTrip ln) s ln (l.becomeUnfit c 0xB 1 0xB .votes)) ∧
    (∀ (s : State) (ln target : LaneId) (row : Fin 5), s.has ln = true → s.has target = true →
      (s.lane ln).mayVote (s.ctx ln) target row.val = true →
      ∃ t, exec (.voteAssert ln target row) s = .next t ∧ maskHas ((t.lane target).get R.LM_VOTE_votes_in) ln = true ∧
        ((t.lane target).peer ln).inAt = some (s.ctx target).now ∧ ((t.lane target).peer ln).outAt = none ∧ SameMem (s.lane target) (t.lane target)) ∧
    (∀ (s : State) (ln target : LaneId), s.has ln = true → s.has target = true → (s.lane ln).mayRelease (s.ctx ln).now target = true →
      ∃ t, exec (.voteRelease ln target) s = .next t ∧ maskHas ((t.lane target).get R.LM_VOTE_votes_in) ln = false ∧
        ((t.lane target).peer ln).outAt = some (s.ctx target).now ∧ SameMem (s.lane target) (t.lane target)) ∧
    (∀ (s : State) (ln target : LaneId) (received : Bool), s.has ln = true → s.has target = true → ln ≠ target →
      (s.lane ln).pulseDue (s.ctx ln) target = true → (s.lane target).alive = true →
      exec (.voteTestPulse ln target received) s = .next ((s.setLane ln ((s.lane ln).setPeer target { (s.lane ln).peer target with pulseMiss := if received then 0 else ((s.lane ln).peer target).pulseMiss + 1 })).setLane target ((s.lane target).putB
        (if onLink0 (s.ctx target) ln then R.LM_STATUS_pulse_rx_0 else R.LM_STATUS_pulse_rx_1) received))) ∧
    (∀ (s : State) (ln target : LaneId), s.has ln = true → s.has target = true → ln ≠ target → (s.lane ln).alive = true →
      (s.lane target).alive = true → 2 ≤ ((s.lane ln).peer target).pulseMiss →
      exec (.voteTestFail ln target) s = .next ((s.setLane ln ((((s.lane ln).flag R.LM_FLAGS_pulse_fail).inc R.LM_VOTE_test_fail).setPeer target
        { (s.lane ln).peer target with pulseMiss := 0 })).setLane target ((s.lane target).becomeUnfit (s.ctx target) 0xA 1 0xA .inhibit)))

/-- Hold latches, standstill, starvation and the end of an engagement. (R46, R58, R60, R127, R128, R270, R271) -/
def Obligations.LatchesAndStandstillComplete : Prop :=
    (∀ (s : State) (ln : LaneId) (c : Ctx) (l : Lane) (st : Stage), Here s ln c l →
      l.stageOn.getLsbD (stageIx st) = true →
      BitVec.ofNat 32 (2 ^ stageIx st) &&& stageMask c.part.member ≠ 0 →
      l.baton.inhibited = false →
      Gives (.latchHold ln st) s ln (l.holdLatches c (BitVec.ofNat 32 (2 ^ stageIx st) &&& stageMask c.part.member))) ∧
    (∀ (s : State) (ln : LaneId) (c : Ctx) (l : Lane) (st : Stage), Here s ln c l →
      l.stageOn.getLsbD (stageIx st) = true →
      BitVec.ofNat 32 (2 ^ stageIx st) &&& stageMask c.part.member ≠ 0 →
      l.baton.inhibited = true →
      Gives (.latchHold ln st) s ln (l.stagesOff (BitVec.ofNat 32 (2 ^ stageIx st) &&& stageMask c.part.member &&& 0x00FFFFFF))) ∧
    (∀ (s : State) (ln : LaneId) (c : Ctx) (l : Lane) (st : Stage) (t : Nat), Here s ln c l →
      tabGet l.latchAt (stageIx st) = some t →
      l.latchHold.getLsbD (stageIx st) = true →
      t + 1000000 ≤ c.now →
      Yields (.latchTimeout ln st) s ln (fun m => (m.stageOn.getLsbD (stageIx st) = false ∧ m.latchHold.getLsbD (stageIx st) = false ∧ SameRegs l m [R.LM_FLAGS] ∧ SameMem l m))) ∧
    (∀ (s : State) (ln : LaneId) (c : Ctx) (l : Lane), Here s ln c l →
      l.standing c = true →
      l.get R.BK_STATUS_step ≠ 2 →
      Gives (.standstillConfirmed ln) s ln (({ l with bk := { l.bk with still := true } }).showParked c)) ∧
    (∀ (s : State) (ln : LaneId) (c : Ctx) (l : Lane), Here s ln c l →
      l.standing c = true →
      l.get R.BK_STATUS_step = 2 →
      Gives (.standstillConfirmed ln) s ln ((({ l with bk := { l.bk with still := true } }).put R.BK_STATUS_step 3).showParked c)) ∧
    (∀ (s : State) (ln : LaneId) (c : Ctx) (l : Lane) (t : Nat), Here s ln c l →
      l.bk.zeroAt = some t →
      l.fc.starving = true →
      l.get R.BK_STATUS_step = 1 →
      t + (l.rd R.FC_HOLD_TIME).toNat ≤ c.now →
      ((l.put R.BK_STATUS_step 2).beginDecel (some c.now)).channelGone c .x = false →
      ((l.put R.BK_STATUS_step 2).beginDecel (some c.now)).channelGone c .y = false →
      Gives (.starvationHoldEnd ln) s ln (((l.put R.BK_STATUS_step 2).beginDecel (some c.now)).countNow c 0xB 3 0)) ∧
    (∀ (s : State) (ln : LaneId) (c : Ctx) (l : Lane) (t : Nat), Here s ln c l →
      l.bk.parkedAt = some t →
      l.permitted = true →
      l.get R.FC_MODE_mode = 4 →
      l.parked = true →
      t + 1000000000 ≤ c.now →
      Gives (.engagementEnd ln) s ln ((l.disengage.disableAll c).closeSpools))

/-- Baton decisions: a claim is agreed to, acknowledged, timed out or passed on. (R71, R72, R73) -/
def Obligations.DecisionCommandsComplete : Prop :=
    (∀ (s : State) (ln : LaneId) (c : Ctx) (l : Lane) (sender failed : LaneId) (cause : BitVec 4), Here s ln c l →
      isTriple c.part.member = true →
      Lane.isPeer c sender = true →
      failed ≠ sender →
      failed ≠ c.id →
      l.standby = true →
      l.baton.decision = none →
      Gives (.claim ln sender failed cause) s ln (let l0 := (((l.setFit failed false).pinLost failed).judgePorts c).awaitCause c failed
        let l1 := (l0.sendTo c sender 0x02 [laneCode failed]).put R.LM_ROLE_baton_lane (laneCode sender)
        let l2 := { l1 with baton := { l1.baton with decision := none, window := some ⟨sender, failed, c.now + 250000, c.now, l.stamp, false⟩, pass := none, note := none } }
        (l2.put R.LM_ROLE_deciding 0).recordDrop c failed sender l.stamp)) ∧
    (∀ (s : State) (ln : LaneId) (c : Ctx) (l : Lane) (sender failed : LaneId) (d : Decision), Here s ln c l →
      l.baton.decision = some d →
      d.successor = c.id →
      d.failed = failed →
      d.claimAt.isSome = true →
      Lane.isPeer c sender = true →
      Gives (.claimAck ln sender failed) s ln (l.complete c)) ∧
    (∀ (s : State) (ln : LaneId) (c : Ctx) (l : Lane) (d : Decision) (t : Nat), Here s ln c l →
      l.baton.decision = some d →
      d.claimAt = some t →
      t + 8000 ≤ c.now →
      Gives (.claimTimeout ln) s ln (l.complete c)) ∧
    (∀ (s : State) (ln : LaneId) (c : Ctx) (l : Lane) (d : Decision), Here s ln c l →
      l.baton.decision = some d →
      d.successor = c.id →
      isTriple c.part.member = false →
      d.countedAt + 1000 ≤ c.now →
      Gives (.batonDecisionComplete ln) s ln (l.complete c)) ∧
    (∀ (s : State) (ln : LaneId) (c : Ctx) (l : Lane) (d : Decision), Here s ln c l →
      l.baton.decision = some d →
      d.successor = c.id →
      isTriple c.part.member = true →
      ((othersOf c).filter (fun x => decide (x ≠ d.failed))).all (fun x => !l.knowsFit x || (l.peer x).silentAt.isSome) = true →
      Gives (.batonDecisionComplete ln) s ln (l.complete c)) ∧
    (∀ (s : State) (ln : LaneId) (c : Ctx) (l : Lane) (d : Decision), Here s ln c l →
      l.baton.decision = some d →
      isTriple c.part.member = true →
      d.successor ≠ c.id →
      d.boundFrom + 10000 ≤ c.now →
      Gives (.successorClaimTimeout ln) s ln ((l.countOther c d.successor 1 0xC).learnUnfit c d.successor))

/-- What a lane does when another lane is unfit or drops the baton. (R45, R60, R70, R74, R92, R116, R322, R563) -/
def Obligations.UnfitNewsComplete : Prop :=
    (∀ (s : State) (ln : LaneId) (c : Ctx) (l : Lane) (sender : LaneId) (cause cls : BitVec 4), Here s ln c l →
      Lane.isPeer c sender = true →
      (l.peer sender).awaitLeaving = none →
      Gives (.leaving ln sender cause cls) s ln (let l1 := l.countOther c sender cls.toNat (if cls.toNat ≤ 3 then cause.toNat else 0)
        ((l1.setPeer sender { l.peer sender with leaving := some ⟨cause.toNat, cls.toNat, c.now⟩, awaitLeaving := none, voteShown := (l.peer sender).voteShown || (l.peer sender).voteAt.isSome }).causeKnown
          sender cause.toNat).learnUnfit c sender)) ∧
    (∀ (s : State) (ln : LaneId) (c : Ctx) (l : Lane) (sender : LaneId) (cause cls : BitVec 4) (t : Nat), Here s ln c l →
      Lane.isPeer c sender = true →
      (l.peer sender).awaitLeaving = some t →
      Gives (.leaving ln sender cause cls) s ln (let l1 := l.countAwaited c sender cls.toNat (if cls.toNat ≤ 3 then cause.toNat else 0)
        ((l1.setPeer sender { l.peer sender with leaving := some ⟨cause.toNat, cls.toNat, c.now⟩, awaitLeaving := none, voteShown := (l.peer sender).voteShown || (l.peer sender).voteAt.isSome }).causeKnown
          sender cause.toNat).learnUnfit c sender)) ∧
    (∀ (s : State) (ln : LaneId) (c : Ctx) (l : Lane) (gone : LaneId) (t : Nat), Here s ln c l →
      (l.peer gone).awaitLeaving = some t →
      t + 20000 ≤ c.now →
      Gives (.leavingTimeout ln gone) s ln (let l1 := l.setPeer gone { l.peer gone with awaitLeaving := none }
        ((l1.countAwaited c gone 1 0xC).causeKnown gone 0xC).learnUnfit c gone)) ∧
    (∀ (s : State) (ln : LaneId) (c : Ctx) (l : Lane) (driver : LaneId), Here s ln c l →
      Lane.isPeer c driver = true →
      (l.peer driver).line = false →
      l.baton.window = none →
      Gives (.takeoverLineChange ln driver true) s ln ((l.setPeer driver { l.peer driver with line := true, lineAt := c.now }).releaseLatches (stageMask c.part.member))) ∧
    (∀ (s : State) (ln : LaneId) (c : Ctx) (l : Lane) (driver : LaneId) (w : Window), Here s ln c l →
      Lane.isPeer c driver = true →
      (l.peer driver).line = false →
      l.baton.window = some w →
      w.incoming = driver →
      Gives (.takeoverLineChange ln driver true) s ln (let m := (l.setPeer driver { l.peer driver with line := true, lineAt := c.now }).releaseLatches (stageMask c.part.member)
        { m with baton := { m.baton with window := none } })) ∧
    (∀ (s : State) (ln : LaneId) (c : Ctx) (l : Lane) (driver : LaneId), Here s ln c l →
      Lane.isPeer c driver = true →
      (l.peer driver).line = true →
      l.dropsBaton c driver = true →
      Gives (.takeoverLineChange ln driver false) s ln (((l.setPeer driver { l.peer driver with line := false, lineAt := c.now }).failAllHoming).startDecision c driver)) ∧
    (∀ (s : State) (ln : LaneId) (c : Ctx) (l : Lane) (w : Window), Here s ln c l →
      l.baton.window = some w →
      w.incoming = c.id →
      w.checked = true →
      l.active = true →
      Gives (.takeoverAssert ln) s ln (let l1 := { l.stagesOn (l.incomingStages c) with refresh := true, baton := { l.baton with window := none } }
        let l2 := (((l1.setLines true).put R.LM_STATUS_takeover_pending 0).slotsAnew c).wr R.LM_GAP_NPRIV (BitVec.ofNat 32 (c.now - w.countedAt))
        (List.range (stepperCount c.part.member)).foldl (fun y n => y.restStepper c n) l2)) ∧
    (∀ (s : State) (ln : LaneId) (c : Ctx) (l : Lane) (w : Window), Here s ln c l →
      l.baton.window = some w →
      w.endsAt ≤ c.now →
      w.incoming ≠ c.id →
      l.standby = true →
      Gives (.takeoverWindowExpiry ln) s ln (({ l with baton := { l.baton with window := none } }).startDecision c w.incoming)) ∧
    (∀ (s : State) (ln : LaneId) (c : Ctx) (l : Lane) (w : Window), Here s ln c l →
      l.baton.window = some w →
      w.endsAt ≤ c.now →
      w.incoming = c.id →
      Gives (.takeoverWindowExpiry ln) s ln (l.put R.LM_STATUS_takeover_pending 0))

/-- A relay pass is offered, checked, accepted and announced. (R64, R65, R67, R69, R228) -/
def Obligations.PassOffersComplete : Prop :=
    (∀ (s : State) (ln : LaneId) (c : Ctx) (l : Lane) (sender : LaneId) (heat : BitVec 16) (cause : BitVec 4), Here s ln c l →
      Lane.isPeer c sender = true →
      l.standby = true →
      l.batonLane = some sender →
      l.baton.decision = none →
      cause ≠ 7 →
      Gives (.passOffer ln sender heat cause true) s ln (l.setPass (some ⟨sender, c.id, cause.toNat, true, heat, .checking, 0, 0, 0, 0, 0⟩))) ∧
    (∀ (s : State) (ln : LaneId) (c : Ctx) (l : Lane) (sender : LaneId) (heat : BitVec 16) (cause : BitVec 4) (t : Nat), Here s ln c l →
      Lane.isPeer c sender = true →
      l.standby = true →
      l.batonLane = some sender →
      l.baton.decision = none →
      l.heatTime heat = some t →
      c.now + 210000 ≤ t →
      Gives (.passOffer ln sender heat cause false) s ln (l.setPass (some ⟨sender, c.id, cause.toNat, false, heat, .checking, t, l.stamp + BitVec.ofNat 32 (t - c.now), 0, 0, 0⟩))) ∧
    (∀ (s : State) (ln : LaneId) (c : Ctx) (l : Lane) (m : PreDrive) (ix : Nat) (rest : List Nat) (p : Pass), Here s ln c l →
      l.baton.window = none →
      l.baton.pass = some p →
      p.incoming = c.id →
      p.phase = .checking →
      l.checkFails c m = ix :: rest →
      Gives (.preDriveCheckDone ln m) s ln (((((l.showCheck c m).showShorts c m).sendTo c p.outgoing 0x05 [ix]).setPass none).failCheck c ix)) ∧
    (∀ (s : State) (ln : LaneId) (c : Ctx) (l : Lane) (m : PreDrive) (p : Pass), Here s ln c l →
      l.baton.window = none →
      l.baton.pass = some p →
      p.incoming = c.id →
      p.phase = .checking →
      p.urgent = false →
      l.checkFails c m = [] →
      Gives (.preDriveCheckDone ln m) s ln ((((l.showCheck c m).showShorts c m).sendTo c p.outgoing 0x04 [p.heat.toNat]).setPass (some { p with phase := .accepted }))) ∧
    (∀ (s : State) (ln : LaneId) (c : Ctx) (l : Lane) (sender : LaneId) (heat : BitVec 16) (p : Pass), Here s ln c l →
      l.baton.pass = some p →
      p.outgoing = c.id →
      p.incoming = sender →
      p.phase = .offered →
      p.urgent = false →
      p.heat = heat →
      c.now + 10000 ≤ p.zoneAt →
      Gives (.passAccept ln sender heat) s ln (let q := { p with phase := .confirmed, zoneAt := p.zoneAt, zoneStamp := l.stamp + BitVec.ofNat 32 (p.zoneAt - c.now) }
        (l.sendAll c 0x0E [laneCode sender, q.zoneStamp.toNat, p.cause]).setPass (some q))) ∧
    (∀ (s : State) (ln : LaneId) (c : Ctx) (l : Lane) (p : Pass), Here s ln c l →
      l.baton.pass = some p →
      p.outgoing = c.id →
      p.phase = .offered →
      p.urgent = false →
      p.zoneAt < c.now + 10000 →
      Gives (.passAcceptDeadline ln) s ln ((l.abortPass c 0).retryPass c p)) ∧
    (∀ (s : State) (ln : LaneId) (c : Ctx) (l : Lane) (sender : LaneId) (stage : BitVec 5) (p : Pass), Here s ln c l →
      l.baton.pass = some p →
      p.outgoing = c.id →
      p.incoming = sender →
      Gives (.passRefuse ln sender stage) s ln ((l.awaitCause c sender).learnUnfit c sender)) ∧
    (∀ (s : State) (ln : LaneId) (c : Ctx) (l : Lane) (sender : LaneId) (reason : BitVec 2) (p : Pass), Here s ln c l →
      l.baton.pass = some p →
      p.outgoing = c.id →
      p.incoming = sender →
      p.phase = .zone →
      Gives (.passAbort ln sender reason) s ln (({ l with baton := { l.baton with sampleBack := decide (reason = 3), retry := if reason = 3 then some p else none } }.setPass
          (some { p with phase := .returning, rampAt := c.now, returnFrom := p.share })).flag R.LM_FLAGS_relay_abort)) ∧
    (∀ (s : State) (ln : LaneId) (c : Ctx) (l : Lane) (sender : LaneId) (zoneStart : Word) (cause : BitVec 4) (p : Pass), Here s ln c l →
      Lane.isPeer c sender = true →
      sender ≠ c.id →
      l.baton.pass = some p →
      p.outgoing = sender →
      p.phase = .accepted →
      Gives (.passConfirm ln sender c.id zoneStart cause) s ln ((l.setPass (some { p with phase := .confirmed, zoneAt := c.now + (sdiff zoneStart l.stamp).toNat, zoneStamp := zoneStart })).noteZone sender c.id
          (c.now + (sdiff zoneStart l.stamp).toNat))) ∧
    (∀ (s : State) (ln : LaneId) (c : Ctx) (l : Lane) (sender incoming : LaneId) (zoneStart : Word) (cause : BitVec 4), Here s ln c l →
      Lane.isPeer c sender = true →
      sender ≠ incoming →
      incoming ≠ c.id →
      Gives (.passConfirm ln sender incoming zoneStart cause) s ln (l.noteZone sender incoming (c.now + (sdiff zoneStart l.stamp).toNat)))

/-- A changeover zone runs from its start to its end. (R66, R67, R80, R209, R565) -/
def Obligations.ZoneCommandsComplete : Prop :=
    (∀ (s : State) (ln : LaneId) (c : Ctx) (l : Lane) (p : Pass), Here s ln c l →
      l.baton.pass = some p →
      p.phase = .confirmed →
      p.zoneAt ≤ c.now →
      p.outgoing = c.id →
      p.cause ≠ 7 →
      Gives (.zoneStart ln) s ln ((((((((l.zoneUntil (p.zoneAt + 100000)).setPass (some { p with phase := .zone, rampAt := c.now, share := 100 })).put R.LM_ROLE_in_zone 1).takeShare c 128).loadHalves c).canDrop 0).canDrop 1).showCoils c)) ∧
    (∀ (s : State) (ln : LaneId) (c : Ctx) (l : Lane) (p : Pass), Here s ln c l →
      l.baton.pass = some p →
      p.phase = .confirmed →
      p.zoneAt ≤ c.now →
      p.outgoing ≠ c.id →
      p.cause ≠ 7 →
      Gives (.zoneStart ln) s ln (let l2 := (((l.setPass (some { p with phase := .zone, rampAt := c.now, share := 0 })).put R.LM_ROLE_in_zone 1).takeShare c 128).loadHalves c
        let l3 := (l2.setRole roleActive).setLines true
        ({ ((l3.enableAll c).gatesFromNow c).stagesOn (l3.incomingStages c) with refresh := true } : Lane).showCoils c)) ∧
    (∀ (s : State) (ln : LaneId) (c : Ctx) (l : Lane) (p : Pass), Here s ln c l →
      l.baton.pass = some p →
      p.phase = .zone →
      p.zoneAt + 12500 ≤ c.now →
      p.outgoing ≠ c.id →
      Gives (.handoverUpdate ln) s ln ((l.atHandover c).lateFulls c (p.zoneAt + 12950))) ∧
    (∀ (s : State) (ln : LaneId) (c : Ctx) (l : Lane) (p : Pass), Here s ln c l →
      l.baton.pass = some p →
      p.phase = .zone ∨ p.phase = .returning →
      Gives (.rampStep ln) s ln ((l.setPass (some { p with share := rampAfter p (decide (p.outgoing = c.id)) ((c.now - p.rampAt) / 10000) })).showCoils c)) ∧
    (∀ (s : State) (ln : LaneId) (c : Ctx) (l : Lane) (p : Pass), Here s ln c l →
      l.baton.pass = some p →
      p.phase = .zone →
      p.zoneAt + 100000 ≤ c.now →
      p.outgoing ≠ c.id →
      Gives (.zoneEnd ln) s ln (let l0 := l.resumeSteps c
        let l1 := { l0 with baton := { l0.baton with pass := none, note := none } }
        let l2 := (((l1.put R.LM_ROLE_in_zone 0).slotsAnew c).put R.LM_ROLE_baton_lane (laneCode c.id)).sendAll c 0x06 [laneCode p.outgoing, p.cause, p.zoneStamp.toNat]
        let l3 := (l2.flag R.LM_FLAGS_relay_done).recordHandover 0 p.outgoing c.id p.cause p.zoneStamp
        let l4 := (((l3.takeShare c 256).showCoils c).startDwell c).canStarts
        if l4.leaveDue then l4.leaveNow c else l4)) ∧
    (∀ (s : State) (ln : LaneId) (c : Ctx) (l : Lane) (p : Pass), Here s ln c l →
      l.baton.pass = some p →
      p.phase = .zone →
      p.zoneAt + 100000 ≤ c.now →
      p.outgoing = c.id →
      p.cause ≠ 6 →
      p.cause ≠ 7 →
      (l.resumeSteps c).leaveDue = false →
      Gives (.zoneEnd ln) s ln (((l.resumeSteps c).stepBack c).put R.LM_ROLE_baton_lane (laneCode p.incoming))) ∧
    (∀ (s : State) (ln : LaneId) (c : Ctx) (l : Lane) (sender outgoing : LaneId) (cause : BitVec 4) (zoneStart : Word), Here s ln c l →
      Lane.isPeer c sender = true →
      outgoing ≠ c.id →
      Gives (.passDone ln sender outgoing cause zoneStart) s ln (((l.recordHandover 0 outgoing sender cause.toNat zoneStart).noteEnds c sender).put R.LM_ROLE_baton_lane (laneCode sender)))

/-- Pins, dwells and pass requests. (R63, R80, R81, R83, R84, R92, R513, R514) -/
def Obligations.PinsAndRotationComplete : Prop :=
    (∀ (s : State) (ln : LaneId) (c : Ctx) (l : Lane) (value : Word) (x : LaneId), Here s ln c l →
      fldOf R.LM_PASS_REQ_go value = 1 →
      l.active = true →
      l.unitsHalt = false →
      l.passTarget c (laneOf (fldOf R.LM_PASS_REQ_lane value)) = some x →
      Gives (.passReqWrite ln value) s ln (({ l with bus := .done } : Lane).requestPass 3 (some x))) ∧
    (∀ (s : State) (ln : LaneId) (c : Ctx) (l : Lane) (value : Word) (x : LaneId), Here s ln c l →
      laneOf (fldOf R.LM_PIN_lane value) = some x →
      l.fit = true →
      l.unitsHalt = false →
      l.knowsFit x = true →
      Gives (.pinWrite ln value) s ln ((({ l with bus := .done }).sendAll c 0x08 [laneCode x, min (fldOf R.LM_PIN_minutes value) 1440]).applyPin c x (fldOf R.LM_PIN_minutes value))) ∧
    (∀ (s : State) (ln : LaneId) (c : Ctx) (l : Lane) (sender lane : LaneId) (minutes : BitVec 11), Here s ln c l →
      Lane.isPeer c sender = true →
      l.fit = true →
      Gives (.pinMessage ln sender lane minutes) s ln (l.applyPin c lane minutes.toNat)) ∧
    (∀ (s : State) (ln : LaneId) (c : Ctx) (l : Lane) (t : Nat), Here s ln c l →
      l.baton.pinEnds = some t →
      t ≤ c.now →
      Gives (.pinExpiry ln) s ln (l.endPin.flag R.LM_FLAGS_pin_expired)) ∧
    (∀ (s : State) (ln : LaneId) (c : Ctx) (l : Lane) (value : Word), Here s ln c l →
      Gives (.rotPeriodWrite ln value) s ln ({ l.put R.LM_ROT_PERIOD_seconds (min (max (fldOf R.LM_ROT_PERIOD_seconds value) 60) 86400) with bus := .done })) ∧
    (∀ (s : State) (ln : LaneId) (c : Ctx) (l : Lane) (value : Word), Here s ln c l →
      256 ≤ fldOf R.LM_ROT_ENV_weight_max value →
      fldOf R.LM_ROT_ENV_weight_min value ≤ 256 →
      Gives (.rotEnvWrite ln value) s ln ({ l with bus := .done, staging := tabPut l.staging R.LM_ROT_ENV (BitVec.ofNat 32 (fldOf R.LM_ROT_ENV_weight_max value * 65536 + fldOf R.LM_ROT_ENV_weight_min value)) })) ∧
    (∀ (s : State) (ln : LaneId) (c : Ctx) (l : Lane) (value : Word), Here s ln c l →
      fldOf R.LM_ROT_ENV_weight_max value < 256 ∨ 256 < fldOf R.LM_ROT_ENV_weight_min value →
      Gives (.rotEnvWrite ln value) s ln ({ l with bus := .done })) ∧
    (∀ (s : State) (ln : LaneId) (c : Ctx) (l : Lane) (t : Nat) (x : LaneId), Here s ln c l →
      l.baton.dwellEnds = some t →
      t ≤ c.now →
      l.active = true →
      l.bit R.LM_ROLE_pinned = false →
      l.bit R.LM_ROLE_disputed = false →
      l.baton.rotTarget = none →
      l.nextFit c = some x →
      Gives (.dwellExpiry ln) s ln ({ l with baton := { l.baton with rotTarget := some x, deferredAt := some c.now, skipped := [] } })) ∧
    (∀ (s : State) (ln : LaneId) (c : Ctx) (l : Lane) (sender : LaneId) (da db dc : Word), Here s ln c l →
      Lane.isPeer c sender = true →
      Gives (.weights ln sender da db dc) s ln (((l.wr R.LM_DWELL_A da).wr R.LM_DWELL_B db).wr R.LM_DWELL_C dc)) ∧
    (∀ (s : State) (ln : LaneId) (c : Ctx) (l : Lane) (t : Nat) (x y : LaneId), Here s ln c l →
      l.baton.deferredAt = some t →
      l.baton.rotTarget = some x →
      t + 1000000000 ≤ c.now →
      l.baton.pass = none →
      l.pwState = 0 →
      (cyclicAfter c c.id).find? (fun z => (l.flag R.LM_FLAGS_rot_skip).knowsFit z && !(x :: (l.flag R.LM_FLAGS_rot_skip).baton.skipped).contains z) = some y →
      Gives (.rotationSkip ln) s ln ({ l.flag R.LM_FLAGS_rot_skip with baton := { (l.flag R.LM_FLAGS_rot_skip).baton with rotTarget := some y, deferredAt := some c.now, skipped := x :: (l.flag R.LM_FLAGS_rot_skip).baton.skipped } }))

/-- Comparators, parity, memory errors and management checks. (R25, R92, R96, R98, R102, R104, R106, R107, R108, R109,
R112, R113) -/
def Obligations.ContainmentCommandsComplete : Prop :=
    (∀ (s : State) (ln : LaneId) (c : Ctx) (l : Lane) (ix : Fin 29), Here s ln c l →
      hasComparator c.part.member ix.val = true →
      Gives (.twinMismatch ln ix 1 false) s ln ((l.flag R.FC_FLAGS_mismatch).twinFault c ix.val 0)) ∧
    (∀ (s : State) (ln : LaneId) (c : Ctx) (l : Lane) (ix : Fin 29) (input : BitVec 8), Here s ln c l →
      hasComparator c.part.member ix.val = true →
      Gives (.inputDisagree ln ix input false) s ln ((((l.put R.FC_IA_input input.toNat).put R.FC_IA_twin ix.val).inc R.FC_IA_tolerated).flag R.FC_FLAGS_ia_disagree)) ∧
    (∀ (s : State) (ln : LaneId) (c : Ctx) (l : Lane) (ix : Fin 29), Here s ln c l →
      hasComparator c.part.member ix.val = true →
      Gives (.parityError ln ix) s ln ((l.flag R.FC_FLAGS_parity).twinFault c ix.val 3)) ∧
    (∀ (s : State) (ln : LaneId) (c : Ctx) (l : Lane) (memory : Fin 7) (addr value : Word), Here s ln c l →
      inSram c.part.member memory.val addr.toNat = true →
      Gives (.correctedError ln memory addr value) s ln ((l.countCe memory.val).setGranule addr.toNat value)) ∧
    (∀ (s : State) (ln : LaneId) (c : Ctx) (l : Lane) (memory : Fin 7) (addr : Word), Here s ln c l →
      memory.val ≠ 0 →
      memory.val ≠ 1 →
      memory.val ≠ 4 →
      Gives (.uncorrectableError ln memory addr) s ln ((((l.put R.FC_UE_INFO_memory memory.val).wr R.FC_UE_ADDR addr).flag R.FC_FLAGS_ue).hardFault c 0xC)) ∧
    (∀ (s : State) (ln : LaneId) (c : Ctx) (l : Lane) (addr : Word), Here s ln c l →
      Gives (.uncorrectableError ln 4 addr) s ln (let m := (((l.put R.FC_UE_INFO_memory 4).wr R.FC_UE_ADDR addr).flag R.FC_FLAGS_ue).flag R.FC_FLAGS_journal_ue
        { m with planted := tabPut m.planted (addr.toNat / 4 * 4) 2 })) ∧
    (∀ (s : State) (ln : LaneId) (c : Ctx) (l : Lane) (w : Word), Here s ln c l →
      l.fc.scrubFlash = 0 →
      0 < l.fc.scrubAt →
      tabGet l.planted (scrubPlace c.part.member l.fc.scrubAt).2 = none →
      l.fc.scrubAt + 1 < scrubCount c.part.member →
      inSram c.part.member (scrubPlace c.part.member l.fc.scrubAt).1 (scrubPlace c.part.member l.fc.scrubAt).2 = true →
      Gives (.scrubRead ln (.corrected w) false) s ln (((l.countCe (scrubPlace c.part.member l.fc.scrubAt).1).setGranule (scrubPlace c.part.member l.fc.scrubAt).2 w).scrubNext c)) ∧
    (∀ (s : State) (ln : LaneId) (c : Ctx) (l : Lane) (value : Word), Here s ln c l →
      l.active = false →
      l.parked = true →
      fldOf R.FC_MEM_INJ_memory value ≠ 3 →
      fldOf R.FC_MEM_INJ_memory value ≠ 0 →
      fldOf R.FC_MEM_INJ_kind value ≠ 3 →
      fldOf R.FC_MEM_INJ_bit value ≤ 38 →
      Gives (.memInjWrite ln value) s ln ((((({ l with bus := .done }).put R.FC_MEM_INJ_memory (fldOf R.FC_MEM_INJ_memory value)).put R.FC_MEM_INJ_kind (fldOf R.FC_MEM_INJ_kind value)).put R.FC_MEM_INJ_bit (fldOf R.FC_MEM_INJ_bit value)))) ∧
    (∀ (s : State) (ln : LaneId) (c : Ctx) (l : Lane) (addr : Word), Here s ln c l →
      l.get R.FC_MEM_INJ_memory = 2 →
      l.get R.FC_MEM_INJ_kind ≠ 0 →
      0x20000000 ≤ addr.toNat →
      addr.toNat < 0x20400000 →
      Gives (.memErrorPlant ln addr) s ln ({ l.wr R.FC_MEM_INJ 0 with planted := tabPut l.planted (addr.toNat / 4 * 4) (l.get R.FC_MEM_INJ_kind) })) ∧
    (∀ (s : State) (ln : LaneId) (c : Ctx) (l : Lane) (ix : Fin 29), Here s ln c l →
      l.ea.started = true →
      hasComparator c.part.member ix.val = true →
      24 ≤ ix.val →
      l.ea.heatAt + 2000 + 200 * ix.val ≤ c.now →
      Gives (.comparatorInjection ln ix false) s ln (((({ l with fc := { l.fc with injMissedNow := true } }.inc R.FC_INJ_missed).put R.FC_INJ_last_missed ix.val).flag R.FC_FLAGS_inj_missed).hardFault c 0xC)) ∧
    (∀ (s : State) (ln : LaneId) (c : Ctx) (l : Lane) (row : Fin 6), Here s ln c l →
      l.rowApplies c row.val = true →
      Gives (.managementFault ln row) s ln (let y := if row.val = 3 then (List.range 8).foldl (fun y k => if l.nodeOn c k then y.outputFault k 2 else y) l else l
        ((((y.inc R.FC_MGMT_count).put R.FC_MGMT_row row.val).put R.FC_STATUS_mgmt_fault 1).flag R.FC_FLAGS_mgmt_fault).hardFault c 0xC)) ∧
    (∀ (s : State) (ln : LaneId) (c : Ctx) (l : Lane) (value : Word), Here s ln c l →
      fldOf R.LM_SELF_UNFIT_key value = 0xA5 →
      Gives (.selfUnfitWrite ln value) s ln (({ l with bus := .done }).logicFault c 0xD)) ∧
    (∀ (s : State) (ln : LaneId) (c : Ctx) (l : Lane) (value : Word), Here s ln c l →
      fldOf R.LM_SELF_UNFIT_key value ≠ 0xA5 →
      Gives (.selfUnfitWrite ln value) s ln ({ l with bus := .done }))

/-- The marshal forwards what its tables admit and counts what they do not. (R371, R399, R400, R402, R403) -/
def Obligations.MarshalForwardsByTable : Prop :=
    (∀ (s : State) (u : State) (b : Fin 16) (p q : TxPlace) (f : Option NxFrame) (t : BranchTable) (ts : MarshalTables),
      s.part.marshal = true →
      s.marshal.powered = true →
      u = s.settleMarshal →
      u.marshal.table b.val = some t →
      u.marshal.tables = some ts →
      q = u.placeOf ts p →
      u.disqOver b.val = false →
      u.marshal.get R.MS_STATUS_state = msSynced →
      u.breach t ts.precision.toNat b.val q = none →
      u.marshal.disq b.val = false →
      exec (.marshalAdmit b ⟨p, f⟩) s = .next (if inPlace q f = true then (u.forward ts b.val q f).readFrame t ts b.val q f else u.forward ts b.val q f)) ∧
    (∀ (s : State) (u : State) (b : Fin 16) (p q : TxPlace) (f : Option NxFrame) (t : BranchTable) (ts : MarshalTables) (k : Nat),
      s.part.marshal = true →
      s.marshal.powered = true →
      u = s.settleMarshal →
      u.marshal.table b.val = some t →
      u.marshal.tables = some ts →
      q = u.placeOf ts p →
      u.disqOver b.val = false →
      u.marshal.get R.MS_STATUS_state = msSynced →
      u.breach t ts.precision.toNat b.val q = some k →
      exec (.marshalAdmit b ⟨p, f⟩) s = .next (u.block b.val q f k)) ∧
    (∀ (s : State) (u : State) (b : Fin 16) (p q : TxPlace) (f : Option NxFrame) (t : BranchTable) (ts : MarshalTables),
      s.part.marshal = true →
      s.marshal.powered = true →
      u = s.settleMarshal →
      u.marshal.table b.val = some t →
      u.marshal.tables = some ts →
      q = u.placeOf ts p →
      u.disqOver b.val = false →
      u.marshal.get R.MS_STATUS_state = msUnsynced →
      t.coldstart = false →
      exec (.marshalAdmit b ⟨p, f⟩) s = .next (u.block b.val q f 7)) ∧
    (∀ (s : State) (u : State) (b : Fin 16) (p q : TxPlace) (f : Option NxFrame) (t : BranchTable) (ts : MarshalTables),
      s.part.marshal = true →
      s.marshal.powered = true →
      u = s.settleMarshal →
      u.marshal.table b.val = some t →
      u.marshal.tables = some ts →
      q = u.placeOf ts p →
      u.disqOver b.val = false →
      u.marshal.get R.MS_STATUS_state = msUnsynced →
      t.coldstart = true →
      u.marshal.disq b.val = false →
      (u.marshal.branch b.val).halfAt = none →
      u.marshal.collided = false →
      u.marshal.forwarding.any (fun y => decide (y.branch ≠ b.val) && y.runs u.now) = false →
      exec (.marshalAdmit b ⟨p, f⟩) s = .next ((({ u with marshal := u.marshal.setBranch b.val { u.marshal.branch b.val with halfAt := some u.now } } : State).signal b.val q f (u.marshal.others b.val)).readFrame t ts b.val q f)) ∧
    (∀ (s : State) (u : State) (b : Fin 16) (p q : TxPlace) (f : Option NxFrame) (t : BranchTable) (ts : MarshalTables),
      s.part.marshal = true →
      s.marshal.powered = true →
      u = s.settleMarshal →
      u.marshal.table b.val = some t →
      u.marshal.tables = some ts →
      q = u.placeOf ts p →
      u.disqOver b.val = false →
      u.marshal.get R.MS_STATUS_state = msUnsynced →
      t.coldstart = true →
      u.marshal.disq b.val = false →
      (u.marshal.branch b.val).halfAt = none →
      u.marshal.forwarding.any (fun y => decide (y.branch ≠ b.val) && y.runs u.now) = true →
      exec (.marshalAdmit b ⟨p, f⟩) s = .next (({ { u with marshal := u.marshal.setBranch b.val { u.marshal.branch b.val with halfAt := some u.now } } with marshal := { (u.marshal.setBranch b.val { u.marshal.branch b.val with halfAt := some u.now }).stopAll with collided := true } } : State).signal b.val q f [])) ∧
    (∀ (s : State) (u : State),
      s.part.marshal = true →
      s.marshal.powered = true →
      u = s.settleMarshal →
      u.marshal.get R.MS_STATUS_state = msUnsynced →
      u.marshal.collided = true →
      u.marshal.forwarding.all (fun x => x.ended u.now) = true →
      exec (.marshalCollision) s = .next ({ u with marshal := { u.marshal with forwarding := [], collided := false } }.msFlag R.MS_FLAGS_collision)) ∧
    (∀ (s : State) (u : State),
      s.part.marshal = true →
      s.marshal.powered = true →
      u = s.settleMarshal →
      u.marshal.collided = false →
      exec (.marshalCollision) s = .next (u)) ∧
    (∀ (s : State) (u : State) (ts : MarshalTables),
      s.part.marshal = true →
      s.marshal.powered = true →
      u = s.settleMarshal →
      u.marshal.get R.MS_STATUS_state = msSynced →
      u.marshal.tables = some ts →
      u.marshal.lastHeard + 4 * ts.cycleLen.toNat ≤ u.now →
      exec (.marshalUnsync) s = .next (u.msGo msUnsynced))

/-- A violation is counted, recorded and in the end disqualifies the branch. (R403, R404, R405) -/
def Obligations.MarshalViolationCounts : Prop :=
    (∀ (s : State) (u : State) (b : Fin 16) (k : TruncKind) (x : Forwarded) (kind : Nat),
      s.part.marshal = true →
      s.marshal.powered = true →
      u = s.settleMarshal →
      u.marshal.sending b.val = some x →
      u.cutsOff x k = true →
      kind = (match k with | .overrun => 3 | .header => 4 | .unsynced => 7) →
      ∃ m, exec (.marshalTruncate b k) s = .next m ∧
        m.marshal.sending b.val = none ∧ m.marshal.get (R.MS_BRb_STAT_last_kind b.val) = kind ∧
        m.marshal.get (R.MS_BRb_STAT_level b.val) = min (u.levelNow b.val + 1) 255 ∧
        (u.marshal.disq b.val = false → u.marshal.get R.MS_CFG_disq_limit ≤ min (u.levelNow b.val + 1) 255 →
          m.marshal.disq b.val = true ∧ (2 ≤ u.marshal.get (R.MS_BRb_STAT_disq_count b.val) → m.marshal.perm b.val = true)) ∧
        (u.marshal.disq b.val = false → min (u.levelNow b.val + 1) 255 < u.marshal.get R.MS_CFG_disq_limit → m.marshal.disq b.val = false) ∧
        ∀ ln, SameRegs (s.lane ln) (m.lane ln) [R.MS_FLAGS] ∧ SameMem (s.lane ln) (m.lane ln)) ∧
    (∀ (s : State) (u : State) (b : Fin 16) (k : TruncKind),
      s.part.marshal = true →
      s.marshal.powered = true →
      u = s.settleMarshal →
      u.marshal.sending b.val = none →
      exec (.marshalTruncate b k) s = .next (u))

/-- A branch is admitted again after disq_cycles or by MS_REQUAL. (R405) -/
def Obligations.MarshalReadmitsBranches : Prop :=
    (∀ (s : State) (u : State) (b : Fin 16),
      s.part.marshal = true →
      s.marshal.powered = true →
      u = s.settleMarshal →
      u.disqOver b.val = true →
      ∃ m, exec (.marshalRequalify b) s = .next m ∧
        m.marshal.disq b.val = false ∧ m.marshal.perm b.val = false ∧ m.marshal.get (R.MS_BRb_STAT_level b.val) = 0 ∧ ∀ x : Fin 16, x ≠ b → m.marshal.disq x.val = u.marshal.disq x.val) ∧
    (∀ (s : State) (ln : LaneId) (v : Word),
      s.part.marshal = true →
      s.marshal.powered = true →
      s.has ln = true →
      (s.lane ln).alive = true →
      s.marshal.link ln = true →
      (s.lane ln).parked = true →
      ∃ m, exec (.msRequalWrite ln v) s = .next m ∧
        (∀ b : Fin 16, m.marshal.disq b.val = (s.marshal.disq b.val && !v.getLsbD b.val)) ∧ (m.lane ln).bus = .done) ∧
    (∀ (s : State) (ln : LaneId) (v : Word),
      s.part.marshal = true →
      s.has ln = true →
      (s.lane ln).alive = true →
      (s.lane ln).parked = false →
      exec (.msRequalWrite ln v) s = .next (s.setLane ln { s.lane ln with bus := .done }))

/-- Tables are offered by two lanes and loaded; supply and links of the marshal. (R48, R398, R409) -/
def Obligations.MarshalTablesAndLinks : Prop :=
    (∀ (s : State) (u : State) (t : MarshalTables),
      s.part.marshal = true →
      s.marshal.powered = true →
      u = s.settleMarshal →
      s.has .a = true →
      s.marshal.linkA = true →
      s.laneA.alive = true →
      s.laneA.marshalSection = some t →
      u.marshal.offerA = none →
      u.marshal.offerB = none →
      u.offersToo .a = true →
      exec (.marshalTableOffer .a ()) s = .next ({ u with marshal := { ({ u.marshal with offerAt := u.now } : Marshal).put R.MS_TABLE_offer_a 1 with offerA := some t } })) ∧
    (∀ (s : State) (u : State) (t : MarshalTables),
      s.part.marshal = true →
      s.marshal.powered = true →
      u = s.settleMarshal →
      s.has .a = true →
      s.marshal.linkA = true →
      s.laneA.alive = true →
      s.laneA.marshalSection = some t →
      u.marshal.offerA = none →
      u.marshal.offerB = none →
      u.offersToo .a = false →
      exec (.marshalTableOffer .a ()) s = .next (({ u with marshal := { ({ u.marshal with offerAt := u.now } : Marshal).put R.MS_TABLE_offer_a 1 with offerA := some t } } : State).refuseTables)) ∧
    (∀ (s : State) (u : State) (t x : MarshalTables),
      s.part.marshal = true →
      s.marshal.powered = true →
      u = s.settleMarshal →
      s.has .b = true →
      s.marshal.linkB = true →
      s.laneB.alive = true →
      s.laneB.marshalSection = some t →
      u.marshal.offerA = some x →
      u.marshal.offerB = none →
      t.imageId ≠ x.imageId →
      exec (.marshalTableOffer .b ()) s = .next (({ u with marshal := { ({ u.marshal with offerAt := u.now } : Marshal).put R.MS_TABLE_offer_b 1 with offerB := some t } } : State).refuseTables)) ∧
    (∀ (s : State) (u : State) (t x : MarshalTables),
      s.part.marshal = true →
      s.marshal.powered = true →
      u = s.settleMarshal →
      s.has .b = true →
      s.marshal.linkB = true →
      s.laneB.alive = true →
      s.laneB.marshalSection = some t →
      u.marshal.offerA = some x →
      u.marshal.offerB = none →
      t.imageId = x.imageId →
      u.marshal.tables = none →
      (u.marshal.put R.MS_TABLE_offer_b 1).get R.MS_STATUS_state = msUnsynced →
      exec (.marshalTableOffer .b ()) s = .next (({ u with marshal := { ({ u.marshal with offerAt := u.now } : Marshal).put R.MS_TABLE_offer_b 1 with offerA := none, offerB := none, loading := some t } } : State).msGo msLoading)) ∧
    (∀ (s : State) (u : State) (t : MarshalTables),
      s.part.marshal = true →
      s.marshal.powered = true →
      u = s.settleMarshal →
      u.marshal.loading = some t →
      ∃ m, exec (.marshalLoadDone) s = .next m ∧
        m.marshal.tables = some t ∧ m.marshal.loaded = true ∧ m.marshal.loading = none ∧ m.marshal.forwarding = [] ∧ m.marshal.get R.MS_STATUS_state = msUnsynced ∧ m.marshal.branches = u.marshal.branches ∧ ∀ b : Fin 16, m.marshal.disq b.val = u.marshal.disq b.val) ∧
    (∀ (s : State) (on : Bool),
      s.part.marshal = true →
      s.marshal.powered = true →
      s.has .a = true →
      s.laneA.feeds = true →
      exec (.marshalSupplyChange on) s = .next ({ s with marshal := { s.marshal with vaux := on } })) ∧
    (∀ (s : State) (on : Bool),
      s.part.marshal = true →
      s.marshal.powered = !on →
      s.laneA.feeds = false →
      s.laneB.feeds = false →
      exec (.marshalSupplyChange on) s = .next ({ s with marshal := { ({ s.marshal with vaux := on }).restart with powered := on, base := 0, baseAt := s.now, cycStamp := 0 } })) ∧
    (∀ (s : State) (ln : LaneId),
      s.part.marshal = true →
      s.has ln = true →
      s.marshal.link ln = true →
      (s.lane ln).alive = true →
      exec (.managementLinkDown ln true) s = .next ({ s with marshal := s.marshal.setLink ln false }.setLane ln ((s.lane ln).flag R.MS_FLAGS_mgmt_lost))) ∧
    (∀ (s : State) (ln : LaneId),
      s.part.marshal = true →
      s.has ln = true →
      s.marshal.link ln = false →
      exec (.managementLinkDown ln false) s = .next (({ s with marshal := s.marshal.setLink ln true } : State).msShare ln))

/-- The states of the Nolxis node: what takes it from one to the next. (R385, R387, R388, R389, R390, R391, R393, R407) -/
def Obligations.NolxisStatesComplete : Prop :=
    (∀ (s : State) (ln : LaneId) (c : Ctx) (l : Lane) (v : Word), Here s ln c l →
      v.getLsbD 0 = true →
      l.nxState = nxOff →
      ({ l.putB R.NX_CTRL_enable true with bus := .done }).nxState = nxOff →
      Gives (.nxEnable ln v) s ln (({ l.putB R.NX_CTRL_enable true with bus := .done }).nxGo c nxListen)) ∧
    (∀ (s : State) (ln : LaneId) (c : Ctx) (l : Lane) (v : Word), Here s ln c l →
      v.getLsbD 0 = false →
      Gives (.nxEnable ln v) s ln (({ l.putB R.NX_CTRL_enable false with bus := .done }).nxGo c nxOff)) ∧
    (∀ (s : State) (ln : LaneId) (c : Ctx) (l : Lane) (v : Word), Here s ln c l →
      v.getLsbD 1 = true →
      l.active = false →
      l.nxState = nxActive →
      Gives (.passiveReq ln v) s ln (({ l with bus := .done }).nxGo c nxPassive)) ∧
    (∀ (s : State) (ln : LaneId) (c : Ctx) (l : Lane) (v : Word), Here s ln c l →
      l.active = true →
      Gives (.passiveReq ln v) s ln ({ l with bus := .done })) ∧
    (∀ (s : State) (ln : LaneId) (c : Ctx) (l : Lane), Here s ln c l →
      l.nxState = nxListen →
      l.bit R.NX_NODE_coldstart = true →
      l.nx.listenAt + 2 * l.cycleLen + l.nodeId * 1000 ≤ c.now →
      Gives (.listenTimeout ln) s ln (l.coldStart c)) ∧
    (∀ (s : State) (ln : LaneId) (c : Ctx) (l : Lane) (d : Int) (k : Bool), Here s ln c l →
      l.nxState = nxIntegrate →
      l.nx.verified = false →
      (l.nx.adopted || l.nx.adoptedCold) = false →
      combineDev l.precision l.nx.devX l.nx.devY = some (d, k) →
      |d| ≤ 2 * l.precision →
      Gives (.cycleVerify ln) s ln ({ l with nx := { l.nx with verify := l.nx.verify + 1, verified := true } })) ∧
    (∀ (s : State) (ln : LaneId) (c : Ctx) (l : Lane), Here s ln c l →
      l.nxState = nxIntegrate →
      l.nx.verified = false →
      (l.nx.adopted || l.nx.adoptedCold) = false →
      l.nx.devX = none →
      l.nx.devY = none →
      l.nitStart ≤ l.cycleOff →
      Gives (.cycleVerify ln) s ln (l.nxGo c nxListen)) ∧
    (∀ (s : State) (ln : LaneId) (c : Ctx) (l : Lane), Here s ln c l →
      l.nxState = nxCold →
      4 ≤ l.nx.coldCycles →
      Gives (.coldCycleDone ln) s ln (((l.nxGo c nxActive).put R.NX_STATUS_master 1).put R.NX_STATUS_followed 0)) ∧
    (∀ (s : State) (ln : LaneId) (c : Ctx) (l : Lane), Here s ln c l →
      l.nxState ≠ nxOff →
      ({ l.inc R.NX_COLL_coll_x with nx := { l.nx with listenAt := c.now } }).nxState ≠ nxCold →
      l.nx.adoptedCold = false →
      Gives (.collisionReceive ln .x) s ln ({ l.inc R.NX_COLL_coll_x with nx := { l.nx with listenAt := c.now } })) ∧
    (∀ (s : State) (ln : LaneId) (c : Ctx) (l : Lane), Here s ln c l →
      l.nxState ≠ nxOff →
      ({ l.inc R.NX_COLL_coll_y with nx := { l.nx with listenAt := c.now } }).nxState = nxCold →
      Gives (.collisionReceive ln .y) s ln (({ l.inc R.NX_COLL_coll_y with nx := { l.nx with listenAt := c.now } } : Lane).backOff c)) ∧
    (∀ (s : State) (ln : LaneId) (c : Ctx) (l : Lane), Here s ln c l →
      l.nxState = nxIntegrate →
      ({ l.inc R.NX_COLL_coll_x with nx := { l.nx with listenAt := c.now } }).nxState = nxIntegrate →
      l.nx.adoptedCold = true →
      Gives (.collisionReceive ln .x) s ln (let l3 := (({ l.inc R.NX_COLL_coll_x with nx := { l.nx with listenAt := c.now } } : Lane).backOff c).nxGo c nxIntegrate
        { l3 with nx := { l3.nx with adopted := true, adoptedCold := false } })) ∧
    (∀ (s : State) (ln : LaneId) (c : Ctx) (l : Lane), Here s ln c l →
      l.nxState = nxBackoff →
      l.nx.backoffAt ≤ c.now →
      Gives (.backoffExpiry ln) s ln (l.coldStart c)) ∧
    (∀ (s : State) (ln : LaneId) (c : Ctx) (l : Lane), Here s ln c l →
      l.nxState = nxActive →
      l.nx.rateRun < 2 →
      4 ≤ l.nx.noSync →
      l.bit R.NX_STATUS_master = false →
      Gives (.syncLost ln) s ln (l.nxGo c nxPassive)) ∧
    (∀ (s : State) (ln : LaneId) (c : Ctx) (l : Lane), Here s ln c l →
      l.nxState = nxActive →
      2 ≤ l.nx.rateRun →
      Gives (.syncLost ln) s ln ((l.flag R.NX_FLAGS_rate_fault).nxGo c nxPassive)) ∧
    (∀ (s : State) (ln : LaneId) (c : Ctx) (l : Lane), Here s ln c l →
      l.nxState = nxPassive →
      8 ≤ l.nx.noSync →
      Gives (.passiveTimeout ln) s ln (l.nxGo c nxListen)) ∧
    (∀ (s : State) (ln : LaneId) (c : Ctx) (l : Lane) (r : Nat), Here s ln c l →
      l.nxState = nxActive →
      l.wantedRank = some r →
      l.followedRank ≠ some r →
      Gives (.pacerSwitch ln) s ln (l.follow r)) ∧
    (∀ (s : State) (ln : LaneId) (c : Ctx) (l : Lane), Here s ln c l →
      l.nxState = nxActive →
      l.wantedRank = none →
      l.bit R.NX_NODE_pacer = true →
      l.bit R.NX_STATUS_master = false →
      Gives (.pacerSwitch ln) s ln (let l1 := ((l.put R.NX_STATUS_followed 0).put R.NX_STATUS_master 1).flag R.NX_FLAGS_pacer_switch
        { l1 with nx := { l1.nx with tookOver := true, claims := [] } }))

/-- A change of node state shows the new state, sets state_change and keeps the rest of the status. (R388, R389) -/
def Obligations.NolxisStateShown : Prop :=
    (∀ (s : State) (ln : LaneId) (c : Ctx) (l : Lane) (v : Word), Here s ln c l →
      v.getLsbD 0 = false →
      l.nxState ≠ nxOff →
      Yields (.nxEnable ln v) s ln (fun m => m.nxState = nxOff ∧ m.bit R.NX_STATUS_master = false ∧ m.get R.NX_STATUS_followed = 0 ∧ m.bit R.NX_FLAGS_state_change = true ∧ (∀ f ∈ [R.NX_STATUS_followed_rank, R.NX_STATUS_port_y_ok, R.NX_STATUS_port_x_ok, R.NX_STATUS_granted], m.get f = l.get f) ∧ SameRegs l m [R.NX_CTRL, R.NX_STATUS, R.NX_FLAGS] ∧ SameMem l m ∧ m.bus = .done)) ∧
    (∀ (s : State) (ln : LaneId) (c : Ctx) (l : Lane), Here s ln c l →
      l.role ≠ roleUnfit →
      l.nxState = nxPassive →
      8 ≤ l.nx.noSync →
      Yields (.passiveTimeout ln) s ln (fun m => m.nxState = nxListen ∧ m.bit R.NX_STATUS_master = false ∧ m.get R.NX_STATUS_followed = 0 ∧ m.nx.listenAt = c.now ∧ m.bit R.NX_FLAGS_state_change = true ∧ (∀ f ∈ [R.NX_STATUS_followed_rank, R.NX_STATUS_port_y_ok, R.NX_STATUS_port_x_ok, R.NX_STATUS_granted], m.get f = l.get f) ∧ SameRegs l m [R.NX_STATUS, R.NX_FLAGS] ∧ SameMem l m))

/-- Frames are sent in their slots and taken or counted. (R379, R380, R381, R382, R383, R386, R392, R394, R408, R413,
R526) -/
def Obligations.NolxisFramesComplete : Prop :=
    (∀ (s : State) (ln : LaneId) (c : Ctx) (l : Lane) (ch : Chan) (slot : BitVec 11) (n : Nat), Here s ln c l →
      slot.toNat ≠ l.get R.NX_STATIC_slots + 1 →
      slot.toNat ≠ 0 →
      l.inSlot slot.toNat = true →
      l.nxState = nxActive →
      l.bit R.NX_NODE_pacer = false →
      l.txFor ch slot.toNat = some n →
      l.ownsSlot slot.toNat = true →
      Gives (.slotStart ln ch slot) s ln (l.sendStatic ch slot.toNat n)) ∧
    (∀ (s : State) (ln : LaneId) (c : Ctx) (l : Lane) (ch : Chan) (slot : BitVec 11), Here s ln c l →
      slot.toNat ≠ l.get R.NX_STATIC_slots + 1 →
      slot.toNat ≠ 0 →
      l.inSlot slot.toNat = true →
      l.nxState = nxActive →
      l.bit R.NX_NODE_pacer = true →
      l.pacerSlot (l.get R.NX_NODE_rank) = slot.toNat →
      Gives (.slotStart ln ch slot) s ln (l.nxSend ch (mkFrame slot.toNat (l.get R.NX_CYCLE_count) .sync l.syncPayload l.stamp))) ∧
    (∀ (s : State) (ln : LaneId) (c : Ctx) (l : Lane), Here s ln c l →
      l.cycleRuns = true →
      l.nx.idX < 2047 →
      l.inDynamic = true →
      l.nxState ≠ nxActive →
      Gives (.minislotEnd ln .x true) s ln ({ l with nx := { l.nx with idX := l.nx.idX + 1 } })) ∧
    (∀ (s : State) (ln : LaneId) (c : Ctx) (l : Lane) (n : Fin 16) (v : Word), Here s ln c l →
      v.getLsbD 0 = true →
      l.bit (R.NX_TXn_CFG_source n.val) = true →
      Gives (.txCommit ln n v) s ln (({ l with bus := .done }).commitTx n.val)) ∧
    (∀ (s : State) (ln : LaneId) (c : Ctx) (l : Lane) (ch : Chan) (f : NxFrame), Here s ln c l →
      c.part.marshal = false →
      l.nxState ≠ nxOff →
      l.deaf ch f = false →
      f.hcrc ≠ nxHeadCrc f →
      Gives (.nxFrameReceive ln ch f) s ln ((if frameLong f = true then ({ l with nx := { l.nx with listenAt := c.now } } : Lane) else l).countBad ch false)) ∧
    (∀ (s : State) (ln : LaneId) (c : Ctx) (l : Lane) (f : NxFrame) (y : Lane), Here s ln c l →
      c.part.marshal = false →
      l.nxState ≠ nxOff →
      l.deaf .x f = false →
      l.judgeFrame .x f = .valid →
      f.claim = false →
      f.sync = false →
      y = ((({ l with nx := { l.nx with listenAt := c.now, gotX := true, lostX := false, validX := c.now } } : Lane).put R.NX_STATUS_port_x_ok 1).flagIf (f.null || f.stale) R.NX_FLAGS_stale_rx) →
      ({ y with nx := { y.nx with slotSeen := f.frameId.toNat :: y.nx.slotSeen } } : Lane).scheduled = true →
      Gives (.nxFrameReceive ln .x f) s ln (({ y with nx := { y.nx with slotSeen := f.frameId.toNat :: y.nx.slotSeen } } : Lane).receiveAll .x f)) ∧
    (∀ (s : State) (ln : LaneId) (c : Ctx) (l : Lane) (n : Fin 32), Here s ln c l →
      l.bit (R.NX_RXn_STAT_defined n.val) = true →
      l.nx.rxGot.contains n.val = false →
      Gives (.staticSlotEnd ln n) s ln ((((l.put (R.NX_RXn_STAT_age n.val) (min (l.get (R.NX_RXn_STAT_age n.val) + 1) 255)).put (R.NX_RXn_STAT_valid n.val) 0).put (R.NX_RXn_STAT_stale n.val) 0).put (R.NX_RXn_STAT_null n.val) 0)) ∧
    (∀ (s : State) (ln : LaneId) (c : Ctx) (l : Lane) (d : Int), Here s ln c l →
      l.nxState = nxActive →
      l.bit R.NX_STATUS_master = false →
      l.nx.corrected = false →
      l.nitStart ≤ l.cycleOff →
      l.nx.devX = some d →
      l.nx.devY = none →
      |-d| ≤ (l.get R.TM_JUMP_LIMIT_ns : Int) →
      Gives (.nitCorrection ln) s ln (let rcRaw := (l.rd R.NX_RATE).toInt - rnaDiv (d * 1000000000) (2 * ((l.rd R.NX_CYCLE_LEN).toNat : Int))
        let rc := clampInt (-((l.rd R.NX_RATE_LIM).toNat : Int)) (l.rd R.NX_RATE_LIM).toNat rcRaw
        let l1 := (({ l with nx := { l.nx with corrected := true } }).flagIf false R.NX_FLAGS_ch_skew).wr R.NX_DEV (BitVec.ofInt 32 d)
        ({ l1 with nx := { l1.nx with rateRun := if rcRaw = rc then 0 else l1.nx.rateRun + 1, correction := some (rc, some (-d)) } }).put R.TM_JUMP_STAT_run 0)) ∧
    (∀ (s : State) (ln : LaneId),
      s.has ln = true →
      (s.lane ln).alive = true →
      s.portJudged ln .x = true →
      2 ≤ (s.lane ln).nx.silentX →
      exec (.portLost ln .x) s = .next (s.setLane ln ((s.lane ln).losePort (s.ctx ln) .x (s.part.marshal && !s.marshal.powered))))

/-- Spare slots are claimed, granted, checked and released. (R395, R396, R397) -/
def Obligations.SpareSlotsComplete : Prop :=
    (∀ (s : State) (ln : LaneId) (c : Ctx) (l : Lane) (slot id : Nat), Here s ln c l →
      l.ownSpare = some (slot, id) →
      l.nxState = nxActive →
      l.bit R.NX_NODE_claim_only = true →
      (l.claimTurn .x id || l.claimTurn .y id) = true →
      l.get R.NX_CLAIM_state = 0 →
      Gives (.claimSend ln) s ln (let l1 := (l.claimOut slot id).put R.NX_CLAIM_state 1
        ({ l1 with nx := { l1.nx with claimCycle := some (l.get R.NX_CYCLE_count) } } : Lane).flag R.NX_FLAGS_claim_sent)) ∧
    (∀ (s : State) (ln : LaneId) (c : Ctx) (l : Lane), Here s ln c l →
      l.bit R.NX_STATUS_master = true →
      Gives (.claimGrant ln) s ln ({ l with nx := { l.nx with grants := (l.nx.claims.foldr insertClaim []).foldl grantOne l.heldGrants, claims := [] } })) ∧
    (∀ (s : State) (ln : LaneId) (c : Ctx) (l : Lane), Here s ln c l →
      l.bit R.NX_STATUS_master = false →
      Gives (.claimGrant ln) s ln (l)) ∧
    (∀ (s : State) (ln : LaneId) (c : Ctx) (l : Lane), Here s ln c l →
      l.get R.NX_CLAIM_state = 1 →
      l.nx.claimCycle ≠ some (l.get R.NX_CYCLE_count) →
      l.nx.grants.any (fun g => decide (g.slot = l.get R.NX_CLAIM_slot) && decide (g.node = l.nodeId)) = true →
      Gives (.grantCheck ln) s ln ({ ((l.put R.NX_CLAIM_state 2).put R.NX_STATUS_granted 1).flag R.NX_FLAGS_granted with nx := { l.nx with grantNew := true } })) ∧
    (∀ (s : State) (ln : LaneId) (c : Ctx) (l : Lane) (slot : BitVec 11), Here s ln c l →
      l.bit R.NX_STATUS_master = true →
      Gives (.grantRelease ln slot) s ln ({ l with nx := { l.nx with grants := l.nx.grants.filter (fun g => decide (g.slot ≠ slot.toNat) || decide (g.silent < l.get R.NX_RELEASE_cycles)) } }))

/-- A slot and a node stand at most once in the master's grant list. (R396, R397) -/
def Obligations.GrantsStayUnique : Prop :=
    ∀ (s : State) (ln : LaneId) (c : Ctx) (l : Lane), Here s ln c l →
      (l.nx.grants.map (fun g => g.slot)).Nodup →
      (l.nx.grants.map (fun g => g.node)).Nodup →
      l.bit R.NX_STATUS_master = true →
      Yields (.claimGrant ln) s ln (fun m => (m.nx.grants.map (fun g => g.slot)).Nodup ∧ (m.nx.grants.map (fun g => g.node)).Nodup ∧ (∀ g ∈ l.nx.grants, g.silent < l.get R.NX_RELEASE_cycles → g ∈ m.nx.grants) ∧
        (∀ g ∈ m.nx.grants, g ∈ l.nx.grants ∨ (g.slot, g.node) ∈ l.nx.claims) ∧ m.nx.claims = [] ∧ SameRegs l m [] ∧ SameMem l m)

/-- Corrections, laps, interrupts and timers. (R412, R416, R419, R420, R421, R423, R425) -/
def Obligations.TimeCommandsComplete : Prop :=
    (∀ (s : State) (ln : LaneId) (c : Ctx) (l : Lane) (rc d : Int), Here s ln c l →
      l.nx.correction = some (rc, some d) →
      l.nitStart + 1000 ≤ l.cycleOff →
      Gives (.correctionWindow ln) s ln (let l2 := ((l.wr R.NX_RATE (BitVec.ofInt 32 rc)).wr R.TM_STEP_LAST (BitVec.ofInt 32 d)).put R.TM_STATUS_corrected 1
        { l2 with nx := { l2.nx with correction := none, slewLeft := 8000, slewStep := d } })) ∧
    (∀ (s : State) (ln : LaneId) (c : Ctx) (l : Lane) (rc : Int), Here s ln c l →
      l.nx.correction = some (rc, none) →
      l.nitStart + 1000 ≤ l.cycleOff →
      Gives (.correctionWindow ln) s ln (let l1 := (l.wr R.NX_RATE (BitVec.ofInt 32 rc)).put R.TM_STATUS_corrected 0
        { l1 with nx := { l1.nx with correction := none, slewLeft := 8000, slewStep := 0 } })) ∧
    (∀ (s : State) (ln : LaneId) (c : Ctx) (l : Lane), Here s ln c l →
      2 ^ 64 ≤ l.tm →
      Gives (.lap ln) s ln (({ l with tm := l.tm - 2 ^ 64, arrived := [] } : Lane).flag R.TM_FLAGS_lap)) ∧
    (∀ (s : State) (ln : LaneId) (c : Ctx) (l : Lane) (line : Fin 20), Here s ln c l →
      Yields (.interruptEntry ln line) s ln (fun m => bankGet m.irqEntry line.val = l.stamp ∧ Nat.testBit m.irqWait line.val = false ∧ m.rd R.TM_IRQ_LAST = BitVec.ofNat 32 line.val ∧
        m.rd R.TM_IRQ_LAST_RAISE = bankGet l.irqRaise line.val ∧ m.rd R.TM_IRQ_LAST_ENTRY = l.stamp ∧
        SameRegs l m [R.TM_IRQ_LAST, R.TM_IRQ_LAST_RAISE, R.TM_IRQ_LAST_ENTRY] ∧ SameMem l m)) ∧
    (∀ (s : State) (ln : LaneId) (c : Ctx) (l : Lane) (t : Fin 64) (v : Word), Here s ln c l →
      4 ≤ (l.fireUpTo c t.val).get (R.TMt_CFG_kind t.val) →
      Gives (.timerDueWrite ln t v) s ln (({ l.fireUpTo c t.val with bus := .done } : Lane).flag R.TM_FLAGS_act_ignored)) ∧
    (∀ (s : State) (ln : LaneId) (c : Ctx) (l : Lane) (t : Fin 64) (v : Word), Here s ln c l →
      (∀ k, k ≤ t.val → l.mayFire k = false) →
      l.get (R.TMt_CFG_kind t.val) < 4 →
      0 < sdiff v l.stamp →
      Yields (.timerDueWrite ln t v) s ln (fun m => m.rd (R.TMt_DUE t.val) = v ∧ m.bit (R.TMt_CFG_armed t.val) = true ∧ (l.bit (R.TMt_CFG_watch_en t.val) = true → m.bit (R.TMt_CFG_met t.val) = false ∧ tabGet m.armedAt t.val = some l.stamp) ∧ m.tm = l.tm ∧ SameRegs l m [R.TMt_DUE t.val, R.TMt_CFG t.val] ∧ SameMem l m ∧ m.bus = .done)) ∧
    (∀ (s : State) (ln : LaneId) (c : Ctx) (l : Lane) (t : Fin 64), Here s ln c l →
      Gives (.timerDisarm ln t) s ln ({ (l.fireUpTo c t.val).put (R.TMt_CFG_armed t.val) 0 with bus := .done })) ∧
    (∀ (s : State) (ln : LaneId) (c : Ctx) (l : Lane) (t : Fin 64), Here s ln c l →
      (∀ k, k < t.val → l.mayFire k = false) →
      l.bit (R.TMt_CFG_armed t.val) = true →
      l.bit (R.TMt_CFG_watch_en t.val) = false →
      0 ≤ sdiff l.stamp (l.rd (R.TMt_DUE t.val)) →
      Gives (.timerFire ln t) s ln (l.fireTimer c t.val false)) ∧
    (∀ (s : State) (ln : LaneId) (c : Ctx) (l : Lane) (t : Fin 64) (stamp : Word), Here s ln c l →
      l.watching t.val = true →
      tabGet l.watchGot t.val = some stamp →
      Gives (.watchMet ln t stamp) s ln ((((l.put (R.TMt_CFG_armed t.val) 0).put (R.TMt_CFG_met t.val) 1).wr (R.TMt_STAMP t.val) stamp).flag R.TM_FLAGS_watch_met)) ∧
    (∀ (s : State) (ln : LaneId) (c : Ctx) (l : Lane) (t : Fin 64), Here s ln c l →
      (∀ k, k < t.val → l.mayFire k = false) →
      l.watching t.val = true →
      tabGet l.watchGot t.val = none →
      (l.watchMargin t.val : Int) ≤ sdiff l.stamp (l.rd (R.TMt_DUE t.val)) →
      Gives (.watchTimeout ln t) s ln ((l.flag R.TM_FLAGS_watch_timeout).fireTimer c t.val false))

/-- What a one-shot timer leaves when it fires. (R421, R422) -/
def Obligations.TimerFiringRecords : Prop :=
    ∀ (s : State) (ln : LaneId) (c : Ctx) (l : Lane) (t : Fin 64), Here s ln c l →
      (∀ k, k < t.val → l.mayFire k = false) →
      l.bit (R.TMt_CFG_armed t.val) = true →
      l.bit (R.TMt_CFG_watch_en t.val) = false →
      0 ≤ sdiff l.stamp (l.rd (R.TMt_DUE t.val)) →
      l.get (R.TMt_CFG_kind t.val) = 0 →
      l.rd (R.TMt_PERIOD t.val) = 0 →
      Yields (.timerFire ln t) s ln (fun m => m.rd (R.TMt_STAMP t.val) = l.stamp ∧ m.get (R.TMt_COUNT_count t.val) = min (l.get (R.TMt_COUNT_count t.val) + 1) (2 ^ ((R.TMt_COUNT_count t.val).hi - (R.TMt_COUNT_count t.val).lo + 1) - 1) ∧
        m.bit (pendFld t.val) = true ∧ m.bit (R.TMt_CFG_armed t.val) = false ∧ m.bit (R.TMt_CFG_late t.val) = false ∧ m.bit R.TM_FLAGS_act_due = true ∧
        SameField l m (pendFld t.val) ∧ SameRegs l m [R.TMt_STAMP t.val, R.TMt_COUNT t.val, (pendFld t.val).addr, R.TMt_CFG t.val, R.TM_FLAGS] ∧ SameMem l m)

/-- Envelopes are produced, committed, accepted, charged and unblocked. (R432, R434, R435, R436, R437, R438, R442) -/
def Obligations.EnvelopeCommandsComplete : Prop :=
    (∀ (s : State) (ln : LaneId) (c : Ctx) (l : Lane) (k : Fin 64) (ws : List Word), Here s ln c l →
      l.bit (R.SE_Cc_CFG_source k.val) = false →
      Gives (.envelopeProduce ln k ws) s ln (l.produce k.val ws)) ∧
    (∀ (s : State) (ln : LaneId) (c : Ctx) (l : Lane) (v : Word) (k : Nat), Here s ln c l →
      v.getLsbD 0 = true →
      l.get R.SE_TX_SEL_conn = k →
      l.bit (R.SE_Cc_CFG_defined k) = true →
      l.bit (R.SE_Cc_CFG_role k) = true →
      l.bit (R.SE_Cc_CFG_source k) = true →
      Gives (.seTxCommit ln v) s ln (({ l with bus := .done }).produce k ((List.range 61).map (fun w => (tabGet (l.conn k).tx w).getD 0)))) ∧
    (∀ (s : State) (ln : LaneId) (c : Ctx) (l : Lane) (k : Fin 64) (words : List Word) (arrival : Word), Here s ln c l →
      l.bit (R.SE_Cc_CFG_defined k.val) = true →
      l.bit (R.SE_Cc_CFG_role k.val) = false →
      l.bit (R.SE_Cc_CFG_path_a k.val) = true →
      l.bit R.TM_STATUS_set = true →
      l.copyCame k.val false words arrival = true →
      l.inTurnOf c k.val false arrival = true →
      l.get (R.SE_Cc_STAT_state k.val) = seStart →
      l.get (R.SE_Cc_CFG_medium k.val) = 0 →
      words.length = 3 + l.get (R.SE_Cc_CFG_length k.val) →
      (wordAt words 0).toNat % 65536 = l.get (R.SE_Cc_CFG_length k.val) →
      wordAt words (2 + l.get (R.SE_Cc_CFG_length k.val)) = envCheck (l.rd (R.SE_Cc_ID k.val)) (words.take (2 + l.get (R.SE_Cc_CFG_length k.val))) →
      sdiff arrival (wordAt words 1) ≤ ((l.rd (R.SE_Cc_MAX_AGE k.val)).toNat : Int) →
      -(2 * (l.precision : Int)) ≤ sdiff arrival (wordAt words 1) →
      Gives (.envelopeCopyJudge ln k false words arrival) s ln ((l.setConn k.val { l.conn k.val with judged := some (arrival, false, c.now) }).accept k.val false arrival ((wordAt words 0).toNat / 65536) (wordAt words 1) ((words.drop 2).take (l.get (R.SE_Cc_CFG_length k.val))))) ∧
    (∀ (s : State) (ln : LaneId) (c : Ctx) (l : Lane) (k : Fin 64), Here s ln c l →
      (l.conn k.val).charges = [] →
      Gives (.envelopeChargeDecision ln k) s ln (l.setConn k.val { l.conn k.val with charges := [] })) ∧
    (∀ (s : State) (ln : LaneId) (c : Ctx) (l : Lane) (k : Fin 64) (ch : Charge), Here s ln c l →
      (l.conn k.val).charges = [ch] →
      l.get (R.SE_Cc_CFG_medium k.val) = 0 →
      (l.setConn k.val { l.conn k.val with charges := [] }).covers k.val ch = false →
      ch.excused = false →
      Gives (.envelopeChargeDecision ln k) s ln ((l.setConn k.val { l.conn k.val with charges := [] }).charge c k.val)) ∧
    (∀ (s : State) (ln : LaneId) (c : Ctx) (l : Lane) (k : Fin 64) (ch : Charge), Here s ln c l →
      (l.conn k.val).charges = [ch] →
      l.get (R.SE_Cc_CFG_medium k.val) = 0 →
      (l.setConn k.val { l.conn k.val with charges := [] }).covers k.val ch = true →
      Gives (.envelopeChargeDecision ln k) s ln (((l.setConn k.val { l.conn k.val with charges := [] }).countPath k.val ch.pathB).seFlag k.val R.SE_FLAGS_path_fail)) ∧
    (∀ (s : State) (ln : LaneId) (c : Ctx) (l : Lane) (k : Fin 64), Here s ln c l →
      l.get (R.SE_Cc_STAT_state k.val) = seBlocked →
      (l.conn k.val).blockAt + l.get R.SE_LIMITS_block_ms * 1000000 ≤ c.now →
      Gives (.connectionUnblock ln k) s ln (((l.put (R.SE_Cc_STAT_state k.val) seStart).put (R.SE_Cc_STAT_level k.val) 0).seFlag k.val R.SE_FLAGS_unblocked))

/-- A copy with a wrong length, a wrong check value or too great an age is never delivered. (R434, R435) -/
def Obligations.EnvelopeFaultsRejected : Prop :=
    (∀ (s : State) (ln : LaneId) (c : Ctx) (l : Lane) (k : Fin 64) (words : List Word) (arrival : Word) (f : Fld), Here s ln c l →
      l.bit (R.SE_Cc_CFG_defined k.val) = true →
      l.bit (R.SE_Cc_CFG_role k.val) = false →
      l.bit (R.SE_Cc_CFG_path_a k.val) = true →
      l.bit R.TM_STATUS_set = true →
      l.copyCame k.val false words arrival = true →
      l.inTurnOf c k.val false arrival = true →
      l.get (R.SE_Cc_STAT_state k.val) ≠ seBlocked →
      l.get (R.SE_Cc_STAT_state k.val) ≠ sePerm →
      l.get (R.SE_Cc_CFG_medium k.val) = 0 →
      (((wordAt words 0).toNat % 65536 ≠ l.get (R.SE_Cc_CFG_length k.val) ∨ words.length ≠ 3 + l.get (R.SE_Cc_CFG_length k.val)) ∧ f = R.SE_FLAGS_format) ∨
      (((wordAt words 0).toNat % 65536 = l.get (R.SE_Cc_CFG_length k.val) ∧ words.length = 3 + l.get (R.SE_Cc_CFG_length k.val) ∧
        wordAt words (2 + l.get (R.SE_Cc_CFG_length k.val)) ≠ envCheck (l.rd (R.SE_Cc_ID k.val)) (words.take (2 + l.get (R.SE_Cc_CFG_length k.val)))) ∧ f = R.SE_FLAGS_check_fail) ∨
      (((wordAt words 0).toNat % 65536 = l.get (R.SE_Cc_CFG_length k.val) ∧ words.length = 3 + l.get (R.SE_Cc_CFG_length k.val) ∧
        wordAt words (2 + l.get (R.SE_Cc_CFG_length k.val)) = envCheck (l.rd (R.SE_Cc_ID k.val)) (words.take (2 + l.get (R.SE_Cc_CFG_length k.val))) ∧
        ((l.rd (R.SE_Cc_MAX_AGE k.val)).toNat : Int) < sdiff arrival (wordAt words 1)) ∧ f = R.SE_FLAGS_delay) →
      Yields (.envelopeCopyJudge ln k false words arrival) s ln (fun m => m.bit f = true ∧ (m.conn k.val).payload = (l.conn k.val).payload ∧ (m.conn k.val).arrival = (l.conn k.val).arrival ∧ (m.conn k.val).held = (l.conn k.val).held ∧
        (m.conn k.val).charges.length = (l.conn k.val).charges.length + 1 ∧ m.get R.SE_LAST_conn = k.val ∧ (∀ j : Fin 64, j ≠ k → m.conn j.val = l.conn j.val) ∧
        SameRegs l m [R.SE_FLAGS, R.SE_LAST] ∧ SameMem l m)) ∧
    (∀ (s : State) (ln : LaneId) (c : Ctx) (l : Lane) (k : Fin 64) (pathB : Bool) (words : List Word) (arrival : Word), Here s ln c l →
      (l.get (R.SE_Cc_STAT_state k.val) = seBlocked ∧ 0 ≤ sdiff l.stamp arrival ∧ c.now < (l.conn k.val).blockAt + l.get R.SE_LIMITS_block_ms * 1000000) ∨ l.get (R.SE_Cc_STAT_state k.val) = sePerm →
      Yields (.envelopeCopyJudge ln k pathB words arrival) s ln (fun m => m = l ∨ ∃ j, m = l.setConn k.val { l.conn k.val with judged := j }))

/-- An old or repeated copy is never delivered. (R435) -/
def Obligations.EnvelopeReplayRejected : Prop :=
    ∀ (s : State) (ln : LaneId) (c : Ctx) (l : Lane) (k : Fin 64) (pathB : Bool) (words : List Word) (arrival : Word), Here s ln c l →
      l.get (R.SE_Cc_STAT_state k.val) = seRun →
      (BitVec.ofNat 16 ((wordAt words 0).toNat / 65536 + 65536 - l.get (R.SE_Cc_STAT_seq k.val))).toInt ≤ 0 ∨ sdiff (wordAt words 1) (l.rd (R.SE_Cc_STAMP k.val)) ≤ 0 →
      Yields (.envelopeCopyJudge ln k pathB words arrival) s ln (fun m => (m.conn k.val).payload = (l.conn k.val).payload ∧ (m.conn k.val).arrival = (l.conn k.val).arrival ∧ m.bk.queue = l.bk.queue ∧
        SameRegs l m [R.SE_FLAGS, R.SE_LAST] ∧ SameMem l m)

/-- The third block of a connection lasts until the power cycle. (R437) -/
def Obligations.ThirdBlockIsPermanent : Prop :=
    (∀ (s : State) (ln : LaneId) (c : Ctx) (l : Lane) (k : Fin 64) (ch : Charge), Here s ln c l →
      (l.conn k.val).charges = [ch] →
      l.get (R.SE_Cc_CFG_medium k.val) = 0 →
      (l.setConn k.val { l.conn k.val with charges := [] }).covers k.val ch = false →
      ch.excused = false →
      l.get (R.SE_Cc_STAT_state k.val) ≠ seBlocked →
      l.get (R.SE_Cc_STAT_state k.val) ≠ sePerm →
      l.get R.SE_LIMITS_err_limit ≤ min (l.get (R.SE_Cc_STAT_level k.val) + 1) 255 →
      l.get (R.SE_Cc_STAT_blocks k.val) < 3 →
      Yields (.envelopeChargeDecision ln k) s ln (fun m => m.get (R.SE_Cc_STAT_blocks k.val) = l.get (R.SE_Cc_STAT_blocks k.val) + 1 ∧ m.bit R.SE_FLAGS_blocked = true ∧
        m.get (R.SE_Cc_STAT_state k.val) = (if l.get (R.SE_Cc_STAT_blocks k.val) = 2 then sePerm else seBlocked) ∧ (m.conn k.val).blockAt = c.now ∧
        SameRegs l m [R.SE_FLAGS, R.SE_LAST, R.SE_Cc_REJ k.val, R.SE_Cc_STAT k.val] ∧ SameMem l m)) ∧
    (∀ (s : State) (ln : LaneId) (c : Ctx) (l : Lane) (k : Fin 64), Here s ln c l →
      l.get (R.SE_Cc_STAT_state k.val) = sePerm →
      Gives (.connectionUnblock ln k) s ln (l))

/-- Power requests, the vote and its end. (R445, R446, R447, R449, R450, R451, R458, R460, R462, R463) -/
def Obligations.PowerRequestsComplete : Prop :=
    (∀ (s : State) (ln : LaneId) (c : Ctx) (l : Lane) (w0 w1 : Word), Here s ln c l →
      w0.toNat / 65536 = l.get R.PW_REQ_number →
      Gives (.powerRequest ln w0 w1) s ln (l)) ∧
    (∀ (s : State) (ln : LaneId) (c : Ctx) (l : Lane) (w0 w1 : Word), Here s ln c l →
      w0.toNat / 65536 ≠ l.get R.PW_REQ_number →
      4 ≤ w0.toNat % 8 ∨ w0.toNat / 8 % 32 ≠ 0 →
      Gives (.powerRequest ln w0 w1) s ln (l.flag R.PW_FLAGS_request_refused)) ∧
    (∀ (s : State) (ln : LaneId) (c : Ctx) (l : Lane) (w0 w1 : Word) (l2 : Lane), Here s ln c l →
      w0.toNat / 65536 ≠ l.get R.PW_REQ_number →
      w0.toNat % 8 = 1 →
      w0.toNat / 8 % 32 = 0 →
      l2 = ((((((l.rollBack c []).put R.PW_REQ_number (w0.toNat / 65536)).put R.PW_REQ_wake_en (w0.toNat / 256 % 256)).put R.PW_REQ_target 1).wr R.PW_REQ_DELAY w1).put R.PW_STATUS_req (w0.toNat / 65536)).put R.PW_STATUS_target 1 →
      l2.pwState = 0 →
      l2.mayRest c = true →
      Gives (.powerRequest ln w0 w1) s ln (l2.enterStill c)) ∧
    (∀ (s : State) (ln : LaneId) (c : Ctx) (l : Lane) (unit : Fin 22) (v : Vote), Here s ln c l →
      l.pw.vote = some v →
      l.pwState = 2 →
      v.refused = false →
      v.startedAt + l.voteWindow ≤ c.now →
      Gives (.voteWindowExpiry ln unit) s ln (let l1 := (l.recordRefusal c v.number unit.val 14).flag R.PW_FLAGS_vote_refused
        ({ l1 with pw := { l1.pw with vote := some { v with refused := true, sent := 2 } } }).sendVote v.number v.target 2)) ∧
    (∀ (s : State) (ln : LaneId) (c : Ctx) (l : Lane) (others : List (LaneId × Word)) (v : Vote), Here s ln c l →
      l.pw.vote = some v →
      v.refused = false →
      l.get R.LM_ROLE_fit_lanes = v.fit →
      l.pwState = 2 →
      (othersOf c).filter (fun x => maskHas v.fit x) = [] →
      Gives (.powerVoteNit ln others) s ln (l.ponr c)) ∧
    (∀ (s : State) (ln : LaneId) (c : Ctx) (l : Lane) (others : List (LaneId × Word)) (v : Vote), Here s ln c l →
      l.pw.vote = some v →
      v.refused = true →
      Gives (.powerVoteNit ln others) s ln (l.rollBack c (((othersOf c).filter (fun x => maskHas v.fit x)).filter (fun x => decide (voteFrom others v.number v.target x = 3))))) ∧
    (∀ (s : State) (ln : LaneId) (c : Ctx) (l : Lane) (t : Nat), There s ln c l →
      l.powered = true →
      l.pw.ponrAt = some t →
      l.pwState = 4 →
      l.pw.saved = false →
      t + 20000000 ≤ c.now →
      Gives (.retentionSave ln) s ln ({ l.stagesOff 0xFFFFFFFF with pw := { l.pw with saved := true, banks := l.savedBanks c } })) ∧
    (∀ (s : State) (ln : LaneId) (t : Nat),
      s.has ln = true →
      (s.lane ln).powered = true →
      (s.lane ln).pw.ponrAt = some t →
      (s.lane ln).pwState = 4 →
      (s.lane ln).pw.saved = true →
      t + 20200000 ≤ (s.ctx ln).now →
      (s.lane ln).get R.PW_WAKE_CAUSE_sources = 0 →
      (s.lane ln).get R.PW_STATUS_target = 3 →
      exec (.sleepEntryComplete ln) s = .next ((s.setLane ln { (((s.lane ln).stampAt R.PW_SLEEP_STAMP).putU R.PW_SLEEP_AON ((s.lane ln).aonNow (s.ctx ln))).put R.PW_STATUS_pads_held 1 with phase := .asleepDormant }).supplyMarshal.votesEnd ln)) ∧
    (∀ (s : State) (ln : LaneId) (t : Nat),
      s.has ln = true →
      (s.lane ln).powered = true →
      (s.lane ln).pw.ponrAt = some t →
      (s.lane ln).pwState = 4 →
      (s.lane ln).pw.saved = true →
      t + 20200000 ≤ (s.ctx ln).now →
      (s.lane ln).get R.PW_WAKE_CAUSE_sources = 0 →
      (s.lane ln).get R.PW_STATUS_target = 2 →
      exec (.sleepEntryComplete ln) s = .next ((s.setLane ln { ((s.lane ln).stampAt R.PW_SLEEP_STAMP).putU R.PW_SLEEP_AON ((s.lane ln).aonNow (s.ctx ln)) with phase := .asleepNap }).supplyMarshal))

/-- Wake, pads, presence and loss of supply. (R44, R48, R76, R452, R453, R454, R455, R456, R462, R465, R466, R544) -/
def Obligations.WakeAndPadsComplete : Prop :=
    (∀ (s : State) (ln : LaneId) (c : Ctx) (l : Lane) (src : Fin 5), There s ln c l →
      l.asleep = true →
      l.wakeEnabled src.val = true →
      src.val ≠ 1 →
      l.get R.PW_WAKE_CAUSE_sources = 0 →
      Gives (.wakeEvent ln src) s ln (((((l.setPw 5).put R.PW_WAKE_CAUSE_sources (bitPut 0 src.val true))).put R.PW_WAKE_CAUSE_extrapolated 1).wr R.PW_WAKE_STAMP (l.extrapolated c))) ∧
    (∀ (s : State) (ln : LaneId) (c : Ctx) (l : Lane) (src : Fin 5), There s ln c l →
      l.asleep = true →
      l.wakeEnabled src.val = false →
      Gives (.wakeEvent ln src) s ln (l)) ∧
    (∀ (s : State) (ln : LaneId),
      s.has ln = true →
      (s.lane ln).alive = true →
      (s.lane ln).drivesNothing (s.ctx ln) = true →
      exec (.wakePulseSend ln) s = .next ((s.setLane ln { s.lane ln with pw := { (s.lane ln).pw with pulses := [] } }).pulseAll (s.lane ln).pw.pulses)) ∧
    (∀ (s : State) (ln : LaneId) (c : Ctx) (l : Lane) (x : WakeRead), There s ln c l →
      l.phase = .asleepNap →
      l.get R.PW_WAKE_CAUSE_sources ≠ 0 →
      Yields (.napWake ln x) s ln (fun m => (m.phase = if l.st.ready then .ready else .awarding) ∧ m.pw.ponrAt = none ∧ m.pw.pulses = othersOf c)) ∧
    (∀ (s : State) (ln : LaneId) (banks : List (List (Nat × Ecc))),
      s.has ln = true →
      (s.lane ln).phase = .asleepDormant →
      (s.lane ln).get R.PW_WAKE_CAUSE_sources ≠ 0 →
      ∃ m, exec (.dormantWake ln banks) s = .next m ∧
        (m.lane ln).phase = .boot ∧ (m.lane ln).tm = 0 ∧ (m.lane ln).st.afterDormant = true ∧ (m.lane ln).pw.pulses = othersOf (s.ctx ln) ∧ (m.lane ln).mem = (s.lane ln).mem.filter (fun e => decide (0x30000000 ≤ e.1 ∧ e.1 < 0x32000000)) ∧ ∀ x, x ≠ ln → m.lane x = s.lane x) ∧
    (∀ (s : State) (ln : LaneId) (c : Ctx) (l : Lane) (v : Word), Here s ln c l →
      v.toNat % 256 = 0xC3 →
      l.bit R.PW_STATUS_pads_held = true →
      Gives (.padRelease ln v) s ln (((({ l with bus := .done }).put R.PW_STATUS_pads_held 0).suppliesOn).canStarts)) ∧
    (∀ (s : State) (ln : LaneId) (c : Ctx) (l : Lane) (v : Word), Here s ln c l →
      v.toNat % 256 ≠ 0xC3 ∨ l.bit R.PW_STATUS_pads_held = false →
      Gives (.padRelease ln v) s ln ({ l with bus := .done })) ∧
    (∀ (s : State) (ln : LaneId) (c : Ctx) (l : Lane) (t : Nat), Here s ln c l →
      l.pw.bootAt = some t →
      l.bit R.PW_STATUS_pads_held = true →
      t + 100000000 ≤ c.now →
      Gives (.padTimeout ln) s ln ((l.flag R.PW_FLAGS_pad_timeout).logicFault c 0xC)) ∧
    (∀ (s : State) (ln : LaneId) (c : Ctx) (l : Lane) (l1 l2 : Lane), Here s ln c l →
      l1 = l.showOpen c →
      l1.pwState < 4 →
      l2 = (l1.rollBack c []).failAllHoming →
      l2.active = false →
      l2.role ≠ roleUnfit →
      Gives (.presenceOpen ln) s ln (({ l2 with pw := { l2.pw with removal := l2.removable } }).withdraw c)) ∧
    (∀ (s : State) (ln : LaneId),
      s.has ln = true →
      (s.lane ln).asleep = true →
      exec (.brownOut ln) s = .next ((s.setLane ln { ((((s.lane ln).ascOff 0).ascOff 1).stoAll (s.ctx ln)) with phase := .off }).supplyMarshal.votesEnd ln)) ∧
    (∀ (s : State) (ln : LaneId),
      s.has ln = true →
      (s.lane ln).alive = true →
      exec (.brownOut ln) s = .next (let l0 := { (s.lane ln).tearRecord with pw := { (s.lane ln).pw with banks := (s.lane ln).tornBanks (s.ctx ln) } }
        let l2 := ((((l0.becomeUnfit (s.ctx ln) 9 2 9 .supply).stagesOff 0xFFFFFFFF).setLines false).ascOff 0).ascOff 1
        (s.setLane ln { l2 with phase := .off, refresh := false, pw := { l2.pw with leavingAt := some (s.ctx ln).now } }).supplyMarshal.votesEnd ln))

/-- A lane without supply drives nothing. (R60, R76, R544) -/
def Obligations.BrownOutIsQuiet : Prop :=
    ∀ (s : State) (ln : LaneId),
      s.has ln = true →
      (s.lane ln).alive = true →
      ∃ m, exec (.brownOut ln) s = .next m ∧
        (m.lane ln).phase = .off ∧ (m.lane ln).role = roleUnfit ∧ (m.lane ln).quiet = true ∧ (m.lane ln).refresh = false ∧ (m.lane ln).alive = false ∧ (∀ ch : Fin 2, (m.lane ln).bit (R.PS_STATUS_asc ch.val) = false) ∧ ∀ x, x ≠ ln → (m.lane x).phase = (s.lane x).phase ∧ SameRegs (s.lane x) (m.lane x) [R.LM_VOTE] ∧ SameMem (s.lane x) (m.lane x)

/-- At the point of no return outputs, node, timers and scheduler stop. (R318, R426, R451) -/
def Obligations.SleepDrivesNothing : Prop :=
    (∀ (s : State) (ln : LaneId) (c : Ctx) (l : Lane) (others : List (LaneId × Word)) (v : Vote), Here s ln c l →
      l.pw.vote = some v →
      v.refused = false →
      l.get R.LM_ROLE_fit_lanes = v.fit →
      l.pwState = 2 →
      (othersOf c).filter (fun x => maskHas v.fit x) = [] →
      Yields (.powerVoteNit ln others) s ln (fun m => m.stageOn &&& 0xFFFFF0FF = 0 ∧ m.takeover = false ∧ m.pwState = 4 ∧ m.nxState = nxOff ∧ m.ea.started = false ∧ m.pw.vote = none ∧ m.pw.ponrAt = some c.now ∧ m.get (R.SI_SUP_on 0) = 0 ∧ m.get (R.SI_SUP_on 1) = 0 ∧
        (∀ t : Fin 64, m.bit (R.TMt_CFG_armed t.val) = false))) ∧
    (∀ (s : State) (ln : LaneId) (c : Ctx) (l : Lane) (t : Nat), There s ln c l →
      l.powered = true →
      l.pw.ponrAt = some t →
      l.pwState = 4 →
      l.pw.saved = false →
      t + 20000000 ≤ c.now →
      l.takeover = false →
      Yields (.retentionSave ln) s ln (fun m => m.quiet = true ∧ m.pw.saved = true ∧ m.pw.banks.length = 4 ∧ SameRegs l m [] ∧ SameMem l m))

/-- Requests of the service port that do not write. (R483, R484, R485, R486, R490) -/
def Obligations.ServiceRequestsComplete : Prop :=
    (∀ (s : State) (ln : LaneId) (c : Ctx) (l : Lane) (q : SvcReq), Here s ln c l →
      l.cf.lastTxn ≠ some q.txn →
      Gives (.svcInfo ln q) s ln ((l.touch c).answer q 0x01 0 ([l.rd R.LM_ID, l.cfStatus c] ++ l.recordWords 0 ++ l.recordWords 1 ++
        [0, 1].flatMap (fun k => let d := imageId (l.slotDigest k); [d.setWidth 32, d.extractLsb' 32 32])))) ∧
    (∀ (s : State) (ln : LaneId) (c : Ctx) (l : Lane) (q : SvcReq), Here s ln c l →
      l.cf.lastTxn = some q.txn →
      Gives (.svcInfo ln q) s ln (l.mail q.ip q.port.toNat l.cf.lastReply)) ∧
    (∀ (s : State) (ln : LaneId) (c : Ctx) (l : Lane) (q : SvcReq) (addr : Word) (len : Nat), Here s ln c l →
      l.cf.lastTxn ≠ some q.txn →
      len ≤ 1024 →
      len % 4 = 0 →
      0x30000000 ≤ addr.toNat →
      addr.toNat + len ≤ 0x32000000 →
      Gives (.svcRead ln q addr len) s ln ({ (l.touch c).answer q 0x02 0 ((List.range (len / 4)).map (fun i => l.granule (addr.toNat + 4 * i))) with free := l.free + len / 4 })) ∧
    (∀ (s : State) (ln : LaneId) (c : Ctx) (l : Lane) (q : SvcReq) (addr : Word) (len : Nat), Here s ln c l →
      l.cf.lastTxn ≠ some q.txn →
      1024 < len ∨ len % 4 ≠ 0 →
      Gives (.svcRead ln q addr len) s ln ((l.touch c).answer q 0x02 7 [])) ∧
    (∀ (s : State) (ln : LaneId) (c : Ctx) (l : Lane) (q : SvcReq) (first : Word) (count : Nat), Here s ln c l →
      l.cf.lastTxn ≠ some q.txn →
      count ≤ 7 →
      (l.rd R.CF_JNL_OLDEST).toNat ≤ first.toNat →
      first.toNat + count ≤ (l.rd R.CF_JNL_HEAD).toNat →
      Gives (.svcReadJournal ln q first count) s ln ((l.touch c).draw.answer q 0x0A 0 ((List.range (32 * count)).map (fun i => l.journalGranule (journalAt (first.toNat + i / 32) + 4 * (i % 32)))))) ∧
    (∀ (s : State) (ln : LaneId) (c : Ctx) (l : Lane) (q : SvcReq) (first : Word) (count : Nat), Here s ln c l →
      l.cf.lastTxn ≠ some q.txn →
      7 < count →
      Gives (.svcReadJournal ln q first count) s ln (l.answer q 0x0A 7 [])) ∧
    (∀ (s : State) (ln : LaneId) (c : Ctx) (l : Lane) (q : SvcReq) (first : Word) (count : Nat), Here s ln c l →
      l.cf.lastTxn ≠ some q.txn →
      count ≤ 7 →
      first.toNat < (l.rd R.CF_JNL_OLDEST).toNat ∨ (l.rd R.CF_JNL_HEAD).toNat < first.toNat + count →
      Gives (.svcReadJournal ln q first count) s ln (l.answer q 0x0A 6 [])) ∧
    (∀ (s : State) (ln : LaneId) (c : Ctx) (l : Lane) (q : SvcReq), Here s ln c l →
      l.cf.lastTxn ≠ some q.txn →
      l.bit R.CF_STATUS_session = true →
      l.get R.CF_SESSION_id = q.session.toNat →
      Gives (.svcClose ln q) s ln (((l.answer q 0x04 0 []).abortTxn c true).closeSession)) ∧
    (∀ (s : State) (ln : LaneId) (c : Ctx) (l : Lane), Here s ln c l →
      l.bit R.CF_STATUS_session = true →
      l.cf.reqAt + l.idleTime * 1000000000 ≤ c.now →
      Gives (.sessionTimeout ln) s ln (let l1 := (l.abortTxn c true).flag R.CF_FLAGS_session_timeout
        (l1.peerEntry c (l1.sessionRec 0x82 0)).closeSession)) ∧
    (∀ (s : State) (ln : LaneId) (c : Ctx) (l : Lane), Here s ln c l →
      l.bit R.CF_STATUS_session = true →
      l.enableOk = false →
      Gives (.serviceConditionDrop ln) s ln ((l.abortTxn c true).closeSession)) ∧
    (∀ (s : State) (ln : LaneId) (ip : Word) (port target : BitVec 16) (ws : List Word) (bytes : Nat),
      s.has ln = true →
      (s.lane ln).alive = true →
      16 ≤ bytes →
      target.toNat = (s.lane ln).get R.ET_PORTS_service →
      (s.lane ln).bit R.ET_STATUS_link_up = true →
      svcWellFormed ws bytes = true →
      ((s.lane ln).flag R.ET_FLAGS_svc_rx).cf.lastTxn ≠ some (BitVec.ofNat 16 (wordAt ws 0).toNat) →
      (svcDispatch s (s.ctx ln) ⟨BitVec.ofNat 16 (wordAt ws 0).toNat, (wordAt ws 1).extractLsb' 16 16, ip, port⟩ ((wordAt ws 0).toNat / 65536 % 256) ((ws.drop 3).dropLast) ((s.lane ln).flag R.ET_FLAGS_svc_rx)).isSome = true →
      exec (.serviceMessageReceive ln .good ⟨ip, port⟩ target ⟨ws, bytes⟩) s = .next (s.setLane ln ((svcDispatch s (s.ctx ln) ⟨BitVec.ofNat 16 (wordAt ws 0).toNat, (wordAt ws 1).extractLsb' 16 16, ip, port⟩ ((wordAt ws 0).toNat / 65536 % 256) ((ws.drop 3).dropLast) ((s.lane ln).flag R.ET_FLAGS_svc_rx)).getD (s.lane ln)))) ∧
    (∀ (s : State) (ln : LaneId) (c : Ctx) (l : Lane) (ip : Word) (port target : BitVec 16) (ws : List Word) (bytes : Nat), Here s ln c l →
      16 ≤ bytes →
      target.toNat = l.get R.ET_PORTS_service →
      l.bit R.ET_STATUS_link_up = true →
      svcWellFormed ws bytes = false →
      Gives (.serviceMessageReceive ln .good ⟨ip, port⟩ target ⟨ws, bytes⟩) s ln ((l.flag R.ET_FLAGS_svc_rx).badFormat ⟨BitVec.ofNat 16 (wordAt ws 0).toNat, (wordAt ws 1).extractLsb' 16 16, ip, port⟩ ((wordAt ws 0).toNat / 65536 % 256))) ∧
    (∀ (s : State) (ln : LaneId) (c : Ctx) (l : Lane) (fate : EthFate) (ip : Word) (port target : BitVec 16) (ws : List Word) (bytes : Nat), Here s ln c l →
      l.bit R.ET_STATUS_link_up = true →
      fate ≠ .good →
      Gives (.serviceMessageReceive ln fate ⟨ip, port⟩ target ⟨ws, bytes⟩) s ln (l.frameLost fate)) ∧
    (∀ (s : State) (ln : LaneId) (c : Ctx) (l : Lane) (ip : Word) (port target : BitVec 16) (ws : List Word) (bytes : Nat), Here s ln c l →
      l.bit R.ET_STATUS_link_up = true →
      target.toNat ≠ l.get R.ET_PORTS_service →
      Gives (.serviceMessageReceive ln .good ⟨ip, port⟩ target ⟨ws, bytes⟩) s ln (l))

/-- Write requests inside an open session, and the scan of the journal. (R474, R482, R486, R489, R490) -/
def Obligations.ServiceWritesComplete : Prop :=
    (∀ (s : State) (ln : LaneId) (c : Ctx) (l : Lane) (q : SvcReq), Here s ln c l →
      l.cf.lastTxn ≠ some q.txn →
      l.writeGate c = 0 →
      l.bit R.CF_STATUS_session = false →
      Gives (.svcOpen ln q) s ln (let id := l.cf.nextId % 65535 + 1
        let y1 := (((l.put R.CF_STATUS_session 1).put R.CF_SESSION_id id).put R.CF_SESSION_port q.port.toNat).wr R.CF_SESSION_IP q.ip
        let y2 := ({ y1 with cf := { y1.cf with nextId := id, reqAt := c.now } }).flag R.CF_FLAGS_session_open
        (y2.peerEntry c (svcRec q 0x03 0 0 0 0 0)).answer q 0x03 0 [BitVec.ofNat 32 id])) ∧
    (∀ (s : State) (ln : LaneId) (c : Ctx) (l : Lane) (q : SvcReq) (target : Word) (offset len base : Nat) (sha : BitVec 256), Here s ln c l →
      l.cf.lastTxn ≠ some q.txn →
      l.writeGate c = 0 →
      l.bit R.CF_STATUS_session = true →
      l.get R.CF_SESSION_id = q.session.toNat →
      l.cf.txn = none →
      target = 1 →
      l.writePlace target offset len = .inl base →
      Gives (.svcWriteBegin ln q target offset len sha) s ln (let y1 := ({ l with cf := { l.cf with reqAt := c.now } }).erase base len
        ({ y1 with cf := { y1.cf with txn := some ⟨false, base, len, 0, sha⟩ } }).doneWrite c q 0x05 0 (BitVec.ofNat 32 base) (BitVec.ofNat 32 len) 0)) ∧
    (∀ (s : State) (ln : LaneId) (c : Ctx) (l : Lane) (q : SvcReq) (offset len base : Nat) (sha : BitVec 256), Here s ln c l →
      l.cf.lastTxn ≠ some q.txn →
      l.writeGate c = 0 →
      l.bit R.CF_STATUS_session = true →
      l.get R.CF_SESSION_id = q.session.toNat →
      l.cf.txn = none →
      l.writePlace 0 offset len = .inl base →
      Gives (.svcWriteBegin ln q 0 offset len sha) s ln (let y1 := ({ l with cf := { l.cf with reqAt := c.now } }).erase base 0xC00000
        let y2 := y1.showSlot y1.writeSlot
        ({ y2 with cf := { y2.cf with txn := some ⟨true, base, len, 0, sha⟩ } }).doneWrite c q 0x05 0 (BitVec.ofNat 32 base) (BitVec.ofNat 32 len) 0)) ∧
    (∀ (s : State) (ln : LaneId) (c : Ctx) (l : Lane) (q : SvcReq) (offset : Nat) (data : List Byte) (t : WriteTxn), Here s ln c l →
      l.cf.lastTxn ≠ some q.txn →
      l.writeGate c = 0 →
      l.bit R.CF_STATUS_session = true →
      l.get R.CF_SESSION_id = q.session.toNat →
      l.cf.txn = some t →
      offset = t.next →
      offset + data.length ≤ t.len →
      Gives (.svcWriteData ln q offset data) s ln (let y1 := ({ l with cf := { l.cf with reqAt := c.now } }).setBytes (t.base + offset) data
        ({ y1 with cf := { y1.cf with txn := some { t with next := offset + data.length } } }).answer q 0x06 0 [])) ∧
    (∀ (s : State) (ln : LaneId) (c : Ctx) (l : Lane) (q : SvcReq) (t : WriteTxn), Here s ln c l →
      l.cf.lastTxn ≠ some q.txn →
      l.writeGate c = 0 →
      l.bit R.CF_STATUS_session = true →
      l.get R.CF_SESSION_id = q.session.toNat →
      l.cf.txn = some t →
      t.next ≠ t.len →
      Gives (.svcWriteEnd ln q) s ln (let y0 := { l with cf := { l.cf with reqAt := c.now, txn := none } }
        (y0.flag R.CF_FLAGS_verify_fail).doneWrite c q 0x07 8 (BitVec.ofNat 32 t.base) (BitVec.ofNat 32 t.len) (sha256 (l.bytes t.base t.next)))) ∧
    (∀ (s : State) (ln : LaneId) (c : Ctx) (l : Lane) (q : SvcReq) (t : WriteTxn), Here s ln c l →
      l.cf.lastTxn ≠ some q.txn →
      l.writeGate c = 0 →
      l.bit R.CF_STATUS_session = true →
      l.get R.CF_SESSION_id = q.session.toNat →
      l.cf.txn = some t →
      t.slot = false →
      l.verifies c t = true →
      Gives (.svcWriteEnd ln q) s ln (let y0 := { l with cf := { l.cf with reqAt := c.now, txn := none } }
        (y0.flag R.CF_FLAGS_write_done).doneWrite c q 0x07 0 (BitVec.ofNat 32 t.base) (BitVec.ofNat 32 t.len) t.sha)) ∧
    (∀ (s : State) (ln : LaneId) (c : Ctx) (l : Lane) (q : SvcReq) (t : WriteTxn), Here s ln c l →
      l.cf.lastTxn ≠ some q.txn →
      l.writeGate c = 0 →
      l.bit R.CF_STATUS_session = true →
      l.get R.CF_SESSION_id = q.session.toNat →
      l.cf.txn = some t →
      t.slot = true →
      l.verifies c t = true →
      Gives (.svcWriteEnd ln q) s ln (let y0 := { l with cf := { l.cf with reqAt := c.now, txn := none } }
        let y1 := ((y0.setGranule (slotRec l.writeSlot + 8) (BitVec.ofNat 32 t.len)).setBytes (slotRec l.writeSlot + 12) (digestBytes32 t.sha)).moveSlot l.writeSlot 1
        (y1.flag R.CF_FLAGS_write_done).doneWrite c q 0x07 0 (BitVec.ofNat 32 t.base) (BitVec.ofNat 32 t.len) t.sha)) ∧
    (∀ (s : State) (ln : LaneId) (c : Ctx) (l : Lane) (q : SvcReq), Here s ln c l →
      l.cf.lastTxn ≠ some q.txn →
      l.writeGate c = 0 →
      l.bit R.CF_STATUS_session = true →
      l.get R.CF_SESSION_id = q.session.toNat →
      l.slotState l.writeSlot = 1 →
      Gives (.svcPromote ln q) s ln (let y1 := ({ l with cf := { l.cf with reqAt := c.now } }).setGranule (slotRec l.writeSlot + 4) (BitVec.ofNat 32 (l.slotGen (1 - l.writeSlot) + 1))
        ((y1.moveSlot l.writeSlot 2).flag R.CF_FLAGS_write_done).doneWrite c q 0x08 0 0 0 0)) ∧
    (∀ (s : State) (ln : LaneId) (c : Ctx) (l : Lane) (q : SvcReq) (t : WriteTxn), Here s ln c l →
      l.cf.lastTxn ≠ some q.txn →
      l.writeGate c = 0 →
      l.bit R.CF_STATUS_session = true →
      l.get R.CF_SESSION_id = q.session.toNat →
      l.cf.txn = some t →
      Gives (.svcAbort ln q) s ln ((({ l with cf := { l.cf with reqAt := c.now } }).abortTxn c false).doneWrite c q 0x09 9 0 0 0)) ∧
    (∀ (s : State) (ln : LaneId) (c : Ctx) (l : Lane), Here s ln c l →
      l.cf.scanned = true →
      Gives (.journalScan ln () ()) s ln (l)) ∧
    (∀ (s : State) (ln : LaneId) (c : Ctx) (l : Lane), Here s ln c l →
      l.cf.scanned = false →
      l.tailWritten l.nextEntry = false →
      l.cf.lost = false →
      Gives (.journalScan ln () ()) s ln (let l0 := { l with cf := { l.cf with scanned := true, lost := false } }
        (l0.wr R.CF_JNL_HEAD (BitVec.ofNat 32 l.nextEntry)).wr R.CF_JNL_OLDEST (BitVec.ofNat 32 ((l.nextEntry - 1) / 512 * 512 - 32256)))) ∧
    (∀ (s : State) (ln : LaneId) (c : Ctx) (l : Lane), Here s ln c l →
      l.cf.scanned = false →
      l.tailWritten l.nextEntry = true →
      Gives (.journalScan ln () ()) s ln (let l0 := { l with cf := { l.cf with scanned := true, lost := false } }
        let l1 := (l0.wr R.CF_JNL_HEAD (BitVec.ofNat 32 l.nextEntry)).wr R.CF_JNL_OLDEST (BitVec.ofNat 32 ((l.nextEntry - 1) / 512 * 512 - 32256))
        let l2 := l1.erase (journalAt l.nextEntry) (65536 - 128 * (l.nextEntry % 512))
        ({ l2 with cf := { l2.cf with gap := true } }).flag R.CF_FLAGS_journal_gap))

/-- A write request that R482 does not accept changes no image, no calibration and no session. (R482, R487, R489) -/
def Obligations.RefusedWritesKeepImages : Prop :=
    ∀ (s : State) (ln : LaneId) (c : Ctx) (l : Lane) (q : SvcReq) (target : Word) (offset len : Nat) (sha : BitVec 256) (data : List Byte) (i : Instr),
      Here s ln c l → l.writeGate c ≠ 0 →
      i ∈ [Instr.svcOpen ln q, .svcWriteBegin ln q target offset len sha, .svcWriteData ln q offset data, .svcWriteEnd ln q, .svcPromote ln q, .svcAbort ln q] →
      Yields i s ln (fun m => (∀ a, a < 0x31800000 ∨ 0x31C00000 ≤ a → m.byte a = l.byte a) ∧ m.cf.txn = l.cf.txn ∧ m.cf.running = l.cf.running ∧
        SameRegs l m [R.CF_FLAGS, R.CF_JNL_HEAD, R.CF_JNL_OLDEST, R.ET_FLAGS])

/-- The CAN FD controllers and the Ethernet port. (R484, R492, R493, R495, R496) -/
def Obligations.CanAndEthernetComplete : Prop :=
    (∀ (s : State) (ln : LaneId) (c : Ctx) (l : Lane) (k : Fin 2) (f : CanFrame) (i : Nat), Here s ln c l →
      l.canOn k.val = true →
      f.remote = false →
      l.canFilter k.val f = some i →
      (l.canOf k.val).fifo.length < 32 →
      Gives (.canFrameReceive ln k f) s ln (((l.setCan k.val { l.canOf k.val with fifo := (l.canOf k.val).fifo ++ [⟨f, i, l.stamp⟩], heard := tabPut (l.canOf k.val).heard i (l.stamp, f.data) }).put (R.CNk_STATUS_rx_level k.val) ((l.canOf k.val).fifo.length + 1)).flag (R.CNk_FLAGS_rx k.val))) ∧
    (∀ (s : State) (ln : LaneId) (c : Ctx) (l : Lane) (k : Fin 2) (f : CanFrame) (i : Nat), Here s ln c l →
      l.canOn k.val = true →
      f.remote = false →
      l.canFilter k.val f = some i →
      32 ≤ (l.canOf k.val).fifo.length →
      Gives (.canFrameReceive ln k f) s ln ((l.setCan k.val { l.canOf k.val with heard := tabPut (l.canOf k.val).heard i (l.stamp, f.data) }).flag (R.CNk_FLAGS_rx_overrun k.val))) ∧
    (∀ (s : State) (ln : LaneId) (c : Ctx) (l : Lane) (k : Fin 2) (m : Fin 16) (v : Word), Here s ln c l →
      v.getLsbD 0 = true →
      v.getLsbD 1 = false →
      Gives (.canSend ln k m v) s ln ((({ (l.put (R.CNk_TXm_CTRL_dlc k.val m.val) (v.toNat / 16 % 16)).putB (R.CNk_TXm_CTRL_active_only k.val m.val) (v.getLsbD 3) with bus := .done }).put (R.CNk_TXm_CTRL_pending k.val m.val) 1).canStart k.val)) ∧
    (∀ (s : State) (ln : LaneId) (c : Ctx) (l : Lane) (k : Fin 2) (m : Fin 16), Here s ln c l →
      l.bit (R.CNk_TXm_CTRL_pending k.val m.val) = true →
      (l.canOf k.val).onBus ≠ some m.val →
      Gives (.canCancel ln k m) s ln ({ (l.put (R.CNk_TXm_CTRL_pending k.val m.val) 0).flag (R.CNk_FLAGS_tx_cancel k.val) with bus := .done })) ∧
    (∀ (s : State) (ln : LaneId) (c : Ctx) (l : Lane) (k : Fin 2) (m : Fin 16), Here s ln c l →
      (l.canOf k.val).onBus = some m.val →
      Gives (.canTxDone ln k m) s ln (let l1 := ((l.put (R.CNk_TXm_CTRL_pending k.val m.val) 0).stampAt (R.CNk_TXm_STAMP k.val m.val)).flag (R.CNk_FLAGS_tx_done k.val)
        (l1.setCan k.val { l1.canOf k.val with onBus := none }).canStart k.val)) ∧
    (∀ (s : State) (ln : LaneId) (c : Ctx) (l : Lane) (k : Fin 2) (v : Word), Here s ln c l →
      v.getLsbD 0 = true →
      Gives (.canRxPop ln k v) s ln ((({ l with bus := .done }).setCan k.val { l.canOf k.val with fifo := (l.canOf k.val).fifo.drop 1 }).put (R.CNk_STATUS_rx_level k.val) ((l.canOf k.val).fifo.length - 1))) ∧
    (∀ (s : State) (ln : LaneId) (c : Ctx) (l : Lane) (k : Fin 2), Here s ln c l →
      l.get (R.CNk_STATUS_state k.val) = 2 →
      (l.bit (R.CNk_CFG_auto_recover k.val) || (l.canOf k.val).recovering) = true →
      Gives (.canBusOffRecover ln k) s ln (let l1 := ((l.put (R.CNk_STATUS_state k.val) 0).put (R.CNk_STATUS_tec k.val) 0).put (R.CNk_STATUS_rec k.val) 0
        (l1.setCan k.val { l1.canOf k.val with recovering := false, onBus := none }).canStart k.val)) ∧
    (∀ (s : State) (ln : LaneId) (c : Ctx) (l : Lane) (k : Fin 2) (v : Word), Here s ln c l →
      v.getLsbD 0 = true →
      l.get (R.CNk_STATUS_state k.val) = 2 →
      Gives (.canRecoverWrite ln k v) s ln (({ l with bus := .done }).setCan k.val { l.canOf k.val with recovering := true })) ∧
    (∀ (s : State) (ln : LaneId) (c : Ctx) (l : Lane) (up : Bool) (sqi : BitVec 3), Here s ln c l →
      Gives (.ethernetLinkChange ln up sqi) s ln (((l.putB R.ET_STATUS_link_up up).put R.ET_STATUS_sqi sqi.toNat).flagIf (l.bit R.ET_STATUS_link_up != up) R.ET_FLAGS_link_change)) ∧
    (∀ (s : State) (ln : LaneId) (c : Ctx) (l : Lane) (peer target : Word) (bytes : List Byte), Here s ln c l →
      l.bit R.ET_STATUS_link_up = true →
      target = l.rd R.ET_IP →
      Gives (.arpOrIcmpEchoReceive ln .good ⟨false, peer, target, bytes⟩) s ln ({ l with mailOut := l.mailOut ++ [⟨peer, 0, [l.rd R.ET_MAC_LO, l.rd R.ET_MAC_HI, l.rd R.ET_IP], 0⟩] })) ∧
    (∀ (s : State) (ln : LaneId) (c : Ctx) (l : Lane) (icmp : Bool) (peer target : Word) (bytes : List Byte), Here s ln c l →
      l.bit R.ET_STATUS_link_up = true →
      target ≠ l.rd R.ET_IP →
      Gives (.arpOrIcmpEchoReceive ln .good ⟨icmp, peer, target, bytes⟩) s ln (l))

/-- The state of a CAN controller follows its error counters. (R492, R496) -/
def Obligations.CanErrorStates : Prop :=
    ∀ (s : State) (ln : LaneId) (c : Ctx) (l : Lane) (k : Fin 2) (ev : CanError) (t r : Nat), Here s ln c l →
      l.canOn k.val = true →
      canCounts (l.get (R.CNk_STATUS_tec k.val)) (l.get (R.CNk_STATUS_rec k.val)) ev = (t, r) →
      Yields (.canErrorEvent ln k ev) s ln (fun m => m.get (R.CNk_STATUS_tec k.val) = min t 255 ∧ m.get (R.CNk_STATUS_rec k.val) = min r 255 ∧
        m.get (R.CNk_STATUS_state k.val) = (if 255 < t then 2 else if 127 < t ∨ 127 < r then 1 else 0) ∧ (255 < t → (m.canOf k.val).onBus = none ∧ m.bit (R.CNk_FLAGS_bus_off k.val) = true) ∧
        (m.canOf k.val).fifo = (l.canOf k.val).fifo ∧ (∀ j : Fin 2, j ≠ k → m.canOf j.val = l.canOf j.val) ∧ SameRegs l m [R.CNk_STATUS k.val, R.CNk_FLAGS k.val] ∧ SameMem l m)

/-- Ageing samples, temperature, hourly update, telemetry and baselines. (R499, R500, R503, R505, R506, R512) -/
def Obligations.HealthCommandsComplete : Prop :=
    (∀ (s : State) (ln : LaneId) (c : Ctx) (l : Lane) (i : Fin 8) (x : AgeRaw) (v : Nat), Here s ln c l →
      l.monOn c i.val = true →
      l.noSample c = false →
      l.indicator c i.val x = some v →
      Gives (.ageingSample ln i x) s ln (l.setMon i.val { l.mon i.val with hour := (l.mon i.val).hour ++ [v] })) ∧
    (∀ (s : State) (ln : LaneId) (c : Ctx) (l : Lane) (i : Fin 8) (x : AgeRaw), Here s ln c l →
      l.noSample c = true →
      Gives (.ageingSample ln i x) s ln (l)) ∧
    (∀ (s : State) (ln : LaneId) (c : Ctx) (l : Lane) (t : BitVec 16), Here s ln c l →
      t.toInt ≤ (l.put R.HA_TEMP_now t.toNat).getS R.HA_TEMP_max →
      t.toInt ≤ (l.put R.HA_TEMP_now t.toNat).getS R.HA_LIMITS_temp_max →
      ((l.put R.HA_TEMP_now t.toNat)).monOn c 6 = false →
      Gives (.dieTemperatureSample ln t) s ln (l.put R.HA_TEMP_now t.toNat)) ∧
    (∀ (s : State) (ln : LaneId) (c : Ctx) (l : Lane), Here s ln c l →
      l.ha.opNs < 3600000000000 ∨ l.unitsHalt = true →
      Gives (.hourlyLifeUpdate ln) s ln (l)) ∧
    (∀ (s : State) (ln : LaneId) (c : Ctx) (l : Lane), Here s ln c l →
      3600000000000 ≤ l.ha.opNs →
      l.unitsHalt = false →
      Yields (.hourlyLifeUpdate ln) s ln (fun m => m.rd R.HA_HOURS = l.rd R.HA_HOURS + 1 ∧ m.ha.opNs = l.ha.opNs - 3600000000000 ∧ m.bit R.HA_STATUS_writing = true ∧ m.ha.recordAt = some c.now ∧ m.bit R.HA_FLAGS_life_update = true ∧ SameMem l m)) ∧
    (∀ (s : State) (ln : LaneId) (c : Ctx) (l : Lane), Here s ln c l →
      l.telOn = true →
      l.ha.telAt = none →
      Gives (.telemetrySend ln) s ln (let l1 := l.sendTelemetry c 1 ([l.rd R.LM_ROLE, l.rd R.FC_MODE, fldPut R.HA_LIFE_prior (l.rd R.HA_LIFE) (l.get R.HA_STATUS_prior), l.rd R.HA_TEMP] ++
          [l.rd R.EA_LOAD, l.rd R.EA_RA_COMMIT, l.rd R.EA_RA_SQUASH, l.rd R.EA_MISS_CNT, l.rd R.HA_CONFLICT, l.rd R.LM_HANDOVER])
        { l1 with ha := { l1.ha with telAt := some (c.now + l1.get R.ET_TEL_period_ms * 1000000) } })) ∧
    (∀ (s : State) (ln : LaneId) (c : Ctx) (l : Lane) (v : Word), Here s ln c l →
      fldOf R.HA_BASELINE_RESET_key v = 0x96 →
      l.parked = true →
      Yields (.baselineReset ln v) s ln (fun m => (∀ i : Fin 8, m.mon i.val = if Nat.testBit (fldOf R.HA_BASELINE_RESET_mask v) i.val then { l.mon i.val with reset := true } else l.mon i.val) ∧ m.bit R.HA_FLAGS_baseline_reset = true ∧ m.bus = .done ∧ SameRegs l m [R.HA_FLAGS] ∧ SameMem l m)) ∧
    (∀ (s : State) (ln : LaneId) (c : Ctx) (l : Lane) (v : Word), Here s ln c l →
      fldOf R.HA_BASELINE_RESET_key v ≠ 0x96 ∨ l.parked = false →
      Gives (.baselineReset ln v) s ln ({ l with bus := .done }))

/-- A health record is written whole and nothing beside it. (R509) -/
def Obligations.HealthRecordWritten : Prop :=
    ∀ (s : State) (ln : LaneId) (c : Ctx) (l : Lane) (t k : Nat) (ws : List Word), Here s ln c l →
      l.ha.recordAt = some t →
      k = l.nextRecord →
      ws = l.recordBody (BitVec.ofNat 32 k) ++ [crc32cWords (l.recordBody (BitVec.ofNat 32 k))] →
      Yields (.healthRecordWrite ln) s ln (fun m => ws.length = 128 ∧ (∀ i, i < 128 → m.granule (recordAddr k + 4 * i) = wordAt ws i) ∧
        (∀ a, a < recordAddr k ∨ recordAddr k + (if k % 128 = 0 then 65536 else 512) ≤ a → m.byte a = l.byte a) ∧
        m.ha.recordAt = none ∧ m.rd R.HA_REC = BitVec.ofNat 32 k ∧ m.bit R.HA_STATUS_writing = false ∧ m.bit R.HA_FLAGS_record_written = true ∧
        SameRegs l m [R.HA_REC, R.HA_STATUS, R.HA_FLAGS, R.ET_FLAGS])

/-- What the integer, select, shift and immediate instructions of an engine write. (R168, R174, R175, R180) -/
def Obligations.EngineIntegerResults : Prop :=
    (∀ (s : State) (ln : LaneId) (c : Ctx) (l : Lane) (e : EngIx) (d : LegDesc) (x : Engine) (rd ra rb : Reg),
      Here s ln c l → Executes c l e d → x = l.eng e.val →
      Executed (.insAdd ln e rd ra rb) s ln l e ((x.setReg rd (x.reg ra + x.reg rb)).next) ∧
      Executed (.insSub ln e rd ra rb) s ln l e ((x.setReg rd (x.reg ra - x.reg rb)).next) ∧
      Executed (.insAnd ln e rd ra rb) s ln l e ((x.setReg rd (x.reg ra &&& x.reg rb)).next) ∧
      Executed (.insOr ln e rd ra rb) s ln l e ((x.setReg rd (x.reg ra ||| x.reg rb)).next) ∧
      Executed (.insXor ln e rd ra rb) s ln l e ((x.setReg rd (x.reg ra ^^^ x.reg rb)).next) ∧
      Executed (.insSll ln e rd ra rb) s ln l e ((x.setReg rd (x.reg ra <<< ((x.reg rb).toNat % 64))).next) ∧
      Executed (.insSrl ln e rd ra rb) s ln l e ((x.setReg rd (x.reg ra >>> ((x.reg rb).toNat % 64))).next) ∧
      Executed (.insSra ln e rd ra rb) s ln l e ((x.setReg rd ((x.reg ra).sshiftRight ((x.reg rb).toNat % 64))).next) ∧
      Executed (.insMin ln e rd ra rb) s ln l e ((x.setReg rd (if (x.reg rb).slt (x.reg ra) then x.reg rb else x.reg ra)).next) ∧
      Executed (.insMax ln e rd ra rb) s ln l e ((x.setReg rd (if (x.reg ra).slt (x.reg rb) then x.reg rb else x.reg ra)).next) ∧
      Executed (.insMinu ln e rd ra rb) s ln l e ((x.setReg rd (if (x.reg rb).ult (x.reg ra) then x.reg rb else x.reg ra)).next) ∧
      Executed (.insMaxu ln e rd ra rb) s ln l e ((x.setReg rd (if (x.reg ra).ult (x.reg rb) then x.reg rb else x.reg ra)).next) ∧
      Executed (.insMul ln e rd ra rb) s ln l e ((x.setReg rd (x.reg ra * x.reg rb)).next)) ∧
    (∀ (s : State) (ln : LaneId) (c : Ctx) (l : Lane) (e : EngIx) (d : LegDesc) (x : Engine) (p : Pred) (rd ra rb : Reg),
      Here s ln c l → Executes c l e d → x = l.eng e.val →
      Executed (.insSel ln e p rd ra rb) s ln l e ((x.setReg rd (if x.pred p then x.reg ra else x.reg rb)).next) ∧
      Executed (.insClz ln e rd ra) s ln l e ((x.setReg rd (BitVec.ofNat 40 (clz40 (x.reg ra)))).next) ∧
      Executed (.insJr ln e ra) s ln l e ({ x with pc := (x.reg ra).setWidth 32 })) ∧
    (∀ (s : State) (ln : LaneId) (c : Ctx) (l : Lane) (e : EngIx) (d : LegDesc) (x : Engine) (rd ra : Reg) (imm : BitVec 16) (low : BitVec 8),
      Here s ln c l → Executes c l e d → x = l.eng e.val →
      Executed (.insAddi ln e rd ra imm) s ln l e ((x.setReg rd (x.reg ra + imm.signExtend 40)).next) ∧
      Executed (.insAndi ln e rd ra imm) s ln l e ((x.setReg rd (x.reg ra &&& imm.setWidth 40)).next) ∧
      Executed (.insOri ln e rd ra imm) s ln l e ((x.setReg rd (x.reg ra ||| imm.setWidth 40)).next) ∧
      Executed (.insXori ln e rd ra imm) s ln l e ((x.setReg rd (x.reg ra ^^^ imm.setWidth 40)).next) ∧
      Executed (.insOrh ln e rd ra imm) s ln l e ((x.setReg rd (x.reg ra ||| (imm.setWidth 40 <<< 16))).next) ∧
      Executed (.insLdx ln e rd low) s ln l e ((x.setReg rd (low.setWidth 40 <<< 32)).next)) ∧
    (∀ (s : State) (ln : LaneId) (c : Ctx) (l : Lane) (e : EngIx) (d : LegDesc) (x : Engine) (rd ra : Reg) (amount : BitVec 6),
      Here s ln c l → Executes c l e d → x = l.eng e.val →
      Executed (.insShi ln e rd ra 0 amount) s ln l e ((x.setReg rd (x.reg ra <<< amount.toNat)).next) ∧
      Executed (.insShi ln e rd ra 1 amount) s ln l e ((x.setReg rd (x.reg ra >>> amount.toNat)).next) ∧
      Executed (.insShi ln e rd ra 2 amount) s ln l e ((x.setReg rd ((x.reg ra).sshiftRight amount.toNat)).next))

/-- A register write of an engine changes one register, and none for w0; a predicate or accumulator write changes that
one. (R168) -/
def Obligations.EngineRegisterFrame : Prop :=
    (∀ (x : Engine) (r : Reg) (v : W40), (x.setReg r v).reg r = (if r.val = 0 then 0 else v) ∧
      (∀ q, q ≠ r → (x.setReg r v).reg q = x.reg q) ∧ (x.setReg r v).acc0 = x.acc0 ∧ (x.setReg r v).acc1 = x.acc1 ∧ (x.setReg r v).p = x.p ∧
      (x.setReg r v).pc = x.pc ∧ (x.setReg r v).sat = x.sat ∧ (x.setReg r v).deque = x.deque ∧ (x.setReg r v).run = x.run) ∧
    (∀ (x : Engine) (p : Pred) (b : Bool), (x.setPred p b).pred p = b ∧ (∀ q, q ≠ p → (x.setPred p b).pred q = x.pred q) ∧ (∀ r, (x.setPred p b).reg r = x.reg r) ∧
      (x.setPred p b).acc0 = x.acc0 ∧ (x.setPred p b).acc1 = x.acc1 ∧ (x.setPred p b).pc = x.pc ∧ (x.setPred p b).sat = x.sat) ∧
    (∀ (x : Engine) (k : Bool) (v : W80), (x.setAcc k v).acc k = v ∧ (x.setAcc k v).acc (!k) = x.acc (!k) ∧ (∀ r, (x.setAcc k v).reg r = x.reg r) ∧
      (x.setAcc k v).p = x.p ∧ (x.setAcc k v).pc = x.pc ∧ (x.setAcc k v).sat = x.sat)

/-- Fixed-point results are exact, rounded once, saturated and counted. (R170, R176, R177, R178) -/
def Obligations.EngineFixedPointResults : Prop :=
    (∀ (s : State) (ln : LaneId) (c : Ctx) (l : Lane) (e : EngIx) (d : LegDesc) (x : Engine) (rd ra rb : Reg) (k : Bool),
      Here s ln c l → Executes c l e d → x = l.eng e.val →
      Executed (.insQadd ln e rd ra rb) s ln l e ({ x.setReg rd (qw (max (-2 ^ 39) (min (2 ^ 39 - 1) (qv (x.reg ra) + qv (x.reg rb))))) with sat := if -2 ^ 39 ≤ (qv (x.reg ra) + qv (x.reg rb)) ∧ (qv (x.reg ra) + qv (x.reg rb)) ≤ 2 ^ 39 - 1 then x.sat else min (x.sat + 1) 0xFFFF }.next) ∧
      Executed (.insQsub ln e rd ra rb) s ln l e ({ x.setReg rd (qw (max (-2 ^ 39) (min (2 ^ 39 - 1) (qv (x.reg ra) - qv (x.reg rb))))) with sat := if -2 ^ 39 ≤ (qv (x.reg ra) - qv (x.reg rb)) ∧ (qv (x.reg ra) - qv (x.reg rb)) ≤ 2 ^ 39 - 1 then x.sat else min (x.sat + 1) 0xFFFF }.next) ∧
      Executed (.insQmul ln e rd ra rb) s ln l e ({ x.setReg rd (qw (max (-2 ^ 39) (min (2 ^ 39 - 1) (rna (qv (x.reg ra) * qv (x.reg rb)) 24)))) with sat := if -2 ^ 39 ≤ (rna (qv (x.reg ra) * qv (x.reg rb)) 24) ∧ (rna (qv (x.reg ra) * qv (x.reg rb)) 24) ≤ 2 ^ 39 - 1 then x.sat else min (x.sat + 1) 0xFFFF }.next) ∧
      Executed (.insQabs ln e rd ra) s ln l e ({ x.setReg rd (qw (max (-2 ^ 39) (min (2 ^ 39 - 1) (|qv (x.reg ra)|)))) with sat := if -2 ^ 39 ≤ (|qv (x.reg ra)|) ∧ (|qv (x.reg ra)|) ≤ 2 ^ 39 - 1 then x.sat else min (x.sat + 1) 0xFFFF }.next) ∧
      Executed (.insQneg ln e rd ra) s ln l e ({ x.setReg rd (qw (max (-2 ^ 39) (min (2 ^ 39 - 1) (-(qv (x.reg ra)))))) with sat := if -2 ^ 39 ≤ (-(qv (x.reg ra))) ∧ (-(qv (x.reg ra))) ≤ 2 ^ 39 - 1 then x.sat else min (x.sat + 1) 0xFFFF }.next) ∧
      Executed (.insQshl ln e rd ra rb) s ln l e ({ x.setReg rd (qw (max (-2 ^ 39) (min (2 ^ 39 - 1) (qv (x.reg ra) * 2 ^ ((x.reg rb).toNat % 64))))) with sat := if -2 ^ 39 ≤ (qv (x.reg ra) * 2 ^ ((x.reg rb).toNat % 64)) ∧ (qv (x.reg ra) * 2 ^ ((x.reg rb).toNat % 64)) ≤ 2 ^ 39 - 1 then x.sat else min (x.sat + 1) 0xFFFF }.next) ∧
      Executed (.insArd ln e k rd) s ln l e ({ x.setReg rd (qw (max (-2 ^ 39) (min (2 ^ 39 - 1) (rna (x.acc k).toInt 24)))) with sat := if -2 ^ 39 ≤ (rna (x.acc k).toInt 24) ∧ (rna (x.acc k).toInt 24) ≤ 2 ^ 39 - 1 then x.sat else min (x.sat + 1) 0xFFFF }.next)) ∧
    (∀ (s : State) (ln : LaneId) (c : Ctx) (l : Lane) (e : EngIx) (d : LegDesc) (x : Engine) (rd ra rb : Reg),
      Here s ln c l → Executes c l e d → x = l.eng e.val →
      Executed (.insQsat ln e rd ra rb) s ln l e ((x.setReg rd (qw (qsatV (qv (x.reg ra)) (qv (x.reg rb))))).next) ∧
      Executed (.insQsrr ln e rd ra rb) s ln l e ((x.setReg rd (qw (shiftRound (qv (x.reg ra)) ((x.reg rb).toNat % 64)))).next) ∧
      Executed (.insQdiv ln e rd ra rb) s ln l e (((x.setReg rd (qw (qDiv (qv (x.reg ra)) (qv (x.reg rb))))).count
        (if qv (x.reg rb) = 0 then decide (qv (x.reg ra) ≠ 0) else satHit (rnaDiv (qv (x.reg ra) * 2 ^ 24) (qv (x.reg rb))))).next))

/-- Accumulators add exact products, saturate at 80 bits and read back. (R178) -/
def Obligations.EngineAccumulatorResults : Prop :=
    ∀ (s : State) (ln : LaneId) (c : Ctx) (l : Lane) (e : EngIx) (d : LegDesc) (x : Engine) (rd ra rb : Reg) (k : Bool),
      Here s ln c l → Executes c l e d → x = l.eng e.val →
      Executed (.insQmac ln e k ra rb) s ln l e ({ x.setAcc k (BitVec.ofInt 80 (max (-2 ^ 79) (min (2 ^ 79 - 1) ((x.acc k).toInt + qv (x.reg ra) * qv (x.reg rb))))) with sat := if -2 ^ 79 ≤ ((x.acc k).toInt + qv (x.reg ra) * qv (x.reg rb)) ∧ ((x.acc k).toInt + qv (x.reg ra) * qv (x.reg rb)) ≤ 2 ^ 79 - 1 then x.sat else min (x.sat + 1) 0xFFFF }.next) ∧
      Executed (.insQmsu ln e k ra rb) s ln l e ({ x.setAcc k (BitVec.ofInt 80 (max (-2 ^ 79) (min (2 ^ 79 - 1) ((x.acc k).toInt - qv (x.reg ra) * qv (x.reg rb))))) with sat := if -2 ^ 79 ≤ ((x.acc k).toInt - qv (x.reg ra) * qv (x.reg rb)) ∧ ((x.acc k).toInt - qv (x.reg ra) * qv (x.reg rb)) ≤ 2 ^ 79 - 1 then x.sat else min (x.sat + 1) 0xFFFF }.next) ∧
      Executed (.insAmul ln e k ra rb) s ln l e ((x.setAcc k (BitVec.ofInt 80 (qv (x.reg ra) * qv (x.reg rb)))).next) ∧
      Executed (.insAclr ln e k) s ln l e ((x.setAcc k 0).next) ∧
      Executed (.insAld ln e k ra) s ln l e ((x.setAcc k (BitVec.ofInt 80 (qv (x.reg ra) * 2 ^ 24))).next) ∧
      Executed (.insArh ln e k rd) s ln l e ((x.setReg rd ((x.acc k).extractLsb' 40 40)).next) ∧
      Executed (.insArl ln e k rd) s ln l e ((x.setReg rd ((x.acc k).extractLsb' 0 40)).next) ∧
      Executed (.insAwr ln e k ra rb) s ln l e ((x.setAcc k (x.reg ra ++ x.reg rb)).next)

/-- Compares set one predicate; branches set the program counter. (R174, R175, R179, R180) -/
def Obligations.EngineCompareAndBranch : Prop :=
    (∀ (s : State) (ln : LaneId) (c : Ctx) (l : Lane) (e : EngIx) (d : LegDesc) (x : Engine) (p : Pred) (ra rb : Reg),
      Here s ln c l → Executes c l e d → x = l.eng e.val →
      Executed (.insEq ln e p ra rb) s ln l e ((x.setPred p (decide (x.reg ra = x.reg rb))).next) ∧
      Executed (.insNe ln e p ra rb) s ln l e ((x.setPred p (decide (x.reg ra ≠ x.reg rb))).next) ∧
      Executed (.insLt ln e p ra rb) s ln l e ((x.setPred p ((x.reg ra).slt (x.reg rb))).next) ∧
      Executed (.insLe ln e p ra rb) s ln l e ((x.setPred p ((x.reg ra).sle (x.reg rb))).next) ∧
      Executed (.insLtu ln e p ra rb) s ln l e ((x.setPred p ((x.reg ra).ult (x.reg rb))).next) ∧
      Executed (.insLeu ln e p ra rb) s ln l e ((x.setPred p ((x.reg ra).ule (x.reg rb))).next) ∧
      Executed (.insLtw ln e p ra rb) s ln l e ((x.setPred p (decide (sdiff ((x.reg ra).setWidth 32) ((x.reg rb).setWidth 32) < 0))).next) ∧
      Executed (.insLew ln e p ra rb) s ln l e ((x.setPred p (decide (sdiff ((x.reg ra).setWidth 32) ((x.reg rb).setWidth 32) ≤ 0))).next)) ∧
    (∀ (s : State) (ln : LaneId) (c : Ctx) (l : Lane) (e : EngIx) (d : LegDesc) (x : Engine) (k : Fin 8) (p pa pb : Pred) (ra : Reg) (imm : BitVec 16),
      Here s ln c l → Executes c l e d → x = l.eng e.val →
      Executed (.insCmpi ln e k p ra imm) s ln l e ((x.setPred p (condHolds k.val (x.reg ra) (imm.signExtend 40))).next) ∧
      Executed (.insPand ln e p pa pb) s ln l e ((x.setPred p (x.pred pa && x.pred pb)).next) ∧
      Executed (.insPor ln e p pa pb) s ln l e ((x.setPred p (x.pred pa || x.pred pb)).next) ∧
      Executed (.insPxor ln e p pa pb) s ln l e ((x.setPred p (x.pred pa != x.pred pb)).next) ∧
      Executed (.insPnot ln e p pa) s ln l e ((x.setPred p (!x.pred pa)).next)) ∧
    (∀ (s : State) (ln : LaneId) (c : Ctx) (l : Lane) (e : EngIx) (d : LegDesc) (x : Engine) (p : Pred) (rd : Reg) (off : BitVec 21),
      Here s ln c l → Executes c l e d → x = l.eng e.val →
      Executed (.insBr ln e off) s ln l e ({ x with pc := x.pc + off.signExtend 32 * 4 }) ∧
      Executed (.insBp ln e p off) s ln l e (if x.pred p then { x with pc := x.pc + off.signExtend 32 * 4 } else { x with pc := x.pc + 4 }) ∧
      Executed (.insBnp ln e p off) s ln l e (if x.pred p then { x with pc := x.pc + 4 } else { x with pc := x.pc + off.signExtend 32 * 4 }) ∧
      Executed (.insJal ln e rd off) s ln l e ({ x.setReg rd ((x.pc + 4).setWidth 40) with pc := x.pc + off.signExtend 32 * 4 }))

/-- Loads read, and stores change, exactly the bytes they address; an access outside the windows of the leg is a window
trap. (R134, R181, R182, R183) -/
def Obligations.EngineMemoryResults : Prop :=
    (∀ (s : State) (ln : LaneId) (c : Ctx) (l : Lane) (e : EngIx) (d : LegDesc) (rt ra : Reg) (disp : BitVec 12), Here s ln c l →
      Executes c l e d →
      loadOk d (memAddr (l.eng e.val) ra disp 8) 8 = true →
      Gives (.insLd40 ln e rt ra disp) s ln (l.setEng e.val ((l.eng e.val).setReg rt (l.slot (tcmAddr e.val (memAddr (l.eng e.val) ra disp 8)))).next)) ∧
    (∀ (s : State) (ln : LaneId) (c : Ctx) (l : Lane) (e : EngIx) (d : LegDesc) (rt ra : Reg) (disp : BitVec 12), Here s ln c l →
      Executes c l e d →
      loadOk d (memAddr (l.eng e.val) ra disp 4) 4 = true →
      Gives (.insLd32 ln e true rt ra disp) s ln (l.setEng e.val ((l.eng e.val).setReg rt ((l.granule (tcmAddr e.val (memAddr (l.eng e.val) ra disp 4))).setWidth 40)).next)) ∧
    (∀ (s : State) (ln : LaneId) (c : Ctx) (l : Lane) (e : EngIx) (d : LegDesc) (rt ra : Reg) (disp : BitVec 12), Here s ln c l →
      Executes c l e d →
      loadOk d (memAddr (l.eng e.val) ra disp 4) 4 = true →
      Gives (.insLd32 ln e false rt ra disp) s ln (l.setEng e.val ((l.eng e.val).setReg rt ((l.granule (tcmAddr e.val (memAddr (l.eng e.val) ra disp 4))).signExtend 40)).next)) ∧
    (∀ (s : State) (ln : LaneId) (c : Ctx) (l : Lane) (e : EngIx) (d : LegDesc) (rt ra : Reg) (disp : BitVec 12), Here s ln c l →
      Executes c l e d →
      storeOk d (memAddr (l.eng e.val) ra disp 8) 8 = true →
      e.val < l.ea.engines.length →
      Yields (.insSt40 ln e rt ra disp) s ln (fun m => m.slot (tcmAddr e.val (memAddr (l.eng e.val) ra disp 8)) = (l.eng e.val).reg rt ∧ SameBytes l m (tcmAddr e.val (memAddr (l.eng e.val) ra disp 8)) 8 ∧ SameRegs l m [] ∧ m.eng e.val = (l.eng e.val).next)) ∧
    (∀ (s : State) (ln : LaneId) (c : Ctx) (l : Lane) (e : EngIx) (d : LegDesc) (rt ra : Reg) (disp : BitVec 12), Here s ln c l →
      Executes c l e d →
      storeOk d (memAddr (l.eng e.val) ra disp 4) 4 = true →
      e.val < l.ea.engines.length →
      Yields (.insSt32 ln e rt ra disp) s ln (fun m => m.granule (tcmAddr e.val (memAddr (l.eng e.val) ra disp 4)) = ((l.eng e.val).reg rt).setWidth 32 ∧ SameBytes l m (tcmAddr e.val (memAddr (l.eng e.val) ra disp 4)) 4 ∧ SameRegs l m [] ∧ m.eng e.val = (l.eng e.val).next)) ∧
    (∀ (s : State) (ln : LaneId) (c : Ctx) (l : Lane) (e : EngIx) (d : LegDesc) (low : Bool) (rt ra : Reg) (disp : BitVec 12) (k : Nat), Here s ln c l →
      Executes c l e d →
      slotIx (l.eng e.val) ra disp = (k : Int) →
      k < d.snapshot.length →
      Gives (.insPin ln e low rt ra disp) s ln (l.setEng e.val ((l.eng e.val).setReg rt (if low then (l.granule (tcmAddr e.val (0xC000 + 8 * k))).setWidth 40 else l.slot (tcmAddr e.val (0xC000 + 8 * k)))).next)) ∧
    (∀ (s : State) (ln : LaneId) (c : Ctx) (l : Lane) (e : EngIx) (d : LegDesc) (low : Bool) (rt ra : Reg) (disp : BitVec 12) (k : Nat), Here s ln c l →
      Executes c l e d →
      slotIx (l.eng e.val) ra disp = (k : Int) →
      k < d.buffer.length →
      e.val < l.ea.engines.length →
      Yields (.insPout ln e low rt ra disp) s ln (fun m => m.slot (tcmAddr e.val (0xC100 + 8 * k)) = (if low then (((l.eng e.val).reg rt).setWidth 32 : Word).setWidth 40 else (l.eng e.val).reg rt) ∧ SameBytes l m (tcmAddr e.val (0xC100 + 8 * k)) 8 ∧ SameRegs l m [] ∧
        m.eng e.val = (l.eng e.val).next)) ∧
    (∀ (s : State) (ln : LaneId) (c : Ctx) (l : Lane) (e : EngIx) (d : LegDesc) (rt ra : Reg) (disp : BitVec 12), Here s ln c l →
      Executes c l e d →
      storeOk d (memAddr (l.eng e.val) ra disp 8) 8 = false →
      Gives (.insSt40 ln e rt ra disp) s ln (l.windowTrap c e.val)) ∧
    (∀ (s : State) (ln : LaneId) (c : Ctx) (l : Lane) (e : EngIx) (d : LegDesc) (rt ra : Reg) (disp : BitVec 12), Here s ln c l →
      Executes c l e d →
      loadOk d (memAddr (l.eng e.val) ra disp 8) 8 = false →
      Gives (.insLd40 ln e rt ra disp) s ln (l.windowTrap c e.val)) ∧
    (∀ (s : State) (ln : LaneId) (c : Ctx) (l : Lane) (e : EngIx) (d : LegDesc) (zext : Bool) (rt ra : Reg) (disp : BitVec 12), Here s ln c l →
      Executes c l e d →
      loadOk d (memAddr (l.eng e.val) ra disp 4) 4 = false →
      Gives (.insLd32 ln e zext rt ra disp) s ln (l.windowTrap c e.val)) ∧
    (∀ (s : State) (ln : LaneId) (c : Ctx) (l : Lane) (e : EngIx) (d : LegDesc) (rt ra : Reg) (disp : BitVec 12), Here s ln c l →
      Executes c l e d →
      storeOk d (memAddr (l.eng e.val) ra disp 4) 4 = false →
      Gives (.insSt32 ln e rt ra disp) s ln (l.windowTrap c e.val)) ∧
    (∀ (s : State) (ln : LaneId) (c : Ctx) (l : Lane) (e : EngIx) (d : LegDesc) (low : Bool) (rt ra : Reg) (disp : BitVec 12), Here s ln c l →
      Executes c l e d →
      slotIn (slotIx (l.eng e.val) ra disp) d.snapshot.length = false →
      Gives (.insPin ln e low rt ra disp) s ln (l.windowTrap c e.val)) ∧
    (∀ (s : State) (ln : LaneId) (c : Ctx) (l : Lane) (e : EngIx) (d : LegDesc) (low : Bool) (rt ra : Reg) (disp : BitVec 12), Here s ln c l →
      Executes c l e d →
      slotIn (slotIx (l.eng e.val) ra disp) d.buffer.length = false →
      Gives (.insPout ln e low rt ra disp) s ln (l.windowTrap c e.val))

/-- CORDIC operations, the encoding trap and leg control of an engine. (R146, R147, R168, R185, R186, R187, R188, R189,
R190, R191, R192, R195) -/
def Obligations.EngineControlResults : Prop :=
    (∀ (s : State) (ln : LaneId) (c : Ctx) (l : Lane) (e : EngIx) (d : LegDesc) (rd ra rb : Reg), Here s ln c l →
      Executes c l e d →
      pairOk false rd ra = true →
      Gives (.insCrot ln e rd ra rb) s ln (l.issueCordic c e.val (l.eng e.val) ⟨false, (l.eng e.val).reg ra, (l.eng e.val).reg (regAfter ra), ((l.eng e.val).reg rb).setWidth 32, rd, 0⟩)) ∧
    (∀ (s : State) (ln : LaneId) (c : Ctx) (l : Lane) (e : EngIx) (d : LegDesc) (rd ra rb : Reg), Here s ln c l →
      Executes c l e d →
      pairOk true rd ra = true →
      Gives (.insCatan ln e rd ra rb) s ln (l.issueCordic c e.val (l.eng e.val) ⟨true, (l.eng e.val).reg ra, (l.eng e.val).reg rb, 0, rd, 0⟩)) ∧
    (∀ (s : State) (ln : LaneId) (c : Ctx) (l : Lane) (e : EngIx) (op : CordicOp), Here s ln c l →
      (l.eng e.val).cordic = some op →
      op.readyAt ≤ c.now →
      Gives (.cordicResult ln e) s ln (l.setEng e.val ((l.eng e.val).cordicDone op))) ∧
    (∀ (s : State) (ln : LaneId) (c : Ctx) (l : Lane) (e : EngIx) (d : LegDesc) (word : Word), Here s ln c l →
      Executes c l e d →
      decodeEngineWord c.id e word = none →
      Gives (.encodingTrap ln e word) s ln (l.encodingTrap c e.val)) ∧
    (∀ (s : State) (ln : LaneId) (c : Ctx) (l : Lane) (e : EngIx) (d : LegDesc) (r : Run), Here s ln c l →
      Executes c l e d →
      (l.eng e.val).run = some r →
      16 ≤ (l.eng e.val).deque.length →
      Gives (.insYield ln e) s ln (l.setEng e.val (l.eng e.val).next)) ∧
    (∀ (s : State) (ln : LaneId) (c : Ctx) (l : Lane) (e : EngIx) (d : LegDesc) (r : Run), Here s ln c l →
      Executes c l e d →
      (l.eng e.val).run = some r →
      (l.eng e.val).deque.length < 16 →
      Gives (.insYield ln e) s ln (let x := l.eng e.val
        let sv : Saved := ⟨x.w, x.acc0, x.acc1, x.p, x.pc + 4, x.sat, x.spawn, l.bufferBytes e.val d, l.stateBytes e.val d, r.firstAt⟩
        (l.setEng e.val { x with deque := x.deque ++ [⟨r.leg, true, r.ahead, r.second, some sv⟩], maxDepth := max x.maxDepth (x.deque.length + 1) }).freeEngine c e.val)) ∧
    (∀ (s : State) (ln : LaneId) (c : Ctx) (l : Lane) (e : EngIx) (d : LegDesc) (t : BitVec 17) (r : Run), Here s ln c l →
      Executes c l e d →
      (l.eng e.val).run = some r →
      c.now + t.toNat * 10 ≤ l.timeLimit d r →
      Gives (.insHurdle ln e t) s ln (l.setEng e.val (l.eng e.val).next)) ∧
    (∀ (s : State) (ln : LaneId) (c : Ctx) (l : Lane) (e : EngIx) (d : LegDesc) (t : BitVec 17) (r : Run), Here s ln c l →
      Executes c l e d →
      (l.eng e.val).run = some r →
      l.timeLimit d r < c.now + t.toNat * 10 →
      Gives (.insHurdle ln e t) s ln (l.endRun c e.val 2)) ∧
    (∀ (s : State) (ln : LaneId) (c : Ctx) (l : Lane) (e : EngIx) (d : LegDesc) (leg : BitVec 8) (g : LegDesc), Here s ln c l →
      Executes c l e d →
      l.legDesc leg.toNat = some g →
      g.onDemand = true →
      (l.eng e.val).spawn.length < 4 →
      Gives (.insSpawn ln e leg) s ln (l.setEng e.val { l.eng e.val with spawn := (l.eng e.val).spawn ++ [leg.toNat], pc := (l.eng e.val).pc + 4 })) ∧
    (∀ (s : State) (ln : LaneId) (c : Ctx) (l : Lane) (e : EngIx) (d : LegDesc) (rd ra rb : Reg), Here s ln c l →
      Executes c l e d →
      pairOk false rd ra = false →
      Gives (.insCrot ln e rd ra rb) s ln (l.encodingTrap c e.val)) ∧
    (∀ (s : State) (ln : LaneId) (c : Ctx) (l : Lane) (e : EngIx) (d : LegDesc) (rd ra rb : Reg), Here s ln c l →
      Executes c l e d →
      pairOk true rd ra = false →
      Gives (.insCatan ln e rd ra rb) s ln (l.encodingTrap c e.val)) ∧
    (∀ (s : State) (ln : LaneId) (c : Ctx) (l : Lane) (e : EngIx) (d : LegDesc) (leg : BitVec 8), Here s ln c l →
      Executes c l e d →
      (l.legDesc leg.toNat).any (fun g => g.onDemand) = false ∨ 4 ≤ (l.eng e.val).spawn.length →
      Gives (.insSpawn ln e leg) s ln (l.windowTrap c e.val)) ∧
    (∀ (s : State) (ln : LaneId) (c : Ctx) (l : Lane) (e : EngIx) (d : LegDesc), Here s ln c l →
      Executes c l e d →
      Gives (.insDigest ln e) s ln (l.setEng e.val ((l.eng e.val).writeDigest (l.eng e.val).pc).next)) ∧
    (∀ (s : State) (ln : LaneId) (c : Ctx) (l : Lane) (e : EngIx) (d : LegDesc), Here s ln c l →
      Executes c l e d →
      Gives (.insCommit ln e) s ln (l.commitRun c e.val)) ∧
    (∀ (s : State) (ln : LaneId) (c : Ctx) (l : Lane) (e : EngIx) (d : LegDesc), Here s ln c l →
      Executes c l e d →
      Gives (.insSquash ln e) s ln (l.endRun c e.val 1))

/-- What the events of the scheduler do. (R52, R136, R138, R142, R415, R145, R149, R156, R160, R164, R166, R209) -/
def Obligations.SchedulerCommandsComplete : Prop :=
    (∀ (s : State) (ln : LaneId) (c : Ctx) (l : Lane), Here s ln c l →
      l.ea.started = true →
      l.boundaryDue = true →
      l.halfHeat c = true →
      Tells (.heatBoundary ln) s ln (((l.retryReady c s.recovered).nextCount c).boundary c)) ∧
    (∀ (s : State) (ln : LaneId) (c : Ctx) (l : Lane), Here s ln c l →
      l.ea.started = false ∨ l.boundaryDue = false ∨ l.halfHeat c = false →
      Gives (.heatBoundary ln) s ln (l)) ∧
    (∀ (s : State) (ln : LaneId) (c : Ctx) (l : Lane) (e : EngIx) (n : Entry) (q : List Entry), Here s ln c l →
      l.engFree c e.val = true →
      takeBottom (l.eng e.val).deque = some (n, q) →
      Gives (.legStart ln e) s ln ((l.setEng e.val { l.eng e.val with deque := q }).startEntry c e.val n)) ∧
    (∀ (s : State) (ln : LaneId) (c : Ctx) (l : Lane) (e : EngIx), Here s ln c l →
      l.engFree c e.val = true →
      (l.eng e.val).deque = [] →
      Gives (.legStart ln e) s ln (l.sweep c e.val)) ∧
    (∀ (s : State) (ln : LaneId) (c : Ctx) (l : Lane) (e : EngIx), Here s ln c l →
      (l.eng e.val).deque ≠ [] →
      takeBottom (l.eng e.val).deque = none →
      Gives (.legStart ln e) s ln (l)) ∧
    (∀ (s : State) (ln : LaneId) (c : Ctx) (l : Lane) (e : EngIx), Here s ln c l →
      l.engFree c e.val = false →
      Gives (.legStart ln e) s ln (l)) ∧
    (∀ (s : State) (ln : LaneId) (c : Ctx) (l : Lane) (e : EngIx), Here s ln c l →
      l.engFree c e.val = true →
      (l.eng e.val).deque = [] →
      l.stealFrom c e.val (sweepOrder c.part.member e.val) = none →
      Gives (.stealSweep ln e) s ln (l.setEng e.val { (l.eng e.val).clear.writeDigest 0 with gated := true })) ∧
    (∀ (s : State) (ln : LaneId) (c : Ctx) (l : Lane) (e : EngIx) (v : Nat) (n : Entry) (q : List Entry), Here s ln c l →
      l.engFree c e.val = true →
      (l.eng e.val).deque = [] →
      l.stealFrom c e.val (sweepOrder c.part.member e.val) = some (v, n, q) →
      v / 4 = e.val / 4 →
      Gives (.stealSweep ln e) s ln (let l1 := l.setEng v { l.eng v with deque := q }
        { l1 with ea := { l1.ea with localSteals := l1.ea.localSteals + 1 } }.startEntry c e.val n)) ∧
    (∀ (s : State) (ln : LaneId) (c : Ctx) (l : Lane) (e : EngIx), Here s ln c l →
      l.engFit c e.val = true →
      (l.eng e.val).gated = true →
      (l.eng e.val).deque ≠ [] →
      Gives (.engineWake ln e .push) s ln (l.setEng e.val { l.eng e.val with gated := false })) ∧
    (∀ (s : State) (ln : LaneId) (c : Ctx) (l : Lane) (e : EngIx) (k : WakeCause), Here s ln c l →
      l.engFit c e.val = false ∨ (l.eng e.val).gated = false ∨ k = .injection →
      Gives (.engineWake ln e k) s ln (l)) ∧
    (∀ (s : State) (ln : LaneId) (c : Ctx) (l : Lane) (h : Fin 8), Here s ln c l →
      l.ea.started = true →
      (l.rd (R.EA_HURDLE h.val)).toNat ≠ 0 →
      Gives (.hurdleReached ln h) s ln ((l.atHurdleAll c h.val l.image.legs).takeEffect c atOnce)) ∧
    (∀ (s : State) (ln : LaneId) (c : Ctx) (l : Lane) (h : Fin 8), Here s ln c l →
      (l.rd (R.EA_HURDLE h.val)).toNat = 0 →
      Gives (.hurdleReached ln h) s ln (l)) ∧
    (∀ (s : State) (ln : LaneId) (c : Ctx) (l : Lane) (h : Fin 8), Here s ln c l →
      l.ea.staged.filter (fun x => decide (x.hurdle = h.val)) = [] →
      (∀ p ∈ l.ea.legs, p.2.window ≠ some h.val) →
      Gives (.commitTakesEffect ln h) s ln (l)) ∧
    (∀ (s : State) (ln : LaneId) (c : Ctx) (l : Lane) (h : Fin 8) (ch : Nat) (v : W40), Here s ln c l →
      l.ea.staged = [⟨h.val, .torque ch, v⟩] →
      (∀ p ∈ l.ea.legs, p.2.window ≠ some h.val) →
      ch < motorCount c.part.member →
      Gives (.commitTakesEffect ln h) s ln ({ l with ea := { l.ea with staged := [] } }.putQ (R.MC_TORQUE ch) (qv v))) ∧
    (∀ (s : State) (ln : LaneId) (c : Ctx) (l : Lane) (h : Fin 8) (a : Nat) (v : W40), Here s ln c l →
      l.ea.staged = [⟨h.val, .sram a, v⟩] →
      (∀ p ∈ l.ea.legs, p.2.window ≠ some h.val) →
      Gives (.commitTakesEffect ln h) s ln ({ l with ea := { l.ea with staged := [] } }.setSlot a v)) ∧
    (∀ (s : State) (ln : LaneId) (c : Ctx) (l : Lane) (k : Nat) (d : LegDesc) (x : Done), Here s ln c l →
      l.bk.waiting = [] →
      l.image.legs = [(k, d)] →
      d.runAhead = true →
      (l.leg k).due = true →
      (l.leg k).squashed = false →
      l.ea.done.find? (fun y => decide (y.leg = k) && y.ahead) = some x →
      Gives (.earlyCommit ln) s ln (let l1 := (l.commitLeg 8 (l.corrected d x) 2).inc R.EA_RA_COMMIT_count
        let l2 := { l1 with ea := { l1.ea with done := l1.ea.done.filter (fun y => decide (y ≠ x)) } }
        ((l2.pushSpawns c x.engine x.spawn).takeEffect c atOnce).takeEffect c 8)) ∧
    (∀ (s : State) (ln : LaneId) (c : Ctx) (l : Lane), Here s ln c l →
      l.bk.waiting = [] →
      (∀ p ∈ l.image.legs, p.2.runAhead = true → (l.leg p.1).due = false) →
      l.ea.staged = [] →
      (∀ p ∈ l.ea.legs, p.2.window = none) →
      Gives (.earlyCommit ln) s ln (l)) ∧
    (∀ (s : State) (ln : LaneId) (c : Ctx) (l : Lane) (g : BitVec 8), Here s ln c l →
      (l.leg g.toNat).due = true ∨ (l.leg g.toNat).window ≠ none →
      Gives (.raLegReady ln g) s ln (l)) ∧
    (∀ (s : State) (ln : LaneId) (c : Ctx) (l : Lane) (g : BitVec 8), Here s ln c l →
      (l.leg g.toNat).due = false →
      (l.leg g.toNat).window = none →
      Gives (.raLegReady ln g) s ln ({ l with ea := { l.ea with engines := l.ea.engines.map (fun x => { x with deque := x.deque.map (fun n => if n.leg = g.toNat ∧ n.ahead then { n with ready := true } else n) }) } })) ∧
    (∀ (s : State) (ln : LaneId) (c : Ctx) (l : Lane) (a v : Word), Here s ln c l →
      a.toNat < 0x10000 * engineCount c.part.member →
      a.toNat % 4 = 0 →
      l.engFit c (a.toNat / 0x10000) = true →
      l.ea.started = false →
      l.st.schedAt = none →
      Yields (.tcmWrite ln a v) s ln (fun m => m.granule a.toNat = v ∧ SameBytes l m a.toNat 4 ∧ SameRegs l m [] ∧ m.bus = .done)) ∧
    (∀ (s : State) (ln : LaneId) (c : Ctx) (l : Lane) (a v : Word), Here s ln c l →
      l.ea.started = true ∨ l.st.schedAt ≠ none ∨ l.engFit c (a.toNat / 0x10000) = false ∨ a.toNat % 4 ≠ 0 ∨ 0x10000 * engineCount c.part.member ≤ a.toNat →
      Gives (.tcmWrite ln a v) s ln ({ l with bus := .error })) ∧
    (∀ (s : State) (ln : LaneId) (c : Ctx) (l : Lane), Here s ln c l →
      l.periodDue c = true →
      (∀ ch, ch < motorCount c.part.member → (l.mc ch).gateFrom = none) →
      l.baton.pass = none →
      Gives (.pwmPeriodBoundary ln) s ln ({ l with ea := { l.ea with perStamp := some l.periodStamp, perFrom := c.now, perLen := 0 } })) ∧
    (∀ (s : State) (ln : LaneId) (c : Ctx) (l : Lane), Here s ln c l →
      l.ea.started = true →
      l.ea.perStamp = some l.periodStamp →
      Gives (.pwmPeriodBoundary ln) s ln (l)) ∧
    (∀ (s : State) (ln : LaneId) (c : Ctx) (l : Lane) (t : Nat), Here s ln c l →
      l.periodDue c = true →
      motorCount c.part.member = 1 →
      (l.mc 0).gateFrom = some t →
      t ≤ c.now →
      l.mcState 0 = mcRun →
      l.wantsCut 0 = false →
      l.baton.pass = none →
      l.baton.gateOffAt = none →
      Yields (.pwmPeriodBoundary ln) s ln (fun m => m.bit (R.PS_STATUS_switching 0) = true ∧ (m.mc 0).cmp = (l.mc 0).cmpNext ∧ (m.mc 0).gateFrom = none ∧ SameRegs l m [R.PS_STATUS 0] ∧ SameMem l m))

/-- A leg is loaded, committed and taken at its hurdle whole, and a miss keeps its last commit. (R135, R145, R146, R148,
R149, R168, R169, R170, R191) -/
def Obligations.LegRunFromStartToHurdle : Prop :=
    (∀ (s : State) (ln : LaneId) (c : Ctx) (l : Lane) (e : EngIx) (n : Entry) (q : List Entry) (d : LegDesc), Here s ln c l →
      l.engFree c e.val = true →
      e.val < l.ea.engines.length →
      takeBottom (l.eng e.val).deque = some (n, q) →
      l.legDesc n.leg = some d →
      n.saved = none →
      n.ahead = false →
      (l.leg n.leg).snap.length = d.snapshot.length →
      d.snapshot.length ≤ 32 →
      d.buffer.length ≤ 32 →
      Yields (.legStart ln e) s ln (fun m => (∀ i, i < d.snapshot.length → m.slot (tcmAddr e.val (0xC000 + 8 * i)) = (((l.leg n.leg).snap)[i]?).getD 0) ∧
        m.bytes (tcmAddr e.val 0xC100) (8 * d.buffer.length) = l.bytes d.bufferAt (8 * d.buffer.length) ∧
        m.bytes (tcmAddr e.val 0xC200) (8 * d.stateSlots) = l.committedState e.val n.leg d ∧
        (m.eng e.val).run = some ⟨n.leg, false, n.second, c.now, c.now⟩ ∧ (m.eng e.val).pc = d.entry ∧ (∀ r, (m.eng e.val).reg r = 0) ∧
        (m.eng e.val).acc0 = 0 ∧ (m.eng e.val).acc1 = 0 ∧ (m.eng e.val).p = 0 ∧ (m.eng e.val).sat = 0 ∧ (m.eng e.val).deque = q ∧ SameRegs l m [])) ∧
    (∀ (s : State) (ln : LaneId) (c : Ctx) (l : Lane) (e : EngIx) (d : LegDesc) (r : Run), Here s ln c l →
      Executes c l e d →
      (l.eng e.val).run = some r →
      r.ahead = false →
      (l.eng e.val).spawn = [] →
      e.val < l.ea.engines.length →
      Yields (.insCommit ln e) s ln (fun m => (⟨r.leg, e.val, false, r.second, l.bufferBytes e.val d, l.stateBytes e.val d, (l.eng e.val).sat, []⟩ : Done) ∈ m.ea.done ∧ (m.eng e.val).run = none ∧ (∀ q, (m.eng e.val).reg q = 0) ∧
        m.ea.staged = l.ea.staged ∧ SameRegs l m [] ∧ SameMem l m)) ∧
    (∀ (s : State) (ln : LaneId) (c : Ctx) (l : Lane) (h : Fin 8) (k : Nat) (d : LegDesc) (x : Done), Here s ln c l →
      l.ea.started = true →
      (l.rd (R.EA_HURDLE h.val)).toNat ≠ 0 →
      l.image.legs = [(k, d)] →
      d.hurdle = h.val →
      (l.leg k).due = true →
      (l.leg k).squashed = false →
      l.ea.done = [x] →
      x.leg = k →
      x.ahead = false →
      l.ea.staged.all (fun y => decide (y.hurdle ≠ atOnce)) = true →
      d.buffer.all Route.isStage = true →
      blockState ((l.leg k).home / 4) d + x.state.length ≤ d.stateAt →
      d.stateAt + x.state.length ≤ d.bufferAt →
      d.bufferAt + x.buffer.length ≤ d.statusAt →
      Yields (.hurdleReached ln h) s ln (fun m => m.bytes d.stateAt x.state.length = x.state ∧ m.bytes (blockState ((l.leg k).home / 4) d) x.state.length = x.state ∧ m.bytes d.bufferAt x.buffer.length = x.buffer ∧
        m.granule d.statusAt = BitVec.ofNat 32 (min ((l.leg k).satTotal + x.sat) 0xFFFFFFFF) ∧ m.ea.staged = l.ea.staged ++ stageWords h.val x.buffer 0 d.buffer ∧
        m.ea.done = [] ∧ (m.leg k).consecutive = 0 ∧ (m.leg k).lastEnd = 1 ∧ (m.leg k).due = false ∧ SameRegs l m [] ∧
        (∀ a, (a < blockState ((l.leg k).home / 4) d ∨ blockState ((l.leg k).home / 4) d + x.state.length ≤ a) ∧ (a < d.stateAt ∨ d.stateAt + x.state.length ≤ a) ∧ (a < d.bufferAt ∨ d.bufferAt + x.buffer.length ≤ a) ∧ (a < d.statusAt ∨ d.statusAt + 4 ≤ a) → m.byte a = l.byte a))) ∧
    (∀ (s : State) (ln : LaneId) (c : Ctx) (l : Lane) (h : Fin 8), Here s ln c l →
      l.ea.started = true →
      (l.rd (R.EA_HURDLE h.val)).toNat ≠ 0 →
      l.ea.staged.all (fun y => decide (y.hurdle ≠ atOnce)) = true →
      (∀ p ∈ l.image.legs, p.2.hurdle = h.val → (l.leg p.1).consecutive ≠ 2 ∧ ∀ x ∈ l.ea.done, x.leg = p.1 → x.ahead = true) →
      Yields (.hurdleReached ln h) s ln (fun m => SameMem l m ∧ m.ea.staged = l.ea.staged ∧ m.ea.done = l.ea.done ∧
        (∀ p ∈ l.image.legs, p.2.hurdle = h.val → (l.leg p.1).due = true → (m.leg p.1).lastEnd = 4 ∧ (m.leg p.1).due = false ∧ (m.leg p.1).consecutive = min ((l.leg p.1).consecutive + 1) 3)))

/-- What the events of a motor channel and its power stage do. (R203, R214, R219, R220, R222, R223, R224, R227, R243,
R244, R252, R258) -/
def Obligations.MotorAndStageCommandsComplete : Prop :=
    (∀ (s : State) (ln : LaneId) (c : Ctx) (l : Lane) (ch : Fin 2) (s0 : PwmSample), Here s ln c l →
      ch.val < motorCount c.part.member →
      l.mcState ch.val = mcPulse ∨ l.mcState ch.val = mcFault →
      l.bit (R.MC_STATUS_inj_active ch.val) = false →
      l.baton.pass = none →
      Yields (.currentSample ln ch s0) s ln (fun m => m.pair (R.PS_VDC ch.val) = s0.vdc ∧ m.rd (R.MC_ANGLE ch.val) = l.rd (R.MC_ANGLE ch.val) ∧ m.pair (R.MC_SPEED ch.val) = l.pair (R.MC_SPEED ch.val) ∧
        m.pair (R.MC_FLUX ch.val) = l.pair (R.MC_FLUX ch.val) ∧ m.pair (R.MC_RESID ch.val) = l.pair (R.MC_RESID ch.val) ∧ SameMem l m ∧
        (let i := clarke (l.phaseAmps ch.val 0 s0.sa) (l.phaseAmps ch.val 1 s0.sb) (l.phaseAmps ch.val 2 s0.sc)
         let r := rotate i.1 i.2 (-(l.mc ch.val).thPred)
         m.pair (R.MC_ID ch.val) = qw r.1 ∧ m.pair (R.MC_IQ ch.val) = qw r.2))) ∧
    (∀ (s : State) (ln : LaneId) (c : Ctx) (l : Lane) (ch : Fin 2) (s0 : PwmSample), Here s ln c l →
      ch.val < motorCount c.part.member →
      l.mcState ch.val = mcOff ∨ l.mcState ch.val = mcCatch ∨ l.mcState ch.val = mcAsc →
      l.bit (R.MC_STATUS_inj_active ch.val) = false →
      l.baton.pass = none →
      Yields (.currentSample ln ch s0) s ln (fun m => m.pair (R.PS_VDC ch.val) = s0.vdc ∧ (m.mc ch.val).odd = !(l.mc ch.val).odd ∧ SameMem l m ∧
        (let i := clarke (l.phaseAmps ch.val 0 s0.sa) (l.phaseAmps ch.val 1 s0.sb) (l.phaseAmps ch.val 2 s0.sc)
         let r := rotate i.1 i.2 (-(l.mc ch.val).thPred)
         m.pair (R.MC_ID ch.val) = qw r.1 ∧ m.pair (R.MC_IQ ch.val) = qw r.2))) ∧
    (∀ (s : State) (ln : LaneId) (c : Ctx) (l : Lane) (ch : Fin 2) (s0 : PwmSample), Here s ln c l →
      ch.val < motorCount c.part.member →
      l.mcState ch.val = mcRun →
      Gives (.currentSample ln ch s0) s ln (l.sample c ch.val (s.setsShorted ln ch) s0)) ∧
    (∀ (s : State) (ln : LaneId) (c : Ctx) (l : Lane) (ch : Fin 2), Here s ln c l →
      ch.val < motorCount c.part.member →
      l.mayEnable c = true →
      l.bit (R.MC_STATUS_enabled ch.val) = false →
      l.mcState ch.val = mcOff →
      l.bit (R.MC_STATUS_locked ch.val) = false →
      Yields (.channelEnable ln ch true) s ln (fun m => m.mcState ch.val = mcCatch ∧ m.bit (R.MC_STATUS_enabled ch.val) = true ∧ (m.mc ch.val).catchFrom = (l.mc ch.val).catchFrom ∧ m.bit (R.PS_STATUS_switching ch.val) = false ∧ SameRegs l m [R.MC_STATUS ch.val, R.MC_FLAGS ch.val, R.PS_STATUS ch.val] ∧ SameMem l m)) ∧
    (∀ (s : State) (ln : LaneId) (c : Ctx) (l : Lane) (ch : Fin 2), Here s ln c l →
      ch.val < motorCount c.part.member →
      l.mayEnable c = true →
      l.bit (R.MC_STATUS_enabled ch.val) = false →
      l.mcState ch.val = mcOff →
      Gives (.channelEnable ln ch true) s ln (let l1 := l.put (R.MC_STATUS_enabled ch.val) 1
        if l1.lockLong c ch.val then l1.toRun c ch.val else l1.toCatch c ch.val)) ∧
    (∀ (s : State) (ln : LaneId) (c : Ctx) (l : Lane) (ch : Fin 2) (on : Bool), Here s ln c l →
      ch.val < motorCount c.part.member →
      on = true ∧ (l.mayEnable c = false ∨ l.bit (R.MC_STATUS_enabled ch.val) = true) ∨ on = false ∧ l.mayEnable c = true →
      Gives (.channelEnable ln ch on) s ln (l)) ∧
    (∀ (s : State) (ln : LaneId) (c : Ctx) (l : Lane) (ch : Fin 2), Here s ln c l →
      ch.val < motorCount c.part.member →
      l.mayEnable c = false →
      l.mcState ch.val = mcRun →
      l.bit (R.PS_STATUS_asc ch.val) = false →
      Yields (.channelEnable ln ch false) s ln (fun m => m.mcState ch.val = mcOff ∧ m.bit (R.MC_STATUS_enabled ch.val) = false ∧ m.bit (R.PS_STATUS_switching ch.val) = false ∧ m.bit (R.PS_STATUS_logic_disable ch.val) = true ∧ SameRegs l m [R.MC_STATUS ch.val, R.MC_FLAGS ch.val, R.PS_STATUS ch.val] ∧ SameMem l m)) ∧
    (∀ (s : State) (ln : LaneId) (c : Ctx) (l : Lane) (ch : Fin 2) (t : Nat), Here s ln c l →
      ch.val < motorCount c.part.member →
      (l.mc ch.val).catchFrom = some t →
      t + l.catchWindow ch.val ≤ c.now →
      l.mcState ch.val = mcCatch →
      l.bit (R.MC_STATUS_locked ch.val) = true →
      Yields (.catchWindowExpiry ln ch) s ln (fun m => m.mcState ch.val = mcRun ∧ (m.mc ch.val).gateFrom = some (c.now + 1000) ∧ m.bit (R.PS_STATUS_switching ch.val) = false ∧ SameRegs l m [R.MC_STATUS ch.val, R.MC_FLAGS ch.val, R.PS_STATUS ch.val] ∧ SameMem l m)) ∧
    (∀ (s : State) (ln : LaneId) (c : Ctx) (l : Lane) (ch : Fin 2) (t : Nat), Here s ln c l →
      ch.val < motorCount c.part.member →
      (l.mc ch.val).catchFrom = some t →
      t + l.catchWindow ch.val ≤ c.now →
      l.mcState ch.val = mcCatch →
      l.bit (R.MC_STATUS_locked ch.val) = false →
      l.isStill ch.val = true →
      Yields (.catchWindowExpiry ln ch) s ln (fun m => m.mcState ch.val = mcPulse ∧ (m.mc ch.val).tests = 0 ∧ (m.mc ch.val).pulseFrom = c.now ∧ SameRegs l m [R.MC_STATUS ch.val, R.MC_FLAGS ch.val, R.PS_STATUS ch.val] ∧ SameMem l m)) ∧
    (∀ (s : State) (ln : LaneId) (c : Ctx) (l : Lane) (ch : Fin 2) (t : Nat), Here s ln c l →
      ch.val < motorCount c.part.member →
      (l.mc ch.val).catchFrom = some t →
      t + l.catchWindow ch.val ≤ c.now →
      l.mcState ch.val = mcCatch →
      l.bit (R.MC_STATUS_locked ch.val) = false →
      l.isStill ch.val = false →
      Gives (.catchWindowExpiry ln ch) s ln ((l.flag (R.MC_FLAGS_catch_ext ch.val)).startWindow c ch.val)) ∧
    (∀ (s : State) (ln : LaneId) (c : Ctx) (l : Lane) (ch : Fin 2), Here s ln c l →
      ch.val < motorCount c.part.member →
      (l.mc ch.val).catchFrom = none →
      Gives (.catchWindowExpiry ln ch) s ln (l)) ∧
    (∀ (s : State) (ln : LaneId) (c : Ctx) (l : Lane) (ch : Fin 2) (t : Nat), Here s ln c l →
      ch.val < motorCount c.part.member →
      (l.mc ch.val).catchFrom = some t →
      c.now < t + l.catchWindow ch.val ∨ l.mcState ch.val ≠ mcCatch →
      Gives (.catchWindowExpiry ln ch) s ln (l)) ∧
    (∀ (s : State) (ln : LaneId) (c : Ctx) (l : Lane) (ch : Fin 2) (is : List W40) (g : W40) (sx sy tot : Int), Here s ln c l →
      ch.val < motorCount c.part.member →
      l.mcState ch.val = mcPulse →
      |qr (qv g)| ≤ l.stillSpeed ch.val →
      l.pulsesOver c ch.val is = true →
      l.bit (R.MC_STATUS_enabled ch.val) = false →
      pulseSums (fun k => qv ((is[k]?).getD 0)) = (sx, sy) →
      is.foldl (fun a w => a + qv w) 0 = tot →
      tot ≠ 0 →
      mkRat 4 10000 ≤ asymSq sx sy tot →
      Yields (.pulseTestDone ln ch is g) s ln (fun m => m.rd (R.MC_ANGLE ch.val) = (catan (rq (qr sx / 2)) (rq3 0 (qr sy / 2))).2 ∧ m.rd (R.MC_PULSE_ANGLE ch.val) = m.rd (R.MC_ANGLE ch.val) ∧ m.bit (R.MC_STATUS_locked ch.val) = true ∧
        m.get (R.MC_STATUS_lock_src ch.val) = 4 ∧ (m.mc ch.val).tests = (l.mc ch.val).tests + 1 ∧ m.mcState ch.val = mcOff ∧
        SameRegs l m [R.MC_STATUS ch.val, R.MC_FLAGS ch.val, R.MC_PULSE_STAT ch.val, R.MC_PULSE_ANGLE ch.val, R.MC_ANGLE ch.val, R.PS_STATUS ch.val] ∧ SameMem l m)) ∧
    (∀ (s : State) (ln : LaneId) (c : Ctx) (l : Lane) (ch : Fin 2) (is : List W40) (g : W40), Here s ln c l →
      ch.val < motorCount c.part.member →
      l.mcState ch.val = mcPulse →
      l.stillSpeed ch.val < |qr (qv g)| →
      Gives (.pulseTestDone ln ch is g) s ln (if l.bit (R.MC_STATUS_enabled ch.val) then (l.flag (R.MC_FLAGS_pulse_abort ch.val)).toCatch c ch.val else ((l.flag (R.MC_FLAGS_pulse_abort ch.val)).mcSet ch.val mcOff).sto c ch.val)) ∧
    (∀ (s : State) (ln : LaneId) (c : Ctx) (l : Lane) (ch : Fin 2) (is : List W40) (g : W40) (sx sy tot : Int) (milli : Nat), Here s ln c l →
      ch.val < motorCount c.part.member →
      l.mcState ch.val = mcPulse →
      |qr (qv g)| ≤ l.stillSpeed ch.val →
      l.pulsesOver c ch.val is = true →
      pulseSums (fun k => qv ((is[k]?).getD 0)) = (sx, sy) →
      is.foldl (fun a w => a + qv w) 0 = tot →
      asymSq sx sy tot < mkRat 4 10000 ∨ tot = 0 →
      milli = min (isqrtNear (nearest (asymSq sx sy tot * 1000000)).toNat) 65535 →
      (l.mc ch.val).tests = 0 →
      Gives (.pulseTestDone ln ch is g) s ln ((((l.put (R.MC_PULSE_STAT_asym ch.val) milli).put (R.MC_PULSE_STAT_attempts ch.val) 1).startAttempt c ch.val 1).flag (R.MC_FLAGS_pulse_retry ch.val))) ∧
    (∀ (s : State) (ln : LaneId) (c : Ctx) (l : Lane) (ch : Fin 2) (is : List W40) (g : W40) (sx sy tot : Int) (milli : Nat), Here s ln c l →
      ch.val < motorCount c.part.member →
      l.mcState ch.val = mcPulse →
      |qr (qv g)| ≤ l.stillSpeed ch.val →
      l.pulsesOver c ch.val is = true →
      pulseSums (fun k => qv ((is[k]?).getD 0)) = (sx, sy) →
      is.foldl (fun a w => a + qv w) 0 = tot →
      asymSq sx sy tot < mkRat 4 10000 ∨ tot = 0 →
      milli = min (isqrtNear (nearest (asymSq sx sy tot * 1000000)).toNat) 65535 →
      (l.mc ch.val).tests = 1 →
      Gives (.pulseTestDone ln ch is g) s ln ((((l.put (R.MC_PULSE_STAT_asym ch.val) milli).put (R.MC_PULSE_STAT_attempts ch.val) 2).startAttempt c ch.val 2).channelFault c ch.val)) ∧
    (∀ (s : State) (ln : LaneId) (c : Ctx) (l : Lane) (ch : Fin 2) (is : List W40) (g : W40), Here s ln c l →
      ch.val < motorCount c.part.member →
      l.mcState ch.val ≠ mcPulse ∨ |qr (qv g)| ≤ l.stillSpeed ch.val ∧ l.pulsesOver c ch.val is = false →
      Gives (.pulseTestDone ln ch is g) s ln (l)) ∧
    (∀ (s : State) (ln : LaneId) (c : Ctx) (l : Lane) (ch : Fin 2) (t : Nat), Here s ln c l →
      ch.val < motorCount c.part.member →
      (l.mc ch.val).losAt = some t →
      (l.mc ch.val).losOpen = true →
      t + 20000000 ≤ c.now →
      l.mcState ch.val = mcCatch ∨ l.mcState ch.val = mcPulse →
      Gives (.relockTimeout ln ch) s ln (l.channelFault c ch.val)) ∧
    (∀ (s : State) (ln : LaneId) (c : Ctx) (l : Lane) (ch : Fin 2), Here s ln c l →
      ch.val < motorCount c.part.member →
      (l.mc ch.val).losOpen = false →
      Gives (.relockTimeout ln ch) s ln (l)) ∧
    (∀ (s : State) (ln : LaneId) (c : Ctx) (l : Lane) (ch : Fin 2) (v : Word), Here s ln c l →
      ch.val < motorCount c.part.member →
      16 ≤ v.toNat % 256 →
      v.toNat % 256 ≤ v.toNat / 256 % 256 →
      Gives (.obsEnvWrite ln ch v) s ln ({ l.wr (R.MC_OBS_ENV ch.val) (v &&& 0xFFFF) with bus := .done })) ∧
    (∀ (s : State) (ln : LaneId) (c : Ctx) (l : Lane) (ch : Fin 2) (v : Word), Here s ln c l →
      ch.val < motorCount c.part.member →
      v.toNat % 256 < 16 ∨ v.toNat / 256 % 256 < v.toNat % 256 →
      Gives (.obsEnvWrite ln ch v) s ln ({ l with bus := .done })) ∧
    (∀ (s : State) (ln : LaneId) (c : Ctx) (l : Lane) (ch : Fin 2) (v : Word), Here s ln c l →
      motorCount c.part.member ≤ ch.val →
      Gives (.obsEnvWrite ln ch v) s ln ({ l with bus := .error })) ∧
    (∀ (s : State) (ln : LaneId) (c : Ctx) (l : Lane) (ch : Fin 2) (on : Bool), Here s ln c l →
      motorCount c.part.member ≤ ch.val →
      Gives (.channelEnable ln ch on) s ln (l)) ∧
    (∀ (s : State) (ln : LaneId) (c : Ctx) (l : Lane) (ch : Fin 2) (k : Fin 10) (w : BitVec 3) (st : Bool), Here s ln c l →
      ch.val < motorCount c.part.member →
      l.bridgeCan c ch.val k.val w.toNat = false →
      Gives (.bridgeFault ln ch k w st) s ln (l)) ∧
    (∀ (s : State) (ln : LaneId) (c : Ctx) (l : Lane) (ch : Fin 2) (k : Fin 10) (w : BitVec 3) (st : Bool), Here s ln c l →
      ch.val < motorCount c.part.member →
      l.bridgeCan c ch.val k.val w.toNat = true →
      k.val = 2 ∨ k.val = 4 ∨ k.val = 5 ∨ k.val = 7 →
      l.role = roleUnfit →
      Yields (.bridgeFault ln ch k w st) s ln (fun m => m.rd (R.PS_FAULT ch.val) = BitVec.ofNat 32 (2 ^ 31 + k.val * 16 + w.toNat) ∧ m.rd (R.PS_FAULT_TIME ch.val) = l.stamp ∧ m.mcState ch.val = mcFault ∧ m.bit (R.PS_STATUS_fault ch.val) = true ∧
        m.bit (R.PS_STATUS_supply_cut ch.val) = true ∧ m.bit (R.PS_STATUS_logic_disable ch.val) = true ∧ m.bit (R.PS_STATUS_switching ch.val) = false ∧ m.bit (R.PS_STATUS_asc ch.val) = false ∧ m.bit (R.PS_FLAGS_bridge_fault ch.val) = true ∧
        SameRegs l m [R.PS_FAULT ch.val, R.PS_FAULT_TIME ch.val, R.PS_STATUS ch.val, R.PS_FLAGS ch.val, R.MC_STATUS ch.val, R.MC_FLAGS ch.val] ∧ SameMem l m)) ∧
    (∀ (s : State) (ln : LaneId) (c : Ctx) (l : Lane) (ch : Fin 2) (k : Fin 10) (w : BitVec 3) (st : Bool), Here s ln c l →
      ch.val < motorCount c.part.member →
      l.bridgeCan c ch.val k.val w.toNat = true →
      Gives (.bridgeFault ln ch k w st) s ln (l.bridge c ch.val k.val w.toNat st)) ∧
    (∀ (s : State) (ln : LaneId) (c : Ctx) (l : Lane) (ch : Fin 2), Here s ln c l →
      ch.val < motorCount c.part.member →
      Gives (.stoTestPulse ln ch .cut true) s ln ((l.setMc ch.val { l.mc ch.val with badCut := 0 }).put (R.PS_STO_cut_ok ch.val) 1)) ∧
    (∀ (s : State) (ln : LaneId) (c : Ctx) (l : Lane) (ch : Fin 2), Here s ln c l →
      ch.val < motorCount c.part.member →
      Gives (.stoTestPulse ln ch .logic true) s ln ((l.setMc ch.val { l.mc ch.val with badLogic := 0 }).put (R.PS_STO_logic_ok ch.val) 1)) ∧
    (∀ (s : State) (ln : LaneId) (c : Ctx) (l : Lane) (ch : Fin 2), Here s ln c l →
      ch.val < motorCount c.part.member →
      (l.mc ch.val).badCut = 0 →
      (l.mc ch.val).badLogic < 2 →
      Gives (.stoTestPulse ln ch .cut false) s ln ((((l.setMc ch.val { l.mc ch.val with badCut := 1 }).put (R.PS_STO_cut_ok ch.val) 0).flag (R.PS_FLAGS_sto_test_fail ch.val)).inc (R.PS_STO_fail_count ch.val))) ∧
    (∀ (s : State) (ln : LaneId) (c : Ctx) (l : Lane) (ch : Fin 2), Here s ln c l →
      ch.val < motorCount c.part.member →
      (l.mc ch.val).badLogic = 1 →
      Gives (.stoTestPulse ln ch .logic false) s ln (((((l.setMc ch.val { l.mc ch.val with badLogic := 2 }).put (R.PS_STO_logic_ok ch.val) 0).flag (R.PS_FLAGS_sto_test_fail ch.val)).inc (R.PS_STO_fail_count ch.val)).bridge c ch.val 6 7 false)) ∧
    (∀ (s : State) (ln : LaneId) (c : Ctx) (l : Lane) (ch : Fin 2) (v : Word), Here s ln c l →
      ch.val < motorCount c.part.member →
      v.getLsbD 1 = false →
      l.bit (R.PS_CTRL_asc_test ch.val) = true →
      l.bit (R.PS_STATUS_asc ch.val) = true →
      l.mcState ch.val = mcAsc →
      (l.put (R.PS_CTRL_asc_test ch.val) 0).ascOtherwise ch.val = false →
      Gives (.ascTestWrite ln ch v) s ln ({ ((((l.put (R.PS_CTRL_asc_test ch.val) 0).put (R.PS_STATUS_asc ch.val) 0).put (R.PS_FAULT_asc ch.val) 0).startWindow c ch.val).toCatch c ch.val with bus := .done })) ∧
    (∀ (s : State) (ln : LaneId) (c : Ctx) (l : Lane) (ch : Fin 2) (v : Word), Here s ln c l →
      ch.val < motorCount c.part.member →
      v.getLsbD 1 = true →
      l.active = false →
      l.parked = true →
      l.unitsHalt = false →
      l.bit (R.PS_CTRL_asc_test ch.val) = false →
      (l.put (R.PS_CTRL_asc_test ch.val) 1).ascPowered ch.val (l.bit (R.PS_CFG_asc_high ch.val)) = true →
      (l.put (R.PS_CTRL_asc_test ch.val) 1).wantsCut ch.val = false →
      Gives (.ascTestWrite ln ch v) s ln ({ (l.put (R.PS_CTRL_asc_test ch.val) 1).ascEnter c ch.val (l.bit (R.PS_CFG_asc_high ch.val)) with bus := .done })) ∧
    (∀ (s : State) (ln : LaneId) (c : Ctx) (l : Lane) (ch : Fin 2) (v : Word), Here s ln c l →
      ch.val < motorCount c.part.member →
      v.getLsbD 1 = true →
      l.active = false →
      l.parked = true →
      l.unitsHalt = false →
      l.bit (R.PS_CTRL_asc_test ch.val) = false →
      (l.put (R.PS_CTRL_asc_test ch.val) 1).ascPowered ch.val (l.bit (R.PS_CFG_asc_high ch.val)) = false →
      Gives (.ascTestWrite ln ch v) s ln (let l1 := l.put (R.PS_CTRL_asc_test ch.val) 1
        { ((l1.flag (R.PS_FLAGS_asc_fail ch.val)).setMc ch.val { l1.mc ch.val with testOpen := true }).sto c ch.val with bus := .done })) ∧
    (∀ (s : State) (ln : LaneId) (c : Ctx) (l : Lane) (ch : Fin 2) (v : Word), Here s ln c l →
      ch.val < motorCount c.part.member →
      v.getLsbD 0 = false →
      Gives (.stoReqWrite ln ch v) s ln ({ (l.put (R.PS_CTRL_sto_req ch.val) 0).sto c ch.val with bus := .done })) ∧
    (∀ (s : State) (ln : LaneId) (c : Ctx) (l : Lane) (ch : Fin 2) (v : Word), Here s ln c l →
      ch.val < motorCount c.part.member →
      v.getLsbD 0 = true →
      l.active = false →
      l.parked = true →
      l.unitsHalt = false →
      Gives (.stoReqWrite ln ch v) s ln ({ (l.put (R.PS_CTRL_sto_req ch.val) 1).sto c ch.val with bus := .done })) ∧
    (∀ (s : State) (ln : LaneId) (c : Ctx) (l : Lane) (ch : Fin 2), Here s ln c l →
      ch.val < motorCount c.part.member →
      l.bit (R.PS_STATUS_chop_on ch.val) = false →
      Gives (.chopperOn ln ch) s ln ((l.put (R.PS_STATUS_chop_on ch.val) 1).setMc ch.val { l.mc ch.val with chopAt := c.now, chopTest := false, chopBadOn := 0 })) ∧
    (∀ (s : State) (ln : LaneId) (c : Ctx) (l : Lane) (ch : Fin 2), Here s ln c l →
      ch.val < motorCount c.part.member →
      l.bit (R.PS_STATUS_chop_on ch.val) = true →
      Gives (.chopperOn ln ch) s ln (l.setMc ch.val { l.mc ch.val with chopTest := false })) ∧
    (∀ (s : State) (ln : LaneId) (c : Ctx) (l : Lane) (ch : Fin 2) (v : W40), Here s ln c l →
      ch.val < motorCount c.part.member →
      l.bit (R.PS_STATUS_chop_on ch.val) = true →
      (if (l.mc ch.val).chopTest then (l.mc ch.val).chopAt + 10000 ≤ c.now else qv v < l.q (R.PS_V_CHOP_ON ch.val) - l.q (R.PS_V_CHOP_HYST ch.val) ∧ (l.mc ch.val).chopAt + 2000 ≤ c.now) →
      Yields (.chopperOff ln ch v) s ln (fun m => m.bit (R.PS_STATUS_chop_on ch.val) = false ∧ (m.mc ch.val).chopAt = c.now ∧ SameField l m (R.PS_STATUS_chop_on ch.val) ∧ SameRegs l m [R.PS_STATUS ch.val] ∧ SameMem l m)) ∧
    (∀ (s : State) (ln : LaneId) (c : Ctx) (l : Lane) (ch : Fin 2) (v : W40), Here s ln c l →
      ch.val < motorCount c.part.member →
      l.bit (R.PS_STATUS_chop_on ch.val) = false ∨ (l.mc ch.val).chopTest = true ∧ c.now < (l.mc ch.val).chopAt + 10000 ∨ (l.mc ch.val).chopTest = false ∧ (l.q (R.PS_V_CHOP_ON ch.val) - l.q (R.PS_V_CHOP_HYST ch.val) ≤ qv v ∨ c.now < (l.mc ch.val).chopAt + 2000) →
      Gives (.chopperOff ln ch v) s ln (l)) ∧
    (∀ (s : State) (ln : LaneId) (c : Ctx) (l : Lane) (ch : Fin 2) (v : W40), Here s ln c l →
      ch.val < motorCount c.part.member →
      l.bit (R.PS_STATUS_chop_on ch.val) = false →
      (l.mc ch.val).chopUntested = true ∨ (l.mc ch.val).chopAt + 1000000000 ≤ c.now →
      12 * qOne ≤ qv v →
      Gives (.chopperTestPulse ln ch v) s ln ((l.put (R.PS_STATUS_chop_on ch.val) 1).setMc ch.val { l.mc ch.val with chopAt := c.now, chopTest := true, chopBadOn := 0, chopUntested := false })) ∧
    (∀ (s : State) (ln : LaneId) (c : Ctx) (l : Lane) (ch : Fin 2) (v : W40), Here s ln c l →
      ch.val < motorCount c.part.member →
      l.bit (R.PS_STATUS_chop_on ch.val) = true ∨ (l.mc ch.val).chopUntested = false ∧ c.now < (l.mc ch.val).chopAt + 1000000000 ∨ qv v < 12 * qOne →
      Gives (.chopperTestPulse ln ch v) s ln (l)) ∧
    (∀ (s : State) (ln : LaneId) (c : Ctx) (l : Lane) (ch : Fin 2) (v i : W40), Here s ln c l →
      ch.val < motorCount c.part.member →
      c.now < (l.mc ch.val).chopAt + 5000 →
      Gives (.chopperReadback ln ch v i) s ln (l)) ∧
    (∀ (s : State) (ln : LaneId) (c : Ctx) (l : Lane) (ch : Fin 2) (v i : W40), Here s ln c l →
      ch.val < motorCount c.part.member →
      (l.mc ch.val).chopAt + 5000 ≤ c.now →
      l.bit (R.PS_STATUS_chop_on ch.val) = false →
      qv i < l.q (R.PS_I_CHOP_MIN ch.val) →
      Gives (.chopperReadback ln ch v i) s ln ((l.putQ (R.PS_CHOP_I ch.val) (qv i)).setMc ch.val { l.mc ch.val with chopBadOff := 0, chopOkNow := true })) ∧
    (∀ (s : State) (ln : LaneId) (c : Ctx) (l : Lane) (ch : Fin 2) (v i : W40), Here s ln c l →
      ch.val < motorCount c.part.member →
      (l.mc ch.val).chopAt + 5000 ≤ c.now →
      l.bit (R.PS_STATUS_chop_on ch.val) = true →
      l.chopPasses ch.val true (qv v) (qv i) = false →
      (l.mc ch.val).chopBadOn = 1 →
      Yields (.chopperReadback ln ch v i) s ln (fun m => m.bit (R.PS_STATUS_chop_fault ch.val) = true ∧ m.bit (R.PS_FLAGS_chop_fault ch.val) = true ∧ m.get R.HA_LIFE_life_h = 0 ∧ m.get R.HA_LIFE_limiting = 15 ∧ m.lifeOf c.id = 0 ∧ m.pair (R.PS_CHOP_I ch.val) = i ∧ SameMem l m)) ∧
    (∀ (s : State) (ln : LaneId) (c : Ctx) (l : Lane) (ch : Fin 2), Here s ln c l →
      ch.val < motorCount c.part.member →
      (l.mc ch.val).ascKind9 = true →
      Gives (.dcLinkOvervoltage ln ch) s ln ((l.put (R.PS_STATUS_ovp_active ch.val) 1).flag (R.PS_FLAGS_ovp ch.val))) ∧
    (∀ (s : State) (ln : LaneId) (c : Ctx) (l : Lane) (ch : Fin 2) (x : LaneId), Here s ln c l →
      ch.val < motorCount c.part.member →
      (l.mc ch.val).ascKind9 = false →
      l.holdsBaton c = true →
      (((l.put (R.PS_STATUS_ovp_active ch.val) 1).flag (R.PS_FLAGS_ovp ch.val)).shortSet c ch.val).nextFit c = some x →
      Gives (.dcLinkOvervoltage ln ch) s ln (let l1 := ((l.put (R.PS_STATUS_ovp_active ch.val) 1).flag (R.PS_FLAGS_ovp ch.val)).shortSet c ch.val
        (List.range (solenoidCount c.part.member)).foldl Lane.showCoil ((l1.shareOf c ch.val 0).urgentPass c 7))) ∧
    (∀ (s : State) (ln : LaneId) (c : Ctx) (l : Lane) (ch : Fin 2), Here s ln c l →
      ch.val < motorCount c.part.member →
      (l.mc ch.val).ascKind9 = false →
      l.role = roleUnfit →
      l.bit (R.PS_STATUS_asc ch.val) = false →
      Yields (.dcLinkOvervoltage ln ch) s ln (fun m => m.rd (R.PS_FAULT ch.val) = 0x80000097 ∧ m.rd (R.PS_FAULT_TIME ch.val) = l.stamp ∧ m.mcState ch.val = mcFault ∧ m.bit (R.PS_STATUS_fault ch.val) = true ∧ m.bit (R.PS_STATUS_ovp_active ch.val) = true ∧
        m.bit (R.PS_STATUS_supply_cut ch.val) = true ∧ m.bit (R.PS_STATUS_switching ch.val) = false ∧ m.bit (R.PS_FLAGS_ovp ch.val) = true ∧
        SameRegs l m [R.PS_FAULT ch.val, R.PS_FAULT_TIME ch.val, R.PS_STATUS ch.val, R.PS_FLAGS ch.val, R.MC_STATUS ch.val, R.MC_FLAGS ch.val] ∧ SameMem l m)) ∧
    (∀ (s : State) (ln : LaneId) (c : Ctx) (l : Lane) (ch : Fin 2), Here s ln c l →
      ch.val < motorCount c.part.member →
      l.active = false →
      (l.mc ch.val).ascKind9 = true →
      l.q (R.PS_VDC ch.val) < l.q (R.PS_V_OVP ch.val) - 2 * qOne →
      Gives (.ascOvpRelease ln ch) s ln (((l.put (R.PS_STATUS_ovp_active ch.val) 0).put (R.PS_FAULT_asc ch.val) 0).holdOpen c ch.val)) ∧
    (∀ (s : State) (ln : LaneId) (c : Ctx) (l : Lane) (ch : Fin 2), Here s ln c l →
      ch.val < motorCount c.part.member →
      l.active = true ∨ (l.mc ch.val).ascKind9 = false ∨ l.q (R.PS_V_OVP ch.val) - 2 * qOne ≤ l.q (R.PS_VDC ch.val) →
      Gives (.ascOvpRelease ln ch) s ln (l))

/-- The test requests of a power stage are accepted only in a parked lane that is not active. (R250) -/
def Obligations.TestRequestsNeedParkedStandby : Prop :=
    (∀ (s : State) (ln : LaneId) (c : Ctx) (l : Lane) (ch : Fin 2) (v : Word), Here s ln c l →
      ch.val < motorCount c.part.member →
      v.getLsbD 1 = true →
      l.active = true ∨ l.parked = false ∨ l.unitsHalt = true →
      Gives (.ascTestWrite ln ch v) s ln ({ l with bus := .done })) ∧
    (∀ (s : State) (ln : LaneId) (c : Ctx) (l : Lane) (ch : Fin 2) (v : Word), Here s ln c l →
      ch.val < motorCount c.part.member →
      v.getLsbD 0 = true →
      l.active = true ∨ l.parked = false ∨ l.unitsHalt = true →
      Gives (.stoReqWrite ln ch v) s ln ({ l with bus := .done })) ∧
    (∀ (s : State) (ln : LaneId) (c : Ctx) (l : Lane) (ch : Fin 2) (v : Word), Here s ln c l →
      ch.val < motorCount c.part.member →
      v.getLsbD 1 = true →
      l.active = false →
      l.parked = true →
      l.unitsHalt = false →
      Yields (.ascTestWrite ln ch v) s ln (fun m => m.bit (R.PS_CTRL_asc_test ch.val) = true ∧ SameField l m (R.PS_CTRL_asc_test ch.val))) ∧
    (∀ (s : State) (ln : LaneId) (c : Ctx) (l : Lane) (ch : Fin 2) (v : Word), Here s ln c l →
      ch.val < motorCount c.part.member →
      v.getLsbD 0 = true →
      l.active = false →
      l.parked = true →
      l.unitsHalt = false →
      Yields (.stoReqWrite ln ch v) s ln (fun m => m.bit (R.PS_CTRL_sto_req ch.val) = true ∧ SameField l m (R.PS_CTRL_sto_req ch.val) ∧ (l.bit (R.PS_CTRL_asc_test ch.val) = true → ∀ k, k < 2 → m.wantsCut k = l.wantsCut k)))

/-- What demands, speed, the park brake and the solenoid drivers do. (R2, R266, R267, R269, R279, R285, R286, R287, R288,
R289, R290, R293) -/
def Obligations.SteeringAndBrakingCommandsComplete : Prop :=
    (∀ (s : State) (ln : LaneId) (c : Ctx) (l : Lane), Here s ln c l →
      l.bk.queue.filter l.isDue = [] →
      Gives (.demandEngage ln) s ln (l)) ∧
    (∀ (s : State) (ln : LaneId) (c : Ctx) (l : Lane), Here s ln c l →
      l.bk.queue.filter l.isDue = [] →
      Gives (.demandHold ln) s ln (l)) ∧
    (∀ (s : State) (ln : LaneId) (c : Ctx) (l : Lane), Here s ln c l →
      l.bk.queue.filter l.isDue = [] →
      Gives (.demandPark ln) s ln (l)) ∧
    (∀ (s : State) (ln : LaneId) (c : Ctx) (l : Lane), Here s ln c l →
      l.bk.queue.filter l.isDue = [] →
      Gives (.demandFeel ln) s ln (l)) ∧
    (∀ (s : State) (ln : LaneId) (c : Ctx) (l : Lane) (r : DemandRec), Here s ln c l →
      l.bk.queue = [r] →
      l.isDue r = true →
      demMode r.words = 1 →
      l.inAge r = false →
      Gives (.demandEngage ln) s ln ({ l with bk := { l.bk with queue := [] } })) ∧
    (∀ (s : State) (ln : LaneId) (c : Ctx) (l : Lane) (r : DemandRec), Here s ln c l →
      l.bk.queue = [r] →
      l.isDue r = true →
      demMode r.words = 2 →
      l.inAge r = false →
      Gives (.demandHold ln) s ln ({ l with bk := { l.bk with queue := [] } })) ∧
    (∀ (s : State) (ln : LaneId) (c : Ctx) (l : Lane) (r : DemandRec), Here s ln c l →
      l.bk.queue = [r] →
      l.isDue r = true →
      demMode r.words = 3 →
      l.inAge r = false →
      Gives (.demandPark ln) s ln ({ l with bk := { l.bk with queue := [] } })) ∧
    (∀ (s : State) (ln : LaneId) (c : Ctx) (l : Lane) (r : DemandRec), Here s ln c l →
      l.bk.queue = [r] →
      l.isDue r = true →
      demMode r.words = 4 →
      l.inAge r = false →
      Gives (.demandFeel ln) s ln ({ l with bk := { l.bk with queue := [] } })) ∧
    (∀ (s : State) (ln : LaneId) (c : Ctx) (l : Lane) (r : DemandRec), Here s ln c l →
      l.bk.queue = [r] →
      l.isDue r = true →
      l.inAge r = true →
      demMode r.words = 1 →
      l.st.ready = true →
      l.get R.PW_STATUS_state = 0 →
      l.fc.starving = false →
      l.get R.FC_MODE_mode ≠ 6 →
      l.get R.FC_MODE_mode ≠ 4 →
      Yields (.demandEngage ln) s ln (fun m => m.demand = r.words ∧ m.get R.BK_STATUS_mode = 1 ∧ m.rd R.BK_DEMAND = BitVec.ofNat 32 (r.seq * 65536 + (wordAt r.words 0).toNat % 128) ∧ m.bk.queue = [] ∧ m.bk.seenStamp = r.stamp ∧ m.engaged = true ∧ m.bit R.BK_STATUS_permit = true ∧ m.bk.decelAt = none ∧ m.stageOn = (if l.active then l.stageOn ||| (handedMask c.part.member &&& ~~~l.badStages &&& ~~~l.unusedStages) else l.stageOn) ∧ SameRegs l m [R.BK_STATUS, R.BK_DEMAND, R.BK_FLAGS] ∧ SameMem l m)) ∧
    (∀ (s : State) (ln : LaneId) (c : Ctx) (l : Lane) (r : DemandRec), Here s ln c l →
      l.bk.queue = [r] →
      l.isDue r = true →
      l.inAge r = true →
      demMode r.words = 1 →
      l.st.ready = true →
      l.get R.PW_STATUS_state = 0 →
      l.get R.FC_MODE_mode = 6 ∨ l.get R.FC_MODE_mode = 4 →
      Gives (.demandEngage ln) s ln ({ l with bk := { l.bk with queue := [], seen := true, seenStamp := r.stamp, ageWas := 0 } }.flag R.BK_FLAGS_demand_refused)) ∧
    (∀ (s : State) (ln : LaneId) (c : Ctx) (l : Lane) (r : DemandRec), Here s ln c l →
      l.bk.queue = [r] →
      l.isDue r = true →
      l.inAge r = true →
      demMode r.words = 2 →
      l.st.ready = true →
      l.get R.PW_STATUS_state = 0 →
      l.fc.starving = false →
      l.get R.FC_MODE_mode ≠ 6 →
      l.get R.FC_MODE_mode ≠ 4 →
      l.engaged = true →
      Yields (.demandHold ln) s ln (fun m => m.demand = r.words ∧ m.get R.BK_STATUS_mode = 2 ∧ m.rd R.BK_DEMAND = BitVec.ofNat 32 (r.seq * 65536 + (wordAt r.words 0).toNat % 128) ∧ m.bk.queue = [] ∧ m.bk.seenStamp = r.stamp ∧ m.engaged = true ∧ m.stageOn = l.stageOn ∧ m.bk.decelAt = none ∧ SameRegs l m [R.BK_STATUS, R.BK_DEMAND, R.BK_FLAGS] ∧ SameMem l m)) ∧
    (∀ (s : State) (ln : LaneId) (c : Ctx) (l : Lane) (r : DemandRec), Here s ln c l →
      l.bk.queue = [r] →
      l.isDue r = true →
      l.inAge r = true →
      demMode r.words = 2 →
      l.st.ready = true →
      l.get R.PW_STATUS_state = 0 →
      l.fc.starving = false →
      l.get R.FC_MODE_mode ≠ 6 →
      l.get R.FC_MODE_mode ≠ 4 →
      l.engaged = false →
      Gives (.demandHold ln) s ln ({ l with bk := { l.bk with queue := [], seen := true, seenStamp := r.stamp, ageWas := 0 } }.flag R.BK_FLAGS_demand_refused)) ∧
    (∀ (s : State) (ln : LaneId) (c : Ctx) (l : Lane) (r : DemandRec), Here s ln c l →
      l.bk.queue = [r] →
      l.isDue r = true →
      l.inAge r = true →
      demMode r.words = 3 →
      l.st.ready = true →
      l.get R.PW_STATUS_state = 0 →
      l.fc.starving = false →
      l.get R.FC_MODE_mode ≠ 6 →
      l.get R.FC_MODE_mode ≠ 4 →
      l.engaged = true →
      l.get R.BK_PARK_state ≠ 4 →
      l.demInForce ≠ 3 →
      Yields (.demandPark ln) s ln (fun m => m.demand = r.words ∧ m.get R.BK_STATUS_mode = 3 ∧ m.rd R.BK_DEMAND = BitVec.ofNat 32 (r.seq * 65536 + (wordAt r.words 0).toNat % 128) ∧ m.bk.queue = [] ∧ m.bk.seenStamp = r.stamp ∧ m.engaged = true ∧ m.stageOn = l.stageOn ∧ m.bk.decelAt = some c.now ∧ SameRegs l m [R.BK_STATUS, R.BK_DEMAND, R.BK_FLAGS] ∧ SameMem l m)) ∧
    (∀ (s : State) (ln : LaneId) (c : Ctx) (l : Lane) (r : DemandRec), Here s ln c l →
      l.bk.queue = [r] →
      l.isDue r = true →
      l.inAge r = true →
      demMode r.words = 3 →
      l.st.ready = true →
      l.get R.PW_STATUS_state = 0 →
      l.fc.starving = false →
      l.get R.FC_MODE_mode ≠ 6 →
      l.get R.FC_MODE_mode ≠ 4 →
      l.engaged = true →
      l.get R.BK_PARK_state = 4 →
      Yields (.demandPark ln) s ln (fun m => m.get R.BK_PARK_state = 0 ∧ m.rd R.BK_PARK_TIME = l.stamp ∧ m.bit R.BK_FLAGS_park_applied = true ∧ m.parked = l.bk.still ∧ SameMem l m)) ∧
    (∀ (s : State) (ln : LaneId) (c : Ctx) (l : Lane) (r : DemandRec), Here s ln c l →
      l.bk.queue = [r] →
      l.isDue r = true →
      l.inAge r = true →
      demMode r.words = 4 →
      l.st.ready = true →
      l.get R.PW_STATUS_state = 0 →
      l.fc.starving = false →
      l.get R.FC_MODE_mode ≠ 6 →
      l.get R.FC_MODE_mode ≠ 4 →
      l.engaged = true →
      Yields (.demandFeel ln) s ln (fun m => m.demand = r.words ∧ m.get R.BK_STATUS_mode = 4 ∧ m.rd R.BK_DEMAND = BitVec.ofNat 32 (r.seq * 65536 + (wordAt r.words 0).toNat % 128) ∧ m.bk.queue = [] ∧ m.bk.seenStamp = r.stamp ∧ m.engaged = true ∧ m.stageOn = l.stageOn ∧ m.bk.decelAt = none ∧ SameRegs l m [R.BK_STATUS, R.BK_DEMAND, R.BK_FLAGS] ∧ SameMem l m)) ∧
    (∀ (s : State) (ln : LaneId) (c : Ctx) (l : Lane), Here s ln c l →
      (l.conn l.image.lib.speedConn).held = true →
      (wordAt (l.conn l.image.lib.speedConn).payload 2).getLsbD 0 = true →
      sdiff l.stamp (l.rd (R.SE_Cc_STAMP l.image.lib.speedConn)) ≤ ((l.rd (R.SE_Cc_MAX_AGE l.image.lib.speedConn)).toNat : Int) →
      Yields (.speedReceive ln) s ln (fun m => m.q R.BK_SPEED = qAt (l.conn l.image.lib.speedConn).payload 0 ∧ m.bit R.BK_STATUS_speed_valid = true ∧ m.bk.speedStamp = l.rd (R.SE_Cc_STAMP l.image.lib.speedConn) ∧ m.bk.vLast = qAt (l.conn l.image.lib.speedConn).payload 0 ∧
        m.bk.still = (l.bk.still && l.isSlow (qAt (l.conn l.image.lib.speedConn).payload 0)) ∧ SameRegs l m [R.BK_SPEED, R.BK_SPEED + 4, R.BK_STATUS, R.FC_MODE] ∧ SameMem l m)) ∧
    (∀ (s : State) (ln : LaneId) (c : Ctx) (l : Lane), Here s ln c l →
      (l.conn l.image.lib.speedConn).held = false ∨ (wordAt (l.conn l.image.lib.speedConn).payload 2).getLsbD 0 = false ∨ ((l.rd (R.SE_Cc_MAX_AGE l.image.lib.speedConn)).toNat : Int) < sdiff l.stamp (l.rd (R.SE_Cc_STAMP l.image.lib.speedConn)) →
      Gives (.speedReceive ln) s ln (l)) ∧
    (∀ (s : State) (ln : LaneId) (c : Ctx) (l : Lane), Here s ln c l →
      l.bit R.BK_STATUS_speed_valid = true →
      ((l.rd (R.SE_Cc_MAX_AGE l.image.lib.speedConn)).toNat : Int) < sdiff l.stamp l.bk.speedStamp →
      Yields (.speedStale ln) s ln (fun m => m.q R.BK_SPEED = 0 ∧ m.bit R.BK_STATUS_speed_valid = false ∧ m.bit R.BK_FLAGS_speed_stale = true ∧ m.bk.slowAt = none ∧ m.bk.still = ((l.bk.still && l.parkHolds) || !l.bk.released) ∧ SameRegs l m [R.BK_SPEED, R.BK_SPEED + 4, R.BK_STATUS, R.BK_FLAGS, R.FC_MODE] ∧ SameMem l m)) ∧
    (∀ (s : State) (ln : LaneId) (c : Ctx) (l : Lane), Here s ln c l →
      l.bit R.BK_STATUS_speed_valid = false ∨ sdiff l.stamp l.bk.speedStamp ≤ ((l.rd (R.SE_Cc_MAX_AGE l.image.lib.speedConn)).toNat : Int) →
      Gives (.speedStale ln) s ln (l)) ∧
    (∀ (s : State) (ln : LaneId) (c : Ctx) (l : Lane) (t : Nat), Here s ln c l →
      l.bk.takeover = false →
      l.bk.overAt = some t →
      t + 200000000 ≤ c.now →
      Gives (.takeoverReqChange ln true) s ln ({ l with bk := { l.bk with takeover := true } }.flag R.BK_FLAGS_takeover_req)) ∧
    (∀ (s : State) (ln : LaneId) (c : Ctx) (l : Lane) (t : Nat), Here s ln c l →
      l.bk.takeover = true →
      l.bk.underAt = some t →
      t + 200000000 ≤ c.now →
      Gives (.takeoverReqChange ln false) s ln ({ l with bk := { l.bk with takeover := false } })) ∧
    (∀ (s : State) (ln : LaneId) (c : Ctx) (l : Lane) (on : Bool), Here s ln c l →
      on = l.bk.takeover →
      Gives (.takeoverReqChange ln on) s ln (l)) ∧
    (∀ (s : State) (ln : LaneId) (c : Ctx) (l : Lane) (n : Fin 6) (k : Fin 4), Here s ln c l →
      k.val = 1 ∨ (2 ≤ k.val ∧ l.latchHold.getLsbD n.val = false) →
      l.bit (R.BKn_STATUS_fault n.val) = false →
      n.val < solenoidCount c.part.member →
      l.get (R.BKn_CFG_role n.val) = 0 ∨ l.get (R.BKn_CFG_role n.val) = 4 ∨ l.role = roleUnfit →
      Yields (.solenoidFault ln n k) s ln (fun m => m.bit (R.BKn_STATUS_fault n.val) = true ∧ m.bit (R.BKn_FAULT_valid n.val) = true ∧ m.get (R.BKn_FAULT_kind n.val) = k.val ∧ m.rd (R.BKn_FAULT_TIME n.val) = l.stamp ∧
        m.stageOn = l.stageOn &&& ~~~BitVec.ofNat 32 (2 ^ n.val) ∧ m.latchHold = l.latchHold &&& ~~~BitVec.ofNat 32 (2 ^ n.val) ∧
        SameRegs l m [R.BKn_STATUS n.val, R.BKn_FAULT n.val, R.BKn_FAULT_TIME n.val, R.BK_FLAGS] ∧ SameMem l m)) ∧
    (∀ (s : State) (ln : LaneId) (c : Ctx) (l : Lane) (n : Fin 6) (k : Fin 4), Here s ln c l →
      k.val = 0 ∨ (2 ≤ k.val ∧ l.latchHold.getLsbD n.val = true) ∨ l.bit (R.BKn_STATUS_fault n.val) = true ∨ solenoidCount c.part.member ≤ n.val →
      Gives (.solenoidFault ln n k) s ln (l)) ∧
    (∀ (s : State) (ln : LaneId) (c : Ctx) (l : Lane) (n : Fin 6) (i : W40), Here s ln c l →
      l.standby = true →
      tabGet l.bk.lastTest n.val = none →
      l.get (R.BKn_CFG_role n.val) ≠ 0 →
      l.bit (R.BKn_STATUS_fault n.val) = false →
      n.val < solenoidCount c.part.member →
      mkRat 20 1000 ≤ qr (qv i) →
      Gives (.solenoidOpenTest ln n i) s ln ({ l with bk := { l.bk with lastTest := tabPut l.bk.lastTest n.val c.now } }.put (R.BKn_STATUS_test_ok n.val) 1)) ∧
    (∀ (s : State) (ln : LaneId) (c : Ctx) (l : Lane) (n : Fin 6) (i : W40), Here s ln c l →
      l.standby = true →
      tabGet l.bk.lastTest n.val = none →
      l.get (R.BKn_CFG_role n.val) ≠ 0 →
      l.bit (R.BKn_STATUS_fault n.val) = false →
      n.val < solenoidCount c.part.member →
      qr (qv i) < mkRat 20 1000 →
      Gives (.solenoidOpenTest ln n i) s ln (({ l with bk := { l.bk with lastTest := tabPut l.bk.lastTest n.val c.now } }.put (R.BKn_STATUS_test_ok n.val) 0).coilFault c n.val 3)) ∧
    (∀ (s : State) (ln : LaneId) (c : Ctx) (l : Lane) (n : Fin 6) (i : W40), Here s ln c l →
      l.standby = false ∨ l.get (R.BKn_CFG_role n.val) = 0 ∨ l.bit (R.BKn_STATUS_fault n.val) = true ∨ solenoidCount c.part.member ≤ n.val →
      Gives (.solenoidOpenTest ln n i) s ln (l)) ∧
    (∀ (s : State) (ln : LaneId) (c : Ctx) (l : Lane) (n : Fin 6) (v : Word), Here s ln c l →
      n.val < solenoidCount c.part.member →
      v.toNat % 65536 ≤ v.toNat / 65536 →
      v.toNat / 65536 ≤ 500 →
      Gives (.ditherEnvWrite ln n v) s ln ({ l with bus := .done, staging := tabPut l.staging (R.BKn_DITHER_ENV n.val) v })) ∧
    (∀ (s : State) (ln : LaneId) (c : Ctx) (l : Lane) (n : Fin 6) (v : Word), Here s ln c l →
      n.val < solenoidCount c.part.member →
      v.toNat / 65536 < v.toNat % 65536 ∨ 500 < v.toNat / 65536 →
      Gives (.ditherEnvWrite ln n v) s ln ({ l with bus := .done })) ∧
    (∀ (s : State) (ln : LaneId) (c : Ctx) (l : Lane) (n : Fin 6) (v : Word), Here s ln c l →
      solenoidCount c.part.member ≤ n.val →
      Gives (.ditherEnvWrite ln n v) s ln ({ l with bus := .error })) ∧
    (∀ (s : State) (ln : LaneId) (c : Ctx) (l : Lane), Here s ln c l →
      l.get R.BK_PARK_state = 1 →
      l.parkDue c = true →
      Yields (.parkReleased ln) s ln (fun m => m.get R.BK_PARK_state = 2 ∧ m.bk.released = true ∧ m.bit R.BK_FLAGS_park_released = true ∧ m.parked = false ∧ m.rd R.BK_PARK_TIME = l.stamp ∧ m.bk.parkAt = c.now ∧ SameField l m R.BK_PARK_state ∧ SameRegs l m [R.BK_PARK, R.BK_PARK_TIME, R.BK_FLAGS, R.FC_MODE] ∧ SameMem l m)) ∧
    (∀ (s : State) (ln : LaneId) (c : Ctx) (l : Lane), Here s ln c l →
      l.get R.BK_PARK_state ≠ 1 ∨ l.parkDue c = false →
      Gives (.parkReleased ln) s ln (l)) ∧
    (∀ (s : State) (ln : LaneId) (c : Ctx) (l : Lane), Here s ln c l →
      l.get R.BK_PARK_state = 1 →
      l.bk.parkAt + l.image.lib.tRelMax ≤ c.now →
      Yields (.parkReleaseFail ln) s ln (fun m => m.get R.BK_PARK_state = 4 ∧ m.bit R.BK_FLAGS_park_fault = true ∧ m.parked = false ∧ m.rd R.BK_PARK_TIME = l.stamp ∧ m.bk.parkAt = c.now ∧ SameField l m R.BK_PARK_state ∧ SameRegs l m [R.BK_PARK, R.BK_PARK_TIME, R.BK_FLAGS, R.FC_MODE] ∧ SameMem l m)) ∧
    (∀ (s : State) (ln : LaneId) (c : Ctx) (l : Lane), Here s ln c l →
      l.get R.BK_PARK_state ≠ 1 ∨ c.now < l.bk.parkAt + l.image.lib.tRelMax →
      Gives (.parkReleaseFail ln) s ln (l)) ∧
    (∀ (s : State) (ln : LaneId) (c : Ctx) (l : Lane), Here s ln c l →
      l.get R.BK_PARK_state = 2 →
      l.bk.still = true →
      l.demInForce = 3 →
      Yields (.parkApplyStart ln) s ln (fun m => m.get R.BK_PARK_state = 3 ∧ m.parked = false ∧ m.rd R.BK_PARK_TIME = l.stamp ∧ m.bk.parkAt = c.now ∧ SameField l m R.BK_PARK_state ∧ SameRegs l m [R.BK_PARK, R.BK_PARK_TIME, R.BK_FLAGS, R.FC_MODE] ∧ SameMem l m)) ∧
    (∀ (s : State) (ln : LaneId) (c : Ctx) (l : Lane), Here s ln c l →
      l.get R.BK_PARK_state ≠ 2 ∨ l.bk.still = false →
      Gives (.parkApplyStart ln) s ln (l)) ∧
    (∀ (s : State) (ln : LaneId) (c : Ctx) (l : Lane), Here s ln c l →
      l.get R.BK_PARK_state = 3 →
      l.parkDue c = true →
      Yields (.parkApplied ln) s ln (fun m => m.get R.BK_PARK_state = 0 ∧ m.bit R.BK_FLAGS_park_applied = true ∧ m.parked = l.bk.still ∧ m.rd R.BK_PARK_TIME = l.stamp ∧ m.bk.parkAt = c.now ∧ SameField l m R.BK_PARK_state ∧ SameRegs l m [R.BK_PARK, R.BK_PARK_TIME, R.BK_FLAGS, R.FC_MODE] ∧ SameMem l m)) ∧
    (∀ (s : State) (ln : LaneId) (c : Ctx) (l : Lane), Here s ln c l →
      l.get R.BK_PARK_state ≠ 3 ∨ l.parkDue c = false →
      Gives (.parkApplied ln) s ln (l)) ∧
    (∀ (s : State) (ln : LaneId) (c : Ctx) (l : Lane), Here s ln c l →
      l.fit = true →
      Gives (.moduleStatusSend ln) s ln (l.produce l.image.lib.statusConn (l.statusPayload c))) ∧
    (∀ (s : State) (ln : LaneId) (c : Ctx) (l : Lane), Here s ln c l →
      l.fit = false →
      Gives (.moduleStatusSend ln) s ln (l))

/-- What the stepper channels do. (R301, R303, R304, R306, R308, R309, R310, R311, R312, R313, R315, R323) -/
def Obligations.StepperCommandsComplete : Prop :=
    (∀ (s : State) (ln : LaneId) (c : Ctx) (l : Lane) (n : Fin 4) (lv : BitVec 10) (t : Nat) (p : W40), Here s ln c l →
      n.val < stepperCount c.part.member →
      (l.stepper n.val).stepAt = some t →
      l.dueAt (l.stepper n.val).stride t ≤ c.now →
      l.maySteps c n.val = true →
      (l.stepper n.val).braking = false →
      l.homing n.val = false →
      (l.stepper n.val).cmpLate = none →
      p = l.pair (R.SPn_POS n.val) + BitVec.ofInt 40 ((l.stepper n.val).dlt * l.stepDir n.val) →
      p.toNat / 256 = (l.pair (R.SPn_POS n.val)).toNat / 256 →
      Yields (.stepIssue ln n lv) s ln (fun m => m.pair (R.SPn_POS n.val) = p ∧ m.rd (R.SPn_STRIDE n.val) = BitVec.ofNat 32 (l.stepper n.val).stride ∧ m.bit (R.SPn_STATUS_hold_current n.val) = false ∧ (m.stepper n.val).lastStep = c.now ∧ (p = l.pair (R.SPn_TARGET n.val) → (m.stepper n.val).v = 0 ∧ m.bit (R.SPn_FLAGS_arrived n.val) = true) ∧ SameMem l m)) ∧
    (∀ (s : State) (ln : LaneId) (c : Ctx) (l : Lane) (n : Fin 4) (lv : BitVec 10), Here s ln c l →
      n.val < stepperCount c.part.member →
      l.stepDue c n.val = true →
      Gives (.stepIssue ln n lv) s ln (l.issueStep c n.val lv.toNat)) ∧
    (∀ (s : State) (ln : LaneId) (c : Ctx) (l : Lane) (n : Fin 4) (lv : BitVec 10), Here s ln c l →
      l.stepDue c n.val = false ∨ stepperCount c.part.member ≤ n.val →
      Gives (.stepIssue ln n lv) s ln (l)) ∧
    (∀ (s : State) (ln : LaneId) (c : Ctx) (l : Lane) (n : Fin 4) (v lo : Word), Here s ln c l →
      n.val < stepperCount c.part.member →
      lo = (tabGet l.staging (R.SPn_TARGET n.val)).getD (l.rd (R.SPn_TARGET n.val)) →
      l.active = true →
      l.spRole n.val = 3 →
      l.bit (R.SPn_STATUS_homing_required n.val) = false →
      l.homing n.val = false →
      l.beyondLimit n.val (v.setWidth 8 ++ lo) = false →
      l.unitsHalt = false →
      Yields (.targetWrite ln n v) s ln (fun m => m.pair (R.SPn_TARGET n.val) = v.setWidth 8 ++ lo ∧ m.staging = tabDel l.staging (R.SPn_TARGET n.val) ∧ m.bus = .done ∧ SameRegs l m [R.SPn_TARGET n.val, R.SPn_TARGET n.val + 4, R.SPn_STATUS n.val, R.SPn_FLAGS n.val] ∧ SameMem l m)) ∧
    (∀ (s : State) (ln : LaneId) (c : Ctx) (l : Lane) (n : Fin 4) (v lo : Word), Here s ln c l →
      n.val < stepperCount c.part.member →
      lo = (tabGet l.staging (R.SPn_TARGET n.val)).getD (l.rd (R.SPn_TARGET n.val)) →
      l.active = true →
      l.spRole n.val = 3 →
      l.bit (R.SPn_STATUS_homing_required n.val) = true ∨ l.homing n.val = true ∨ l.beyondLimit n.val (v.setWidth 8 ++ lo) = true ∨ l.unitsHalt = true →
      Gives (.targetWrite ln n v) s ln ({ l with staging := tabDel l.staging (R.SPn_TARGET n.val), bus := .done }.flag (R.SPn_FLAGS_cmd_ignored n.val))) ∧
    (∀ (s : State) (ln : LaneId) (c : Ctx) (l : Lane) (n : Fin 4) (v : Word), Here s ln c l →
      n.val < stepperCount c.part.member →
      l.active = false ∨ l.spRole n.val ≠ 3 →
      Gives (.targetWrite ln n v) s ln ({ l with staging := tabDel l.staging (R.SPn_TARGET n.val), bus := .done }.flag (R.SPn_FLAGS_cmd_ignored n.val))) ∧
    (∀ (s : State) (ln : LaneId) (c : Ctx) (l : Lane) (n : Fin 4) (v : Word), Here s ln c l →
      stepperCount c.part.member ≤ n.val →
      Gives (.targetWrite ln n v) s ln ({ l with bus := .error })) ∧
    (∀ (s : State) (ln : LaneId) (c : Ctx) (l : Lane) (n : Fin 4), Here s ln c l →
      (l.stepper n.val).v = 0 →
      (l.stepper n.val).lastStep + 100000000 ≤ c.now →
      (l.stepper n.val).stalled = false →
      l.latchHold.getLsbD (8 + n.val) = false →
      Gives (.holdCurrentTimeout ln n) s ln (l.put (R.SPn_STATUS_hold_current n.val) 1)) ∧
    (∀ (s : State) (ln : LaneId) (c : Ctx) (l : Lane) (n : Fin 4), Here s ln c l →
      (l.stepper n.val).v ≠ 0 ∨ c.now < (l.stepper n.val).lastStep + 100000000 ∨ (l.stepper n.val).stalled = true ∨ l.latchHold.getLsbD (8 + n.val) = true →
      Gives (.holdCurrentTimeout ln n) s ln (l)) ∧
    (∀ (s : State) (ln : LaneId) (c : Ctx) (l : Lane) (n : Fin 4) (k : Fin 4), Here s ln c l →
      n.val < stepperCount c.part.member →
      k.val ≠ 0 →
      l.bit (R.SPn_STATUS_fault n.val) = false →
      l.spRole n.val ≠ 1 →
      Yields (.stepperDriverFault ln n k) s ln (fun m => m.bit (R.SPn_STATUS_fault n.val) = true ∧ m.bit (R.SPn_STATUS_homing_required n.val) = true ∧ m.rd (R.SPn_FAULT n.val) = BitVec.ofNat 32 (2 ^ 31 + k.val) ∧ m.rd (R.SPn_FAULT_TIME n.val) = l.stamp ∧
        m.stageOn = l.stageOn &&& ~~~BitVec.ofNat 32 (2 ^ (8 + n.val)) ∧ (m.stepper n.val).v = 0 ∧ (m.stepper n.val).stepAt = none ∧
        SameRegs l m [R.SPn_STATUS n.val, R.SPn_FAULT n.val, R.SPn_FAULT_TIME n.val, R.SPn_FLAGS n.val] ∧ SameMem l m)) ∧
    (∀ (s : State) (ln : LaneId) (c : Ctx) (l : Lane) (n k : Fin 4), Here s ln c l →
      k.val = 0 ∨ l.bit (R.SPn_STATUS_fault n.val) = true ∨ stepperCount c.part.member ≤ n.val →
      Gives (.stepperDriverFault ln n k) s ln (l)) ∧
    (∀ (s : State) (ln : LaneId) (c : Ctx) (l : Lane) (n : Fin 4), Here s ln c l →
      n.val < stepperCount c.part.member →
      l.active = true →
      l.spRole n.val ≠ 0 →
      l.homing n.val = false →
      l.unitsHalt = false →
      l.spRole n.val ≠ 1 ∨ l.bit R.BK_STATUS_engaged = false →
      Yields (.homeCommand ln n) s ln (fun m => m.homeState n.val = (if (l.stepper n.val).onTarget then homeBackoff else homeSeek) ∧
        m.pair (R.SPn_TARGET n.val) = BitVec.ofNat 40 (farFrom (l.pair (R.SPn_POS n.val)) (if (l.stepper n.val).onTarget then !l.bit (R.SPn_HOME_CFG_home_dir n.val) else l.bit (R.SPn_HOME_CFG_home_dir n.val))) ∧
        m.bus = .done ∧ (m.stepper n.val).homeFrom = (l.pair (R.SPn_POS n.val)).toNat ∧ SameRegs l m [R.SPn_HOME_STAT n.val, R.SPn_TARGET n.val, R.SPn_TARGET n.val + 4, R.SPn_STATUS n.val, R.SPn_FLAGS n.val] ∧ SameMem l m)) ∧
    (∀ (s : State) (ln : LaneId) (c : Ctx) (l : Lane) (n : Fin 4), Here s ln c l →
      n.val < stepperCount c.part.member →
      l.active = false ∨ l.spRole n.val = 0 ∨ l.homing n.val = true ∨ l.unitsHalt = true ∨ (l.spRole n.val = 1 ∧ l.bit R.BK_STATUS_engaged = true) →
      Gives (.homeCommand ln n) s ln ({ l.flag (R.SPn_FLAGS_cmd_ignored n.val) with bus := .done })) ∧
    (∀ (s : State) (ln : LaneId) (c : Ctx) (l : Lane) (n : Fin 4), Here s ln c l →
      stepperCount c.part.member ≤ n.val →
      Gives (.homeCommand ln n) s ln ({ l with bus := .error })) ∧
    (∀ (s : State) (ln : LaneId) (c : Ctx) (l : Lane) (n : Fin 4), Here s ln c l →
      n.val < stepperCount c.part.member →
      l.active = true →
      Gives (.stopCommand ln n) s ln ({ l.putU (R.SPn_TARGET n.val) (l.stopPoint n.val) with bus := .done })) ∧
    (∀ (s : State) (ln : LaneId) (c : Ctx) (l : Lane) (n : Fin 4), Here s ln c l →
      n.val < stepperCount c.part.member →
      l.active = false →
      Gives (.stopCommand ln n) s ln ({ l.flag (R.SPn_FLAGS_cmd_ignored n.val) with bus := .done })) ∧
    (∀ (s : State) (ln : LaneId) (c : Ctx) (l : Lane) (n : Fin 4), Here s ln c l →
      stepperCount c.part.member ≤ n.val →
      Gives (.stopCommand ln n) s ln ({ l with bus := .error })) ∧
    (∀ (s : State) (ln : LaneId) (c : Ctx) (l : Lane) (n : Fin 4) (i : HomeInput) (a : Bool) (t : Word), Here s ln c l →
      n.val < stepperCount c.part.member →
      l.homePair n.val i ≤ 11 →
      l.edgeBack (l.homePair n.val i) (l.homeWin n.val) a t = true →
      Gives (.homingEdge ln n i a t true) s ln ((l.inc (R.SPn_HOME_STAT_chatter n.val)).flag (R.SPn_FLAGS_chatter n.val))) ∧
    (∀ (s : State) (ln : LaneId) (c : Ctx) (l : Lane) (n : Fin 4) (i : HomeInput) (a : Bool) (t : Word), Here s ln c l →
      n.val < stepperCount c.part.member →
      l.edgeBack (l.homePair n.val i) (l.homeWin n.val) a t = false →
      Gives (.homingEdge ln n i a t true) s ln (l)) ∧
    (∀ (s : State) (ln : LaneId) (c : Ctx) (l : Lane) (n : Fin 4) (i : HomeInput) (a : Bool) (t : Word), Here s ln c l →
      n.val < stepperCount c.part.member →
      l.edgeIs (l.homePair n.val i) a t = false ∨ sdiff l.stamp t < (l.homeWin n.val : Int) →
      Gives (.homingEdge ln n i a t false) s ln (l)) ∧
    (∀ (s : State) (ln : LaneId) (c : Ctx) (l : Lane) (n : Fin 4) (i : HomeInput) (a : Bool) (t : Word), Here s ln c l →
      n.val < stepperCount c.part.member →
      l.homePair n.val i ≤ 11 →
      l.edgeIs (l.homePair n.val i) a t = true →
      (l.homeWin n.val : Int) ≤ sdiff l.stamp t →
      Gives (.homingEdge ln n i a t false) s ln (l.homeEdge c n.val i a t)) ∧
    (∀ (s : State) (ln : LaneId) (c : Ctx) (l : Lane) (n : Fin 4) (i : HomeInput) (a h : Bool) (t : Word), Here s ln c l →
      11 < l.homePair n.val i →
      Gives (.homingEdge ln n i a t h) s ln (l)) ∧
    (∀ (s : State) (ln : LaneId) (c : Ctx) (l : Lane) (n : Fin 4) (i : HomeInput) (t : Word), Here s ln c l →
      n.val < stepperCount c.part.member →
      l.homePair n.val i ≤ 11 →
      l.edgeIs (l.homePair n.val i) true t = true →
      (l.homeWin n.val : Int) ≤ sdiff l.stamp t →
      (l.stepper n.val).edged = none →
      l.homing n.val = true →
      l.homePair n.val i ≠ l.get (R.SPn_HOME_CFG_target_in n.val) →
      Yields (.homingEdge ln n i true t false) s ln (fun m => m.homeState n.val = homeAborted ∧ m.pair (R.SPn_TARGET n.val) = l.pair (R.SPn_POS n.val) ∧ (m.stepper n.val).v = 0 ∧ (m.stepper n.val).stepAt = none ∧ m.bit (R.SPn_FLAGS_limit_abort n.val) = true ∧ m.bit (R.SPn_STATUS_hold_current n.val) = true ∧ SameRegs l m [R.SPn_STATUS n.val, R.SPn_HOME_STAT n.val, R.SPn_TARGET n.val, R.SPn_TARGET n.val + 4, R.SPn_FLAGS n.val] ∧ SameMem l m)) ∧
    (∀ (s : State) (ln : LaneId) (c : Ctx) (l : Lane) (n : Fin 4) (t : Word), Here s ln c l →
      n.val < stepperCount c.part.member →
      l.homePair n.val .target ≤ 11 →
      l.edgeIs (l.homePair n.val .target) true t = true →
      (l.homeWin n.val : Int) ≤ sdiff l.stamp t →
      l.homeState n.val = homeSeek →
      l.bit (R.SPn_STATUS_dir n.val) = false →
      l.bit (R.SPn_HOME_CFG_home_dir n.val) = true →
      Gives (.homingEdge ln n .target true t false) s ln ((l.homeLevel n.val (l.homePair n.val .target) true).settle c n.val t)) ∧
    (∀ (s : State) (ln : LaneId) (c : Ctx) (l : Lane) (n : Fin 4), Here s ln c l →
      0 < (l.stepper n.val).v →
      l.homing n.val = false →
      l.bit (R.SPn_STATUS_dir n.val) = false →
      l.homePair n.val .pos ≤ 11 →
      l.bit (R.SI_DIn_STAT_state (l.homePair n.val .pos)) = true →
      (l.homeWin n.val : Int) ≤ sdiff l.stamp (l.rd (R.SI_DIn_TIME (l.homePair n.val .pos))) →
      Gives (.limitHit ln n) s ln ((l.homeLevel n.val (l.homePair n.val .pos) true).limitStop c n.val)) ∧
    (∀ (s : State) (ln : LaneId) (c : Ctx) (l : Lane) (n : Fin 4), Here s ln c l →
      0 < (l.stepper n.val).v →
      l.homing n.val = false →
      l.bit (R.SPn_STATUS_dir n.val) = true →
      l.homePair n.val .neg ≤ 11 →
      l.bit (R.SI_DIn_STAT_state (l.homePair n.val .neg)) = true →
      (l.homeWin n.val : Int) ≤ sdiff l.stamp (l.rd (R.SI_DIn_TIME (l.homePair n.val .neg))) →
      Gives (.limitHit ln n) s ln ((l.homeLevel n.val (l.homePair n.val .neg) true).limitStop c n.val)) ∧
    (∀ (s : State) (ln : LaneId) (c : Ctx) (l : Lane) (n : Fin 4), Here s ln c l →
      (l.stepper n.val).v = 0 ∨ l.homing n.val = true →
      Gives (.limitHit ln n) s ln (l)) ∧
    (∀ (s : State) (ln : LaneId) (c : Ctx) (l : Lane) (n : Fin 4) (v lo : Word) (q : W40), Here s ln c l →
      n.val < stepperCount c.part.member →
      lo = (tabGet l.staging (R.SPn_CMP n.val)).getD (l.rd (R.SPn_CMP n.val)) →
      q = v.setWidth 8 ++ lo →
      l.stepDue c n.val = false →
      0 < (l.stepper n.val).v →
      0 < (q - l.pair (R.SPn_POS n.val)).toInt * l.stepDir n.val →
      Yields (.cmpArm ln n v) s ln (fun m => m.pair (R.SPn_CMP n.val) = q ∧ m.bit (R.SPn_STATUS_cmp_armed n.val) = true ∧ m.staging = tabDel l.staging (R.SPn_CMP n.val) ∧ m.bus = .done ∧ SameRegs l m [R.SPn_CMP n.val, R.SPn_CMP n.val + 4, R.SPn_STATUS n.val] ∧ SameMem l m)) ∧
    (∀ (s : State) (ln : LaneId) (c : Ctx) (l : Lane) (n : Fin 4) (v lo : Word) (q : W40), Here s ln c l →
      n.val < stepperCount c.part.member →
      lo = (tabGet l.staging (R.SPn_CMP n.val)).getD (l.rd (R.SPn_CMP n.val)) →
      q = v.setWidth 8 ++ lo →
      l.stepDue c n.val = false →
      0 < (l.stepper n.val).v →
      (q - l.pair (R.SPn_POS n.val)).toInt * l.stepDir n.val ≤ 0 →
      l.bit (R.SPn_CMP_CFG_fire_if_passed n.val) = true →
      Yields (.cmpArm ln n v) s ln (fun m => m.pair (R.SPn_CMP n.val) = q ∧ m.bit (R.SPn_STATUS_cmp_armed n.val) = false ∧ m.rd (R.SPn_CMP_TIME n.val) = l.stamp ∧ m.bit (R.SPn_CMP_CFG_late n.val) = true ∧ m.bit (R.SPn_FLAGS_behind n.val) = true ∧ m.bit (R.SPn_FLAGS_cmp_fired n.val) = true ∧ SameMem l m)) ∧
    (∀ (s : State) (ln : LaneId) (c : Ctx) (l : Lane) (n : Fin 4) (v lo : Word) (q : W40), Here s ln c l →
      n.val < stepperCount c.part.member →
      lo = (tabGet l.staging (R.SPn_CMP n.val)).getD (l.rd (R.SPn_CMP n.val)) →
      q = v.setWidth 8 ++ lo →
      l.stepDue c n.val = false →
      0 < (l.stepper n.val).v →
      (q - l.pair (R.SPn_POS n.val)).toInt * l.stepDir n.val ≤ 0 →
      l.bit (R.SPn_CMP_CFG_fire_if_passed n.val) = false →
      Yields (.cmpArm ln n v) s ln (fun m => m.pair (R.SPn_CMP n.val) = q ∧ m.bit (R.SPn_STATUS_cmp_armed n.val) = true ∧ m.bit (R.SPn_FLAGS_behind n.val) = true ∧ m.bus = .done ∧ SameRegs l m [R.SPn_CMP n.val, R.SPn_CMP n.val + 4, R.SPn_STATUS n.val, R.SPn_FLAGS n.val] ∧ SameMem l m)) ∧
    (∀ (s : State) (ln : LaneId) (c : Ctx) (l : Lane) (n : Fin 4) (v lo : Word) (q : W40), Here s ln c l →
      n.val < stepperCount c.part.member →
      lo = (tabGet l.staging (R.SPn_CMP n.val)).getD (l.rd (R.SPn_CMP n.val)) →
      q = v.setWidth 8 ++ lo →
      l.stepDue c n.val = false →
      (l.stepper n.val).v = 0 →
      q ≠ l.pair (R.SPn_POS n.val) →
      Yields (.cmpArm ln n v) s ln (fun m => m.pair (R.SPn_CMP n.val) = q ∧ m.bit (R.SPn_STATUS_cmp_armed n.val) = true ∧ m.bus = .done ∧ SameRegs l m [R.SPn_CMP n.val, R.SPn_CMP n.val + 4, R.SPn_STATUS n.val] ∧ SameMem l m)) ∧
    (∀ (s : State) (ln : LaneId) (c : Ctx) (l : Lane) (n : Fin 4) (v : Word), Here s ln c l →
      n.val < stepperCount c.part.member →
      l.stepDue c n.val = true →
      Gives (.cmpArm ln n v) s ln ({ l with staging := tabDel l.staging (R.SPn_CMP n.val), bus := .done }.setStepper n.val { l.stepper n.val with cmpLate := some (v.setWidth 8 ++ (tabGet l.staging (R.SPn_CMP n.val)).getD (l.rd (R.SPn_CMP n.val))) })) ∧
    (∀ (s : State) (ln : LaneId) (c : Ctx) (l : Lane) (n : Fin 4) (v : Word), Here s ln c l →
      stepperCount c.part.member ≤ n.val →
      Gives (.cmpArm ln n v) s ln ({ l with bus := .error })) ∧
    (∀ (s : State) (ln : LaneId) (c : Ctx) (l : Lane) (n : Fin 4), Here s ln c l →
      n.val < stepperCount c.part.member →
      Gives (.cmpDisarm ln n) s ln ({ l.put (R.SPn_STATUS_cmp_armed n.val) 0 with bus := .done })) ∧
    (∀ (s : State) (ln : LaneId) (c : Ctx) (l : Lane) (n : Fin 4), Here s ln c l →
      stepperCount c.part.member ≤ n.val →
      Gives (.cmpDisarm ln n) s ln ({ l with bus := .error })) ∧
    (∀ (s : State) (ln : LaneId) (c : Ctx) (l : Lane) (n : Fin 4) (v : Word), Here s ln c l →
      n.val < stepperCount c.part.member →
      100 ≤ v.toNat % 65536 →
      v.toNat % 65536 ≤ v.toNat / 65536 →
      v.toNat / 65536 ≤ l.get (R.SPn_I_LIMITS_i_ceil n.val) →
      Gives (.curEnvWrite ln n v) s ln ({ l with staging := tabPut l.staging (R.SPn_CUR_ENV n.val) v, bus := .done })) ∧
    (∀ (s : State) (ln : LaneId) (c : Ctx) (l : Lane) (n : Fin 4) (v : Word), Here s ln c l →
      n.val < stepperCount c.part.member →
      v.toNat % 65536 < 100 ∨ v.toNat / 65536 < v.toNat % 65536 ∨ l.get (R.SPn_I_LIMITS_i_ceil n.val) < v.toNat / 65536 →
      Gives (.curEnvWrite ln n v) s ln ({ l with bus := .done })) ∧
    (∀ (s : State) (ln : LaneId) (c : Ctx) (l : Lane) (n : Fin 4) (v : Word), Here s ln c l →
      stepperCount c.part.member ≤ n.val →
      Gives (.curEnvWrite ln n v) s ln ({ l with bus := .error }))

/-- What the angle interfaces and the safety I/O do. (R329, R333, R337, R338, R348, R349, R351, R356, R358, R360, R365,
R367) -/
def Obligations.SensorsAndOutputsCommandsComplete : Prop :=
    (∀ (s : State) (ln : LaneId) (c : Ctx) (l : Lane) (a b : SinCos), Here s ln c l →
      l.bit R.PW_STATUS_pads_held = false →
      Tells (.angleSample ln a b) s ln ((l.afSample c 0 a).afSample c 1 b)) ∧
    (∀ (s : State) (ln : LaneId) (c : Ctx) (l : Lane) (a b : SinCos), Here s ln c l →
      l.bit R.PW_STATUS_pads_held = true →
      Gives (.angleSample ln a b) s ln (l)) ∧
    (∀ (s : State) (ln : LaneId) (c : Ctx) (l : Lane) (a b : SinCos), Here s ln c l →
      l.get (R.AFn_CFG_mode 0) = 0 →
      l.get (R.AFn_CFG_mode 1) = 0 →
      Gives (.angleSample ln a b) s ln (l)) ∧
    (∀ (s : State) (ln : LaneId) (c : Ctx) (l : Lane) (a b : SinCos) (sc : Int × Int) (d : Int), Here s ln c l →
      l.bit R.PW_STATUS_pads_held = false →
      l.get (R.AFn_CFG_mode 0) ≠ 0 →
      l.get (R.AFn_CFG_mode 1) = 0 →
      l.correctSample 0 a = sc →
      l.get (R.AFn_MON_CFG_amp_lo 0) * l.get (R.AFn_NOMINAL_a_nom 0) ≤ radius sc.1 sc.2 * 256 →
      radius sc.1 sc.2 * 256 ≤ l.get (R.AFn_MON_CFG_amp_hi 0) * l.get (R.AFn_NOMINAL_a_nom 0) →
      nearEnd a.s = false →
      nearEnd a.c = false →
      l.supplyOk c (l.get (R.AFn_CFG_supply 0)) = true →
      l.afStarted 0 = true →
      l.afExpired c 0 = false →
      d = signed12 (l.fromZero 0 (phaseOf sc.1 sc.2) - (l.pair (R.AFn_POS 0)).toNat % 4096) →
      d.natAbs ≤ 1024 →
      Told (.angleSample ln a b) s ln (fun m => m.pair (R.AFn_POS 0) = l.pair (R.AFn_POS 0) + BitVec.ofInt 40 d ∧ m.bit (R.AFn_STATUS_valid 0) = true ∧ m.bit (R.AFn_STATUS_coasting 0) = false ∧ m.rd (R.AFn_RAW 0) = a.s ++ a.c ∧ (m.af 0).invalidAt = none ∧ SameRegs l m [R.AFn_POS 0, R.AFn_POS 0 + 4, R.AFn_STATUS 0, R.AFn_RAW 0, R.AFn_AMP 0] ∧ SameMem l m)) ∧
    (∀ (s : State) (ln : LaneId) (c : Ctx) (l : Lane) (n : Fin 2) (t : Nat), Here s ln c l →
      (l.af n.val).invalidAt = some t →
      t + l.get (R.AFn_FAULT_CFG_fault_us n.val) * 1000 < c.now →
      l.bit (R.AFn_STATUS_sa_fault n.val) = false →
      Tells (.angleFaultTimeout ln n) s ln (let l1 := ((l.put (R.AFn_STATUS_sa_fault n.val) 1).wr (R.AFn_FAULT n.val) (BitVec.ofNat 32 (2 ^ 31 + (l.af n.val).kind)))
        let l2 := ((l1.stampAt (R.AFn_FAULT_TIME n.val)).put R.FC_SENSOR_sa_fault (bitPut (l.get R.FC_SENSOR_sa_fault) n.val true)).flag (R.AF_FLAGS_sa_fault n.val)
        (l2.flag R.FC_FLAGS_sensor_fault).countNow c 9 (laneCode c.id) n.val)) ∧
    (∀ (s : State) (ln : LaneId) (c : Ctx) (l : Lane) (n : Fin 2), Here s ln c l →
      (l.af n.val).invalidAt = none ∨ l.bit (R.AFn_STATUS_sa_fault n.val) = true →
      Gives (.angleFaultTimeout ln n) s ln (l)) ∧
    (∀ (s : State) (ln : LaneId) (c : Ctx) (l : Lane) (n : Fin 2) (t : Nat), Here s ln c l →
      l.si.checkFrom = some t →
      t + 20000000 ≤ c.now →
      l.get (R.AFn_CFG_mode n.val) ≠ 0 →
      l.afStarted n.val = false →
      Tells (.interfaceStartTimeout ln n) s ln (l.saFault c n.val 6)) ∧
    (∀ (s : State) (ln : LaneId) (c : Ctx) (l : Lane) (n : Fin 2), Here s ln c l →
      l.si.checkFrom = none ∨ l.get (R.AFn_CFG_mode n.val) = 0 ∨ l.afStarted n.val = true →
      Gives (.interfaceStartTimeout ln n) s ln (l)) ∧
    (∀ (s : State) (ln : LaneId) (c : Ctx) (l : Lane) (n : Fin 2) (t : Nat) (up : Bool), Here s ln c l →
      (l.af n.val).cross = some (t, up) →
      t + (l.rd (R.AFn_ZERO_TIME n.val)).toNat ≤ c.now →
      l.bit (R.AFn_STATUS_coasting n.val) = false →
      Gives (.speedZeroTimeout ln n) s ln (l.setAf n.val { l.af n.val with period := 0, gap := none })) ∧
    (∀ (s : State) (ln : LaneId) (c : Ctx) (l : Lane) (n : Fin 2), Here s ln c l →
      (l.af n.val).cross = none ∨ l.bit (R.AFn_STATUS_coasting n.val) = true →
      Gives (.speedZeroTimeout ln n) s ln (l)) ∧
    (∀ (s : State) (ln : LaneId) (c : Ctx) (l : Lane) (n : Fin 12) (a b : Bool) (e1 e2 : Word), Here s ln c l →
      fldOf (R.SI_DIn_CFG_mode n.val) (l.pairCfg n.val) = 0 →
      Gives (.contactSample ln n ⟨a, e1⟩ ⟨b, e2⟩) s ln (l)) ∧
    (∀ (s : State) (ln : LaneId) (c : Ctx) (l : Lane) (n : Fin 12) (e : Word), Here s ln c l →
      fldOf (R.SI_DIn_CFG_mode n.val) (l.pairCfg n.val) = 1 →
      fldOf (R.SI_DIn_CFG_t_filt n.val) (l.pairCfg n.val) = 0 →
      l.masked c 0 = false →
      l.masked c 1 = false →
      l.contact n.val false = false →
      l.contact n.val true = false →
      (l.contacts n.val).n1 = none →
      (l.contacts n.val).n2 = none →
      l.get (R.SI_DIn_STAT_fault n.val) = 0 →
      l.bit (R.SI_DIn_STAT_state n.val) = false →
      (l.contacts n.val).bothOff = true →
      Yields (.contactSample ln n ⟨true, e⟩ ⟨true, e⟩) s ln (fun m => m.bit (R.SI_DIn_STAT_state n.val) = true ∧ m.contact n.val false = true ∧ m.contact n.val true = true ∧ m.rd (R.SI_DIn_TIME n.val) = l.rawEdge (c.now - (l.contacts n.val).sampleAt) e ∧ m.bit (R.SI_DIn_STAT_mixed n.val) = false ∧ m.bit R.SI_FLAGS_di_change = true ∧ SameRegs l m [R.SI_DIn_STAT n.val, R.SI_DIn_TIME n.val, R.SI_DI_RAW, R.SI_FLAGS] ∧ SameMem l m)) ∧
    (∀ (s : State) (ln : LaneId) (c : Ctx) (l : Lane) (n : Fin 12) (t : Nat), Here s ln c l →
      (l.contacts n.val).mixedAt = some t →
      t + fldOf (R.SI_DIn_CFG_t_disc n.val) (l.pairCfg n.val) * 10000000 < c.now →
      l.get (R.SI_DIn_STAT_fault n.val) = 0 →
      Yields (.discrepancyTimeout ln n) s ln (fun m => m.get (R.SI_DIn_STAT_fault n.val) = 1 ∧ m.rd (R.SI_DIn_FAULT_TIME n.val) = l.stamp ∧ m.bit R.SI_FLAGS_discrepancy = true ∧ m.bit (R.SI_DIn_STAT_state n.val) = l.bit (R.SI_DIn_CFG_fault_state n.val) ∧ SameRegs l m [R.SI_DIn_STAT n.val, R.SI_DIn_TIME n.val, R.SI_DIn_FAULT_TIME n.val, R.SI_FLAGS] ∧ SameMem l m)) ∧
    (∀ (s : State) (ln : LaneId) (c : Ctx) (l : Lane) (n : Fin 12), Here s ln c l →
      (l.contacts n.val).mixedAt = none →
      Gives (.discrepancyTimeout ln n) s ln (l)) ∧
    (∀ (s : State) (ln : LaneId) (c : Ctx) (l : Lane) (k : Fin 2), Here s ln c l →
      Nat.testBit (l.get R.SI_TP_STAT_pulsing) k.val = false →
      l.tpDue c k.val = true →
      Gives (.testPulseStart ln k) s ln ((l.put R.SI_TP_STAT_pulsing (bitPut (l.get R.SI_TP_STAT_pulsing) k.val true)).setSource k.val ⟨some c.now, (l.source k.val).maskEnd, false, l.rawMask false, l.rawMask true⟩)) ∧
    (∀ (s : State) (ln : LaneId) (c : Ctx) (l : Lane) (k : Fin 2), Here s ln c l →
      Nat.testBit (l.get R.SI_TP_STAT_pulsing) k.val = true ∨ l.tpDue c k.val = false →
      Gives (.testPulseStart ln k) s ln (l)) ∧
    (∀ (s : State) (ln : LaneId) (c : Ctx) (l : Lane) (k : Fin 2) (a b : BitVec 12) (t : Nat), Here s ln c l →
      (l.source k.val).startAt = some t →
      Nat.testBit (l.get R.SI_TP_STAT_pulsing) k.val = true →
      (l.source k.val).checked = false →
      t + 50000 ≤ c.now →
      (∀ n, n < 12 → l.bit (R.SI_DIn_CFG_tp_check n) = false) →
      Gives (.testPulseCheck ln k a b) s ln (l.setSource k.val { l.source k.val with checked := true })) ∧
    (∀ (s : State) (ln : LaneId) (c : Ctx) (l : Lane) (k : Fin 2) (a b : BitVec 12) (t : Nat), Here s ln c l →
      (l.source k.val).startAt = some t →
      t + 50000 ≤ c.now →
      k.val = 0 →
      Nat.testBit (l.get R.SI_TP_STAT_pulsing) k.val = true →
      (l.source k.val).checked = false →
      l.bit (R.SI_DIn_CFG_tp_check 3) = true →
      l.get (R.SI_DIn_CFG_mode 3) ≠ 0 →
      (l.source k.val).pre1.getLsbD 3 = true →
      a.getLsbD 3 = true →
      l.get (R.SI_DIn_STAT_fault 3) = 0 →
      Yields (.testPulseCheck ln k a b) s ln (fun m => m.get (R.SI_DIn_STAT_fault 3) = 2 ∧ m.rd (R.SI_DIn_FAULT_TIME 3) = l.stamp ∧ m.bit R.SI_FLAGS_short_high = true ∧ m.bit (R.SI_DIn_STAT_state 3) = l.bit (R.SI_DIn_CFG_fault_state 3) ∧ SameMem l m)) ∧
    (∀ (s : State) (ln : LaneId) (c : Ctx) (l : Lane) (k : Fin 2) (t : Nat), Here s ln c l →
      (l.source k.val).startAt = some t →
      Nat.testBit (l.get R.SI_TP_STAT_pulsing) k.val = true →
      t + l.get R.SI_TP_CFG_pulse_us * 1000 ≤ c.now →
      Gives (.testPulseEnd ln k) s ln ((l.put R.SI_TP_STAT_pulsing (bitPut (l.get R.SI_TP_STAT_pulsing) k.val false)).setSource k.val { l.source k.val with maskEnd := c.now + 50000 })) ∧
    (∀ (s : State) (ln : LaneId) (c : Ctx) (l : Lane) (k : Fin 2), Here s ln c l →
      Nat.testBit (l.get R.SI_TP_STAT_pulsing) k.val = false →
      Gives (.testPulseEnd ln k) s ln (l)) ∧
    (∀ (s : State) (ln : LaneId) (c : Ctx) (l : Lane) (k : Fin 2), Here s ln c l →
      (∀ n, n < 12 → l.bit (R.SI_DIn_CFG_tp_check n) = false) →
      Gives (.tpSourceFault ln k) s ln ((l.put R.SI_TP_STAT_fault (bitPut (l.get R.SI_TP_STAT_fault) k.val true)).flag R.SI_FLAGS_tp_fault)) ∧
    (∀ (s : State) (ln : LaneId) (c : Ctx) (l : Lane) (v : Word), Here s ln c l →
      l.active = true →
      l.unitsHalt = false →
      (∀ k, k < 8 → l.get (R.SI_DOk_CFG_role k) ≠ 2) →
      Gives (.doSetWrite ln v) s ln ({ l.put R.SI_DO_SET_out v.toNat with bus := .done })) ∧
    (∀ (s : State) (ln : LaneId) (c : Ctx) (l : Lane) (v : Word), Here s ln c l →
      l.active = true →
      l.unitsHalt = false →
      (∀ k, k < 8 → l.get (R.SI_DOk_CFG_role k) = 2) →
      (∀ k, k < 8 → l.latchHold.getLsbD (16 + k) = false) →
      Yields (.doSetWrite ln v) s ln (fun m => m.get R.SI_DO_STATE_cmd = v.toNat % 256 ∧ m.get R.SI_DO_SET_out = v.toNat % 256 ∧ m.bus = .done ∧ SameRegs l m [R.SI_DO_SET, R.SI_DO_STATE] ∧ SameMem l m)) ∧
    (∀ (s : State) (ln : LaneId) (c : Ctx) (l : Lane) (v : Word), Here s ln c l →
      l.active = false ∨ l.unitsHalt = true →
      Gives (.doSetWrite ln v) s ln ({ l with bus := .done })) ∧
    (∀ (s : State) (ln : LaneId) (c : Ctx) (l : Lane) (k : Fin 8) (a b d : Bool), Here s ln c l →
      l.pulseSlot c k.val = true →
      l.pulseFails k.val a b d = true →
      l.bit (R.SI_DOk_STAT_valid k.val) = false →
      Yields (.outputOffPulse ln k a b d) s ln (fun m => m.bit (R.SI_DOk_STAT_valid k.val) = true ∧ m.get (R.SI_DOk_STAT_kind k.val) = 4 ∧ m.rd (R.SI_DOk_FAULT_TIME k.val) = l.stamp ∧ m.outputDriven k.val = false ∧ m.bit R.SI_FLAGS_op_fail = true ∧ SameRegs l m [R.SI_DOk_STAT k.val, R.SI_DOk_FAULT_TIME k.val, R.SI_FLAGS] ∧ SameMem l m)) ∧
    (∀ (s : State) (ln : LaneId) (c : Ctx) (l : Lane) (k : Fin 8) (a b d : Bool), Here s ln c l →
      l.pulseSlot c k.val = false ∨ l.pulseFails k.val a b d = false →
      Gives (.outputOffPulse ln k a b d) s ln (l)) ∧
    (∀ (s : State) (ln : LaneId) (c : Ctx) (l : Lane) (k : Fin 8) (f : Fin 7), Here s ln c l →
      f.val = 1 ∨ f.val = 6 ∨ (f.val = 2 ∧ l.outputDriven k.val = false ∧ l.outputStood c k.val 50000 = true ∧ l.rowApplies c 3 = false) ∨ (f.val = 3 ∧ l.active = true ∧ Nat.testBit (l.get R.SI_DO_STATE_cmd) k.val = false ∧ l.bit R.LM_ROLE_in_zone = false ∧ l.outputStood c k.val 10000000 = true) ∨ (f.val = 4 ∧ l.pulseSlot c k.val = true ∧ 20000 ≤ l.pulsePhase k.val) ∨ (f.val = 5 ∧ l.bit (R.SI_DOk_CFG_open_chk k.val) = true ∧ l.outputDriven k.val = true ∧ l.outputStood c k.val 100000000 = true) →
      l.bit (R.SI_DOk_STAT_valid k.val) = false →
      Yields (.outputFault ln k f) s ln (fun m => m.bit (R.SI_DOk_STAT_valid k.val) = true ∧ m.get (R.SI_DOk_STAT_kind k.val) = f.val ∧ m.rd (R.SI_DOk_FAULT_TIME k.val) = l.stamp ∧ m.stageOn = l.stageOn &&& ~~~BitVec.ofNat 32 (2 ^ (16 + k.val)) ∧ SameRegs l m [R.SI_DOk_STAT k.val, R.SI_DOk_FAULT_TIME k.val, R.SI_FLAGS] ∧ SameMem l m)) ∧
    (∀ (s : State) (ln : LaneId) (c : Ctx) (l : Lane) (k : Fin 8) (f : Fin 7), Here s ln c l →
      f.val = 0 ∨ (f.val ≠ 2 ∧ l.bit (R.SI_DOk_STAT_valid k.val) = true) ∨ (f.val = 2 ∧ (l.outputDriven k.val = true ∨ l.outputStood c k.val 50000 = false)) ∨ (f.val = 3 ∧ (l.active = false ∨ Nat.testBit (l.get R.SI_DO_STATE_cmd) k.val = true ∨ l.bit R.LM_ROLE_in_zone = true ∨ l.outputStood c k.val 10000000 = false)) ∨ (f.val = 4 ∧ (l.pulseSlot c k.val = false ∨ l.pulsePhase k.val < 20000)) ∨ (f.val = 5 ∧ (l.bit (R.SI_DOk_CFG_open_chk k.val) = false ∨ l.outputDriven k.val = false ∨ l.outputStood c k.val 100000000 = false)) →
      Gives (.outputFault ln k f) s ln (l)) ∧
    (∀ (s : State) (ln : LaneId) (c : Ctx) (l : Lane) (a b : List (BitVec 16)), Here s ln c l →
      l.bit R.PW_STATUS_pads_held = false →
      Tells (.analogSample ln a b) s ln ((List.range 8).foldl (fun y n => y.analogStep c n ((a[n]?).getD 0) b) (l.showSupplies c b))) ∧
    (∀ (s : State) (ln : LaneId) (c : Ctx) (l : Lane) (a b : List (BitVec 16)), Here s ln c l →
      l.bit R.PW_STATUS_pads_held = true →
      Tells (.analogSample ln a b) s ln (l.showSupplies c b)) ∧
    (∀ (s : State) (ln : LaneId) (c : Ctx) (l : Lane) (a b : List (BitVec 16)), Here s ln c l →
      (∀ n, n < 8 → l.get (R.SI_AIm_CFG_mode n) = 0) →
      Tells (.analogSample ln a b) s ln (l.showSupplies c b)) ∧
    (∀ (s : State) (ln : LaneId) (c : Ctx) (l : Lane) (n : Fin 8) (t : Nat), Here s ln c l →
      (l.analog n.val).invalidAt = some t →
      t + l.get (R.SI_AIm_FAULT_CFG_fault_us n.val) * 1000 < c.now →
      2 ≤ l.get (R.SI_AIm_CFG_role n.val) →
      l.get (R.SI_AIm_CFG_role n.val) ≤ 4 →
      (l.analog n.val).told = false →
      l.bit (R.SI_AIm_STAT_sp_fault n.val) = false →
      Tells (.analogFaultTimeout ln n) s ln (let l0 := l.setAnalog n.val { l.analog n.val with told := true }
        let l1 := ((l0.put (R.SI_AIm_STAT_sp_fault n.val) 1).put (R.SI_AIm_STAT_kind n.val) (l.analog n.val).kind).stampAt (R.SI_AIm_FAULT_TIME n.val)
        (((l1.put R.FC_SENSOR_sp_fault (bitPut (l.get R.FC_SENSOR_sp_fault) n.val true)).flag R.SI_FLAGS_sp_fault).flag R.FC_FLAGS_sensor_fault).countNow c 0xA (laneCode c.id) n.val)) ∧
    (∀ (s : State) (ln : LaneId) (c : Ctx) (l : Lane) (n : Fin 8) (t : Nat), Here s ln c l →
      (l.analog n.val).invalidAt = some t →
      t + l.get (R.SI_AIm_FAULT_CFG_fault_us n.val) * 1000 < c.now →
      l.get (R.SI_AIm_CFG_role n.val) = 1 →
      (l.analog n.val).told = false →
      Tells (.analogFaultTimeout ln n) s ln ((l.setAnalog n.val { l.analog n.val with told := true }).flag R.SI_FLAGS_ai_invalid)) ∧
    (∀ (s : State) (ln : LaneId) (c : Ctx) (l : Lane) (n : Fin 8), Here s ln c l →
      (l.analog n.val).invalidAt = none ∨ (l.analog n.val).told = true →
      Gives (.analogFaultTimeout ln n) s ln (l)) ∧
    (∀ (s : State) (ln : LaneId) (c : Ctx) (l : Lane) (k : Fin 2) (mv : BitVec 16) (lim : Bool), Here s ln c l →
      l.bit (R.SI_SUP_on k.val) = true →
      lim = true ∨ offWindow mv = true →
      l.get (R.SI_SUP_faults k.val) < 2 →
      Yields (.supplyFault ln k mv lim) s ln (fun m => m.bit (R.SI_SUP_on k.val) = false ∧ m.bit (R.SI_SUP_fault k.val) = true ∧ m.get (R.SI_SUP_faults k.val) = l.get (R.SI_SUP_faults k.val) + 1 ∧ m.get (R.SI_SUP_mv k.val) = mv.toNat ∧ m.bit (R.SI_SUP_limit k.val) = false ∧ m.bit R.SI_FLAGS_sup_fault = true ∧ tabGet m.si.supOffAt k.val = some c.now ∧ m.stageOn = l.stageOn &&& ~~~BitVec.ofNat 32 (2 ^ (24 + k.val)) ∧ SameRegs l m [R.SI_SUP k.val, R.SI_FLAGS] ∧ SameMem l m)) ∧
    (∀ (s : State) (ln : LaneId) (c : Ctx) (l : Lane) (k : Fin 2) (mv : BitVec 16) (lim : Bool), Here s ln c l →
      l.bit (R.SI_SUP_on k.val) = true →
      lim = true ∨ offWindow mv = true →
      2 ≤ l.get (R.SI_SUP_faults k.val) →
      Yields (.supplyFault ln k mv lim) s ln (fun m => m.bit (R.SI_SUP_on k.val) = false ∧ m.get (R.SI_SUP_faults k.val) = 3 ∧ m.bit (R.SI_SUP_latched k.val) = true ∧ m.bit R.SI_FLAGS_sup_latched = true ∧ SameRegs l m [R.SI_SUP k.val, R.SI_FLAGS] ∧ SameMem l m)) ∧
    (∀ (s : State) (ln : LaneId) (c : Ctx) (l : Lane) (k : Fin 2) (mv : BitVec 16) (lim : Bool), Here s ln c l →
      l.bit (R.SI_SUP_on k.val) = false ∨ (lim = false ∧ offWindow mv = false) →
      Gives (.supplyFault ln k mv lim) s ln (l)) ∧
    (∀ (s : State) (ln : LaneId) (c : Ctx) (l : Lane) (k : Fin 2) (t : Nat), Here s ln c l →
      tabGet l.si.supOffAt k.val = some t →
      l.bit (R.SI_SUP_fault k.val) = true →
      l.bit (R.SI_SUP_latched k.val) = false →
      t + 100000000 ≤ c.now →
      Yields (.supplyRetry ln k) s ln (fun m => m.bit (R.SI_SUP_on k.val) = true ∧ m.bit (R.SI_SUP_fault k.val) = false ∧ m.bit (R.SI_SUP_limit k.val) = false ∧ tabGet m.si.supOkAt k.val = some (c.now + 1000000) ∧ m.stageOn.getLsbD (24 + k.val) = true ∧ SameRegs l m [R.SI_SUP k.val] ∧ SameMem l m)) ∧
    (∀ (s : State) (ln : LaneId) (c : Ctx) (l : Lane) (k : Fin 2), Here s ln c l →
      l.bit (R.SI_SUP_fault k.val) = false ∨ l.bit (R.SI_SUP_latched k.val) = true ∨ tabGet l.si.supOffAt k.val = none →
      Gives (.supplyRetry ln k) s ln (l))

/-- The start from supply to READY. (R467, R476, R477, R519, R522, R523, R527, R529, R531, R532, R534, R535) -/
def Obligations.StartCommandsComplete : Prop :=
    (∀ (s : State) (ln : LaneId),
      s.has ln = true →
      (s.lane ln).phase = .off →
      exec (.laneSupplyRise ln) s = .next ((s.setLane ln (((s.lane ln).reborn (s.ctx ln)).suppliesOn)).supplyMarshal)) ∧
    (∀ (s : State) (ln : LaneId),
      s.has ln = true →
      (s.lane ln).phase ≠ .off →
      exec (.laneSupplyRise ln) s = .next ((s.setLane ln (s.lane ln)).supplyMarshal)) ∧
    (∀ (s : State) (ln : LaneId) (c : Ctx) (l : Lane), Here s ln c l →
      l.phase = .boot →
      l.presenceOk c = true →
      l.calBytes = [] →
      Gives (.bootRom ln () ()) s ln (let l2 := (((l.put R.PW_STATUS_presence 1).takeRecord ((l.put R.PW_STATUS_presence 1).st.afterDormant && (l.put R.PW_STATUS_presence 1).bankOk 3)).calibrate c).showLife c
        { (l2.showSlot 0).showSlot 1 with phase := .hashing, pw := { l2.pw with bootAt := some c.now } })) ∧
    (∀ (s : State) (ln : LaneId) (c : Ctx) (l : Lane), Here s ln c l →
      l.phase = .hashing →
      l.slotValid c 0 = true →
      l.slotValid c 1 = false →
      Gives (.imageHashDone ln () ()) s ln (let l1 := { l with cf := { l.cf with digestP := l.slotDigest 0, digestA := l.slotDigest 1, cand := some 0, fall := none, boot := some 0 } }
        { (((l1.showSlot 0).showSlot 1).putB R.CF_SLOT_P_valid true).putB R.CF_SLOT_A_valid false with phase := .testing })) ∧
    (∀ (s : State) (ln : LaneId) (c : Ctx) (l : Lane), Here s ln c l →
      l.phase = .hashing →
      l.slotValid c 0 = false →
      l.slotValid c 1 = false →
      Yields (.imageHashDone ln () ()) s ln (fun m => m.phase = .halted)) ∧
    (∀ (s : State) (ln : LaneId) (c : Ctx) (l : Lane) (id : BitVec 64), Here s ln c l →
      l.phase = .agreeing →
      l.offerNow = some id →
      Gives (.imageFrameSend ln) s ln (l.queueAll c ⟨5, [id.setWidth 32, id.extractLsb' 32 32, if l.cf.cand = some 1 then 1 else 0]⟩ (othersOf c))) ∧
    (∀ (s : State) (ln : LaneId) (c : Ctx) (l : Lane) (sender : LaneId) (id : BitVec 64) (alt : Bool), Here s ln c l →
      sender ≠ c.id →
      l.bit R.CF_STATUS_agreed = true →
      l.ea.started = true →
      (l.peer sender).hb.all (fun ws => decide (2 ≤ (frameWord ws 0).toNat / 2 ^ 30)) = true →
      Gives (.imageFrameReceive ln sender id alt) s ln (let same := decide ((l.peer sender).offer = some (id, alt))
        let l2 := l.setPeer sender { l.peer sender with offer := some (id, alt), offerAt := if same then (l.peer sender).offerAt else c.now }
        l2.queueFrame c sender ⟨5, [l2.runId.setWidth 32, l2.runId.extractLsb' 32 32, BitVec.ofNat 32 (l2.get R.CF_STATUS_slot)]⟩)) ∧
    (∀ (s : State) (ln : LaneId) (c : Ctx) (l : Lane) (id : BitVec 64) (k : Nat), Here s ln c l →
      l.phase = .agreeing →
      l.offersStand c = true →
      l.offerless c = 0 →
      majorityOf (l.offers c) 0 = some id →
      (l.offers c).all (fun o => decide (o.2 = id)) = true →
      l.offerNow = some id →
      l.cf.cand = some k →
      Gives (.agreementRoundDecided ln) s ln ((l.agreeDone c 1 (maskSet (lanesOffering (l.offers c) id) c.id true) (l.cf.round + 1) id).loadImage c k)) ∧
    (∀ (s : State) (ln : LaneId) (c : Ctx) (l : Lane), There s ln c l →
      Gives (.presenceClose ln) s ln (let l1 := ((l.put R.PW_STATUS_presence 1).stampAt R.PW_PRES_TIME).flag R.PW_FLAGS_presence_close
        { l1 with pw := { l1.pw with closedAt := some c.now } })) ∧
    (∀ (s : State) (ln : LaneId) (c : Ctx) (l : Lane) (r : SelfTest), Here s ln c l →
      l.phase = .testing →
      l.bit R.PW_STATUS_pads_held = false →
      Gives (.selfTestDone ln r) s ln (let l2 := r.digests.foldl (fun y e => y.scratch c e.val 0) ((l.testTwins c r).testMemory c r)
        let l3 := if r.converters.any (fun d => decide (2000 < d)) then l2.logicFault c 0xC else l2
        let l4 := ([0, 1].filter (fun (n : Fin 2) => decide (n.val < motorCount c.part.member))).foldl (fun (y : Lane) n =>
          y.testStage c n ((r.stages[n.val]?).getD default)) l3
        let l5 := (l4.testOutputs c r).forgetOffers c
        { l5 with phase := .agreeing, cf := { l5.cf with round := 0, roundAt := c.now } })) ∧
    (∀ (s : State) (ln : LaneId) (c : Ctx) (l : Lane), Here s ln c l →
      l.phase = .agreed →
      l.nxState = nxActive →
      l.ea.started = false →
      l.heatIndex = 0 →
      l.runningHeard c = none →
      Gives (.schedulerStart ln) s ln (let l1 := (l.wr R.EA_HEAT_CNT 0).startRole c
        let l3 := { l1 with phase := .sensing, ea := { l1.ea with started := true, heatAt := c.now }, st := { l1.st with schedAt := some c.now, late := false, awardAt := none }, si := { l1.si with checkFrom := some c.now } }
        (((l3.countEngines c).startLives c).showLife c).boundary c)) ∧
    (∀ (s : State) (ln : LaneId) (c : Ctx) (l : Lane) (x : LaneId) (ws : List Word), Here s ln c l →
      l.phase = .agreed →
      l.nxState = nxActive →
      l.ea.started = false →
      l.heatIndex = 0 →
      l.runningHeard c = some (x, ws) →
      Gives (.schedulerStart ln) s ln (let l1 := (l.wr R.EA_HEAT_CNT (BitVec.ofNat 32 (l.adoptedHeat ws))).startRole c
        let l2 := if (frameWord ws 0).toNat / 2 ^ 30 = roleActive then l1.put R.LM_ROLE_baton_lane (laneCode x) else l1
        let l3 := { l2 with phase := .sensing, ea := { l2.ea with started := true, heatAt := c.now }, st := { l2.st with schedAt := some c.now, late := true, awardAt := some c.now }, si := { l2.si with checkFrom := some c.now } }
        (((l3.countEngines c).startLives c).showLife c).boundary c)) ∧
    (∀ (s : State) (ln : LaneId) (c : Ctx) (l : Lane), Here s ln c l →
      l.phase = .ready ∨ l.phase = .awarding →
      l.nxState = nxActive →
      l.ea.started = false →
      l.heatIndex = 0 →
      Gives (.schedulerStart ln) s ln ((l.heatsAgain c).boundary c)) ∧
    (∀ (s : State) (ln : LaneId) (c : Ctx) (l : Lane), Here s ln c l →
      l.phase = .sensing →
      l.afterStart c 20000000 = true →
      ((l.notStarted c 0).notStarted c 1).st.noMajority < 8 →
      Tells (.sensorCheckEnd ln) s ln ({ (l.notStarted c 0).notStarted c 1 with phase := .awarding })) ∧
    (∀ (s : State) (ln : LaneId) (c : Ctx) (l : Lane), Here s ln c l →
      l.phase = .awarding →
      l.st.late = false →
      l.st.awardAt = none →
      l.role = roleStandby →
      l.afterStart c (20000000 + laneCode c.id * l.slotTime c) = true →
      Gives (.pulseSlotStart ln) s ln ((List.range (motorCount c.part.member)).foldl (fun y ch => y.startPulse c ch) l)) ∧
    (∀ (s : State) (ln : LaneId) (c : Ctx) (l : Lane) (x : LaneId), Here s ln c l →
      l.phase = .awarding →
      l.st.late = false →
      l.st.awardAt = none →
      l.afterStart c (20000000 + (lanesOf c.part.member).length * l.slotTime c) = true →
      l.awarded c = some x →
      x ≠ c.id →
      Gives (.batonAward ln) s ln (((l.awardFaults c).foldl (fun (y : Lane) f => y.addFault c f) ({ l with st := { l.st with awardAt := some c.now, waiting := [] } }.dropLate c)).put R.LM_ROLE_baton_lane (laneCode x))) ∧
    (∀ (s : State) (ln : LaneId) (c : Ctx) (l : Lane), Here s ln c l →
      l.phase = .awarding →
      l.st.late = false →
      l.st.awardAt = none →
      l.afterStart c (20000000 + (lanesOf c.part.member).length * l.slotTime c) = true →
      l.awarded c = some c.id →
      Gives (.batonAward ln) s ln (let l2 := (l.awardFaults c).foldl (fun (y : Lane) f => y.addFault c f) ({ l with st := { l.st with awardAt := some c.now, waiting := [] } }.dropLate c)
        let l5 := (((((l2.put R.LM_ROLE_baton_lane (laneCode c.id)).setRole roleActive).setLines true).takeShare c 256).slotsAnew c).startDwell c
        (if l5.baton.dwellEnds.isSome then l5.resumeDwell c else l5).canStarts)) ∧
    (∀ (s : State) (ln : LaneId) (c : Ctx) (l : Lane) (t : Nat) (x : LaneId), Here s ln c l →
      l.st.awardAt = some t →
      l.batonLane = some x →
      l.phase = .awarding ∨ l.phase = .ready →
      x ≠ c.id →
      l.standby = true →
      l.st.late = false →
      t + 10000 ≤ c.now →
      (l.peer x).line = false →
      (l.peer x).lineAt ≤ t →
      l.baton.decision = none →
      Gives (.awardAssertTimeout ln) s ln (({ l with st := { l.st with awardFailed := some x } } : Lane).startDecision c x)) ∧
    (∀ (s : State) (ln : LaneId) (c : Ctx) (l : Lane), Here s ln c l →
      l.active = true →
      l.st.ready = false →
      l.st.awardAt ≠ none →
      l.st.late = false →
      l.bit R.BK_STATUS_engaged = false →
      l.get R.BK_PARK_state = 0 →
      Gives (.spoolHomingStart ln) s ln ((List.range (stepperCount c.part.member)).foldl (fun y n => y.startSpool c n) l)) ∧
    (∀ (s : State) (ln : LaneId) (c : Ctx) (l : Lane), Here s ln c l →
      l.phase = .awarding →
      l.fit = true →
      l.batonLane ≠ none →
      l.spoolsHomed c = true →
      l.bk.movingAt = none →
      Gives (.ready ln) s ln (let l1 := (l.disengage.stagesOff (handedMask c.part.member)).markGood
        { l1 with phase := .ready, st := { l1.st with ready := true }, bk := { l1.bk with still := true } }.showParked c))

/-- A step runs the command at the front of the queue. The queue is the model's own (assumption log 1), and so is the
nanosecond of an empty queue (assumption log 2). (R410, R426) -/
def Obligations.StepTakesTheFrontCommand : Prop :=
    (∀ (s : State) (i : Instr) (rest : List Instr), s.pending = i :: rest → step s = exec i { s with pending := rest }) ∧
    (∀ s : State, s.pending = [] → ∃ t, step s = .next t ∧ t.now = s.now + 1 ∧ t.pending = [] ∧ t.part = s.part ∧ t.marshal = s.marshal ∧
      ∀ ln, (t.lane ln).mem = (s.lane ln).mem ∧ (t.lane ln).phase = (s.lane ln).phase ∧ ((s.lane ln).cycleRuns = false → (t.lane ln).regs = (s.lane ln).regs) ∧
        ((s.lane ln).powered = false → t.lane ln = s.lane ln) ∧
        (s.has ln = true → (s.lane ln).powered = true → (t.lane ln).tm = (s.lane ln).tmNext))

/-- The state after reset is the start of every lane. That State.reset is a TS-8630-M whose supplies have just risen is
the model's choice (assumption log 3). (R39, R92, R368, R411) -/
def Obligations.ResetStateHolds : Prop :=
    (State.reset.pending = [] ∧ State.reset.fitted = true ∧ State.reset.now = 0) ∧
    (∀ ln : LaneId, (State.reset.lane ln).role = roleStarting ∧ (State.reset.lane ln).get R.LM_ID_this_lane = laneCode ln ∧
      (State.reset.lane ln).stamp = 0 ∧ (State.reset.lane ln).mem = [] ∧ (State.reset.lane ln).canonical = true ∧
      (State.reset.lane ln).stageOn = 0x3000000 ∧ (State.reset.lane ln).takeover = false)

/-- No step gives a module what its part does not have. (R7, R48, R49) -/
def Obligations.StepKeepsTheModuleFitted : Prop :=
    (∀ s t : State, s.fitted = true → step s = .next t → t.fitted = true) ∧
    (∀ s t : State, step s = .next t → t.part = s.part ∧ t.pending = s.pending.tail ∧ s.now ≤ t.now ∧ (isTriple s.part.member = false → t.laneC = s.laneC))

/-- No engine instruction changes the TCM of another engine, lane SRAM or another lane. (R134, R165, R182, R183) -/
def Obligations.EngineStoresStayInItsTcm : Prop :=
    ∀ (s t : State) (ln : LaneId) (e : EngIx) (w : Word) (i : Instr), decodeEngineWord ln e w = some i →
      (∀ p ∈ (s.lane ln).image.legs, p.2.buffer.length ≤ 32 ∧ p.2.stateSlots ≤ 64 ∧ p.2.blockAt + 8 * p.2.stateSlots ≤ 0x40000) → exec i s = .next t →
      t.part = s.part ∧ t.now = s.now ∧ t.marshal = s.marshal ∧ t.pending = s.pending ∧ (∀ x, x ≠ ln → t.lane x = s.lane x) ∧
      ∀ a, a < 0x30000000 → (a < 0x10000 * e.val ∨ 0x10000 * (e.val + 1) ≤ a) → (a < 0x10000000 ∨ 0x20000000 ≤ a) → (t.lane ln).byte a = (s.lane ln).byte a

/-- Engine words and instructions correspond one to one. (R171, R172, R173, R187) -/
def Obligations.EngineWordsRoundTrip : Prop :=
    (∀ (i : Instr) (w : Word), encodable i = true → encodeEngineWord i = some w → ∃ ln e, decodeEngineWord ln e w = some i) ∧
    (∀ (ln : LaneId) (e : EngIx) (w : Word) (i : Instr), decodeEngineWord ln e w = some i → encodeEngineWord i = some w ∧ encodable i = true)
end

