-- ==== Sys2Proof/Laws/Data.lean ====
section
/-! SUPPORT. Sorted tables, banks, memory and fields: a read after a write, and the canonical form that every write keeps. -/

namespace Sys2Proof.Machine

/-! ### Tables -/

@[simp] theorem tabGet_nil {α : Type} (i : Nat) : tabGet ([] : Tab α) i = none := rfl

theorem tabGet_tabPut {α : Type} (t : Tab α) (i j : Nat) (x : α) :
    tabGet (tabPut t i x) j = if j = i then some x else tabGet t j := by
  induction t with
  | nil => simp [tabPut, tabGet]
  | cons e t ih =>
    obtain ⟨k, v⟩ := e
    unfold tabPut
    split
    · simp [tabGet]
    · split
      · subst_vars
        by_cases h : j = k <;> simp [tabGet, h]
      · by_cases h : j = k
        · subst h
          have : j ≠ i := by omega
          simp [tabGet, this]
        · simp [tabGet, h, ih]

@[simp] theorem tabGet_tabPut_same {α : Type} (t : Tab α) (i : Nat) (x : α) : tabGet (tabPut t i x) i = some x := by
  simp [tabGet_tabPut]

theorem tabGet_tabDel {α : Type} (t : Tab α) (i j : Nat) :
    tabGet (tabDel t i) j = if j = i then none else tabGet t j := by
  induction t with
  | nil => simp [tabDel]
  | cons e t ih =>
    obtain ⟨k, v⟩ := e
    unfold tabDel
    by_cases h : i = k
    · subst h
      simp only [↓reduceIte, ih]
      by_cases hj : j = i <;> simp [tabGet, hj]
    · simp only [h, ↓reduceIte, tabGet, ih]
      by_cases hk : j = k
      · subst hk
        have : j ≠ i := fun e => h e.symm
        simp [this]
      · simp [hk]

/-- A key below every key of a table in canonical form. -/
def tabBelow {α : Type} (k : Nat) (t : Tab α) : Bool := t.all (fun e => decide (k < e.1))

theorem tabSorted_cons {α : Type} (e : Nat × α) (t : Tab α) : tabSorted (e :: t) = (tabBelow e.1 t && tabSorted t) := by
  induction t generalizing e with
  | nil => simp [tabSorted, tabBelow]
  | cons f t ih =>
    rw [tabSorted, ih f]
    cases hs : tabSorted t
    · simp
    · simp only [Bool.and_true, tabBelow, List.all_cons]
      by_cases h : e.1 < f.1
      · simp only [h, decide_true, Bool.true_and]
        cases hb : t.all (fun x => decide (f.1 < x.1))
        · simp
        · have : t.all (fun x => decide (e.1 < x.1)) = true := by
            rw [List.all_eq_true] at hb ⊢
            intro x hx
            have := hb x hx
            simp only [decide_eq_true_eq] at this ⊢
            omega
          simp [this]
      · simp [h]

theorem tabBelow_tabPut {α : Type} (k i : Nat) (x : α) (t : Tab α) (h : k < i) (ht : tabBelow k t = true) :
    tabBelow k (tabPut t i x) = true := by
  induction t with
  | nil => simp [tabPut, tabBelow, h]
  | cons e t ih =>
    obtain ⟨j, v⟩ := e
    simp only [tabBelow, List.all_cons, Bool.and_eq_true, decide_eq_true_eq] at ht
    unfold tabPut
    split
    · simp only [tabBelow, List.all_cons, h, decide_true, Bool.true_and, Bool.and_eq_true, decide_eq_true_eq]
      exact ht
    · split
      · simp only [tabBelow, List.all_cons, h, decide_true, Bool.true_and]
        exact ht.2
      · have := ih ht.2
        simp only [tabBelow, List.all_cons, Bool.and_eq_true, decide_eq_true_eq]
        exact ⟨ht.1, this⟩

/-- Putting an entry keeps the keys strictly rising. -/
theorem tabSorted_tabPut {α : Type} (i : Nat) (x : α) (t : Tab α) (h : tabSorted t = true) :
    tabSorted (tabPut t i x) = true := by
  induction t with
  | nil => simp [tabPut, tabSorted]
  | cons e t ih =>
    obtain ⟨k, v⟩ := e
    have h0 := h
    rw [tabSorted_cons, Bool.and_eq_true] at h
    unfold tabPut
    split
    · rename_i hlt
      rw [tabSorted_cons, h0, Bool.and_true]
      have hb := h.1
      simp only [tabBelow, List.all_eq_true, decide_eq_true_eq] at hb
      simp only [tabBelow, List.all_cons, Bool.and_eq_true, decide_eq_true_eq, List.all_eq_true]
      exact ⟨hlt, fun y hy => Nat.lt_trans hlt (hb y hy)⟩
    · split
      · subst_vars
        rw [tabSorted_cons, Bool.and_eq_true]
        exact h
      · rw [tabSorted_cons, Bool.and_eq_true]
        exact ⟨tabBelow_tabPut _ _ _ _ (by simp only; omega) h.1, ih h.2⟩

theorem tabBelow_tabDel {α : Type} (k i : Nat) (t : Tab α) (ht : tabBelow k t = true) : tabBelow k (tabDel t i) = true := by
  induction t with
  | nil => exact ht
  | cons e t ih =>
    obtain ⟨j, v⟩ := e
    simp only [tabBelow, List.all_cons, Bool.and_eq_true, decide_eq_true_eq] at ht
    unfold tabDel
    split
    · exact ih ht.2
    · simp only [tabBelow, List.all_cons, Bool.and_eq_true, decide_eq_true_eq]
      exact ⟨ht.1, ih ht.2⟩

/-- Removing an entry keeps the keys strictly rising. -/
theorem tabSorted_tabDel {α : Type} (i : Nat) (t : Tab α) (h : tabSorted t = true) : tabSorted (tabDel t i) = true := by
  induction t with
  | nil => exact h
  | cons e t ih =>
    obtain ⟨j, v⟩ := e
    rw [tabSorted_cons, Bool.and_eq_true] at h
    unfold tabDel
    split
    · exact ih h.2
    · rw [tabSorted_cons, Bool.and_eq_true]
      exact ⟨tabBelow_tabDel _ _ _ h.1, ih h.2⟩

/-- A table filtered keeps the keys strictly rising. -/
theorem tabSorted_filter {α : Type} (p : Nat × α → Bool) (t : Tab α) (h : tabSorted t = true) : tabSorted (t.filter p) = true := by
  induction t with
  | nil => exact h
  | cons e t ih =>
    rw [tabSorted_cons, Bool.and_eq_true] at h
    rw [List.filter_cons]
    split
    · rw [tabSorted_cons, Bool.and_eq_true]
      refine ⟨?_, ih h.2⟩
      have hb := h.1
      simp only [tabBelow, List.all_eq_true, decide_eq_true_eq] at hb ⊢
      exact fun x hx => hb x (List.mem_of_mem_filter hx)
    · exact ih h.2

theorem all_tabPut {α : Type} (p : Nat × α → Bool) (i : Nat) (x : α) (t : Tab α) (hx : p (i, x) = true)
    (h : t.all p = true) : (tabPut t i x).all p = true := by
  induction t with
  | nil => simp [tabPut, hx]
  | cons e t ih =>
    obtain ⟨k, v⟩ := e
    simp only [List.all_cons, Bool.and_eq_true] at h
    unfold tabPut
    split
    · simp only [List.all_cons, Bool.and_eq_true]
      exact ⟨hx, h⟩
    · split
      · simp only [List.all_cons, Bool.and_eq_true]
        exact ⟨hx, h.2⟩
      · simp only [List.all_cons, Bool.and_eq_true]
        exact ⟨h.1, ih h.2⟩

theorem all_tabDel {α : Type} (p : Nat × α → Bool) (i : Nat) (t : Tab α) (h : t.all p = true) : (tabDel t i).all p = true := by
  induction t with
  | nil => exact h
  | cons e t ih =>
    obtain ⟨k, v⟩ := e
    simp only [List.all_cons, Bool.and_eq_true] at h
    unfold tabDel
    split
    · exact ih h.2
    · simp only [List.all_cons, Bool.and_eq_true]
      exact ⟨h.1, ih h.2⟩

/-! ### Banks -/

theorem bankGet_bankSet (b : Bank) (a k : Nat) (w : Word) : bankGet (bankSet b a w) k = if k = a then w else bankGet b k := by
  unfold bankSet bankGet
  split
  · rename_i h
    rw [tabGet_tabDel]
    split <;> simp [h]
  · rw [tabGet_tabPut]
    split <;> simp

@[simp] theorem bankGet_bankSet_same (b : Bank) (a : Nat) (w : Word) : bankGet (bankSet b a w) a = w := by
  simp [bankGet_bankSet]

/-- Setting a register keeps a bank in canonical form. -/
theorem bankWf_bankSet (b : Bank) (a : Nat) (w : Word) (h : bankWf b = true) : bankWf (bankSet b a w) = true := by
  unfold bankWf at h ⊢
  rw [Bool.and_eq_true] at h ⊢
  unfold bankSet
  split
  · exact ⟨tabSorted_tabDel _ _ h.1, all_tabDel _ _ _ h.2⟩
  · rename_i hw
    exact ⟨tabSorted_tabPut _ _ _ h.1, all_tabPut _ _ _ _ (by simpa using hw) h.2⟩

/-! ### Memory -/

theorem memGet_memSet (m : List Host.Cell) (a k : Nat) (x : Byte) : memGet (memSet m a x) k = if k = a then x else memGet m k := by
  unfold memSet memGet
  split
  · rename_i h
    rw [tabGet_tabDel]
    split
    · rename_i hk
      subst hk
      simp [h]
    · rfl
  · rw [tabGet_tabPut]
    split <;> simp

@[simp] theorem memGet_memSet_same (m : List Host.Cell) (a : Nat) (x : Byte) : memGet (memSet m a x) a = x := by
  simp [memGet_memSet]

/-- Setting a byte keeps memory in canonical form. -/
theorem Memory.wf_memSet (m : List Host.Cell) (a : Nat) (x : Byte) (h : Memory.wf m = true) : Memory.wf (memSet m a x) = true := by
  unfold Memory.wf at h ⊢
  rw [Bool.and_eq_true] at h ⊢
  unfold memSet
  split
  · exact ⟨tabSorted_tabDel _ _ h.1, all_tabDel _ _ _ h.2⟩
  · rename_i hx
    exact ⟨tabSorted_tabPut _ _ _ h.1, all_tabPut _ _ _ _ (by simpa using hx) h.2⟩

/-- Erasing a range keeps memory in canonical form. -/
theorem Memory.wf_filter (m : List Host.Cell) (p : Host.Cell → Bool) (h : Memory.wf m = true) : Memory.wf (m.filter p) = true := by
  unfold Memory.wf at h ⊢
  rw [Bool.and_eq_true] at h ⊢
  refine ⟨tabSorted_filter _ _ h.1, ?_⟩
  rw [List.all_eq_true] at h ⊢
  exact fun e he => h.2 e (List.mem_of_mem_filter he)

/-- The empty memory is in canonical form. -/
@[simp] theorem Memory.wf_nil : Memory.wf [] = true := rfl

/-! ### Fields of a word -/

theorem fldOf_lt (f : Fld) (w : Word) : fldOf f w < 2 ^ (f.hi - f.lo + 1) := Nat.mod_lt _ (Nat.two_pow_pos _)

/-- A word as the bits above a field, the field, and the bits below it. -/
theorem fld_split (f : Fld) (w : Word) :
    w.toNat = w.toNat / 2 ^ f.lo / 2 ^ (f.hi - f.lo + 1) * 2 ^ (f.hi - f.lo + 1) * 2 ^ f.lo + fldOf f w * 2 ^ f.lo + w.toNat % 2 ^ f.lo := by
  have h1 := Nat.div_add_mod w.toNat (2 ^ f.lo)
  have h2 := Nat.div_add_mod (w.toNat / 2 ^ f.lo) (2 ^ (f.hi - f.lo + 1))
  unfold fldOf
  generalize w.toNat / 2 ^ f.lo / 2 ^ (f.hi - f.lo + 1) = x at *
  generalize w.toNat / 2 ^ f.lo % 2 ^ (f.hi - f.lo + 1) = y at *
  generalize w.toNat % 2 ^ f.lo = z at *
  generalize w.toNat / 2 ^ f.lo = u at *
  rw [← h1, ← h2]
  ring

/-- The number of a word with a field replaced. -/
theorem toNat_fldPut (f : Fld) (w : Word) (v : Nat) (h : f.lo ≤ f.hi) (h32 : f.hi < 32) :
    (fldPut f w v).toNat =
      w.toNat / 2 ^ f.lo / 2 ^ (f.hi - f.lo + 1) * 2 ^ (f.hi - f.lo + 1) * 2 ^ f.lo + v % 2 ^ (f.hi - f.lo + 1) * 2 ^ f.lo + w.toNat % 2 ^ f.lo := by
  have hs := fld_split f w
  have hw := w.isLt
  have hpow : 2 ^ (f.hi - f.lo + 1) * 2 ^ f.lo = 2 ^ (f.hi + 1) := by rw [← pow_add]; congr 1; omega
  have h232 : (2 : Nat) ^ 32 = 2 ^ (31 - f.hi) * 2 ^ (f.hi + 1) := by rw [← pow_add]; congr 1; omega
  have hv : v % 2 ^ (f.hi - f.lo + 1) < 2 ^ (f.hi - f.lo + 1) := Nat.mod_lt _ (Nat.two_pow_pos _)
  have hz : w.toNat % 2 ^ f.lo < 2 ^ f.lo := Nat.mod_lt _ (Nat.two_pow_pos _)
  have hx : w.toNat / 2 ^ f.lo / 2 ^ (f.hi - f.lo + 1) < 2 ^ (31 - f.hi) := by
    rw [Nat.div_div_eq_div_mul, Nat.mul_comm (2 ^ f.lo), hpow]
    exact Nat.div_lt_of_lt_mul (by rw [Nat.mul_comm, ← h232]; exact hw)
  unfold fldPut
  rw [BitVec.toNat_ofNat]
  generalize fldOf f w = y at *
  generalize v % 2 ^ (f.hi - f.lo + 1) = v' at *
  generalize w.toNat / 2 ^ f.lo / 2 ^ (f.hi - f.lo + 1) = x at *
  generalize w.toNat % 2 ^ f.lo = z at *
  have he : w.toNat - y * 2 ^ f.lo + v' * 2 ^ f.lo = x * 2 ^ (f.hi - f.lo + 1) * 2 ^ f.lo + v' * 2 ^ f.lo + z := by omega
  rw [he, Nat.mod_eq_of_lt]
  have h1 : x * 2 ^ (f.hi - f.lo + 1) * 2 ^ f.lo + v' * 2 ^ f.lo + z < (x + 1) * 2 ^ (f.hi - f.lo + 1) * 2 ^ f.lo := by
    have : v' * 2 ^ f.lo + 2 ^ f.lo ≤ 2 ^ (f.hi - f.lo + 1) * 2 ^ f.lo := by
      rw [← Nat.succ_mul]; exact Nat.mul_le_mul_right _ hv
    nlinarith
  have h2 : (x + 1) * 2 ^ (f.hi - f.lo + 1) * 2 ^ f.lo ≤ 2 ^ 32 := by
    rw [Nat.mul_assoc, hpow, h232]
    exact Nat.mul_le_mul_right _ hx
  omega

/-- A field reads what was put into it. -/
theorem fldOf_fldPut_same (f : Fld) (w : Word) (v : Nat) (h : f.lo ≤ f.hi) (h32 : f.hi < 32) :
    fldOf f (fldPut f w v) = v % 2 ^ (f.hi - f.lo + 1) := by
  unfold fldOf
  rw [toNat_fldPut f w v h h32]
  have hz : w.toNat % 2 ^ f.lo < 2 ^ f.lo := Nat.mod_lt _ (Nat.two_pow_pos _)
  have : (w.toNat / 2 ^ f.lo / 2 ^ (f.hi - f.lo + 1) * 2 ^ (f.hi - f.lo + 1) * 2 ^ f.lo + v % 2 ^ (f.hi - f.lo + 1) * 2 ^ f.lo + w.toNat % 2 ^ f.lo) / 2 ^ f.lo =
      w.toNat / 2 ^ f.lo / 2 ^ (f.hi - f.lo + 1) * 2 ^ (f.hi - f.lo + 1) + v % 2 ^ (f.hi - f.lo + 1) := by
    rw [← Nat.add_mul, Nat.add_comm, Nat.add_mul_div_right _ _ (Nat.two_pow_pos _), Nat.div_eq_of_lt hz, Nat.zero_add]
  rw [this, Nat.add_comm, Nat.add_mul_mod_self_right, Nat.mod_mod]

/-- A field below the one put reads as before. -/
theorem fldOf_fldPut_below (f g : Fld) (w : Word) (v : Nat) (h : f.lo ≤ f.hi) (h32 : f.hi < 32) (hg : g.lo ≤ g.hi) (hd : g.hi < f.lo) :
    fldOf g (fldPut f w v) = fldOf g w := by
  have key : ∀ n m : Nat, n % 2 ^ f.lo = m % 2 ^ f.lo → n / 2 ^ g.lo % 2 ^ (g.hi - g.lo + 1) = m / 2 ^ g.lo % 2 ^ (g.hi - g.lo + 1) := by
    intro n m e
    have hp : 2 ^ g.lo * 2 ^ (g.hi - g.lo + 1) ∣ 2 ^ f.lo := by
      rw [← pow_add]; exact pow_dvd_pow 2 (by omega)
    have : n % (2 ^ g.lo * 2 ^ (g.hi - g.lo + 1)) = m % (2 ^ g.lo * 2 ^ (g.hi - g.lo + 1)) := by
      rw [← Nat.mod_mod_of_dvd n hp, ← Nat.mod_mod_of_dvd m hp, e]
    rw [← Nat.mod_mul_right_div_self, ← Nat.mod_mul_right_div_self, this]
  unfold fldOf
  apply key
  rw [toNat_fldPut f w v h h32, ← Nat.add_mul, Nat.add_comm, Nat.add_mul_mod_self_right, Nat.mod_mod]

/-- A field above the one put reads as before. -/
theorem fldOf_fldPut_above (f g : Fld) (w : Word) (v : Nat) (h : f.lo ≤ f.hi) (h32 : f.hi < 32) (hd : f.hi < g.lo) :
    fldOf g (fldPut f w v) = fldOf g w := by
  have hdiv : ∀ n m : Nat, n / 2 ^ (f.hi + 1) = m / 2 ^ (f.hi + 1) → n / 2 ^ g.lo = m / 2 ^ g.lo := by
    intro n m e
    have : (2 : Nat) ^ g.lo = 2 ^ (f.hi + 1) * 2 ^ (g.lo - (f.hi + 1)) := by rw [← pow_add]; congr 1; omega
    rw [this, ← Nat.div_div_eq_div_mul, ← Nat.div_div_eq_div_mul, e]
  have hpow : 2 ^ f.lo * 2 ^ (f.hi - f.lo + 1) = 2 ^ (f.hi + 1) := by rw [← pow_add]; congr 1; omega
  unfold fldOf
  rw [hdiv (fldPut f w v).toNat w.toNat]
  have hz : w.toNat % 2 ^ f.lo < 2 ^ f.lo := Nat.mod_lt _ (Nat.two_pow_pos _)
  have hv : v % 2 ^ (f.hi - f.lo + 1) < 2 ^ (f.hi - f.lo + 1) := Nat.mod_lt _ (Nat.two_pow_pos _)
  rw [toNat_fldPut f w v h h32, ← hpow, ← Nat.div_div_eq_div_mul, ← Nat.div_div_eq_div_mul, ← Nat.add_mul, Nat.add_comm,
    Nat.add_mul_div_right _ _ (Nat.two_pow_pos _), Nat.div_eq_of_lt hz, Nat.zero_add, Nat.add_comm,
    Nat.add_mul_div_right _ _ (Nat.two_pow_pos _), Nat.div_eq_of_lt hv, Nat.zero_add]

end Sys2Proof.Machine
end

