-- ==== Sys2Proof/Laws/State.lean ====
section
/-! SUPPORT. What every update of a lane and of the module leaves as it was, one lemma for each field, and what it reads. -/

namespace Sys2Proof.Machine

set_option Elab.async false

/-! ### Lane.wr: a register set -/

@[simp] theorem Lane.wr_phase (l : Lane) (a : Nat) (w : Word) : (l.wr a w).phase = l.phase := rfl
@[simp] theorem Lane.wr_staging (l : Lane) (a : Nat) (w : Word) : (l.wr a w).staging = l.staging := rfl
@[simp] theorem Lane.wr_snap (l : Lane) (a : Nat) (w : Word) : (l.wr a w).snap = l.snap := rfl
@[simp] theorem Lane.wr_evt (l : Lane) (a : Nat) (w : Word) : (l.wr a w).evt = l.evt := rfl
@[simp] theorem Lane.wr_setAt (l : Lane) (a : Nat) (w : Word) : (l.wr a w).setAt = l.setAt := rfl
@[simp] theorem Lane.wr_bus (l : Lane) (a : Nat) (w : Word) : (l.wr a w).bus = l.bus := rfl
@[simp] theorem Lane.wr_irqWait (l : Lane) (a : Nat) (w : Word) : (l.wr a w).irqWait = l.irqWait := rfl
@[simp] theorem Lane.wr_irqRaise (l : Lane) (a : Nat) (w : Word) : (l.wr a w).irqRaise = l.irqRaise := rfl
@[simp] theorem Lane.wr_irqEntry (l : Lane) (a : Nat) (w : Word) : (l.wr a w).irqEntry = l.irqEntry := rfl
@[simp] theorem Lane.wr_mem (l : Lane) (a : Nat) (w : Word) : (l.wr a w).mem = l.mem := rfl
@[simp] theorem Lane.wr_tm (l : Lane) (a : Nat) (w : Word) : (l.wr a w).tm = l.tm := rfl
@[simp] theorem Lane.wr_free (l : Lane) (a : Nat) (w : Word) : (l.wr a w).free = l.free := rfl
@[simp] theorem Lane.wr_image (l : Lane) (a : Nat) (w : Word) : (l.wr a w).image = l.image := rfl
@[simp] theorem Lane.wr_peerA (l : Lane) (a : Nat) (w : Word) : (l.wr a w).peerA = l.peerA := rfl
@[simp] theorem Lane.wr_peerB (l : Lane) (a : Nat) (w : Word) : (l.wr a w).peerB = l.peerB := rfl
@[simp] theorem Lane.wr_peerC (l : Lane) (a : Nat) (w : Word) : (l.wr a w).peerC = l.peerC := rfl
@[simp] theorem Lane.wr_takeover (l : Lane) (a : Nat) (w : Word) : (l.wr a w).takeover = l.takeover := rfl
@[simp] theorem Lane.wr_refresh (l : Lane) (a : Nat) (w : Word) : (l.wr a w).refresh = l.refresh := rfl
@[simp] theorem Lane.wr_stageOn (l : Lane) (a : Nat) (w : Word) : (l.wr a w).stageOn = l.stageOn := rfl
@[simp] theorem Lane.wr_latchHold (l : Lane) (a : Nat) (w : Word) : (l.wr a w).latchHold = l.latchHold := rfl
@[simp] theorem Lane.wr_latchAt (l : Lane) (a : Nat) (w : Word) : (l.wr a w).latchAt = l.latchAt := rfl
@[simp] theorem Lane.wr_baton (l : Lane) (a : Nat) (w : Word) : (l.wr a w).baton = l.baton := rfl
@[simp] theorem Lane.wr_fc (l : Lane) (a : Nat) (w : Word) : (l.wr a w).fc = l.fc := rfl
@[simp] theorem Lane.wr_ea (l : Lane) (a : Nat) (w : Word) : (l.wr a w).ea = l.ea := rfl
@[simp] theorem Lane.wr_mc0 (l : Lane) (a : Nat) (w : Word) : (l.wr a w).mc0 = l.mc0 := rfl
@[simp] theorem Lane.wr_mc1 (l : Lane) (a : Nat) (w : Word) : (l.wr a w).mc1 = l.mc1 := rfl
@[simp] theorem Lane.wr_demand (l : Lane) (a : Nat) (w : Word) : (l.wr a w).demand = l.demand := rfl
@[simp] theorem Lane.wr_sp (l : Lane) (a : Nat) (w : Word) : (l.wr a w).sp = l.sp := rfl
@[simp] theorem Lane.wr_af0 (l : Lane) (a : Nat) (w : Word) : (l.wr a w).af0 = l.af0 := rfl
@[simp] theorem Lane.wr_af1 (l : Lane) (a : Nat) (w : Word) : (l.wr a w).af1 = l.af1 := rfl
@[simp] theorem Lane.wr_si (l : Lane) (a : Nat) (w : Word) : (l.wr a w).si = l.si := rfl
@[simp] theorem Lane.wr_bk (l : Lane) (a : Nat) (w : Word) : (l.wr a w).bk = l.bk := rfl
@[simp] theorem Lane.wr_nx (l : Lane) (a : Nat) (w : Word) : (l.wr a w).nx = l.nx := rfl
@[simp] theorem Lane.wr_se (l : Lane) (a : Nat) (w : Word) : (l.wr a w).se = l.se := rfl
@[simp] theorem Lane.wr_pw (l : Lane) (a : Nat) (w : Word) : (l.wr a w).pw = l.pw := rfl
@[simp] theorem Lane.wr_cf (l : Lane) (a : Nat) (w : Word) : (l.wr a w).cf = l.cf := rfl
@[simp] theorem Lane.wr_can (l : Lane) (a : Nat) (w : Word) : (l.wr a w).can = l.can := rfl
@[simp] theorem Lane.wr_ha (l : Lane) (a : Nat) (w : Word) : (l.wr a w).ha = l.ha := rfl
@[simp] theorem Lane.wr_st (l : Lane) (a : Nat) (w : Word) : (l.wr a w).st = l.st := rfl
@[simp] theorem Lane.wr_armedAt (l : Lane) (a : Nat) (w : Word) : (l.wr a w).armedAt = l.armedAt := rfl
@[simp] theorem Lane.wr_arrived (l : Lane) (a : Nat) (w : Word) : (l.wr a w).arrived = l.arrived := rfl
@[simp] theorem Lane.wr_watchGot (l : Lane) (a : Nat) (w : Word) : (l.wr a w).watchGot = l.watchGot := rfl
@[simp] theorem Lane.wr_drift (l : Lane) (a : Nat) (w : Word) : (l.wr a w).drift = l.drift := rfl
@[simp] theorem Lane.wr_ownPlaus (l : Lane) (a : Nat) (w : Word) : (l.wr a w).ownPlaus = l.ownPlaus := rfl
@[simp] theorem Lane.wr_ownPlausPrev (l : Lane) (a : Nat) (w : Word) : (l.wr a w).ownPlausPrev = l.ownPlausPrev := rfl
@[simp] theorem Lane.wr_mailOut (l : Lane) (a : Nat) (w : Word) : (l.wr a w).mailOut = l.mailOut := rfl
@[simp] theorem Lane.wr_planted (l : Lane) (a : Nat) (w : Word) : (l.wr a w).planted = l.planted := rfl

/-! ### Lane.put: a field set -/

@[simp] theorem Lane.put_phase (l : Lane) (f : Fld) (v : Nat) : (l.put f v).phase = l.phase := rfl
@[simp] theorem Lane.put_staging (l : Lane) (f : Fld) (v : Nat) : (l.put f v).staging = l.staging := rfl
@[simp] theorem Lane.put_snap (l : Lane) (f : Fld) (v : Nat) : (l.put f v).snap = l.snap := rfl
@[simp] theorem Lane.put_evt (l : Lane) (f : Fld) (v : Nat) : (l.put f v).evt = l.evt := rfl
@[simp] theorem Lane.put_setAt (l : Lane) (f : Fld) (v : Nat) : (l.put f v).setAt = l.setAt := rfl
@[simp] theorem Lane.put_bus (l : Lane) (f : Fld) (v : Nat) : (l.put f v).bus = l.bus := rfl
@[simp] theorem Lane.put_irqWait (l : Lane) (f : Fld) (v : Nat) : (l.put f v).irqWait = l.irqWait := rfl
@[simp] theorem Lane.put_irqRaise (l : Lane) (f : Fld) (v : Nat) : (l.put f v).irqRaise = l.irqRaise := rfl
@[simp] theorem Lane.put_irqEntry (l : Lane) (f : Fld) (v : Nat) : (l.put f v).irqEntry = l.irqEntry := rfl
@[simp] theorem Lane.put_mem (l : Lane) (f : Fld) (v : Nat) : (l.put f v).mem = l.mem := rfl
@[simp] theorem Lane.put_tm (l : Lane) (f : Fld) (v : Nat) : (l.put f v).tm = l.tm := rfl
@[simp] theorem Lane.put_free (l : Lane) (f : Fld) (v : Nat) : (l.put f v).free = l.free := rfl
@[simp] theorem Lane.put_image (l : Lane) (f : Fld) (v : Nat) : (l.put f v).image = l.image := rfl
@[simp] theorem Lane.put_peerA (l : Lane) (f : Fld) (v : Nat) : (l.put f v).peerA = l.peerA := rfl
@[simp] theorem Lane.put_peerB (l : Lane) (f : Fld) (v : Nat) : (l.put f v).peerB = l.peerB := rfl
@[simp] theorem Lane.put_peerC (l : Lane) (f : Fld) (v : Nat) : (l.put f v).peerC = l.peerC := rfl
@[simp] theorem Lane.put_takeover (l : Lane) (f : Fld) (v : Nat) : (l.put f v).takeover = l.takeover := rfl
@[simp] theorem Lane.put_refresh (l : Lane) (f : Fld) (v : Nat) : (l.put f v).refresh = l.refresh := rfl
@[simp] theorem Lane.put_stageOn (l : Lane) (f : Fld) (v : Nat) : (l.put f v).stageOn = l.stageOn := rfl
@[simp] theorem Lane.put_latchHold (l : Lane) (f : Fld) (v : Nat) : (l.put f v).latchHold = l.latchHold := rfl
@[simp] theorem Lane.put_latchAt (l : Lane) (f : Fld) (v : Nat) : (l.put f v).latchAt = l.latchAt := rfl
@[simp] theorem Lane.put_baton (l : Lane) (f : Fld) (v : Nat) : (l.put f v).baton = l.baton := rfl
@[simp] theorem Lane.put_fc (l : Lane) (f : Fld) (v : Nat) : (l.put f v).fc = l.fc := rfl
@[simp] theorem Lane.put_ea (l : Lane) (f : Fld) (v : Nat) : (l.put f v).ea = l.ea := rfl
@[simp] theorem Lane.put_mc0 (l : Lane) (f : Fld) (v : Nat) : (l.put f v).mc0 = l.mc0 := rfl
@[simp] theorem Lane.put_mc1 (l : Lane) (f : Fld) (v : Nat) : (l.put f v).mc1 = l.mc1 := rfl
@[simp] theorem Lane.put_demand (l : Lane) (f : Fld) (v : Nat) : (l.put f v).demand = l.demand := rfl
@[simp] theorem Lane.put_sp (l : Lane) (f : Fld) (v : Nat) : (l.put f v).sp = l.sp := rfl
@[simp] theorem Lane.put_af0 (l : Lane) (f : Fld) (v : Nat) : (l.put f v).af0 = l.af0 := rfl
@[simp] theorem Lane.put_af1 (l : Lane) (f : Fld) (v : Nat) : (l.put f v).af1 = l.af1 := rfl
@[simp] theorem Lane.put_si (l : Lane) (f : Fld) (v : Nat) : (l.put f v).si = l.si := rfl
@[simp] theorem Lane.put_bk (l : Lane) (f : Fld) (v : Nat) : (l.put f v).bk = l.bk := rfl
@[simp] theorem Lane.put_nx (l : Lane) (f : Fld) (v : Nat) : (l.put f v).nx = l.nx := rfl
@[simp] theorem Lane.put_se (l : Lane) (f : Fld) (v : Nat) : (l.put f v).se = l.se := rfl
@[simp] theorem Lane.put_pw (l : Lane) (f : Fld) (v : Nat) : (l.put f v).pw = l.pw := rfl
@[simp] theorem Lane.put_cf (l : Lane) (f : Fld) (v : Nat) : (l.put f v).cf = l.cf := rfl
@[simp] theorem Lane.put_can (l : Lane) (f : Fld) (v : Nat) : (l.put f v).can = l.can := rfl
@[simp] theorem Lane.put_ha (l : Lane) (f : Fld) (v : Nat) : (l.put f v).ha = l.ha := rfl
@[simp] theorem Lane.put_st (l : Lane) (f : Fld) (v : Nat) : (l.put f v).st = l.st := rfl
@[simp] theorem Lane.put_armedAt (l : Lane) (f : Fld) (v : Nat) : (l.put f v).armedAt = l.armedAt := rfl
@[simp] theorem Lane.put_arrived (l : Lane) (f : Fld) (v : Nat) : (l.put f v).arrived = l.arrived := rfl
@[simp] theorem Lane.put_watchGot (l : Lane) (f : Fld) (v : Nat) : (l.put f v).watchGot = l.watchGot := rfl
@[simp] theorem Lane.put_drift (l : Lane) (f : Fld) (v : Nat) : (l.put f v).drift = l.drift := rfl
@[simp] theorem Lane.put_ownPlaus (l : Lane) (f : Fld) (v : Nat) : (l.put f v).ownPlaus = l.ownPlaus := rfl
@[simp] theorem Lane.put_ownPlausPrev (l : Lane) (f : Fld) (v : Nat) : (l.put f v).ownPlausPrev = l.ownPlausPrev := rfl
@[simp] theorem Lane.put_mailOut (l : Lane) (f : Fld) (v : Nat) : (l.put f v).mailOut = l.mailOut := rfl
@[simp] theorem Lane.put_planted (l : Lane) (f : Fld) (v : Nat) : (l.put f v).planted = l.planted := rfl

/-! ### Lane.putB: a one-bit field set -/

@[simp] theorem Lane.putB_phase (l : Lane) (f : Fld) (b : Bool) : (l.putB f b).phase = l.phase := rfl
@[simp] theorem Lane.putB_staging (l : Lane) (f : Fld) (b : Bool) : (l.putB f b).staging = l.staging := rfl
@[simp] theorem Lane.putB_snap (l : Lane) (f : Fld) (b : Bool) : (l.putB f b).snap = l.snap := rfl
@[simp] theorem Lane.putB_evt (l : Lane) (f : Fld) (b : Bool) : (l.putB f b).evt = l.evt := rfl
@[simp] theorem Lane.putB_setAt (l : Lane) (f : Fld) (b : Bool) : (l.putB f b).setAt = l.setAt := rfl
@[simp] theorem Lane.putB_bus (l : Lane) (f : Fld) (b : Bool) : (l.putB f b).bus = l.bus := rfl
@[simp] theorem Lane.putB_irqWait (l : Lane) (f : Fld) (b : Bool) : (l.putB f b).irqWait = l.irqWait := rfl
@[simp] theorem Lane.putB_irqRaise (l : Lane) (f : Fld) (b : Bool) : (l.putB f b).irqRaise = l.irqRaise := rfl
@[simp] theorem Lane.putB_irqEntry (l : Lane) (f : Fld) (b : Bool) : (l.putB f b).irqEntry = l.irqEntry := rfl
@[simp] theorem Lane.putB_mem (l : Lane) (f : Fld) (b : Bool) : (l.putB f b).mem = l.mem := rfl
@[simp] theorem Lane.putB_tm (l : Lane) (f : Fld) (b : Bool) : (l.putB f b).tm = l.tm := rfl
@[simp] theorem Lane.putB_free (l : Lane) (f : Fld) (b : Bool) : (l.putB f b).free = l.free := rfl
@[simp] theorem Lane.putB_image (l : Lane) (f : Fld) (b : Bool) : (l.putB f b).image = l.image := rfl
@[simp] theorem Lane.putB_peerA (l : Lane) (f : Fld) (b : Bool) : (l.putB f b).peerA = l.peerA := rfl
@[simp] theorem Lane.putB_peerB (l : Lane) (f : Fld) (b : Bool) : (l.putB f b).peerB = l.peerB := rfl
@[simp] theorem Lane.putB_peerC (l : Lane) (f : Fld) (b : Bool) : (l.putB f b).peerC = l.peerC := rfl
@[simp] theorem Lane.putB_takeover (l : Lane) (f : Fld) (b : Bool) : (l.putB f b).takeover = l.takeover := rfl
@[simp] theorem Lane.putB_refresh (l : Lane) (f : Fld) (b : Bool) : (l.putB f b).refresh = l.refresh := rfl
@[simp] theorem Lane.putB_stageOn (l : Lane) (f : Fld) (b : Bool) : (l.putB f b).stageOn = l.stageOn := rfl
@[simp] theorem Lane.putB_latchHold (l : Lane) (f : Fld) (b : Bool) : (l.putB f b).latchHold = l.latchHold := rfl
@[simp] theorem Lane.putB_latchAt (l : Lane) (f : Fld) (b : Bool) : (l.putB f b).latchAt = l.latchAt := rfl
@[simp] theorem Lane.putB_baton (l : Lane) (f : Fld) (b : Bool) : (l.putB f b).baton = l.baton := rfl
@[simp] theorem Lane.putB_fc (l : Lane) (f : Fld) (b : Bool) : (l.putB f b).fc = l.fc := rfl
@[simp] theorem Lane.putB_ea (l : Lane) (f : Fld) (b : Bool) : (l.putB f b).ea = l.ea := rfl
@[simp] theorem Lane.putB_mc0 (l : Lane) (f : Fld) (b : Bool) : (l.putB f b).mc0 = l.mc0 := rfl
@[simp] theorem Lane.putB_mc1 (l : Lane) (f : Fld) (b : Bool) : (l.putB f b).mc1 = l.mc1 := rfl
@[simp] theorem Lane.putB_demand (l : Lane) (f : Fld) (b : Bool) : (l.putB f b).demand = l.demand := rfl
@[simp] theorem Lane.putB_sp (l : Lane) (f : Fld) (b : Bool) : (l.putB f b).sp = l.sp := rfl
@[simp] theorem Lane.putB_af0 (l : Lane) (f : Fld) (b : Bool) : (l.putB f b).af0 = l.af0 := rfl
@[simp] theorem Lane.putB_af1 (l : Lane) (f : Fld) (b : Bool) : (l.putB f b).af1 = l.af1 := rfl
@[simp] theorem Lane.putB_si (l : Lane) (f : Fld) (b : Bool) : (l.putB f b).si = l.si := rfl
@[simp] theorem Lane.putB_bk (l : Lane) (f : Fld) (b : Bool) : (l.putB f b).bk = l.bk := rfl
@[simp] theorem Lane.putB_nx (l : Lane) (f : Fld) (b : Bool) : (l.putB f b).nx = l.nx := rfl
@[simp] theorem Lane.putB_se (l : Lane) (f : Fld) (b : Bool) : (l.putB f b).se = l.se := rfl
@[simp] theorem Lane.putB_pw (l : Lane) (f : Fld) (b : Bool) : (l.putB f b).pw = l.pw := rfl
@[simp] theorem Lane.putB_cf (l : Lane) (f : Fld) (b : Bool) : (l.putB f b).cf = l.cf := rfl
@[simp] theorem Lane.putB_can (l : Lane) (f : Fld) (b : Bool) : (l.putB f b).can = l.can := rfl
@[simp] theorem Lane.putB_ha (l : Lane) (f : Fld) (b : Bool) : (l.putB f b).ha = l.ha := rfl
@[simp] theorem Lane.putB_st (l : Lane) (f : Fld) (b : Bool) : (l.putB f b).st = l.st := rfl
@[simp] theorem Lane.putB_armedAt (l : Lane) (f : Fld) (b : Bool) : (l.putB f b).armedAt = l.armedAt := rfl
@[simp] theorem Lane.putB_arrived (l : Lane) (f : Fld) (b : Bool) : (l.putB f b).arrived = l.arrived := rfl
@[simp] theorem Lane.putB_watchGot (l : Lane) (f : Fld) (b : Bool) : (l.putB f b).watchGot = l.watchGot := rfl
@[simp] theorem Lane.putB_drift (l : Lane) (f : Fld) (b : Bool) : (l.putB f b).drift = l.drift := rfl
@[simp] theorem Lane.putB_ownPlaus (l : Lane) (f : Fld) (b : Bool) : (l.putB f b).ownPlaus = l.ownPlaus := rfl
@[simp] theorem Lane.putB_ownPlausPrev (l : Lane) (f : Fld) (b : Bool) : (l.putB f b).ownPlausPrev = l.ownPlausPrev := rfl
@[simp] theorem Lane.putB_mailOut (l : Lane) (f : Fld) (b : Bool) : (l.putB f b).mailOut = l.mailOut := rfl
@[simp] theorem Lane.putB_planted (l : Lane) (f : Fld) (b : Bool) : (l.putB f b).planted = l.planted := rfl

/-! ### Lane.inc: a counter raised -/

@[simp] theorem Lane.inc_phase (l : Lane) (f : Fld) : (l.inc f).phase = l.phase := rfl
@[simp] theorem Lane.inc_staging (l : Lane) (f : Fld) : (l.inc f).staging = l.staging := rfl
@[simp] theorem Lane.inc_snap (l : Lane) (f : Fld) : (l.inc f).snap = l.snap := rfl
@[simp] theorem Lane.inc_evt (l : Lane) (f : Fld) : (l.inc f).evt = l.evt := rfl
@[simp] theorem Lane.inc_setAt (l : Lane) (f : Fld) : (l.inc f).setAt = l.setAt := rfl
@[simp] theorem Lane.inc_bus (l : Lane) (f : Fld) : (l.inc f).bus = l.bus := rfl
@[simp] theorem Lane.inc_irqWait (l : Lane) (f : Fld) : (l.inc f).irqWait = l.irqWait := rfl
@[simp] theorem Lane.inc_irqRaise (l : Lane) (f : Fld) : (l.inc f).irqRaise = l.irqRaise := rfl
@[simp] theorem Lane.inc_irqEntry (l : Lane) (f : Fld) : (l.inc f).irqEntry = l.irqEntry := rfl
@[simp] theorem Lane.inc_mem (l : Lane) (f : Fld) : (l.inc f).mem = l.mem := rfl
@[simp] theorem Lane.inc_tm (l : Lane) (f : Fld) : (l.inc f).tm = l.tm := rfl
@[simp] theorem Lane.inc_free (l : Lane) (f : Fld) : (l.inc f).free = l.free := rfl
@[simp] theorem Lane.inc_image (l : Lane) (f : Fld) : (l.inc f).image = l.image := rfl
@[simp] theorem Lane.inc_peerA (l : Lane) (f : Fld) : (l.inc f).peerA = l.peerA := rfl
@[simp] theorem Lane.inc_peerB (l : Lane) (f : Fld) : (l.inc f).peerB = l.peerB := rfl
@[simp] theorem Lane.inc_peerC (l : Lane) (f : Fld) : (l.inc f).peerC = l.peerC := rfl
@[simp] theorem Lane.inc_takeover (l : Lane) (f : Fld) : (l.inc f).takeover = l.takeover := rfl
@[simp] theorem Lane.inc_refresh (l : Lane) (f : Fld) : (l.inc f).refresh = l.refresh := rfl
@[simp] theorem Lane.inc_stageOn (l : Lane) (f : Fld) : (l.inc f).stageOn = l.stageOn := rfl
@[simp] theorem Lane.inc_latchHold (l : Lane) (f : Fld) : (l.inc f).latchHold = l.latchHold := rfl
@[simp] theorem Lane.inc_latchAt (l : Lane) (f : Fld) : (l.inc f).latchAt = l.latchAt := rfl
@[simp] theorem Lane.inc_baton (l : Lane) (f : Fld) : (l.inc f).baton = l.baton := rfl
@[simp] theorem Lane.inc_fc (l : Lane) (f : Fld) : (l.inc f).fc = l.fc := rfl
@[simp] theorem Lane.inc_ea (l : Lane) (f : Fld) : (l.inc f).ea = l.ea := rfl
@[simp] theorem Lane.inc_mc0 (l : Lane) (f : Fld) : (l.inc f).mc0 = l.mc0 := rfl
@[simp] theorem Lane.inc_mc1 (l : Lane) (f : Fld) : (l.inc f).mc1 = l.mc1 := rfl
@[simp] theorem Lane.inc_demand (l : Lane) (f : Fld) : (l.inc f).demand = l.demand := rfl
@[simp] theorem Lane.inc_sp (l : Lane) (f : Fld) : (l.inc f).sp = l.sp := rfl
@[simp] theorem Lane.inc_af0 (l : Lane) (f : Fld) : (l.inc f).af0 = l.af0 := rfl
@[simp] theorem Lane.inc_af1 (l : Lane) (f : Fld) : (l.inc f).af1 = l.af1 := rfl
@[simp] theorem Lane.inc_si (l : Lane) (f : Fld) : (l.inc f).si = l.si := rfl
@[simp] theorem Lane.inc_bk (l : Lane) (f : Fld) : (l.inc f).bk = l.bk := rfl
@[simp] theorem Lane.inc_nx (l : Lane) (f : Fld) : (l.inc f).nx = l.nx := rfl
@[simp] theorem Lane.inc_se (l : Lane) (f : Fld) : (l.inc f).se = l.se := rfl
@[simp] theorem Lane.inc_pw (l : Lane) (f : Fld) : (l.inc f).pw = l.pw := rfl
@[simp] theorem Lane.inc_cf (l : Lane) (f : Fld) : (l.inc f).cf = l.cf := rfl
@[simp] theorem Lane.inc_can (l : Lane) (f : Fld) : (l.inc f).can = l.can := rfl
@[simp] theorem Lane.inc_ha (l : Lane) (f : Fld) : (l.inc f).ha = l.ha := rfl
@[simp] theorem Lane.inc_st (l : Lane) (f : Fld) : (l.inc f).st = l.st := rfl
@[simp] theorem Lane.inc_armedAt (l : Lane) (f : Fld) : (l.inc f).armedAt = l.armedAt := rfl
@[simp] theorem Lane.inc_arrived (l : Lane) (f : Fld) : (l.inc f).arrived = l.arrived := rfl
@[simp] theorem Lane.inc_watchGot (l : Lane) (f : Fld) : (l.inc f).watchGot = l.watchGot := rfl
@[simp] theorem Lane.inc_drift (l : Lane) (f : Fld) : (l.inc f).drift = l.drift := rfl
@[simp] theorem Lane.inc_ownPlaus (l : Lane) (f : Fld) : (l.inc f).ownPlaus = l.ownPlaus := rfl
@[simp] theorem Lane.inc_ownPlausPrev (l : Lane) (f : Fld) : (l.inc f).ownPlausPrev = l.ownPlausPrev := rfl
@[simp] theorem Lane.inc_mailOut (l : Lane) (f : Fld) : (l.inc f).mailOut = l.mailOut := rfl
@[simp] theorem Lane.inc_planted (l : Lane) (f : Fld) : (l.inc f).planted = l.planted := rfl

/-! ### Lane.incBy: a counter raised by n -/

@[simp] theorem Lane.incBy_phase (l : Lane) (f : Fld) (n : Nat) : (l.incBy f n).phase = l.phase := rfl
@[simp] theorem Lane.incBy_staging (l : Lane) (f : Fld) (n : Nat) : (l.incBy f n).staging = l.staging := rfl
@[simp] theorem Lane.incBy_snap (l : Lane) (f : Fld) (n : Nat) : (l.incBy f n).snap = l.snap := rfl
@[simp] theorem Lane.incBy_evt (l : Lane) (f : Fld) (n : Nat) : (l.incBy f n).evt = l.evt := rfl
@[simp] theorem Lane.incBy_setAt (l : Lane) (f : Fld) (n : Nat) : (l.incBy f n).setAt = l.setAt := rfl
@[simp] theorem Lane.incBy_bus (l : Lane) (f : Fld) (n : Nat) : (l.incBy f n).bus = l.bus := rfl
@[simp] theorem Lane.incBy_irqWait (l : Lane) (f : Fld) (n : Nat) : (l.incBy f n).irqWait = l.irqWait := rfl
@[simp] theorem Lane.incBy_irqRaise (l : Lane) (f : Fld) (n : Nat) : (l.incBy f n).irqRaise = l.irqRaise := rfl
@[simp] theorem Lane.incBy_irqEntry (l : Lane) (f : Fld) (n : Nat) : (l.incBy f n).irqEntry = l.irqEntry := rfl
@[simp] theorem Lane.incBy_mem (l : Lane) (f : Fld) (n : Nat) : (l.incBy f n).mem = l.mem := rfl
@[simp] theorem Lane.incBy_tm (l : Lane) (f : Fld) (n : Nat) : (l.incBy f n).tm = l.tm := rfl
@[simp] theorem Lane.incBy_free (l : Lane) (f : Fld) (n : Nat) : (l.incBy f n).free = l.free := rfl
@[simp] theorem Lane.incBy_image (l : Lane) (f : Fld) (n : Nat) : (l.incBy f n).image = l.image := rfl
@[simp] theorem Lane.incBy_peerA (l : Lane) (f : Fld) (n : Nat) : (l.incBy f n).peerA = l.peerA := rfl
@[simp] theorem Lane.incBy_peerB (l : Lane) (f : Fld) (n : Nat) : (l.incBy f n).peerB = l.peerB := rfl
@[simp] theorem Lane.incBy_peerC (l : Lane) (f : Fld) (n : Nat) : (l.incBy f n).peerC = l.peerC := rfl
@[simp] theorem Lane.incBy_takeover (l : Lane) (f : Fld) (n : Nat) : (l.incBy f n).takeover = l.takeover := rfl
@[simp] theorem Lane.incBy_refresh (l : Lane) (f : Fld) (n : Nat) : (l.incBy f n).refresh = l.refresh := rfl
@[simp] theorem Lane.incBy_stageOn (l : Lane) (f : Fld) (n : Nat) : (l.incBy f n).stageOn = l.stageOn := rfl
@[simp] theorem Lane.incBy_latchHold (l : Lane) (f : Fld) (n : Nat) : (l.incBy f n).latchHold = l.latchHold := rfl
@[simp] theorem Lane.incBy_latchAt (l : Lane) (f : Fld) (n : Nat) : (l.incBy f n).latchAt = l.latchAt := rfl
@[simp] theorem Lane.incBy_baton (l : Lane) (f : Fld) (n : Nat) : (l.incBy f n).baton = l.baton := rfl
@[simp] theorem Lane.incBy_fc (l : Lane) (f : Fld) (n : Nat) : (l.incBy f n).fc = l.fc := rfl
@[simp] theorem Lane.incBy_ea (l : Lane) (f : Fld) (n : Nat) : (l.incBy f n).ea = l.ea := rfl
@[simp] theorem Lane.incBy_mc0 (l : Lane) (f : Fld) (n : Nat) : (l.incBy f n).mc0 = l.mc0 := rfl
@[simp] theorem Lane.incBy_mc1 (l : Lane) (f : Fld) (n : Nat) : (l.incBy f n).mc1 = l.mc1 := rfl
@[simp] theorem Lane.incBy_demand (l : Lane) (f : Fld) (n : Nat) : (l.incBy f n).demand = l.demand := rfl
@[simp] theorem Lane.incBy_sp (l : Lane) (f : Fld) (n : Nat) : (l.incBy f n).sp = l.sp := rfl
@[simp] theorem Lane.incBy_af0 (l : Lane) (f : Fld) (n : Nat) : (l.incBy f n).af0 = l.af0 := rfl
@[simp] theorem Lane.incBy_af1 (l : Lane) (f : Fld) (n : Nat) : (l.incBy f n).af1 = l.af1 := rfl
@[simp] theorem Lane.incBy_si (l : Lane) (f : Fld) (n : Nat) : (l.incBy f n).si = l.si := rfl
@[simp] theorem Lane.incBy_bk (l : Lane) (f : Fld) (n : Nat) : (l.incBy f n).bk = l.bk := rfl
@[simp] theorem Lane.incBy_nx (l : Lane) (f : Fld) (n : Nat) : (l.incBy f n).nx = l.nx := rfl
@[simp] theorem Lane.incBy_se (l : Lane) (f : Fld) (n : Nat) : (l.incBy f n).se = l.se := rfl
@[simp] theorem Lane.incBy_pw (l : Lane) (f : Fld) (n : Nat) : (l.incBy f n).pw = l.pw := rfl
@[simp] theorem Lane.incBy_cf (l : Lane) (f : Fld) (n : Nat) : (l.incBy f n).cf = l.cf := rfl
@[simp] theorem Lane.incBy_can (l : Lane) (f : Fld) (n : Nat) : (l.incBy f n).can = l.can := rfl
@[simp] theorem Lane.incBy_ha (l : Lane) (f : Fld) (n : Nat) : (l.incBy f n).ha = l.ha := rfl
@[simp] theorem Lane.incBy_st (l : Lane) (f : Fld) (n : Nat) : (l.incBy f n).st = l.st := rfl
@[simp] theorem Lane.incBy_armedAt (l : Lane) (f : Fld) (n : Nat) : (l.incBy f n).armedAt = l.armedAt := rfl
@[simp] theorem Lane.incBy_arrived (l : Lane) (f : Fld) (n : Nat) : (l.incBy f n).arrived = l.arrived := rfl
@[simp] theorem Lane.incBy_watchGot (l : Lane) (f : Fld) (n : Nat) : (l.incBy f n).watchGot = l.watchGot := rfl
@[simp] theorem Lane.incBy_drift (l : Lane) (f : Fld) (n : Nat) : (l.incBy f n).drift = l.drift := rfl
@[simp] theorem Lane.incBy_ownPlaus (l : Lane) (f : Fld) (n : Nat) : (l.incBy f n).ownPlaus = l.ownPlaus := rfl
@[simp] theorem Lane.incBy_ownPlausPrev (l : Lane) (f : Fld) (n : Nat) : (l.incBy f n).ownPlausPrev = l.ownPlausPrev := rfl
@[simp] theorem Lane.incBy_mailOut (l : Lane) (f : Fld) (n : Nat) : (l.incBy f n).mailOut = l.mailOut := rfl
@[simp] theorem Lane.incBy_planted (l : Lane) (f : Fld) (n : Nat) : (l.incBy f n).planted = l.planted := rfl

/-! ### Lane.putQ: a q40 pair set -/

@[simp] theorem Lane.putQ_phase (l : Lane) (a : Nat) (v : Int) : (l.putQ a v).phase = l.phase := rfl
@[simp] theorem Lane.putQ_staging (l : Lane) (a : Nat) (v : Int) : (l.putQ a v).staging = l.staging := rfl
@[simp] theorem Lane.putQ_snap (l : Lane) (a : Nat) (v : Int) : (l.putQ a v).snap = l.snap := rfl
@[simp] theorem Lane.putQ_evt (l : Lane) (a : Nat) (v : Int) : (l.putQ a v).evt = l.evt := rfl
@[simp] theorem Lane.putQ_setAt (l : Lane) (a : Nat) (v : Int) : (l.putQ a v).setAt = l.setAt := rfl
@[simp] theorem Lane.putQ_bus (l : Lane) (a : Nat) (v : Int) : (l.putQ a v).bus = l.bus := rfl
@[simp] theorem Lane.putQ_irqWait (l : Lane) (a : Nat) (v : Int) : (l.putQ a v).irqWait = l.irqWait := rfl
@[simp] theorem Lane.putQ_irqRaise (l : Lane) (a : Nat) (v : Int) : (l.putQ a v).irqRaise = l.irqRaise := rfl
@[simp] theorem Lane.putQ_irqEntry (l : Lane) (a : Nat) (v : Int) : (l.putQ a v).irqEntry = l.irqEntry := rfl
@[simp] theorem Lane.putQ_mem (l : Lane) (a : Nat) (v : Int) : (l.putQ a v).mem = l.mem := rfl
@[simp] theorem Lane.putQ_tm (l : Lane) (a : Nat) (v : Int) : (l.putQ a v).tm = l.tm := rfl
@[simp] theorem Lane.putQ_free (l : Lane) (a : Nat) (v : Int) : (l.putQ a v).free = l.free := rfl
@[simp] theorem Lane.putQ_image (l : Lane) (a : Nat) (v : Int) : (l.putQ a v).image = l.image := rfl
@[simp] theorem Lane.putQ_peerA (l : Lane) (a : Nat) (v : Int) : (l.putQ a v).peerA = l.peerA := rfl
@[simp] theorem Lane.putQ_peerB (l : Lane) (a : Nat) (v : Int) : (l.putQ a v).peerB = l.peerB := rfl
@[simp] theorem Lane.putQ_peerC (l : Lane) (a : Nat) (v : Int) : (l.putQ a v).peerC = l.peerC := rfl
@[simp] theorem Lane.putQ_takeover (l : Lane) (a : Nat) (v : Int) : (l.putQ a v).takeover = l.takeover := rfl
@[simp] theorem Lane.putQ_refresh (l : Lane) (a : Nat) (v : Int) : (l.putQ a v).refresh = l.refresh := rfl
@[simp] theorem Lane.putQ_stageOn (l : Lane) (a : Nat) (v : Int) : (l.putQ a v).stageOn = l.stageOn := rfl
@[simp] theorem Lane.putQ_latchHold (l : Lane) (a : Nat) (v : Int) : (l.putQ a v).latchHold = l.latchHold := rfl
@[simp] theorem Lane.putQ_latchAt (l : Lane) (a : Nat) (v : Int) : (l.putQ a v).latchAt = l.latchAt := rfl
@[simp] theorem Lane.putQ_baton (l : Lane) (a : Nat) (v : Int) : (l.putQ a v).baton = l.baton := rfl
@[simp] theorem Lane.putQ_fc (l : Lane) (a : Nat) (v : Int) : (l.putQ a v).fc = l.fc := rfl
@[simp] theorem Lane.putQ_ea (l : Lane) (a : Nat) (v : Int) : (l.putQ a v).ea = l.ea := rfl
@[simp] theorem Lane.putQ_mc0 (l : Lane) (a : Nat) (v : Int) : (l.putQ a v).mc0 = l.mc0 := rfl
@[simp] theorem Lane.putQ_mc1 (l : Lane) (a : Nat) (v : Int) : (l.putQ a v).mc1 = l.mc1 := rfl
@[simp] theorem Lane.putQ_demand (l : Lane) (a : Nat) (v : Int) : (l.putQ a v).demand = l.demand := rfl
@[simp] theorem Lane.putQ_sp (l : Lane) (a : Nat) (v : Int) : (l.putQ a v).sp = l.sp := rfl
@[simp] theorem Lane.putQ_af0 (l : Lane) (a : Nat) (v : Int) : (l.putQ a v).af0 = l.af0 := rfl
@[simp] theorem Lane.putQ_af1 (l : Lane) (a : Nat) (v : Int) : (l.putQ a v).af1 = l.af1 := rfl
@[simp] theorem Lane.putQ_si (l : Lane) (a : Nat) (v : Int) : (l.putQ a v).si = l.si := rfl
@[simp] theorem Lane.putQ_bk (l : Lane) (a : Nat) (v : Int) : (l.putQ a v).bk = l.bk := rfl
@[simp] theorem Lane.putQ_nx (l : Lane) (a : Nat) (v : Int) : (l.putQ a v).nx = l.nx := rfl
@[simp] theorem Lane.putQ_se (l : Lane) (a : Nat) (v : Int) : (l.putQ a v).se = l.se := rfl
@[simp] theorem Lane.putQ_pw (l : Lane) (a : Nat) (v : Int) : (l.putQ a v).pw = l.pw := rfl
@[simp] theorem Lane.putQ_cf (l : Lane) (a : Nat) (v : Int) : (l.putQ a v).cf = l.cf := rfl
@[simp] theorem Lane.putQ_can (l : Lane) (a : Nat) (v : Int) : (l.putQ a v).can = l.can := rfl
@[simp] theorem Lane.putQ_ha (l : Lane) (a : Nat) (v : Int) : (l.putQ a v).ha = l.ha := rfl
@[simp] theorem Lane.putQ_st (l : Lane) (a : Nat) (v : Int) : (l.putQ a v).st = l.st := rfl
@[simp] theorem Lane.putQ_armedAt (l : Lane) (a : Nat) (v : Int) : (l.putQ a v).armedAt = l.armedAt := rfl
@[simp] theorem Lane.putQ_arrived (l : Lane) (a : Nat) (v : Int) : (l.putQ a v).arrived = l.arrived := rfl
@[simp] theorem Lane.putQ_watchGot (l : Lane) (a : Nat) (v : Int) : (l.putQ a v).watchGot = l.watchGot := rfl
@[simp] theorem Lane.putQ_drift (l : Lane) (a : Nat) (v : Int) : (l.putQ a v).drift = l.drift := rfl
@[simp] theorem Lane.putQ_ownPlaus (l : Lane) (a : Nat) (v : Int) : (l.putQ a v).ownPlaus = l.ownPlaus := rfl
@[simp] theorem Lane.putQ_ownPlausPrev (l : Lane) (a : Nat) (v : Int) : (l.putQ a v).ownPlausPrev = l.ownPlausPrev := rfl
@[simp] theorem Lane.putQ_mailOut (l : Lane) (a : Nat) (v : Int) : (l.putQ a v).mailOut = l.mailOut := rfl
@[simp] theorem Lane.putQ_planted (l : Lane) (a : Nat) (v : Int) : (l.putQ a v).planted = l.planted := rfl

/-! ### Lane.putU: a u40 pair set -/

@[simp] theorem Lane.putU_phase (l : Lane) (a : Nat) (v : Nat) : (l.putU a v).phase = l.phase := rfl
@[simp] theorem Lane.putU_staging (l : Lane) (a : Nat) (v : Nat) : (l.putU a v).staging = l.staging := rfl
@[simp] theorem Lane.putU_snap (l : Lane) (a : Nat) (v : Nat) : (l.putU a v).snap = l.snap := rfl
@[simp] theorem Lane.putU_evt (l : Lane) (a : Nat) (v : Nat) : (l.putU a v).evt = l.evt := rfl
@[simp] theorem Lane.putU_setAt (l : Lane) (a : Nat) (v : Nat) : (l.putU a v).setAt = l.setAt := rfl
@[simp] theorem Lane.putU_bus (l : Lane) (a : Nat) (v : Nat) : (l.putU a v).bus = l.bus := rfl
@[simp] theorem Lane.putU_irqWait (l : Lane) (a : Nat) (v : Nat) : (l.putU a v).irqWait = l.irqWait := rfl
@[simp] theorem Lane.putU_irqRaise (l : Lane) (a : Nat) (v : Nat) : (l.putU a v).irqRaise = l.irqRaise := rfl
@[simp] theorem Lane.putU_irqEntry (l : Lane) (a : Nat) (v : Nat) : (l.putU a v).irqEntry = l.irqEntry := rfl
@[simp] theorem Lane.putU_mem (l : Lane) (a : Nat) (v : Nat) : (l.putU a v).mem = l.mem := rfl
@[simp] theorem Lane.putU_tm (l : Lane) (a : Nat) (v : Nat) : (l.putU a v).tm = l.tm := rfl
@[simp] theorem Lane.putU_free (l : Lane) (a : Nat) (v : Nat) : (l.putU a v).free = l.free := rfl
@[simp] theorem Lane.putU_image (l : Lane) (a : Nat) (v : Nat) : (l.putU a v).image = l.image := rfl
@[simp] theorem Lane.putU_peerA (l : Lane) (a : Nat) (v : Nat) : (l.putU a v).peerA = l.peerA := rfl
@[simp] theorem Lane.putU_peerB (l : Lane) (a : Nat) (v : Nat) : (l.putU a v).peerB = l.peerB := rfl
@[simp] theorem Lane.putU_peerC (l : Lane) (a : Nat) (v : Nat) : (l.putU a v).peerC = l.peerC := rfl
@[simp] theorem Lane.putU_takeover (l : Lane) (a : Nat) (v : Nat) : (l.putU a v).takeover = l.takeover := rfl
@[simp] theorem Lane.putU_refresh (l : Lane) (a : Nat) (v : Nat) : (l.putU a v).refresh = l.refresh := rfl
@[simp] theorem Lane.putU_stageOn (l : Lane) (a : Nat) (v : Nat) : (l.putU a v).stageOn = l.stageOn := rfl
@[simp] theorem Lane.putU_latchHold (l : Lane) (a : Nat) (v : Nat) : (l.putU a v).latchHold = l.latchHold := rfl
@[simp] theorem Lane.putU_latchAt (l : Lane) (a : Nat) (v : Nat) : (l.putU a v).latchAt = l.latchAt := rfl
@[simp] theorem Lane.putU_baton (l : Lane) (a : Nat) (v : Nat) : (l.putU a v).baton = l.baton := rfl
@[simp] theorem Lane.putU_fc (l : Lane) (a : Nat) (v : Nat) : (l.putU a v).fc = l.fc := rfl
@[simp] theorem Lane.putU_ea (l : Lane) (a : Nat) (v : Nat) : (l.putU a v).ea = l.ea := rfl
@[simp] theorem Lane.putU_mc0 (l : Lane) (a : Nat) (v : Nat) : (l.putU a v).mc0 = l.mc0 := rfl
@[simp] theorem Lane.putU_mc1 (l : Lane) (a : Nat) (v : Nat) : (l.putU a v).mc1 = l.mc1 := rfl
@[simp] theorem Lane.putU_demand (l : Lane) (a : Nat) (v : Nat) : (l.putU a v).demand = l.demand := rfl
@[simp] theorem Lane.putU_sp (l : Lane) (a : Nat) (v : Nat) : (l.putU a v).sp = l.sp := rfl
@[simp] theorem Lane.putU_af0 (l : Lane) (a : Nat) (v : Nat) : (l.putU a v).af0 = l.af0 := rfl
@[simp] theorem Lane.putU_af1 (l : Lane) (a : Nat) (v : Nat) : (l.putU a v).af1 = l.af1 := rfl
@[simp] theorem Lane.putU_si (l : Lane) (a : Nat) (v : Nat) : (l.putU a v).si = l.si := rfl
@[simp] theorem Lane.putU_bk (l : Lane) (a : Nat) (v : Nat) : (l.putU a v).bk = l.bk := rfl
@[simp] theorem Lane.putU_nx (l : Lane) (a : Nat) (v : Nat) : (l.putU a v).nx = l.nx := rfl
@[simp] theorem Lane.putU_se (l : Lane) (a : Nat) (v : Nat) : (l.putU a v).se = l.se := rfl
@[simp] theorem Lane.putU_pw (l : Lane) (a : Nat) (v : Nat) : (l.putU a v).pw = l.pw := rfl
@[simp] theorem Lane.putU_cf (l : Lane) (a : Nat) (v : Nat) : (l.putU a v).cf = l.cf := rfl
@[simp] theorem Lane.putU_can (l : Lane) (a : Nat) (v : Nat) : (l.putU a v).can = l.can := rfl
@[simp] theorem Lane.putU_ha (l : Lane) (a : Nat) (v : Nat) : (l.putU a v).ha = l.ha := rfl
@[simp] theorem Lane.putU_st (l : Lane) (a : Nat) (v : Nat) : (l.putU a v).st = l.st := rfl
@[simp] theorem Lane.putU_armedAt (l : Lane) (a : Nat) (v : Nat) : (l.putU a v).armedAt = l.armedAt := rfl
@[simp] theorem Lane.putU_arrived (l : Lane) (a : Nat) (v : Nat) : (l.putU a v).arrived = l.arrived := rfl
@[simp] theorem Lane.putU_watchGot (l : Lane) (a : Nat) (v : Nat) : (l.putU a v).watchGot = l.watchGot := rfl
@[simp] theorem Lane.putU_drift (l : Lane) (a : Nat) (v : Nat) : (l.putU a v).drift = l.drift := rfl
@[simp] theorem Lane.putU_ownPlaus (l : Lane) (a : Nat) (v : Nat) : (l.putU a v).ownPlaus = l.ownPlaus := rfl
@[simp] theorem Lane.putU_ownPlausPrev (l : Lane) (a : Nat) (v : Nat) : (l.putU a v).ownPlausPrev = l.ownPlausPrev := rfl
@[simp] theorem Lane.putU_mailOut (l : Lane) (a : Nat) (v : Nat) : (l.putU a v).mailOut = l.mailOut := rfl
@[simp] theorem Lane.putU_planted (l : Lane) (a : Nat) (v : Nat) : (l.putU a v).planted = l.planted := rfl

/-! ### Lane.stampAt: a stamp taken -/

@[simp] theorem Lane.stampAt_phase (l : Lane) (a : Nat) : (l.stampAt a).phase = l.phase := rfl
@[simp] theorem Lane.stampAt_staging (l : Lane) (a : Nat) : (l.stampAt a).staging = l.staging := rfl
@[simp] theorem Lane.stampAt_snap (l : Lane) (a : Nat) : (l.stampAt a).snap = l.snap := rfl
@[simp] theorem Lane.stampAt_evt (l : Lane) (a : Nat) : (l.stampAt a).evt = l.evt := rfl
@[simp] theorem Lane.stampAt_setAt (l : Lane) (a : Nat) : (l.stampAt a).setAt = l.setAt := rfl
@[simp] theorem Lane.stampAt_bus (l : Lane) (a : Nat) : (l.stampAt a).bus = l.bus := rfl
@[simp] theorem Lane.stampAt_irqWait (l : Lane) (a : Nat) : (l.stampAt a).irqWait = l.irqWait := rfl
@[simp] theorem Lane.stampAt_irqRaise (l : Lane) (a : Nat) : (l.stampAt a).irqRaise = l.irqRaise := rfl
@[simp] theorem Lane.stampAt_irqEntry (l : Lane) (a : Nat) : (l.stampAt a).irqEntry = l.irqEntry := rfl
@[simp] theorem Lane.stampAt_mem (l : Lane) (a : Nat) : (l.stampAt a).mem = l.mem := rfl
@[simp] theorem Lane.stampAt_tm (l : Lane) (a : Nat) : (l.stampAt a).tm = l.tm := rfl
@[simp] theorem Lane.stampAt_free (l : Lane) (a : Nat) : (l.stampAt a).free = l.free := rfl
@[simp] theorem Lane.stampAt_image (l : Lane) (a : Nat) : (l.stampAt a).image = l.image := rfl
@[simp] theorem Lane.stampAt_peerA (l : Lane) (a : Nat) : (l.stampAt a).peerA = l.peerA := rfl
@[simp] theorem Lane.stampAt_peerB (l : Lane) (a : Nat) : (l.stampAt a).peerB = l.peerB := rfl
@[simp] theorem Lane.stampAt_peerC (l : Lane) (a : Nat) : (l.stampAt a).peerC = l.peerC := rfl
@[simp] theorem Lane.stampAt_takeover (l : Lane) (a : Nat) : (l.stampAt a).takeover = l.takeover := rfl
@[simp] theorem Lane.stampAt_refresh (l : Lane) (a : Nat) : (l.stampAt a).refresh = l.refresh := rfl
@[simp] theorem Lane.stampAt_stageOn (l : Lane) (a : Nat) : (l.stampAt a).stageOn = l.stageOn := rfl
@[simp] theorem Lane.stampAt_latchHold (l : Lane) (a : Nat) : (l.stampAt a).latchHold = l.latchHold := rfl
@[simp] theorem Lane.stampAt_latchAt (l : Lane) (a : Nat) : (l.stampAt a).latchAt = l.latchAt := rfl
@[simp] theorem Lane.stampAt_baton (l : Lane) (a : Nat) : (l.stampAt a).baton = l.baton := rfl
@[simp] theorem Lane.stampAt_fc (l : Lane) (a : Nat) : (l.stampAt a).fc = l.fc := rfl
@[simp] theorem Lane.stampAt_ea (l : Lane) (a : Nat) : (l.stampAt a).ea = l.ea := rfl
@[simp] theorem Lane.stampAt_mc0 (l : Lane) (a : Nat) : (l.stampAt a).mc0 = l.mc0 := rfl
@[simp] theorem Lane.stampAt_mc1 (l : Lane) (a : Nat) : (l.stampAt a).mc1 = l.mc1 := rfl
@[simp] theorem Lane.stampAt_demand (l : Lane) (a : Nat) : (l.stampAt a).demand = l.demand := rfl
@[simp] theorem Lane.stampAt_sp (l : Lane) (a : Nat) : (l.stampAt a).sp = l.sp := rfl
@[simp] theorem Lane.stampAt_af0 (l : Lane) (a : Nat) : (l.stampAt a).af0 = l.af0 := rfl
@[simp] theorem Lane.stampAt_af1 (l : Lane) (a : Nat) : (l.stampAt a).af1 = l.af1 := rfl
@[simp] theorem Lane.stampAt_si (l : Lane) (a : Nat) : (l.stampAt a).si = l.si := rfl
@[simp] theorem Lane.stampAt_bk (l : Lane) (a : Nat) : (l.stampAt a).bk = l.bk := rfl
@[simp] theorem Lane.stampAt_nx (l : Lane) (a : Nat) : (l.stampAt a).nx = l.nx := rfl
@[simp] theorem Lane.stampAt_se (l : Lane) (a : Nat) : (l.stampAt a).se = l.se := rfl
@[simp] theorem Lane.stampAt_pw (l : Lane) (a : Nat) : (l.stampAt a).pw = l.pw := rfl
@[simp] theorem Lane.stampAt_cf (l : Lane) (a : Nat) : (l.stampAt a).cf = l.cf := rfl
@[simp] theorem Lane.stampAt_can (l : Lane) (a : Nat) : (l.stampAt a).can = l.can := rfl
@[simp] theorem Lane.stampAt_ha (l : Lane) (a : Nat) : (l.stampAt a).ha = l.ha := rfl
@[simp] theorem Lane.stampAt_st (l : Lane) (a : Nat) : (l.stampAt a).st = l.st := rfl
@[simp] theorem Lane.stampAt_armedAt (l : Lane) (a : Nat) : (l.stampAt a).armedAt = l.armedAt := rfl
@[simp] theorem Lane.stampAt_arrived (l : Lane) (a : Nat) : (l.stampAt a).arrived = l.arrived := rfl
@[simp] theorem Lane.stampAt_watchGot (l : Lane) (a : Nat) : (l.stampAt a).watchGot = l.watchGot := rfl
@[simp] theorem Lane.stampAt_drift (l : Lane) (a : Nat) : (l.stampAt a).drift = l.drift := rfl
@[simp] theorem Lane.stampAt_ownPlaus (l : Lane) (a : Nat) : (l.stampAt a).ownPlaus = l.ownPlaus := rfl
@[simp] theorem Lane.stampAt_ownPlausPrev (l : Lane) (a : Nat) : (l.stampAt a).ownPlausPrev = l.ownPlausPrev := rfl
@[simp] theorem Lane.stampAt_mailOut (l : Lane) (a : Nat) : (l.stampAt a).mailOut = l.mailOut := rfl
@[simp] theorem Lane.stampAt_planted (l : Lane) (a : Nat) : (l.stampAt a).planted = l.planted := rfl

/-! ### Lane.clearFlags: flags cleared -/

@[simp] theorem Lane.clearFlags_phase (l : Lane) (a : Nat) (v w : Word) : (l.clearFlags a v w).phase = l.phase := rfl
@[simp] theorem Lane.clearFlags_staging (l : Lane) (a : Nat) (v w : Word) : (l.clearFlags a v w).staging = l.staging := rfl
@[simp] theorem Lane.clearFlags_snap (l : Lane) (a : Nat) (v w : Word) : (l.clearFlags a v w).snap = l.snap := rfl
@[simp] theorem Lane.clearFlags_evt (l : Lane) (a : Nat) (v w : Word) : (l.clearFlags a v w).evt = l.evt := rfl
@[simp] theorem Lane.clearFlags_setAt (l : Lane) (a : Nat) (v w : Word) : (l.clearFlags a v w).setAt = l.setAt := rfl
@[simp] theorem Lane.clearFlags_bus (l : Lane) (a : Nat) (v w : Word) : (l.clearFlags a v w).bus = l.bus := rfl
@[simp] theorem Lane.clearFlags_irqWait (l : Lane) (a : Nat) (v w : Word) : (l.clearFlags a v w).irqWait = l.irqWait := rfl
@[simp] theorem Lane.clearFlags_irqRaise (l : Lane) (a : Nat) (v w : Word) : (l.clearFlags a v w).irqRaise = l.irqRaise := rfl
@[simp] theorem Lane.clearFlags_irqEntry (l : Lane) (a : Nat) (v w : Word) : (l.clearFlags a v w).irqEntry = l.irqEntry := rfl
@[simp] theorem Lane.clearFlags_mem (l : Lane) (a : Nat) (v w : Word) : (l.clearFlags a v w).mem = l.mem := rfl
@[simp] theorem Lane.clearFlags_tm (l : Lane) (a : Nat) (v w : Word) : (l.clearFlags a v w).tm = l.tm := rfl
@[simp] theorem Lane.clearFlags_free (l : Lane) (a : Nat) (v w : Word) : (l.clearFlags a v w).free = l.free := rfl
@[simp] theorem Lane.clearFlags_image (l : Lane) (a : Nat) (v w : Word) : (l.clearFlags a v w).image = l.image := rfl
@[simp] theorem Lane.clearFlags_peerA (l : Lane) (a : Nat) (v w : Word) : (l.clearFlags a v w).peerA = l.peerA := rfl
@[simp] theorem Lane.clearFlags_peerB (l : Lane) (a : Nat) (v w : Word) : (l.clearFlags a v w).peerB = l.peerB := rfl
@[simp] theorem Lane.clearFlags_peerC (l : Lane) (a : Nat) (v w : Word) : (l.clearFlags a v w).peerC = l.peerC := rfl
@[simp] theorem Lane.clearFlags_takeover (l : Lane) (a : Nat) (v w : Word) : (l.clearFlags a v w).takeover = l.takeover := rfl
@[simp] theorem Lane.clearFlags_refresh (l : Lane) (a : Nat) (v w : Word) : (l.clearFlags a v w).refresh = l.refresh := rfl
@[simp] theorem Lane.clearFlags_stageOn (l : Lane) (a : Nat) (v w : Word) : (l.clearFlags a v w).stageOn = l.stageOn := rfl
@[simp] theorem Lane.clearFlags_latchHold (l : Lane) (a : Nat) (v w : Word) : (l.clearFlags a v w).latchHold = l.latchHold := rfl
@[simp] theorem Lane.clearFlags_latchAt (l : Lane) (a : Nat) (v w : Word) : (l.clearFlags a v w).latchAt = l.latchAt := rfl
@[simp] theorem Lane.clearFlags_baton (l : Lane) (a : Nat) (v w : Word) : (l.clearFlags a v w).baton = l.baton := rfl
@[simp] theorem Lane.clearFlags_fc (l : Lane) (a : Nat) (v w : Word) : (l.clearFlags a v w).fc = l.fc := rfl
@[simp] theorem Lane.clearFlags_ea (l : Lane) (a : Nat) (v w : Word) : (l.clearFlags a v w).ea = l.ea := rfl
@[simp] theorem Lane.clearFlags_mc0 (l : Lane) (a : Nat) (v w : Word) : (l.clearFlags a v w).mc0 = l.mc0 := rfl
@[simp] theorem Lane.clearFlags_mc1 (l : Lane) (a : Nat) (v w : Word) : (l.clearFlags a v w).mc1 = l.mc1 := rfl
@[simp] theorem Lane.clearFlags_demand (l : Lane) (a : Nat) (v w : Word) : (l.clearFlags a v w).demand = l.demand := rfl
@[simp] theorem Lane.clearFlags_sp (l : Lane) (a : Nat) (v w : Word) : (l.clearFlags a v w).sp = l.sp := rfl
@[simp] theorem Lane.clearFlags_af0 (l : Lane) (a : Nat) (v w : Word) : (l.clearFlags a v w).af0 = l.af0 := rfl
@[simp] theorem Lane.clearFlags_af1 (l : Lane) (a : Nat) (v w : Word) : (l.clearFlags a v w).af1 = l.af1 := rfl
@[simp] theorem Lane.clearFlags_si (l : Lane) (a : Nat) (v w : Word) : (l.clearFlags a v w).si = l.si := rfl
@[simp] theorem Lane.clearFlags_bk (l : Lane) (a : Nat) (v w : Word) : (l.clearFlags a v w).bk = l.bk := rfl
@[simp] theorem Lane.clearFlags_nx (l : Lane) (a : Nat) (v w : Word) : (l.clearFlags a v w).nx = l.nx := rfl
@[simp] theorem Lane.clearFlags_se (l : Lane) (a : Nat) (v w : Word) : (l.clearFlags a v w).se = l.se := rfl
@[simp] theorem Lane.clearFlags_pw (l : Lane) (a : Nat) (v w : Word) : (l.clearFlags a v w).pw = l.pw := rfl
@[simp] theorem Lane.clearFlags_cf (l : Lane) (a : Nat) (v w : Word) : (l.clearFlags a v w).cf = l.cf := rfl
@[simp] theorem Lane.clearFlags_can (l : Lane) (a : Nat) (v w : Word) : (l.clearFlags a v w).can = l.can := rfl
@[simp] theorem Lane.clearFlags_ha (l : Lane) (a : Nat) (v w : Word) : (l.clearFlags a v w).ha = l.ha := rfl
@[simp] theorem Lane.clearFlags_st (l : Lane) (a : Nat) (v w : Word) : (l.clearFlags a v w).st = l.st := rfl
@[simp] theorem Lane.clearFlags_armedAt (l : Lane) (a : Nat) (v w : Word) : (l.clearFlags a v w).armedAt = l.armedAt := rfl
@[simp] theorem Lane.clearFlags_arrived (l : Lane) (a : Nat) (v w : Word) : (l.clearFlags a v w).arrived = l.arrived := rfl
@[simp] theorem Lane.clearFlags_watchGot (l : Lane) (a : Nat) (v w : Word) : (l.clearFlags a v w).watchGot = l.watchGot := rfl
@[simp] theorem Lane.clearFlags_drift (l : Lane) (a : Nat) (v w : Word) : (l.clearFlags a v w).drift = l.drift := rfl
@[simp] theorem Lane.clearFlags_ownPlaus (l : Lane) (a : Nat) (v w : Word) : (l.clearFlags a v w).ownPlaus = l.ownPlaus := rfl
@[simp] theorem Lane.clearFlags_ownPlausPrev (l : Lane) (a : Nat) (v w : Word) : (l.clearFlags a v w).ownPlausPrev = l.ownPlausPrev := rfl
@[simp] theorem Lane.clearFlags_mailOut (l : Lane) (a : Nat) (v w : Word) : (l.clearFlags a v w).mailOut = l.mailOut := rfl
@[simp] theorem Lane.clearFlags_planted (l : Lane) (a : Nat) (v w : Word) : (l.clearFlags a v w).planted = l.planted := rfl

/-! ### Lane.draw: a free value drawn -/

@[simp] theorem Lane.draw_phase (l : Lane) : (l.draw).phase = l.phase := rfl
@[simp] theorem Lane.draw_regs (l : Lane) : (l.draw).regs = l.regs := rfl
@[simp] theorem Lane.draw_staging (l : Lane) : (l.draw).staging = l.staging := rfl
@[simp] theorem Lane.draw_snap (l : Lane) : (l.draw).snap = l.snap := rfl
@[simp] theorem Lane.draw_evt (l : Lane) : (l.draw).evt = l.evt := rfl
@[simp] theorem Lane.draw_setAt (l : Lane) : (l.draw).setAt = l.setAt := rfl
@[simp] theorem Lane.draw_bus (l : Lane) : (l.draw).bus = l.bus := rfl
@[simp] theorem Lane.draw_irqWait (l : Lane) : (l.draw).irqWait = l.irqWait := rfl
@[simp] theorem Lane.draw_irqRaise (l : Lane) : (l.draw).irqRaise = l.irqRaise := rfl
@[simp] theorem Lane.draw_irqEntry (l : Lane) : (l.draw).irqEntry = l.irqEntry := rfl
@[simp] theorem Lane.draw_mem (l : Lane) : (l.draw).mem = l.mem := rfl
@[simp] theorem Lane.draw_tm (l : Lane) : (l.draw).tm = l.tm := rfl
@[simp] theorem Lane.draw_image (l : Lane) : (l.draw).image = l.image := rfl
@[simp] theorem Lane.draw_peerA (l : Lane) : (l.draw).peerA = l.peerA := rfl
@[simp] theorem Lane.draw_peerB (l : Lane) : (l.draw).peerB = l.peerB := rfl
@[simp] theorem Lane.draw_peerC (l : Lane) : (l.draw).peerC = l.peerC := rfl
@[simp] theorem Lane.draw_takeover (l : Lane) : (l.draw).takeover = l.takeover := rfl
@[simp] theorem Lane.draw_refresh (l : Lane) : (l.draw).refresh = l.refresh := rfl
@[simp] theorem Lane.draw_stageOn (l : Lane) : (l.draw).stageOn = l.stageOn := rfl
@[simp] theorem Lane.draw_latchHold (l : Lane) : (l.draw).latchHold = l.latchHold := rfl
@[simp] theorem Lane.draw_latchAt (l : Lane) : (l.draw).latchAt = l.latchAt := rfl
@[simp] theorem Lane.draw_baton (l : Lane) : (l.draw).baton = l.baton := rfl
@[simp] theorem Lane.draw_fc (l : Lane) : (l.draw).fc = l.fc := rfl
@[simp] theorem Lane.draw_ea (l : Lane) : (l.draw).ea = l.ea := rfl
@[simp] theorem Lane.draw_mc0 (l : Lane) : (l.draw).mc0 = l.mc0 := rfl
@[simp] theorem Lane.draw_mc1 (l : Lane) : (l.draw).mc1 = l.mc1 := rfl
@[simp] theorem Lane.draw_demand (l : Lane) : (l.draw).demand = l.demand := rfl
@[simp] theorem Lane.draw_sp (l : Lane) : (l.draw).sp = l.sp := rfl
@[simp] theorem Lane.draw_af0 (l : Lane) : (l.draw).af0 = l.af0 := rfl
@[simp] theorem Lane.draw_af1 (l : Lane) : (l.draw).af1 = l.af1 := rfl
@[simp] theorem Lane.draw_si (l : Lane) : (l.draw).si = l.si := rfl
@[simp] theorem Lane.draw_bk (l : Lane) : (l.draw).bk = l.bk := rfl
@[simp] theorem Lane.draw_nx (l : Lane) : (l.draw).nx = l.nx := rfl
@[simp] theorem Lane.draw_se (l : Lane) : (l.draw).se = l.se := rfl
@[simp] theorem Lane.draw_pw (l : Lane) : (l.draw).pw = l.pw := rfl
@[simp] theorem Lane.draw_cf (l : Lane) : (l.draw).cf = l.cf := rfl
@[simp] theorem Lane.draw_can (l : Lane) : (l.draw).can = l.can := rfl
@[simp] theorem Lane.draw_ha (l : Lane) : (l.draw).ha = l.ha := rfl
@[simp] theorem Lane.draw_st (l : Lane) : (l.draw).st = l.st := rfl
@[simp] theorem Lane.draw_armedAt (l : Lane) : (l.draw).armedAt = l.armedAt := rfl
@[simp] theorem Lane.draw_arrived (l : Lane) : (l.draw).arrived = l.arrived := rfl
@[simp] theorem Lane.draw_watchGot (l : Lane) : (l.draw).watchGot = l.watchGot := rfl
@[simp] theorem Lane.draw_drift (l : Lane) : (l.draw).drift = l.drift := rfl
@[simp] theorem Lane.draw_ownPlaus (l : Lane) : (l.draw).ownPlaus = l.ownPlaus := rfl
@[simp] theorem Lane.draw_ownPlausPrev (l : Lane) : (l.draw).ownPlausPrev = l.ownPlausPrev := rfl
@[simp] theorem Lane.draw_mailOut (l : Lane) : (l.draw).mailOut = l.mailOut := rfl
@[simp] theorem Lane.draw_planted (l : Lane) : (l.draw).planted = l.planted := rfl

/-! ### Lane.setByte: a byte stored -/

@[simp] theorem Lane.setByte_phase (l : Lane) (a : Nat) (x : Byte) : (l.setByte a x).phase = l.phase := rfl
@[simp] theorem Lane.setByte_regs (l : Lane) (a : Nat) (x : Byte) : (l.setByte a x).regs = l.regs := rfl
@[simp] theorem Lane.setByte_staging (l : Lane) (a : Nat) (x : Byte) : (l.setByte a x).staging = l.staging := rfl
@[simp] theorem Lane.setByte_snap (l : Lane) (a : Nat) (x : Byte) : (l.setByte a x).snap = l.snap := rfl
@[simp] theorem Lane.setByte_evt (l : Lane) (a : Nat) (x : Byte) : (l.setByte a x).evt = l.evt := rfl
@[simp] theorem Lane.setByte_setAt (l : Lane) (a : Nat) (x : Byte) : (l.setByte a x).setAt = l.setAt := rfl
@[simp] theorem Lane.setByte_bus (l : Lane) (a : Nat) (x : Byte) : (l.setByte a x).bus = l.bus := rfl
@[simp] theorem Lane.setByte_irqWait (l : Lane) (a : Nat) (x : Byte) : (l.setByte a x).irqWait = l.irqWait := rfl
@[simp] theorem Lane.setByte_irqRaise (l : Lane) (a : Nat) (x : Byte) : (l.setByte a x).irqRaise = l.irqRaise := rfl
@[simp] theorem Lane.setByte_irqEntry (l : Lane) (a : Nat) (x : Byte) : (l.setByte a x).irqEntry = l.irqEntry := rfl
@[simp] theorem Lane.setByte_tm (l : Lane) (a : Nat) (x : Byte) : (l.setByte a x).tm = l.tm := rfl
@[simp] theorem Lane.setByte_free (l : Lane) (a : Nat) (x : Byte) : (l.setByte a x).free = l.free := rfl
@[simp] theorem Lane.setByte_image (l : Lane) (a : Nat) (x : Byte) : (l.setByte a x).image = l.image := rfl
@[simp] theorem Lane.setByte_peerA (l : Lane) (a : Nat) (x : Byte) : (l.setByte a x).peerA = l.peerA := rfl
@[simp] theorem Lane.setByte_peerB (l : Lane) (a : Nat) (x : Byte) : (l.setByte a x).peerB = l.peerB := rfl
@[simp] theorem Lane.setByte_peerC (l : Lane) (a : Nat) (x : Byte) : (l.setByte a x).peerC = l.peerC := rfl
@[simp] theorem Lane.setByte_takeover (l : Lane) (a : Nat) (x : Byte) : (l.setByte a x).takeover = l.takeover := rfl
@[simp] theorem Lane.setByte_refresh (l : Lane) (a : Nat) (x : Byte) : (l.setByte a x).refresh = l.refresh := rfl
@[simp] theorem Lane.setByte_stageOn (l : Lane) (a : Nat) (x : Byte) : (l.setByte a x).stageOn = l.stageOn := rfl
@[simp] theorem Lane.setByte_latchHold (l : Lane) (a : Nat) (x : Byte) : (l.setByte a x).latchHold = l.latchHold := rfl
@[simp] theorem Lane.setByte_latchAt (l : Lane) (a : Nat) (x : Byte) : (l.setByte a x).latchAt = l.latchAt := rfl
@[simp] theorem Lane.setByte_baton (l : Lane) (a : Nat) (x : Byte) : (l.setByte a x).baton = l.baton := rfl
@[simp] theorem Lane.setByte_fc (l : Lane) (a : Nat) (x : Byte) : (l.setByte a x).fc = l.fc := rfl
@[simp] theorem Lane.setByte_ea (l : Lane) (a : Nat) (x : Byte) : (l.setByte a x).ea = l.ea := rfl
@[simp] theorem Lane.setByte_mc0 (l : Lane) (a : Nat) (x : Byte) : (l.setByte a x).mc0 = l.mc0 := rfl
@[simp] theorem Lane.setByte_mc1 (l : Lane) (a : Nat) (x : Byte) : (l.setByte a x).mc1 = l.mc1 := rfl
@[simp] theorem Lane.setByte_demand (l : Lane) (a : Nat) (x : Byte) : (l.setByte a x).demand = l.demand := rfl
@[simp] theorem Lane.setByte_sp (l : Lane) (a : Nat) (x : Byte) : (l.setByte a x).sp = l.sp := rfl
@[simp] theorem Lane.setByte_af0 (l : Lane) (a : Nat) (x : Byte) : (l.setByte a x).af0 = l.af0 := rfl
@[simp] theorem Lane.setByte_af1 (l : Lane) (a : Nat) (x : Byte) : (l.setByte a x).af1 = l.af1 := rfl
@[simp] theorem Lane.setByte_si (l : Lane) (a : Nat) (x : Byte) : (l.setByte a x).si = l.si := rfl
@[simp] theorem Lane.setByte_bk (l : Lane) (a : Nat) (x : Byte) : (l.setByte a x).bk = l.bk := rfl
@[simp] theorem Lane.setByte_nx (l : Lane) (a : Nat) (x : Byte) : (l.setByte a x).nx = l.nx := rfl
@[simp] theorem Lane.setByte_se (l : Lane) (a : Nat) (x : Byte) : (l.setByte a x).se = l.se := rfl
@[simp] theorem Lane.setByte_pw (l : Lane) (a : Nat) (x : Byte) : (l.setByte a x).pw = l.pw := rfl
@[simp] theorem Lane.setByte_cf (l : Lane) (a : Nat) (x : Byte) : (l.setByte a x).cf = l.cf := rfl
@[simp] theorem Lane.setByte_can (l : Lane) (a : Nat) (x : Byte) : (l.setByte a x).can = l.can := rfl
@[simp] theorem Lane.setByte_ha (l : Lane) (a : Nat) (x : Byte) : (l.setByte a x).ha = l.ha := rfl
@[simp] theorem Lane.setByte_st (l : Lane) (a : Nat) (x : Byte) : (l.setByte a x).st = l.st := rfl
@[simp] theorem Lane.setByte_armedAt (l : Lane) (a : Nat) (x : Byte) : (l.setByte a x).armedAt = l.armedAt := rfl
@[simp] theorem Lane.setByte_arrived (l : Lane) (a : Nat) (x : Byte) : (l.setByte a x).arrived = l.arrived := rfl
@[simp] theorem Lane.setByte_watchGot (l : Lane) (a : Nat) (x : Byte) : (l.setByte a x).watchGot = l.watchGot := rfl
@[simp] theorem Lane.setByte_drift (l : Lane) (a : Nat) (x : Byte) : (l.setByte a x).drift = l.drift := rfl
@[simp] theorem Lane.setByte_ownPlaus (l : Lane) (a : Nat) (x : Byte) : (l.setByte a x).ownPlaus = l.ownPlaus := rfl
@[simp] theorem Lane.setByte_ownPlausPrev (l : Lane) (a : Nat) (x : Byte) : (l.setByte a x).ownPlausPrev = l.ownPlausPrev := rfl
@[simp] theorem Lane.setByte_mailOut (l : Lane) (a : Nat) (x : Byte) : (l.setByte a x).mailOut = l.mailOut := rfl

/-! ### Lane.setBytes: bytes stored -/

@[simp] theorem Lane.setBytes_phase (l : Lane) (a : Nat) (bs : List Byte) : (l.setBytes a bs).phase = l.phase := by
  induction bs generalizing l a with
  | nil => rfl
  | cons x t ih => simp [Lane.setBytes, ih]
@[simp] theorem Lane.setBytes_regs (l : Lane) (a : Nat) (bs : List Byte) : (l.setBytes a bs).regs = l.regs := by
  induction bs generalizing l a with
  | nil => rfl
  | cons x t ih => simp [Lane.setBytes, ih]
@[simp] theorem Lane.setBytes_staging (l : Lane) (a : Nat) (bs : List Byte) : (l.setBytes a bs).staging = l.staging := by
  induction bs generalizing l a with
  | nil => rfl
  | cons x t ih => simp [Lane.setBytes, ih]
@[simp] theorem Lane.setBytes_snap (l : Lane) (a : Nat) (bs : List Byte) : (l.setBytes a bs).snap = l.snap := by
  induction bs generalizing l a with
  | nil => rfl
  | cons x t ih => simp [Lane.setBytes, ih]
@[simp] theorem Lane.setBytes_evt (l : Lane) (a : Nat) (bs : List Byte) : (l.setBytes a bs).evt = l.evt := by
  induction bs generalizing l a with
  | nil => rfl
  | cons x t ih => simp [Lane.setBytes, ih]
@[simp] theorem Lane.setBytes_setAt (l : Lane) (a : Nat) (bs : List Byte) : (l.setBytes a bs).setAt = l.setAt := by
  induction bs generalizing l a with
  | nil => rfl
  | cons x t ih => simp [Lane.setBytes, ih]
@[simp] theorem Lane.setBytes_bus (l : Lane) (a : Nat) (bs : List Byte) : (l.setBytes a bs).bus = l.bus := by
  induction bs generalizing l a with
  | nil => rfl
  | cons x t ih => simp [Lane.setBytes, ih]
@[simp] theorem Lane.setBytes_irqWait (l : Lane) (a : Nat) (bs : List Byte) : (l.setBytes a bs).irqWait = l.irqWait := by
  induction bs generalizing l a with
  | nil => rfl
  | cons x t ih => simp [Lane.setBytes, ih]
@[simp] theorem Lane.setBytes_irqRaise (l : Lane) (a : Nat) (bs : List Byte) : (l.setBytes a bs).irqRaise = l.irqRaise := by
  induction bs generalizing l a with
  | nil => rfl
  | cons x t ih => simp [Lane.setBytes, ih]
@[simp] theorem Lane.setBytes_irqEntry (l : Lane) (a : Nat) (bs : List Byte) : (l.setBytes a bs).irqEntry = l.irqEntry := by
  induction bs generalizing l a with
  | nil => rfl
  | cons x t ih => simp [Lane.setBytes, ih]
@[simp] theorem Lane.setBytes_tm (l : Lane) (a : Nat) (bs : List Byte) : (l.setBytes a bs).tm = l.tm := by
  induction bs generalizing l a with
  | nil => rfl
  | cons x t ih => simp [Lane.setBytes, ih]
@[simp] theorem Lane.setBytes_free (l : Lane) (a : Nat) (bs : List Byte) : (l.setBytes a bs).free = l.free := by
  induction bs generalizing l a with
  | nil => rfl
  | cons x t ih => simp [Lane.setBytes, ih]
@[simp] theorem Lane.setBytes_image (l : Lane) (a : Nat) (bs : List Byte) : (l.setBytes a bs).image = l.image := by
  induction bs generalizing l a with
  | nil => rfl
  | cons x t ih => simp [Lane.setBytes, ih]
@[simp] theorem Lane.setBytes_peerA (l : Lane) (a : Nat) (bs : List Byte) : (l.setBytes a bs).peerA = l.peerA := by
  induction bs generalizing l a with
  | nil => rfl
  | cons x t ih => simp [Lane.setBytes, ih]
@[simp] theorem Lane.setBytes_peerB (l : Lane) (a : Nat) (bs : List Byte) : (l.setBytes a bs).peerB = l.peerB := by
  induction bs generalizing l a with
  | nil => rfl
  | cons x t ih => simp [Lane.setBytes, ih]
@[simp] theorem Lane.setBytes_peerC (l : Lane) (a : Nat) (bs : List Byte) : (l.setBytes a bs).peerC = l.peerC := by
  induction bs generalizing l a with
  | nil => rfl
  | cons x t ih => simp [Lane.setBytes, ih]
@[simp] theorem Lane.setBytes_takeover (l : Lane) (a : Nat) (bs : List Byte) : (l.setBytes a bs).takeover = l.takeover := by
  induction bs generalizing l a with
  | nil => rfl
  | cons x t ih => simp [Lane.setBytes, ih]
@[simp] theorem Lane.setBytes_refresh (l : Lane) (a : Nat) (bs : List Byte) : (l.setBytes a bs).refresh = l.refresh := by
  induction bs generalizing l a with
  | nil => rfl
  | cons x t ih => simp [Lane.setBytes, ih]
@[simp] theorem Lane.setBytes_stageOn (l : Lane) (a : Nat) (bs : List Byte) : (l.setBytes a bs).stageOn = l.stageOn := by
  induction bs generalizing l a with
  | nil => rfl
  | cons x t ih => simp [Lane.setBytes, ih]
@[simp] theorem Lane.setBytes_latchHold (l : Lane) (a : Nat) (bs : List Byte) : (l.setBytes a bs).latchHold = l.latchHold := by
  induction bs generalizing l a with
  | nil => rfl
  | cons x t ih => simp [Lane.setBytes, ih]
@[simp] theorem Lane.setBytes_latchAt (l : Lane) (a : Nat) (bs : List Byte) : (l.setBytes a bs).latchAt = l.latchAt := by
  induction bs generalizing l a with
  | nil => rfl
  | cons x t ih => simp [Lane.setBytes, ih]
@[simp] theorem Lane.setBytes_baton (l : Lane) (a : Nat) (bs : List Byte) : (l.setBytes a bs).baton = l.baton := by
  induction bs generalizing l a with
  | nil => rfl
  | cons x t ih => simp [Lane.setBytes, ih]
@[simp] theorem Lane.setBytes_fc (l : Lane) (a : Nat) (bs : List Byte) : (l.setBytes a bs).fc = l.fc := by
  induction bs generalizing l a with
  | nil => rfl
  | cons x t ih => simp [Lane.setBytes, ih]
@[simp] theorem Lane.setBytes_ea (l : Lane) (a : Nat) (bs : List Byte) : (l.setBytes a bs).ea = l.ea := by
  induction bs generalizing l a with
  | nil => rfl
  | cons x t ih => simp [Lane.setBytes, ih]
@[simp] theorem Lane.setBytes_mc0 (l : Lane) (a : Nat) (bs : List Byte) : (l.setBytes a bs).mc0 = l.mc0 := by
  induction bs generalizing l a with
  | nil => rfl
  | cons x t ih => simp [Lane.setBytes, ih]
@[simp] theorem Lane.setBytes_mc1 (l : Lane) (a : Nat) (bs : List Byte) : (l.setBytes a bs).mc1 = l.mc1 := by
  induction bs generalizing l a with
  | nil => rfl
  | cons x t ih => simp [Lane.setBytes, ih]
@[simp] theorem Lane.setBytes_demand (l : Lane) (a : Nat) (bs : List Byte) : (l.setBytes a bs).demand = l.demand := by
  induction bs generalizing l a with
  | nil => rfl
  | cons x t ih => simp [Lane.setBytes, ih]
@[simp] theorem Lane.setBytes_sp (l : Lane) (a : Nat) (bs : List Byte) : (l.setBytes a bs).sp = l.sp := by
  induction bs generalizing l a with
  | nil => rfl
  | cons x t ih => simp [Lane.setBytes, ih]
@[simp] theorem Lane.setBytes_af0 (l : Lane) (a : Nat) (bs : List Byte) : (l.setBytes a bs).af0 = l.af0 := by
  induction bs generalizing l a with
  | nil => rfl
  | cons x t ih => simp [Lane.setBytes, ih]
@[simp] theorem Lane.setBytes_af1 (l : Lane) (a : Nat) (bs : List Byte) : (l.setBytes a bs).af1 = l.af1 := by
  induction bs generalizing l a with
  | nil => rfl
  | cons x t ih => simp [Lane.setBytes, ih]
@[simp] theorem Lane.setBytes_si (l : Lane) (a : Nat) (bs : List Byte) : (l.setBytes a bs).si = l.si := by
  induction bs generalizing l a with
  | nil => rfl
  | cons x t ih => simp [Lane.setBytes, ih]
@[simp] theorem Lane.setBytes_bk (l : Lane) (a : Nat) (bs : List Byte) : (l.setBytes a bs).bk = l.bk := by
  induction bs generalizing l a with
  | nil => rfl
  | cons x t ih => simp [Lane.setBytes, ih]
@[simp] theorem Lane.setBytes_nx (l : Lane) (a : Nat) (bs : List Byte) : (l.setBytes a bs).nx = l.nx := by
  induction bs generalizing l a with
  | nil => rfl
  | cons x t ih => simp [Lane.setBytes, ih]
@[simp] theorem Lane.setBytes_se (l : Lane) (a : Nat) (bs : List Byte) : (l.setBytes a bs).se = l.se := by
  induction bs generalizing l a with
  | nil => rfl
  | cons x t ih => simp [Lane.setBytes, ih]
@[simp] theorem Lane.setBytes_pw (l : Lane) (a : Nat) (bs : List Byte) : (l.setBytes a bs).pw = l.pw := by
  induction bs generalizing l a with
  | nil => rfl
  | cons x t ih => simp [Lane.setBytes, ih]
@[simp] theorem Lane.setBytes_cf (l : Lane) (a : Nat) (bs : List Byte) : (l.setBytes a bs).cf = l.cf := by
  induction bs generalizing l a with
  | nil => rfl
  | cons x t ih => simp [Lane.setBytes, ih]
@[simp] theorem Lane.setBytes_can (l : Lane) (a : Nat) (bs : List Byte) : (l.setBytes a bs).can = l.can := by
  induction bs generalizing l a with
  | nil => rfl
  | cons x t ih => simp [Lane.setBytes, ih]
@[simp] theorem Lane.setBytes_ha (l : Lane) (a : Nat) (bs : List Byte) : (l.setBytes a bs).ha = l.ha := by
  induction bs generalizing l a with
  | nil => rfl
  | cons x t ih => simp [Lane.setBytes, ih]
@[simp] theorem Lane.setBytes_st (l : Lane) (a : Nat) (bs : List Byte) : (l.setBytes a bs).st = l.st := by
  induction bs generalizing l a with
  | nil => rfl
  | cons x t ih => simp [Lane.setBytes, ih]
@[simp] theorem Lane.setBytes_armedAt (l : Lane) (a : Nat) (bs : List Byte) : (l.setBytes a bs).armedAt = l.armedAt := by
  induction bs generalizing l a with
  | nil => rfl
  | cons x t ih => simp [Lane.setBytes, ih]
@[simp] theorem Lane.setBytes_arrived (l : Lane) (a : Nat) (bs : List Byte) : (l.setBytes a bs).arrived = l.arrived := by
  induction bs generalizing l a with
  | nil => rfl
  | cons x t ih => simp [Lane.setBytes, ih]
@[simp] theorem Lane.setBytes_watchGot (l : Lane) (a : Nat) (bs : List Byte) : (l.setBytes a bs).watchGot = l.watchGot := by
  induction bs generalizing l a with
  | nil => rfl
  | cons x t ih => simp [Lane.setBytes, ih]
@[simp] theorem Lane.setBytes_drift (l : Lane) (a : Nat) (bs : List Byte) : (l.setBytes a bs).drift = l.drift := by
  induction bs generalizing l a with
  | nil => rfl
  | cons x t ih => simp [Lane.setBytes, ih]
@[simp] theorem Lane.setBytes_ownPlaus (l : Lane) (a : Nat) (bs : List Byte) : (l.setBytes a bs).ownPlaus = l.ownPlaus := by
  induction bs generalizing l a with
  | nil => rfl
  | cons x t ih => simp [Lane.setBytes, ih]
@[simp] theorem Lane.setBytes_ownPlausPrev (l : Lane) (a : Nat) (bs : List Byte) : (l.setBytes a bs).ownPlausPrev = l.ownPlausPrev := by
  induction bs generalizing l a with
  | nil => rfl
  | cons x t ih => simp [Lane.setBytes, ih]
@[simp] theorem Lane.setBytes_mailOut (l : Lane) (a : Nat) (bs : List Byte) : (l.setBytes a bs).mailOut = l.mailOut := by
  induction bs generalizing l a with
  | nil => rfl
  | cons x t ih => simp [Lane.setBytes, ih]

/-! ### Lane.setGranule: a granule stored -/

@[simp] theorem Lane.setGranule_phase (l : Lane) (a : Nat) (w : Word) : (l.setGranule a w).phase = l.phase := by simp [Lane.setGranule]
@[simp] theorem Lane.setGranule_regs (l : Lane) (a : Nat) (w : Word) : (l.setGranule a w).regs = l.regs := by simp [Lane.setGranule]
@[simp] theorem Lane.setGranule_staging (l : Lane) (a : Nat) (w : Word) : (l.setGranule a w).staging = l.staging := by simp [Lane.setGranule]
@[simp] theorem Lane.setGranule_snap (l : Lane) (a : Nat) (w : Word) : (l.setGranule a w).snap = l.snap := by simp [Lane.setGranule]
@[simp] theorem Lane.setGranule_evt (l : Lane) (a : Nat) (w : Word) : (l.setGranule a w).evt = l.evt := by simp [Lane.setGranule]
@[simp] theorem Lane.setGranule_setAt (l : Lane) (a : Nat) (w : Word) : (l.setGranule a w).setAt = l.setAt := by simp [Lane.setGranule]
@[simp] theorem Lane.setGranule_bus (l : Lane) (a : Nat) (w : Word) : (l.setGranule a w).bus = l.bus := by simp [Lane.setGranule]
@[simp] theorem Lane.setGranule_irqWait (l : Lane) (a : Nat) (w : Word) : (l.setGranule a w).irqWait = l.irqWait := by simp [Lane.setGranule]
@[simp] theorem Lane.setGranule_irqRaise (l : Lane) (a : Nat) (w : Word) : (l.setGranule a w).irqRaise = l.irqRaise := by simp [Lane.setGranule]
@[simp] theorem Lane.setGranule_irqEntry (l : Lane) (a : Nat) (w : Word) : (l.setGranule a w).irqEntry = l.irqEntry := by simp [Lane.setGranule]
@[simp] theorem Lane.setGranule_tm (l : Lane) (a : Nat) (w : Word) : (l.setGranule a w).tm = l.tm := by simp [Lane.setGranule]
@[simp] theorem Lane.setGranule_free (l : Lane) (a : Nat) (w : Word) : (l.setGranule a w).free = l.free := by simp [Lane.setGranule]
@[simp] theorem Lane.setGranule_image (l : Lane) (a : Nat) (w : Word) : (l.setGranule a w).image = l.image := by simp [Lane.setGranule]
@[simp] theorem Lane.setGranule_peerA (l : Lane) (a : Nat) (w : Word) : (l.setGranule a w).peerA = l.peerA := by simp [Lane.setGranule]
@[simp] theorem Lane.setGranule_peerB (l : Lane) (a : Nat) (w : Word) : (l.setGranule a w).peerB = l.peerB := by simp [Lane.setGranule]
@[simp] theorem Lane.setGranule_peerC (l : Lane) (a : Nat) (w : Word) : (l.setGranule a w).peerC = l.peerC := by simp [Lane.setGranule]
@[simp] theorem Lane.setGranule_takeover (l : Lane) (a : Nat) (w : Word) : (l.setGranule a w).takeover = l.takeover := by simp [Lane.setGranule]
@[simp] theorem Lane.setGranule_refresh (l : Lane) (a : Nat) (w : Word) : (l.setGranule a w).refresh = l.refresh := by simp [Lane.setGranule]
@[simp] theorem Lane.setGranule_stageOn (l : Lane) (a : Nat) (w : Word) : (l.setGranule a w).stageOn = l.stageOn := by simp [Lane.setGranule]
@[simp] theorem Lane.setGranule_latchHold (l : Lane) (a : Nat) (w : Word) : (l.setGranule a w).latchHold = l.latchHold := by simp [Lane.setGranule]
@[simp] theorem Lane.setGranule_latchAt (l : Lane) (a : Nat) (w : Word) : (l.setGranule a w).latchAt = l.latchAt := by simp [Lane.setGranule]
@[simp] theorem Lane.setGranule_baton (l : Lane) (a : Nat) (w : Word) : (l.setGranule a w).baton = l.baton := by simp [Lane.setGranule]
@[simp] theorem Lane.setGranule_fc (l : Lane) (a : Nat) (w : Word) : (l.setGranule a w).fc = l.fc := by simp [Lane.setGranule]
@[simp] theorem Lane.setGranule_ea (l : Lane) (a : Nat) (w : Word) : (l.setGranule a w).ea = l.ea := by simp [Lane.setGranule]
@[simp] theorem Lane.setGranule_mc0 (l : Lane) (a : Nat) (w : Word) : (l.setGranule a w).mc0 = l.mc0 := by simp [Lane.setGranule]
@[simp] theorem Lane.setGranule_mc1 (l : Lane) (a : Nat) (w : Word) : (l.setGranule a w).mc1 = l.mc1 := by simp [Lane.setGranule]
@[simp] theorem Lane.setGranule_demand (l : Lane) (a : Nat) (w : Word) : (l.setGranule a w).demand = l.demand := by simp [Lane.setGranule]
@[simp] theorem Lane.setGranule_sp (l : Lane) (a : Nat) (w : Word) : (l.setGranule a w).sp = l.sp := by simp [Lane.setGranule]
@[simp] theorem Lane.setGranule_af0 (l : Lane) (a : Nat) (w : Word) : (l.setGranule a w).af0 = l.af0 := by simp [Lane.setGranule]
@[simp] theorem Lane.setGranule_af1 (l : Lane) (a : Nat) (w : Word) : (l.setGranule a w).af1 = l.af1 := by simp [Lane.setGranule]
@[simp] theorem Lane.setGranule_si (l : Lane) (a : Nat) (w : Word) : (l.setGranule a w).si = l.si := by simp [Lane.setGranule]
@[simp] theorem Lane.setGranule_bk (l : Lane) (a : Nat) (w : Word) : (l.setGranule a w).bk = l.bk := by simp [Lane.setGranule]
@[simp] theorem Lane.setGranule_nx (l : Lane) (a : Nat) (w : Word) : (l.setGranule a w).nx = l.nx := by simp [Lane.setGranule]
@[simp] theorem Lane.setGranule_se (l : Lane) (a : Nat) (w : Word) : (l.setGranule a w).se = l.se := by simp [Lane.setGranule]
@[simp] theorem Lane.setGranule_pw (l : Lane) (a : Nat) (w : Word) : (l.setGranule a w).pw = l.pw := by simp [Lane.setGranule]
@[simp] theorem Lane.setGranule_cf (l : Lane) (a : Nat) (w : Word) : (l.setGranule a w).cf = l.cf := by simp [Lane.setGranule]
@[simp] theorem Lane.setGranule_can (l : Lane) (a : Nat) (w : Word) : (l.setGranule a w).can = l.can := by simp [Lane.setGranule]
@[simp] theorem Lane.setGranule_ha (l : Lane) (a : Nat) (w : Word) : (l.setGranule a w).ha = l.ha := by simp [Lane.setGranule]
@[simp] theorem Lane.setGranule_st (l : Lane) (a : Nat) (w : Word) : (l.setGranule a w).st = l.st := by simp [Lane.setGranule]
@[simp] theorem Lane.setGranule_armedAt (l : Lane) (a : Nat) (w : Word) : (l.setGranule a w).armedAt = l.armedAt := by simp [Lane.setGranule]
@[simp] theorem Lane.setGranule_arrived (l : Lane) (a : Nat) (w : Word) : (l.setGranule a w).arrived = l.arrived := by simp [Lane.setGranule]
@[simp] theorem Lane.setGranule_watchGot (l : Lane) (a : Nat) (w : Word) : (l.setGranule a w).watchGot = l.watchGot := by simp [Lane.setGranule]
@[simp] theorem Lane.setGranule_drift (l : Lane) (a : Nat) (w : Word) : (l.setGranule a w).drift = l.drift := by simp [Lane.setGranule]
@[simp] theorem Lane.setGranule_ownPlaus (l : Lane) (a : Nat) (w : Word) : (l.setGranule a w).ownPlaus = l.ownPlaus := by simp [Lane.setGranule]
@[simp] theorem Lane.setGranule_ownPlausPrev (l : Lane) (a : Nat) (w : Word) : (l.setGranule a w).ownPlausPrev = l.ownPlausPrev := by simp [Lane.setGranule]
@[simp] theorem Lane.setGranule_mailOut (l : Lane) (a : Nat) (w : Word) : (l.setGranule a w).mailOut = l.mailOut := by simp [Lane.setGranule]

/-! ### Lane.setSlot: a slot stored -/

@[simp] theorem Lane.setSlot_phase (l : Lane) (a : Nat) (v : W40) : (l.setSlot a v).phase = l.phase := by simp [Lane.setSlot]
@[simp] theorem Lane.setSlot_regs (l : Lane) (a : Nat) (v : W40) : (l.setSlot a v).regs = l.regs := by simp [Lane.setSlot]
@[simp] theorem Lane.setSlot_staging (l : Lane) (a : Nat) (v : W40) : (l.setSlot a v).staging = l.staging := by simp [Lane.setSlot]
@[simp] theorem Lane.setSlot_snap (l : Lane) (a : Nat) (v : W40) : (l.setSlot a v).snap = l.snap := by simp [Lane.setSlot]
@[simp] theorem Lane.setSlot_evt (l : Lane) (a : Nat) (v : W40) : (l.setSlot a v).evt = l.evt := by simp [Lane.setSlot]
@[simp] theorem Lane.setSlot_setAt (l : Lane) (a : Nat) (v : W40) : (l.setSlot a v).setAt = l.setAt := by simp [Lane.setSlot]
@[simp] theorem Lane.setSlot_bus (l : Lane) (a : Nat) (v : W40) : (l.setSlot a v).bus = l.bus := by simp [Lane.setSlot]
@[simp] theorem Lane.setSlot_irqWait (l : Lane) (a : Nat) (v : W40) : (l.setSlot a v).irqWait = l.irqWait := by simp [Lane.setSlot]
@[simp] theorem Lane.setSlot_irqRaise (l : Lane) (a : Nat) (v : W40) : (l.setSlot a v).irqRaise = l.irqRaise := by simp [Lane.setSlot]
@[simp] theorem Lane.setSlot_irqEntry (l : Lane) (a : Nat) (v : W40) : (l.setSlot a v).irqEntry = l.irqEntry := by simp [Lane.setSlot]
@[simp] theorem Lane.setSlot_tm (l : Lane) (a : Nat) (v : W40) : (l.setSlot a v).tm = l.tm := by simp [Lane.setSlot]
@[simp] theorem Lane.setSlot_free (l : Lane) (a : Nat) (v : W40) : (l.setSlot a v).free = l.free := by simp [Lane.setSlot]
@[simp] theorem Lane.setSlot_image (l : Lane) (a : Nat) (v : W40) : (l.setSlot a v).image = l.image := by simp [Lane.setSlot]
@[simp] theorem Lane.setSlot_peerA (l : Lane) (a : Nat) (v : W40) : (l.setSlot a v).peerA = l.peerA := by simp [Lane.setSlot]
@[simp] theorem Lane.setSlot_peerB (l : Lane) (a : Nat) (v : W40) : (l.setSlot a v).peerB = l.peerB := by simp [Lane.setSlot]
@[simp] theorem Lane.setSlot_peerC (l : Lane) (a : Nat) (v : W40) : (l.setSlot a v).peerC = l.peerC := by simp [Lane.setSlot]
@[simp] theorem Lane.setSlot_takeover (l : Lane) (a : Nat) (v : W40) : (l.setSlot a v).takeover = l.takeover := by simp [Lane.setSlot]
@[simp] theorem Lane.setSlot_refresh (l : Lane) (a : Nat) (v : W40) : (l.setSlot a v).refresh = l.refresh := by simp [Lane.setSlot]
@[simp] theorem Lane.setSlot_stageOn (l : Lane) (a : Nat) (v : W40) : (l.setSlot a v).stageOn = l.stageOn := by simp [Lane.setSlot]
@[simp] theorem Lane.setSlot_latchHold (l : Lane) (a : Nat) (v : W40) : (l.setSlot a v).latchHold = l.latchHold := by simp [Lane.setSlot]
@[simp] theorem Lane.setSlot_latchAt (l : Lane) (a : Nat) (v : W40) : (l.setSlot a v).latchAt = l.latchAt := by simp [Lane.setSlot]
@[simp] theorem Lane.setSlot_baton (l : Lane) (a : Nat) (v : W40) : (l.setSlot a v).baton = l.baton := by simp [Lane.setSlot]
@[simp] theorem Lane.setSlot_fc (l : Lane) (a : Nat) (v : W40) : (l.setSlot a v).fc = l.fc := by simp [Lane.setSlot]
@[simp] theorem Lane.setSlot_ea (l : Lane) (a : Nat) (v : W40) : (l.setSlot a v).ea = l.ea := by simp [Lane.setSlot]
@[simp] theorem Lane.setSlot_mc0 (l : Lane) (a : Nat) (v : W40) : (l.setSlot a v).mc0 = l.mc0 := by simp [Lane.setSlot]
@[simp] theorem Lane.setSlot_mc1 (l : Lane) (a : Nat) (v : W40) : (l.setSlot a v).mc1 = l.mc1 := by simp [Lane.setSlot]
@[simp] theorem Lane.setSlot_demand (l : Lane) (a : Nat) (v : W40) : (l.setSlot a v).demand = l.demand := by simp [Lane.setSlot]
@[simp] theorem Lane.setSlot_sp (l : Lane) (a : Nat) (v : W40) : (l.setSlot a v).sp = l.sp := by simp [Lane.setSlot]
@[simp] theorem Lane.setSlot_af0 (l : Lane) (a : Nat) (v : W40) : (l.setSlot a v).af0 = l.af0 := by simp [Lane.setSlot]
@[simp] theorem Lane.setSlot_af1 (l : Lane) (a : Nat) (v : W40) : (l.setSlot a v).af1 = l.af1 := by simp [Lane.setSlot]
@[simp] theorem Lane.setSlot_si (l : Lane) (a : Nat) (v : W40) : (l.setSlot a v).si = l.si := by simp [Lane.setSlot]
@[simp] theorem Lane.setSlot_bk (l : Lane) (a : Nat) (v : W40) : (l.setSlot a v).bk = l.bk := by simp [Lane.setSlot]
@[simp] theorem Lane.setSlot_nx (l : Lane) (a : Nat) (v : W40) : (l.setSlot a v).nx = l.nx := by simp [Lane.setSlot]
@[simp] theorem Lane.setSlot_se (l : Lane) (a : Nat) (v : W40) : (l.setSlot a v).se = l.se := by simp [Lane.setSlot]
@[simp] theorem Lane.setSlot_pw (l : Lane) (a : Nat) (v : W40) : (l.setSlot a v).pw = l.pw := by simp [Lane.setSlot]
@[simp] theorem Lane.setSlot_cf (l : Lane) (a : Nat) (v : W40) : (l.setSlot a v).cf = l.cf := by simp [Lane.setSlot]
@[simp] theorem Lane.setSlot_can (l : Lane) (a : Nat) (v : W40) : (l.setSlot a v).can = l.can := by simp [Lane.setSlot]
@[simp] theorem Lane.setSlot_ha (l : Lane) (a : Nat) (v : W40) : (l.setSlot a v).ha = l.ha := by simp [Lane.setSlot]
@[simp] theorem Lane.setSlot_st (l : Lane) (a : Nat) (v : W40) : (l.setSlot a v).st = l.st := by simp [Lane.setSlot]
@[simp] theorem Lane.setSlot_armedAt (l : Lane) (a : Nat) (v : W40) : (l.setSlot a v).armedAt = l.armedAt := by simp [Lane.setSlot]
@[simp] theorem Lane.setSlot_arrived (l : Lane) (a : Nat) (v : W40) : (l.setSlot a v).arrived = l.arrived := by simp [Lane.setSlot]
@[simp] theorem Lane.setSlot_watchGot (l : Lane) (a : Nat) (v : W40) : (l.setSlot a v).watchGot = l.watchGot := by simp [Lane.setSlot]
@[simp] theorem Lane.setSlot_drift (l : Lane) (a : Nat) (v : W40) : (l.setSlot a v).drift = l.drift := by simp [Lane.setSlot]
@[simp] theorem Lane.setSlot_ownPlaus (l : Lane) (a : Nat) (v : W40) : (l.setSlot a v).ownPlaus = l.ownPlaus := by simp [Lane.setSlot]
@[simp] theorem Lane.setSlot_ownPlausPrev (l : Lane) (a : Nat) (v : W40) : (l.setSlot a v).ownPlausPrev = l.ownPlausPrev := by simp [Lane.setSlot]
@[simp] theorem Lane.setSlot_mailOut (l : Lane) (a : Nat) (v : W40) : (l.setSlot a v).mailOut = l.mailOut := by simp [Lane.setSlot]

/-! ### Lane.setMc: a motor channel replaced -/

@[simp] theorem Lane.setMc_phase (l : Lane) (ch : Nat) (m : Motor) : (l.setMc ch m).phase = l.phase := by unfold Lane.setMc; split <;> rfl
@[simp] theorem Lane.setMc_regs (l : Lane) (ch : Nat) (m : Motor) : (l.setMc ch m).regs = l.regs := by unfold Lane.setMc; split <;> rfl
@[simp] theorem Lane.setMc_staging (l : Lane) (ch : Nat) (m : Motor) : (l.setMc ch m).staging = l.staging := by unfold Lane.setMc; split <;> rfl
@[simp] theorem Lane.setMc_snap (l : Lane) (ch : Nat) (m : Motor) : (l.setMc ch m).snap = l.snap := by unfold Lane.setMc; split <;> rfl
@[simp] theorem Lane.setMc_evt (l : Lane) (ch : Nat) (m : Motor) : (l.setMc ch m).evt = l.evt := by unfold Lane.setMc; split <;> rfl
@[simp] theorem Lane.setMc_setAt (l : Lane) (ch : Nat) (m : Motor) : (l.setMc ch m).setAt = l.setAt := by unfold Lane.setMc; split <;> rfl
@[simp] theorem Lane.setMc_bus (l : Lane) (ch : Nat) (m : Motor) : (l.setMc ch m).bus = l.bus := by unfold Lane.setMc; split <;> rfl
@[simp] theorem Lane.setMc_irqWait (l : Lane) (ch : Nat) (m : Motor) : (l.setMc ch m).irqWait = l.irqWait := by unfold Lane.setMc; split <;> rfl
@[simp] theorem Lane.setMc_irqRaise (l : Lane) (ch : Nat) (m : Motor) : (l.setMc ch m).irqRaise = l.irqRaise := by unfold Lane.setMc; split <;> rfl
@[simp] theorem Lane.setMc_irqEntry (l : Lane) (ch : Nat) (m : Motor) : (l.setMc ch m).irqEntry = l.irqEntry := by unfold Lane.setMc; split <;> rfl
@[simp] theorem Lane.setMc_mem (l : Lane) (ch : Nat) (m : Motor) : (l.setMc ch m).mem = l.mem := by unfold Lane.setMc; split <;> rfl
@[simp] theorem Lane.setMc_tm (l : Lane) (ch : Nat) (m : Motor) : (l.setMc ch m).tm = l.tm := by unfold Lane.setMc; split <;> rfl
@[simp] theorem Lane.setMc_free (l : Lane) (ch : Nat) (m : Motor) : (l.setMc ch m).free = l.free := by unfold Lane.setMc; split <;> rfl
@[simp] theorem Lane.setMc_image (l : Lane) (ch : Nat) (m : Motor) : (l.setMc ch m).image = l.image := by unfold Lane.setMc; split <;> rfl
@[simp] theorem Lane.setMc_peerA (l : Lane) (ch : Nat) (m : Motor) : (l.setMc ch m).peerA = l.peerA := by unfold Lane.setMc; split <;> rfl
@[simp] theorem Lane.setMc_peerB (l : Lane) (ch : Nat) (m : Motor) : (l.setMc ch m).peerB = l.peerB := by unfold Lane.setMc; split <;> rfl
@[simp] theorem Lane.setMc_peerC (l : Lane) (ch : Nat) (m : Motor) : (l.setMc ch m).peerC = l.peerC := by unfold Lane.setMc; split <;> rfl
@[simp] theorem Lane.setMc_takeover (l : Lane) (ch : Nat) (m : Motor) : (l.setMc ch m).takeover = l.takeover := by unfold Lane.setMc; split <;> rfl
@[simp] theorem Lane.setMc_refresh (l : Lane) (ch : Nat) (m : Motor) : (l.setMc ch m).refresh = l.refresh := by unfold Lane.setMc; split <;> rfl
@[simp] theorem Lane.setMc_stageOn (l : Lane) (ch : Nat) (m : Motor) : (l.setMc ch m).stageOn = l.stageOn := by unfold Lane.setMc; split <;> rfl
@[simp] theorem Lane.setMc_latchHold (l : Lane) (ch : Nat) (m : Motor) : (l.setMc ch m).latchHold = l.latchHold := by unfold Lane.setMc; split <;> rfl
@[simp] theorem Lane.setMc_latchAt (l : Lane) (ch : Nat) (m : Motor) : (l.setMc ch m).latchAt = l.latchAt := by unfold Lane.setMc; split <;> rfl
@[simp] theorem Lane.setMc_baton (l : Lane) (ch : Nat) (m : Motor) : (l.setMc ch m).baton = l.baton := by unfold Lane.setMc; split <;> rfl
@[simp] theorem Lane.setMc_fc (l : Lane) (ch : Nat) (m : Motor) : (l.setMc ch m).fc = l.fc := by unfold Lane.setMc; split <;> rfl
@[simp] theorem Lane.setMc_ea (l : Lane) (ch : Nat) (m : Motor) : (l.setMc ch m).ea = l.ea := by unfold Lane.setMc; split <;> rfl
@[simp] theorem Lane.setMc_demand (l : Lane) (ch : Nat) (m : Motor) : (l.setMc ch m).demand = l.demand := by unfold Lane.setMc; split <;> rfl
@[simp] theorem Lane.setMc_sp (l : Lane) (ch : Nat) (m : Motor) : (l.setMc ch m).sp = l.sp := by unfold Lane.setMc; split <;> rfl
@[simp] theorem Lane.setMc_af0 (l : Lane) (ch : Nat) (m : Motor) : (l.setMc ch m).af0 = l.af0 := by unfold Lane.setMc; split <;> rfl
@[simp] theorem Lane.setMc_af1 (l : Lane) (ch : Nat) (m : Motor) : (l.setMc ch m).af1 = l.af1 := by unfold Lane.setMc; split <;> rfl
@[simp] theorem Lane.setMc_si (l : Lane) (ch : Nat) (m : Motor) : (l.setMc ch m).si = l.si := by unfold Lane.setMc; split <;> rfl
@[simp] theorem Lane.setMc_bk (l : Lane) (ch : Nat) (m : Motor) : (l.setMc ch m).bk = l.bk := by unfold Lane.setMc; split <;> rfl
@[simp] theorem Lane.setMc_nx (l : Lane) (ch : Nat) (m : Motor) : (l.setMc ch m).nx = l.nx := by unfold Lane.setMc; split <;> rfl
@[simp] theorem Lane.setMc_se (l : Lane) (ch : Nat) (m : Motor) : (l.setMc ch m).se = l.se := by unfold Lane.setMc; split <;> rfl
@[simp] theorem Lane.setMc_pw (l : Lane) (ch : Nat) (m : Motor) : (l.setMc ch m).pw = l.pw := by unfold Lane.setMc; split <;> rfl
@[simp] theorem Lane.setMc_cf (l : Lane) (ch : Nat) (m : Motor) : (l.setMc ch m).cf = l.cf := by unfold Lane.setMc; split <;> rfl
@[simp] theorem Lane.setMc_can (l : Lane) (ch : Nat) (m : Motor) : (l.setMc ch m).can = l.can := by unfold Lane.setMc; split <;> rfl
@[simp] theorem Lane.setMc_ha (l : Lane) (ch : Nat) (m : Motor) : (l.setMc ch m).ha = l.ha := by unfold Lane.setMc; split <;> rfl
@[simp] theorem Lane.setMc_st (l : Lane) (ch : Nat) (m : Motor) : (l.setMc ch m).st = l.st := by unfold Lane.setMc; split <;> rfl
@[simp] theorem Lane.setMc_armedAt (l : Lane) (ch : Nat) (m : Motor) : (l.setMc ch m).armedAt = l.armedAt := by unfold Lane.setMc; split <;> rfl
@[simp] theorem Lane.setMc_arrived (l : Lane) (ch : Nat) (m : Motor) : (l.setMc ch m).arrived = l.arrived := by unfold Lane.setMc; split <;> rfl
@[simp] theorem Lane.setMc_watchGot (l : Lane) (ch : Nat) (m : Motor) : (l.setMc ch m).watchGot = l.watchGot := by unfold Lane.setMc; split <;> rfl
@[simp] theorem Lane.setMc_drift (l : Lane) (ch : Nat) (m : Motor) : (l.setMc ch m).drift = l.drift := by unfold Lane.setMc; split <;> rfl
@[simp] theorem Lane.setMc_ownPlaus (l : Lane) (ch : Nat) (m : Motor) : (l.setMc ch m).ownPlaus = l.ownPlaus := by unfold Lane.setMc; split <;> rfl
@[simp] theorem Lane.setMc_ownPlausPrev (l : Lane) (ch : Nat) (m : Motor) : (l.setMc ch m).ownPlausPrev = l.ownPlausPrev := by unfold Lane.setMc; split <;> rfl
@[simp] theorem Lane.setMc_mailOut (l : Lane) (ch : Nat) (m : Motor) : (l.setMc ch m).mailOut = l.mailOut := by unfold Lane.setMc; split <;> rfl
@[simp] theorem Lane.setMc_planted (l : Lane) (ch : Nat) (m : Motor) : (l.setMc ch m).planted = l.planted := by unfold Lane.setMc; split <;> rfl

/-! ### Lane.setPeer: a peer replaced -/

@[simp] theorem Lane.setPeer_phase (l : Lane) (x : LaneId) (p : Peer) : (l.setPeer x p).phase = l.phase := by cases x <;> rfl
@[simp] theorem Lane.setPeer_regs (l : Lane) (x : LaneId) (p : Peer) : (l.setPeer x p).regs = l.regs := by cases x <;> rfl
@[simp] theorem Lane.setPeer_staging (l : Lane) (x : LaneId) (p : Peer) : (l.setPeer x p).staging = l.staging := by cases x <;> rfl
@[simp] theorem Lane.setPeer_snap (l : Lane) (x : LaneId) (p : Peer) : (l.setPeer x p).snap = l.snap := by cases x <;> rfl
@[simp] theorem Lane.setPeer_evt (l : Lane) (x : LaneId) (p : Peer) : (l.setPeer x p).evt = l.evt := by cases x <;> rfl
@[simp] theorem Lane.setPeer_setAt (l : Lane) (x : LaneId) (p : Peer) : (l.setPeer x p).setAt = l.setAt := by cases x <;> rfl
@[simp] theorem Lane.setPeer_bus (l : Lane) (x : LaneId) (p : Peer) : (l.setPeer x p).bus = l.bus := by cases x <;> rfl
@[simp] theorem Lane.setPeer_irqWait (l : Lane) (x : LaneId) (p : Peer) : (l.setPeer x p).irqWait = l.irqWait := by cases x <;> rfl
@[simp] theorem Lane.setPeer_irqRaise (l : Lane) (x : LaneId) (p : Peer) : (l.setPeer x p).irqRaise = l.irqRaise := by cases x <;> rfl
@[simp] theorem Lane.setPeer_irqEntry (l : Lane) (x : LaneId) (p : Peer) : (l.setPeer x p).irqEntry = l.irqEntry := by cases x <;> rfl
@[simp] theorem Lane.setPeer_mem (l : Lane) (x : LaneId) (p : Peer) : (l.setPeer x p).mem = l.mem := by cases x <;> rfl
@[simp] theorem Lane.setPeer_tm (l : Lane) (x : LaneId) (p : Peer) : (l.setPeer x p).tm = l.tm := by cases x <;> rfl
@[simp] theorem Lane.setPeer_free (l : Lane) (x : LaneId) (p : Peer) : (l.setPeer x p).free = l.free := by cases x <;> rfl
@[simp] theorem Lane.setPeer_image (l : Lane) (x : LaneId) (p : Peer) : (l.setPeer x p).image = l.image := by cases x <;> rfl
@[simp] theorem Lane.setPeer_takeover (l : Lane) (x : LaneId) (p : Peer) : (l.setPeer x p).takeover = l.takeover := by cases x <;> rfl
@[simp] theorem Lane.setPeer_refresh (l : Lane) (x : LaneId) (p : Peer) : (l.setPeer x p).refresh = l.refresh := by cases x <;> rfl
@[simp] theorem Lane.setPeer_stageOn (l : Lane) (x : LaneId) (p : Peer) : (l.setPeer x p).stageOn = l.stageOn := by cases x <;> rfl
@[simp] theorem Lane.setPeer_latchHold (l : Lane) (x : LaneId) (p : Peer) : (l.setPeer x p).latchHold = l.latchHold := by cases x <;> rfl
@[simp] theorem Lane.setPeer_latchAt (l : Lane) (x : LaneId) (p : Peer) : (l.setPeer x p).latchAt = l.latchAt := by cases x <;> rfl
@[simp] theorem Lane.setPeer_baton (l : Lane) (x : LaneId) (p : Peer) : (l.setPeer x p).baton = l.baton := by cases x <;> rfl
@[simp] theorem Lane.setPeer_fc (l : Lane) (x : LaneId) (p : Peer) : (l.setPeer x p).fc = l.fc := by cases x <;> rfl
@[simp] theorem Lane.setPeer_ea (l : Lane) (x : LaneId) (p : Peer) : (l.setPeer x p).ea = l.ea := by cases x <;> rfl
@[simp] theorem Lane.setPeer_mc0 (l : Lane) (x : LaneId) (p : Peer) : (l.setPeer x p).mc0 = l.mc0 := by cases x <;> rfl
@[simp] theorem Lane.setPeer_mc1 (l : Lane) (x : LaneId) (p : Peer) : (l.setPeer x p).mc1 = l.mc1 := by cases x <;> rfl
@[simp] theorem Lane.setPeer_demand (l : Lane) (x : LaneId) (p : Peer) : (l.setPeer x p).demand = l.demand := by cases x <;> rfl
@[simp] theorem Lane.setPeer_sp (l : Lane) (x : LaneId) (p : Peer) : (l.setPeer x p).sp = l.sp := by cases x <;> rfl
@[simp] theorem Lane.setPeer_af0 (l : Lane) (x : LaneId) (p : Peer) : (l.setPeer x p).af0 = l.af0 := by cases x <;> rfl
@[simp] theorem Lane.setPeer_af1 (l : Lane) (x : LaneId) (p : Peer) : (l.setPeer x p).af1 = l.af1 := by cases x <;> rfl
@[simp] theorem Lane.setPeer_si (l : Lane) (x : LaneId) (p : Peer) : (l.setPeer x p).si = l.si := by cases x <;> rfl
@[simp] theorem Lane.setPeer_bk (l : Lane) (x : LaneId) (p : Peer) : (l.setPeer x p).bk = l.bk := by cases x <;> rfl
@[simp] theorem Lane.setPeer_nx (l : Lane) (x : LaneId) (p : Peer) : (l.setPeer x p).nx = l.nx := by cases x <;> rfl
@[simp] theorem Lane.setPeer_se (l : Lane) (x : LaneId) (p : Peer) : (l.setPeer x p).se = l.se := by cases x <;> rfl
@[simp] theorem Lane.setPeer_pw (l : Lane) (x : LaneId) (p : Peer) : (l.setPeer x p).pw = l.pw := by cases x <;> rfl
@[simp] theorem Lane.setPeer_cf (l : Lane) (x : LaneId) (p : Peer) : (l.setPeer x p).cf = l.cf := by cases x <;> rfl
@[simp] theorem Lane.setPeer_can (l : Lane) (x : LaneId) (p : Peer) : (l.setPeer x p).can = l.can := by cases x <;> rfl
@[simp] theorem Lane.setPeer_ha (l : Lane) (x : LaneId) (p : Peer) : (l.setPeer x p).ha = l.ha := by cases x <;> rfl
@[simp] theorem Lane.setPeer_st (l : Lane) (x : LaneId) (p : Peer) : (l.setPeer x p).st = l.st := by cases x <;> rfl
@[simp] theorem Lane.setPeer_armedAt (l : Lane) (x : LaneId) (p : Peer) : (l.setPeer x p).armedAt = l.armedAt := by cases x <;> rfl
@[simp] theorem Lane.setPeer_arrived (l : Lane) (x : LaneId) (p : Peer) : (l.setPeer x p).arrived = l.arrived := by cases x <;> rfl
@[simp] theorem Lane.setPeer_watchGot (l : Lane) (x : LaneId) (p : Peer) : (l.setPeer x p).watchGot = l.watchGot := by cases x <;> rfl
@[simp] theorem Lane.setPeer_drift (l : Lane) (x : LaneId) (p : Peer) : (l.setPeer x p).drift = l.drift := by cases x <;> rfl
@[simp] theorem Lane.setPeer_ownPlaus (l : Lane) (x : LaneId) (p : Peer) : (l.setPeer x p).ownPlaus = l.ownPlaus := by cases x <;> rfl
@[simp] theorem Lane.setPeer_ownPlausPrev (l : Lane) (x : LaneId) (p : Peer) : (l.setPeer x p).ownPlausPrev = l.ownPlausPrev := by cases x <;> rfl
@[simp] theorem Lane.setPeer_mailOut (l : Lane) (x : LaneId) (p : Peer) : (l.setPeer x p).mailOut = l.mailOut := by cases x <;> rfl
@[simp] theorem Lane.setPeer_planted (l : Lane) (x : LaneId) (p : Peer) : (l.setPeer x p).planted = l.planted := by cases x <;> rfl

/-! ### Lane.flag: a flag set -/

@[simp] theorem Lane.flag_phase (l : Lane) (f : Fld) : (l.flag f).phase = l.phase := by unfold Lane.flag Lane.irqNote; dsimp only; split <;> rfl
@[simp] theorem Lane.flag_staging (l : Lane) (f : Fld) : (l.flag f).staging = l.staging := by unfold Lane.flag Lane.irqNote; dsimp only; split <;> rfl
@[simp] theorem Lane.flag_snap (l : Lane) (f : Fld) : (l.flag f).snap = l.snap := by unfold Lane.flag Lane.irqNote; dsimp only; split <;> rfl
@[simp] theorem Lane.flag_bus (l : Lane) (f : Fld) : (l.flag f).bus = l.bus := by unfold Lane.flag Lane.irqNote; dsimp only; split <;> rfl
@[simp] theorem Lane.flag_irqEntry (l : Lane) (f : Fld) : (l.flag f).irqEntry = l.irqEntry := by unfold Lane.flag Lane.irqNote; dsimp only; split <;> rfl
@[simp] theorem Lane.flag_mem (l : Lane) (f : Fld) : (l.flag f).mem = l.mem := by unfold Lane.flag Lane.irqNote; dsimp only; split <;> rfl
@[simp] theorem Lane.flag_tm (l : Lane) (f : Fld) : (l.flag f).tm = l.tm := by unfold Lane.flag Lane.irqNote; dsimp only; split <;> rfl
@[simp] theorem Lane.flag_free (l : Lane) (f : Fld) : (l.flag f).free = l.free := by unfold Lane.flag Lane.irqNote; dsimp only; split <;> rfl
@[simp] theorem Lane.flag_image (l : Lane) (f : Fld) : (l.flag f).image = l.image := by unfold Lane.flag Lane.irqNote; dsimp only; split <;> rfl
@[simp] theorem Lane.flag_peerA (l : Lane) (f : Fld) : (l.flag f).peerA = l.peerA := by unfold Lane.flag Lane.irqNote; dsimp only; split <;> rfl
@[simp] theorem Lane.flag_peerB (l : Lane) (f : Fld) : (l.flag f).peerB = l.peerB := by unfold Lane.flag Lane.irqNote; dsimp only; split <;> rfl
@[simp] theorem Lane.flag_peerC (l : Lane) (f : Fld) : (l.flag f).peerC = l.peerC := by unfold Lane.flag Lane.irqNote; dsimp only; split <;> rfl
@[simp] theorem Lane.flag_takeover (l : Lane) (f : Fld) : (l.flag f).takeover = l.takeover := by unfold Lane.flag Lane.irqNote; dsimp only; split <;> rfl
@[simp] theorem Lane.flag_refresh (l : Lane) (f : Fld) : (l.flag f).refresh = l.refresh := by unfold Lane.flag Lane.irqNote; dsimp only; split <;> rfl
@[simp] theorem Lane.flag_stageOn (l : Lane) (f : Fld) : (l.flag f).stageOn = l.stageOn := by unfold Lane.flag Lane.irqNote; dsimp only; split <;> rfl
@[simp] theorem Lane.flag_latchHold (l : Lane) (f : Fld) : (l.flag f).latchHold = l.latchHold := by unfold Lane.flag Lane.irqNote; dsimp only; split <;> rfl
@[simp] theorem Lane.flag_latchAt (l : Lane) (f : Fld) : (l.flag f).latchAt = l.latchAt := by unfold Lane.flag Lane.irqNote; dsimp only; split <;> rfl
@[simp] theorem Lane.flag_baton (l : Lane) (f : Fld) : (l.flag f).baton = l.baton := by unfold Lane.flag Lane.irqNote; dsimp only; split <;> rfl
@[simp] theorem Lane.flag_fc (l : Lane) (f : Fld) : (l.flag f).fc = l.fc := by unfold Lane.flag Lane.irqNote; dsimp only; split <;> rfl
@[simp] theorem Lane.flag_ea (l : Lane) (f : Fld) : (l.flag f).ea = l.ea := by unfold Lane.flag Lane.irqNote; dsimp only; split <;> rfl
@[simp] theorem Lane.flag_mc0 (l : Lane) (f : Fld) : (l.flag f).mc0 = l.mc0 := by unfold Lane.flag Lane.irqNote; dsimp only; split <;> rfl
@[simp] theorem Lane.flag_mc1 (l : Lane) (f : Fld) : (l.flag f).mc1 = l.mc1 := by unfold Lane.flag Lane.irqNote; dsimp only; split <;> rfl
@[simp] theorem Lane.flag_demand (l : Lane) (f : Fld) : (l.flag f).demand = l.demand := by unfold Lane.flag Lane.irqNote; dsimp only; split <;> rfl
@[simp] theorem Lane.flag_sp (l : Lane) (f : Fld) : (l.flag f).sp = l.sp := by unfold Lane.flag Lane.irqNote; dsimp only; split <;> rfl
@[simp] theorem Lane.flag_af0 (l : Lane) (f : Fld) : (l.flag f).af0 = l.af0 := by unfold Lane.flag Lane.irqNote; dsimp only; split <;> rfl
@[simp] theorem Lane.flag_af1 (l : Lane) (f : Fld) : (l.flag f).af1 = l.af1 := by unfold Lane.flag Lane.irqNote; dsimp only; split <;> rfl
@[simp] theorem Lane.flag_si (l : Lane) (f : Fld) : (l.flag f).si = l.si := by unfold Lane.flag Lane.irqNote; dsimp only; split <;> rfl
@[simp] theorem Lane.flag_bk (l : Lane) (f : Fld) : (l.flag f).bk = l.bk := by unfold Lane.flag Lane.irqNote; dsimp only; split <;> rfl
@[simp] theorem Lane.flag_nx (l : Lane) (f : Fld) : (l.flag f).nx = l.nx := by unfold Lane.flag Lane.irqNote; dsimp only; split <;> rfl
@[simp] theorem Lane.flag_se (l : Lane) (f : Fld) : (l.flag f).se = l.se := by unfold Lane.flag Lane.irqNote; dsimp only; split <;> rfl
@[simp] theorem Lane.flag_pw (l : Lane) (f : Fld) : (l.flag f).pw = l.pw := by unfold Lane.flag Lane.irqNote; dsimp only; split <;> rfl
@[simp] theorem Lane.flag_cf (l : Lane) (f : Fld) : (l.flag f).cf = l.cf := by unfold Lane.flag Lane.irqNote; dsimp only; split <;> rfl
@[simp] theorem Lane.flag_can (l : Lane) (f : Fld) : (l.flag f).can = l.can := by unfold Lane.flag Lane.irqNote; dsimp only; split <;> rfl
@[simp] theorem Lane.flag_ha (l : Lane) (f : Fld) : (l.flag f).ha = l.ha := by unfold Lane.flag Lane.irqNote; dsimp only; split <;> rfl
@[simp] theorem Lane.flag_st (l : Lane) (f : Fld) : (l.flag f).st = l.st := by unfold Lane.flag Lane.irqNote; dsimp only; split <;> rfl
@[simp] theorem Lane.flag_armedAt (l : Lane) (f : Fld) : (l.flag f).armedAt = l.armedAt := by unfold Lane.flag Lane.irqNote; dsimp only; split <;> rfl
@[simp] theorem Lane.flag_arrived (l : Lane) (f : Fld) : (l.flag f).arrived = l.arrived := by unfold Lane.flag Lane.irqNote; dsimp only; split <;> rfl
@[simp] theorem Lane.flag_watchGot (l : Lane) (f : Fld) : (l.flag f).watchGot = l.watchGot := by unfold Lane.flag Lane.irqNote; dsimp only; split <;> rfl
@[simp] theorem Lane.flag_drift (l : Lane) (f : Fld) : (l.flag f).drift = l.drift := by unfold Lane.flag Lane.irqNote; dsimp only; split <;> rfl
@[simp] theorem Lane.flag_ownPlaus (l : Lane) (f : Fld) : (l.flag f).ownPlaus = l.ownPlaus := by unfold Lane.flag Lane.irqNote; dsimp only; split <;> rfl
@[simp] theorem Lane.flag_ownPlausPrev (l : Lane) (f : Fld) : (l.flag f).ownPlausPrev = l.ownPlausPrev := by unfold Lane.flag Lane.irqNote; dsimp only; split <;> rfl
@[simp] theorem Lane.flag_mailOut (l : Lane) (f : Fld) : (l.flag f).mailOut = l.mailOut := by unfold Lane.flag Lane.irqNote; dsimp only; split <;> rfl
@[simp] theorem Lane.flag_planted (l : Lane) (f : Fld) : (l.flag f).planted = l.planted := by unfold Lane.flag Lane.irqNote; dsimp only; split <;> rfl

/-! ### Lane.flagIf: a flag set on a condition -/

@[simp] theorem Lane.flagIf_phase (l : Lane) (b : Bool) (f : Fld) : (l.flagIf b f).phase = l.phase := by cases b <;> simp [Lane.flagIf]
@[simp] theorem Lane.flagIf_staging (l : Lane) (b : Bool) (f : Fld) : (l.flagIf b f).staging = l.staging := by cases b <;> simp [Lane.flagIf]
@[simp] theorem Lane.flagIf_snap (l : Lane) (b : Bool) (f : Fld) : (l.flagIf b f).snap = l.snap := by cases b <;> simp [Lane.flagIf]
@[simp] theorem Lane.flagIf_bus (l : Lane) (b : Bool) (f : Fld) : (l.flagIf b f).bus = l.bus := by cases b <;> simp [Lane.flagIf]
@[simp] theorem Lane.flagIf_irqEntry (l : Lane) (b : Bool) (f : Fld) : (l.flagIf b f).irqEntry = l.irqEntry := by cases b <;> simp [Lane.flagIf]
@[simp] theorem Lane.flagIf_mem (l : Lane) (b : Bool) (f : Fld) : (l.flagIf b f).mem = l.mem := by cases b <;> simp [Lane.flagIf]
@[simp] theorem Lane.flagIf_tm (l : Lane) (b : Bool) (f : Fld) : (l.flagIf b f).tm = l.tm := by cases b <;> simp [Lane.flagIf]
@[simp] theorem Lane.flagIf_free (l : Lane) (b : Bool) (f : Fld) : (l.flagIf b f).free = l.free := by cases b <;> simp [Lane.flagIf]
@[simp] theorem Lane.flagIf_image (l : Lane) (b : Bool) (f : Fld) : (l.flagIf b f).image = l.image := by cases b <;> simp [Lane.flagIf]
@[simp] theorem Lane.flagIf_peerA (l : Lane) (b : Bool) (f : Fld) : (l.flagIf b f).peerA = l.peerA := by cases b <;> simp [Lane.flagIf]
@[simp] theorem Lane.flagIf_peerB (l : Lane) (b : Bool) (f : Fld) : (l.flagIf b f).peerB = l.peerB := by cases b <;> simp [Lane.flagIf]
@[simp] theorem Lane.flagIf_peerC (l : Lane) (b : Bool) (f : Fld) : (l.flagIf b f).peerC = l.peerC := by cases b <;> simp [Lane.flagIf]
@[simp] theorem Lane.flagIf_takeover (l : Lane) (b : Bool) (f : Fld) : (l.flagIf b f).takeover = l.takeover := by cases b <;> simp [Lane.flagIf]
@[simp] theorem Lane.flagIf_refresh (l : Lane) (b : Bool) (f : Fld) : (l.flagIf b f).refresh = l.refresh := by cases b <;> simp [Lane.flagIf]
@[simp] theorem Lane.flagIf_stageOn (l : Lane) (b : Bool) (f : Fld) : (l.flagIf b f).stageOn = l.stageOn := by cases b <;> simp [Lane.flagIf]
@[simp] theorem Lane.flagIf_latchHold (l : Lane) (b : Bool) (f : Fld) : (l.flagIf b f).latchHold = l.latchHold := by cases b <;> simp [Lane.flagIf]
@[simp] theorem Lane.flagIf_latchAt (l : Lane) (b : Bool) (f : Fld) : (l.flagIf b f).latchAt = l.latchAt := by cases b <;> simp [Lane.flagIf]
@[simp] theorem Lane.flagIf_baton (l : Lane) (b : Bool) (f : Fld) : (l.flagIf b f).baton = l.baton := by cases b <;> simp [Lane.flagIf]
@[simp] theorem Lane.flagIf_fc (l : Lane) (b : Bool) (f : Fld) : (l.flagIf b f).fc = l.fc := by cases b <;> simp [Lane.flagIf]
@[simp] theorem Lane.flagIf_ea (l : Lane) (b : Bool) (f : Fld) : (l.flagIf b f).ea = l.ea := by cases b <;> simp [Lane.flagIf]
@[simp] theorem Lane.flagIf_mc0 (l : Lane) (b : Bool) (f : Fld) : (l.flagIf b f).mc0 = l.mc0 := by cases b <;> simp [Lane.flagIf]
@[simp] theorem Lane.flagIf_mc1 (l : Lane) (b : Bool) (f : Fld) : (l.flagIf b f).mc1 = l.mc1 := by cases b <;> simp [Lane.flagIf]
@[simp] theorem Lane.flagIf_demand (l : Lane) (b : Bool) (f : Fld) : (l.flagIf b f).demand = l.demand := by cases b <;> simp [Lane.flagIf]
@[simp] theorem Lane.flagIf_sp (l : Lane) (b : Bool) (f : Fld) : (l.flagIf b f).sp = l.sp := by cases b <;> simp [Lane.flagIf]
@[simp] theorem Lane.flagIf_af0 (l : Lane) (b : Bool) (f : Fld) : (l.flagIf b f).af0 = l.af0 := by cases b <;> simp [Lane.flagIf]
@[simp] theorem Lane.flagIf_af1 (l : Lane) (b : Bool) (f : Fld) : (l.flagIf b f).af1 = l.af1 := by cases b <;> simp [Lane.flagIf]
@[simp] theorem Lane.flagIf_si (l : Lane) (b : Bool) (f : Fld) : (l.flagIf b f).si = l.si := by cases b <;> simp [Lane.flagIf]
@[simp] theorem Lane.flagIf_bk (l : Lane) (b : Bool) (f : Fld) : (l.flagIf b f).bk = l.bk := by cases b <;> simp [Lane.flagIf]
@[simp] theorem Lane.flagIf_nx (l : Lane) (b : Bool) (f : Fld) : (l.flagIf b f).nx = l.nx := by cases b <;> simp [Lane.flagIf]
@[simp] theorem Lane.flagIf_se (l : Lane) (b : Bool) (f : Fld) : (l.flagIf b f).se = l.se := by cases b <;> simp [Lane.flagIf]
@[simp] theorem Lane.flagIf_pw (l : Lane) (b : Bool) (f : Fld) : (l.flagIf b f).pw = l.pw := by cases b <;> simp [Lane.flagIf]
@[simp] theorem Lane.flagIf_cf (l : Lane) (b : Bool) (f : Fld) : (l.flagIf b f).cf = l.cf := by cases b <;> simp [Lane.flagIf]
@[simp] theorem Lane.flagIf_can (l : Lane) (b : Bool) (f : Fld) : (l.flagIf b f).can = l.can := by cases b <;> simp [Lane.flagIf]
@[simp] theorem Lane.flagIf_ha (l : Lane) (b : Bool) (f : Fld) : (l.flagIf b f).ha = l.ha := by cases b <;> simp [Lane.flagIf]
@[simp] theorem Lane.flagIf_st (l : Lane) (b : Bool) (f : Fld) : (l.flagIf b f).st = l.st := by cases b <;> simp [Lane.flagIf]
@[simp] theorem Lane.flagIf_armedAt (l : Lane) (b : Bool) (f : Fld) : (l.flagIf b f).armedAt = l.armedAt := by cases b <;> simp [Lane.flagIf]
@[simp] theorem Lane.flagIf_arrived (l : Lane) (b : Bool) (f : Fld) : (l.flagIf b f).arrived = l.arrived := by cases b <;> simp [Lane.flagIf]
@[simp] theorem Lane.flagIf_watchGot (l : Lane) (b : Bool) (f : Fld) : (l.flagIf b f).watchGot = l.watchGot := by cases b <;> simp [Lane.flagIf]
@[simp] theorem Lane.flagIf_drift (l : Lane) (b : Bool) (f : Fld) : (l.flagIf b f).drift = l.drift := by cases b <;> simp [Lane.flagIf]
@[simp] theorem Lane.flagIf_ownPlaus (l : Lane) (b : Bool) (f : Fld) : (l.flagIf b f).ownPlaus = l.ownPlaus := by cases b <;> simp [Lane.flagIf]
@[simp] theorem Lane.flagIf_ownPlausPrev (l : Lane) (b : Bool) (f : Fld) : (l.flagIf b f).ownPlausPrev = l.ownPlausPrev := by cases b <;> simp [Lane.flagIf]
@[simp] theorem Lane.flagIf_mailOut (l : Lane) (b : Bool) (f : Fld) : (l.flagIf b f).mailOut = l.mailOut := by cases b <;> simp [Lane.flagIf]
@[simp] theorem Lane.flagIf_planted (l : Lane) (b : Bool) (f : Fld) : (l.flagIf b f).planted = l.planted := by cases b <;> simp [Lane.flagIf]

/-! ### The module -/

@[simp] theorem State.setLane_part (s : State) (x : LaneId) (l : Lane) : (s.setLane x l).part = s.part := by cases x <;> rfl
@[simp] theorem State.setLane_now (s : State) (x : LaneId) (l : Lane) : (s.setLane x l).now = s.now := by cases x <;> rfl
@[simp] theorem State.setLane_marshal (s : State) (x : LaneId) (l : Lane) : (s.setLane x l).marshal = s.marshal := by cases x <;> rfl
@[simp] theorem State.setLane_pending (s : State) (x : LaneId) (l : Lane) : (s.setLane x l).pending = s.pending := by cases x <;> rfl

@[simp] theorem State.lane_setLane_same (s : State) (x : LaneId) (l : Lane) : (s.setLane x l).lane x = l := by cases x <;> rfl

theorem State.lane_setLane_ne (s : State) (x y : LaneId) (l : Lane) (h : y ≠ x) : (s.setLane x l).lane y = s.lane y := by
  cases x <;> cases y <;> first | rfl | exact absurd rfl h

@[simp] theorem State.setLane_lane (s : State) (x : LaneId) : s.setLane x (s.lane x) = s := by cases x <;> rfl

@[simp] theorem State.setLane_setLane (s : State) (x : LaneId) (l m : Lane) : (s.setLane x l).setLane x m = s.setLane x m := by
  cases x <;> rfl

theorem State.setLane_ctx (s : State) (x y : LaneId) (l : Lane) (h : l.drift = (s.lane x).drift) :
    (s.setLane x l).ctx y = s.ctx y := by cases x <;> cases y <;> simp_all [State.ctx, State.setLane, State.lane, Lane.clock]
@[simp] theorem State.setLane_ctx_part (s : State) (x y : LaneId) (l : Lane) : ((s.setLane x l).ctx y).part = (s.ctx y).part := by
  cases x <;> rfl
@[simp] theorem State.setLane_ctx_id (s : State) (x y : LaneId) (l : Lane) : ((s.setLane x l).ctx y).id = y := by cases x <;> rfl

@[simp] theorem State.setLane_has (s : State) (x y : LaneId) (l : Lane) : (s.setLane x l).has y = s.has y := by cases x <;> rfl

/-! ### Registers read after an update -/

theorem Lane.rd_wr (l : Lane) (a k : Nat) (w : Word) : (l.wr a w).rd k = if k = a then w else l.rd k := bankGet_bankSet _ _ _ _

@[simp] theorem Lane.rd_wr_same (l : Lane) (a : Nat) (w : Word) : (l.wr a w).rd a = w := by simp [Lane.rd_wr]

theorem Lane.rd_wr_ne (l : Lane) (a k : Nat) (w : Word) (h : k ≠ a) : (l.wr a w).rd k = l.rd k := by simp [Lane.rd_wr, h]

theorem Lane.rd_put_ne (l : Lane) (f : Fld) (k v : Nat) (h : k ≠ f.addr) : (l.put f v).rd k = l.rd k := Lane.rd_wr_ne _ _ _ _ h

theorem Lane.get_put_same (l : Lane) (f : Fld) (v : Nat) (h : f.lo ≤ f.hi) (h32 : f.hi < 32) :
    (l.put f v).get f = v % 2 ^ (f.hi - f.lo + 1) := by
  unfold Lane.get Lane.put
  rw [Lane.rd_wr_same, fldOf_fldPut_same f _ v h h32]

theorem Lane.get_put_addr (l : Lane) (f g : Fld) (v : Nat) (h : g.addr ≠ f.addr) : (l.put f v).get g = l.get g := by
  unfold Lane.get
  rw [Lane.rd_put_ne _ _ _ _ h]

theorem Lane.get_put_below (l : Lane) (f g : Fld) (v : Nat) (h : f.lo ≤ f.hi) (h32 : f.hi < 32) (hg : g.lo ≤ g.hi) (hd : g.hi < f.lo) :
    (l.put f v).get g = l.get g := by
  by_cases ha : g.addr = f.addr
  · unfold Lane.get Lane.put
    rw [ha, Lane.rd_wr_same, fldOf_fldPut_below f g _ v h h32 hg hd]
  · exact Lane.get_put_addr _ _ _ _ ha

theorem Lane.get_put_above (l : Lane) (f g : Fld) (v : Nat) (h : f.lo ≤ f.hi) (h32 : f.hi < 32) (hd : f.hi < g.lo) :
    (l.put f v).get g = l.get g := by
  by_cases ha : g.addr = f.addr
  · unfold Lane.get Lane.put
    rw [ha, Lane.rd_wr_same, fldOf_fldPut_above f g _ v h h32 hd]
  · exact Lane.get_put_addr _ _ _ _ ha

@[simp] theorem Lane.rd_draw (l : Lane) (k : Nat) : l.draw.rd k = l.rd k := rfl
@[simp] theorem Lane.rd_setByte (l : Lane) (a k : Nat) (x : Byte) : (l.setByte a x).rd k = l.rd k := rfl
@[simp] theorem Lane.rd_setBytes (l : Lane) (a k : Nat) (bs : List Byte) : (l.setBytes a bs).rd k = l.rd k := by simp [Lane.rd]
@[simp] theorem Lane.rd_setMc (l : Lane) (ch k : Nat) (m : Motor) : (l.setMc ch m).rd k = l.rd k := by simp [Lane.rd]
@[simp] theorem Lane.rd_setPeer (l : Lane) (x : LaneId) (k : Nat) (p : Peer) : (l.setPeer x p).rd k = l.rd k := by simp [Lane.rd]

/-- The registers of a lane after a flag was set are those after its field was put. -/
@[simp] theorem Lane.flag_regs (l : Lane) (f : Fld) : (l.flag f).regs = (l.put f 1).regs := by
  unfold Lane.flag Lane.irqNote; dsimp only; split <;> rfl

@[simp] theorem Lane.rd_flag (l : Lane) (f : Fld) (k : Nat) : (l.flag f).rd k = (l.put f 1).rd k := by simp [Lane.rd]

@[simp] theorem Lane.get_flag (l : Lane) (f g : Fld) : (l.flag f).get g = (l.put f 1).get g := by simp [Lane.get]

/-- A flag is set after hardware set it (R114). -/
theorem Lane.bit_flag_same (l : Lane) (f : Fld) (h : f.lo = f.hi) (h32 : f.hi < 32) : (l.flag f).bit f = true := by
  unfold Lane.bit
  rw [Lane.get_flag, Lane.get_put_same _ _ _ (by omega) h32, h]
  simp

/-- Setting a flag raises its event counter by 1, saturating (R114). -/
theorem Lane.evtCount_flag (l : Lane) (f : Fld) : (l.flag f).evtCount f = min (l.evtCount f + 1) 0xFFFFFFFF := by
  have h : (l.flag f).evt = tabPut l.evt (evtKey f) (min (l.evtCount f + 1) 0xFFFFFFFF) := by
    unfold Lane.flag Lane.irqNote; dsimp only; split <;> rfl
  unfold Lane.evtCount
  rw [h, tabGet_tabPut_same]
  rfl

/-! ### Memory read after an update -/

theorem Lane.byte_setByte (l : Lane) (a k : Nat) (x : Byte) : (l.setByte a x).byte k = if k = a then x else l.byte k :=
  memGet_memSet _ _ _ _

/-- Bytes outside the stored ones read as before. -/
theorem Lane.byte_setBytes_out (l : Lane) (a k : Nat) (bs : List Byte) (h : k < a ∨ a + bs.length ≤ k) :
    (l.setBytes a bs).byte k = l.byte k := by
  induction bs generalizing l a with
  | nil => rfl
  | cons x t ih =>
    simp only [List.length_cons] at h
    rw [Lane.setBytes, ih _ _ (by omega), Lane.byte_setByte]
    have : k ≠ a := by omega
    simp [this]

/-- Storing bytes keeps memory in canonical form. -/
theorem Lane.wf_setBytes (l : Lane) (a : Nat) (bs : List Byte) (h : Memory.wf l.mem = true) : Memory.wf (l.setBytes a bs).mem = true := by
  induction bs generalizing l a with
  | nil => exact h
  | cons x t ih => exact ih _ _ (Memory.wf_memSet _ _ _ h)

/-- A register set keeps the bank in canonical form. -/
theorem Lane.bankWf_wr (l : Lane) (a : Nat) (w : Word) (h : bankWf l.regs = true) : bankWf (l.wr a w).regs = true := bankWf_bankSet _ _ _ h

/-! ### Where a command acts -/

theorem onLane_of_has (ln : LaneId) (f : Ctx → Lane → Lane) (s : State) (h : s.has ln = true) :
    onLane ln f s = .next (s.setLane ln (f (s.ctx ln) (s.lane ln))) := by simp [onLane, h]

/-- A command of one lane always answers a next state, in which only that lane may have changed. -/
theorem onLane_next (ln : LaneId) (f : Ctx → Lane → Lane) (s : State) :
    ∃ t, onLane ln f s = .next t ∧ t.part = s.part ∧ t.now = s.now ∧ t.marshal = s.marshal ∧ t.pending = s.pending ∧
      ∀ y, y ≠ ln → t.lane y = s.lane y := by
  unfold onLane
  split
  · exact ⟨_, rfl, by simp, by simp, by simp, by simp, fun y h => State.lane_setLane_ne _ _ _ _ h⟩
  · exact ⟨s, rfl, rfl, rfl, rfl, rfl, fun _ _ => rfl⟩

theorem onAlive_of_alive (ln : LaneId) (f : Ctx → Lane → Lane) (s : State) (h : s.has ln = true) (ha : (s.lane ln).alive = true) :
    onAlive ln f s = .next (s.setLane ln (f (s.ctx ln) (s.lane ln))) := by simp [onAlive, onLane, h, ha]

/-- A command that finds no new sensor fault in its lane leaves the other lanes as they are. -/
theorem State.tellNew_same (s : State) (ln : LaneId) (t : State) (h : (t.lane ln).sensorFaults = (s.lane ln).sensorFaults) :
    s.tellNew ln t = t := by
  have : ((t.lane ln).sensorFaults.filter fun f => decide (f.lane = laneCode ln) && !(s.lane ln).sensorFaults.contains f) = [] := by
    rw [h, List.filter_eq_nil_iff]
    intro f hf
    simp [hf]
  rw [State.tellNew, this]
  rfl

end Sys2Proof.Machine
end

