-- ==== Sys2Proof/Tests/Slice0.lean ====
section
/-! SUPPORT. The author's own tests: terms that are refused, words written out from the encoding tables, an example of the
spec, and states that meet what each statement assumes. -/

namespace Sys2Proof.Tests

open Sys2Proof Sys2Proof.Machine

set_option linter.unusedVariables false

/-! ### Commands that are not well formed, one for each check -/

theorem test_refused_size : (Instr.wellFormed (.registerWrite .a 0x40004000 3 0)) = false := by decide +kernel

theorem test_refused_self_test : (Instr.wellFormed (.selfTestDone .a default)) = false := by decide +kernel

theorem test_refused_frame_self : (Instr.wellFormed (.linkFrameReceive .a .a default)) = false := by decide +kernel

theorem test_refused_frame_long : (Instr.wellFormed (.linkFrameReceive .a .b { (default : LinkFrame) with payload := List.replicate 34 0 })) = false := by decide +kernel

theorem test_refused_check : (Instr.wellFormed (.preDriveCheckDone .a default)) = false := by decide +kernel

theorem test_refused_pulses : (Instr.wellFormed (.pulseTestDone .a 0 (List.replicate 7 0) 0)) = false := by decide +kernel

theorem test_refused_codes : (Instr.wellFormed (.analogSample .a [0] [0, 0])) = false := by decide +kernel

theorem test_refused_nolxis : (Instr.wellFormed (.nxFrameReceive .a .x { (default : NxFrame) with payload := List.replicate 65 0 })) = false := by decide +kernel

theorem test_refused_transmission : (Instr.wellFormed (.marshalAdmit 0 ⟨.idle, some { (default : NxFrame) with payload := List.replicate 65 0 }⟩)) = false := by decide +kernel

theorem test_refused_payload : (Instr.wellFormed (.envelopeProduce .a 0 (List.replicate 65 0))) = false := by decide +kernel

theorem test_refused_copy : (Instr.wellFormed (.envelopeCopyJudge .a 0 false (List.replicate 65 0) 0)) = false := by decide +kernel

theorem test_refused_nit : (Instr.wellFormed (.powerVoteNit .a [(.a, default)])) = false := by decide +kernel

theorem test_refused_nap_banks : (Instr.wellFormed (.napWake .a ⟨[], []⟩)) = false := by decide +kernel

theorem test_refused_granule : (Instr.wellFormed (.dormantWake .a [[(128, .clean)], [], [], []])) = false := by decide +kernel

theorem test_refused_dormant_banks : (Instr.wellFormed (.dormantWake .a [])) = false := by decide +kernel

theorem test_refused_data : (Instr.wellFormed (.svcWriteData .a default 0 (List.replicate 1017 0))) = false := by decide +kernel

theorem test_refused_can_data : (Instr.wellFormed (.canFrameReceive .a 0 { (default : CanFrame) with data := List.replicate 17 0 })) = false := by decide +kernel

theorem test_refused_can_id : (Instr.wellFormed (.canFrameReceive .a 0 { (default : CanFrame) with ide := false, id := 2048 })) = false := by decide +kernel

theorem test_refused_line_self : (Instr.wellFormed (.takeoverLineChange .a .a true)) = false := by decide +kernel

theorem test_refused_beat_self : (Instr.wellFormed (.heartbeatMissed .b .b)) = false := by decide +kernel

theorem test_refused_down_self : (Instr.wellFormed (.linkDown .c .c)) = false := by decide +kernel

theorem test_refused_charge_self : (Instr.wellFormed (.linkFaultCharge .a .a)) = false := by decide +kernel

theorem test_refused_send_self : (Instr.wellFormed (.linkFrameSend .a .a)) = false := by decide +kernel

theorem test_refused_vote_self : (Instr.wellFormed (.voteAssert .a .a 0)) = false := by decide +kernel

theorem test_refused_release_self : (Instr.wellFormed (.voteRelease .a .a)) = false := by decide +kernel

theorem test_refused_pulse_self : (Instr.wellFormed (.voteTestPulse .a .a true)) = false := by decide +kernel

theorem test_refused_test_self : (Instr.wellFormed (.voteTestFail .a .a)) = false := by decide +kernel
/-! ### States that meet what the statements assume -/

/-- Lane A of a TS-8630-M at time 0. -/
def ctxA : Ctx := ⟨⟨.ts8630, true⟩, .a, 0⟩
/-- Lane B of a TS-8630-M at time 0. -/
def ctxB : Ctx := ⟨⟨.ts8630, true⟩, .b, 0⟩
/-- Lane C of a TS-8630-M at time 0. -/
def ctxC : Ctx := ⟨⟨.ts8630, true⟩, .c, 0⟩
/-- Lane A of a TS-8610 without a marshal at time 0. -/
def ctxTwo : Ctx := ⟨⟨.ts8610, false⟩, .a, 0⟩

/-- A powered lane in READY with these registers not 0. -/
def wReady (regs : Bank) : Lane := { (default : Lane) with phase := .ready, regs := regs }
/-- A register bank from values in any order. -/
def wBank (l : List (Nat × Word)) : Bank := l.foldl (fun b e => bankSet b e.1 e.2) []
/-- A powered active lane whose baton record is this one. -/
def wBaton (b : Baton) : Lane := { wReady [(R.LM_ROLE, 0x70001)] with baton := b }
/-- Lane C has failed and lane A claims the baton. -/
def wDecision : Decision := ⟨.c, .a, 0, 0, 0, some 0⟩
/-- Lane B has failed and lane A takes over. -/
def wWindow : Window := ⟨.a, .b, 250000, 0, 0, true⟩
/-- A pass in one of its phases. -/
def wPass (out inc : LaneId) (phase : PassPhase) : Pass := ⟨out, inc, 1, false, 0, phase, 250000, 0, 0, 0, 0⟩
/-- A pre-drive check in which everything passes. -/
def wDrive : PreDrive := ⟨[0, 0, 0, 0], [true, true], [], [], [⟨12000, 95, 95, 95, true, 0x8000000, 0⟩]⟩
/-- A standby lane of a TS-8610 in a pass, whose drivers have just been tested. -/
def wDriveLane : Lane :=
  { wReady (wBank [(R.LM_ROLE, 0x70004), (R.PS_STO 0, 0xFFFFFFFF), (R.PS_V_CHOP_ON 0, 0x10000000)]) with
    baton := { (default : Baton) with pass := some (wPass .b .a .checking) }
    mc0 := { (default : Motor) with chopOkOff := true }
    bk := { (default : Brake) with lastTest := [(0, 0), (1, 0), (2, 0), (3, 0)] } }
/-- A module of which one lane is as given and the others are powered. -/
def wState (ln : LaneId) (l : Lane) (now : Nat) : State :=
  { State.reset with now := now, laneA := wReady [], laneB := wReady [], laneC := wReady [] }.setLane ln l
/-- A lane that has stood for as long as FC_STILL_TIME asks. -/
def wStanding : Lane := wReady []
/-- A lane in the second step of a starvation stop. -/
def wStarving : Lane :=
  { wReady (wBank [(R.BK_STATUS, 2 ^ R.BK_STATUS_step.lo), (R.NX_STATUS, 2 ^ 9 + 2 ^ 10)]) with
    fc := { (default : Contain) with starving := true }
    bk := { (default : Brake) with zeroAt := some 0 } }
/-- A lane parked after a stop in mode STOP. -/
def wStopped : Lane :=
  { wReady (wBank [(R.BK_STATUS, 2 ^ R.BK_STATUS_engaged.lo), (R.FC_MODE, 4 * 2 ^ R.FC_MODE_mode.lo + 2 ^ R.FC_MODE_parked.lo)]) with
    bk := { (default : Brake) with parkedAt := some 0 } }
/-- A lane with a well-formed image in slot P, of which the flash holds header and record. -/
def wImage : Lane :=
  [0x454E4D4B, 1, 0, 0x104, 5, 1, 0, 0, 2, 0, 0, 3, 0, 0, 4, 0, 0, 5, 0, 0].zipIdx.foldl
    (fun l e => l.setGranule (slotBase 0 + 4 * e.2) e.1) { ((wReady []).setGranule (slotRec 0) 0xFF).setBytes (slotRec 0 + 12) (digestBytes32 0xE3B0C44298FC1C149AFBF4C8996FB92427AE41E4649B934CA495991B7852B855) with phase := .hashing }
/-- A branch that owns static slot 3. -/
def wBranch : BranchTable := { (default : BranchTable) with slots := [3] }
/-- Tables with one branch. -/
def wTables : MarshalTables := { (default : MarshalTables) with branches := [wBranch], precision := 100, cycleLen := 1000 }
/-- A module whose marshal is in this state on these tables and forwards branch 0. -/
def wMarshal (st : Nat) : State :=
  { wState .a (wReady []) 0 with
    marshal := { Marshal.fresh with tables := some wTables, forwarding := [⟨0, .static 3 0, none, 0, [1]⟩] }.put R.MS_STATUS_state st }
/-- Tables with one branch that bears the coldstart mark. -/
def wColdTables : MarshalTables := { wTables with branches := [{ wBranch with coldstart := true }] }
/-- A module whose marshal is UNSYNCED on those tables, with these signals on its branches. -/
def wCold (fw : List Forwarded) : State :=
  { wMarshal 0 with marshal := { (wMarshal 0).marshal with forwarding := fw, tables := some wColdTables } }
/-- A module whose marshal has disqualified branch 0, which is over. -/
def wDisq : State := { wMarshal 1 with now := 10, marshal := (wMarshal 1).marshal.put (R.MS_BRb_STAT_disqualified 0) 1 }
/-- A lane whose agreed image has these tables as its marshal section. -/
def wSection (t : MarshalTables) : Lane := { wReady [(R.CF_STATUS, 1)] with image := { (default : Image) with marshal := some t } }
/-- A module whose marshal holds these tables and an offer of lane A. -/
def wOffered (t : Option MarshalTables) : State :=
  { wMarshal 0 with marshal := { (wMarshal 0).marshal with offerA := some wTables, tables := t } }
/-- A powered lane in READY with these register fields. -/
def wSet (fs : List (Fld × Nat)) : Lane := fs.foldl (fun l e => l.put e.1 e.2) (wReady [])
/-- A lane in ACTIVE at the start of a cycle with one static slot of 100 µs that transmit buffer 0 owns on channel X. -/
def wSlot : Lane :=
  wSet [(R.NX_STATUS_state, 6), (R.NX_STATIC_slots, 10), (R.NX_STATIC_slot_ns, 50000), (R.NX_TXn_CFG_frame_id 0, 1), (R.NX_TXn_CFG_ch_x 0, 1)]
/-- A lane that consumes connection 4 in this state, under the identity of the spec's example (R431); its receive buffer 0 holds these
words, received at this stamp, which is now. -/
def wEnv (st : Nat) (ws : List Word) (at_ : Word) : Lane :=
  { (((wSet [(R.NX_RXn_CFG_length 0, 4), (R.NX_RXn_STAT_valid 0, 1), (R.TM_STATUS_set, 1), (R.SE_Cc_CFG_defined 4, 1), (R.SE_Cc_CFG_path_a 4, 1), (R.SE_Cc_CFG_length 4, 1), (R.SE_Cc_STAT_state 4, st)]).wr
    (R.SE_Cc_ID 4) 0x5D84FCFF).wr (R.NX_RXn_TIME 0) at_).storeRx 0 0 ws with tm := at_.toNat * 2 ^ 32, nx := { (default : Nolxis) with rxLen := [(0, ws.length)] } }
/-- The envelope of the spec's example (R431). -/
def wEnvelope : List Word := [0x00070001, 0x3B9ACA00, 5, 0x1EB3C8AC]
/-- A lane that accepts writes, with session 1 open and this transaction. -/
def wOpen (t : Option WriteTxn) : Lane :=
  { wSet [(R.SI_DIn_STAT_state 0, 1), (R.CF_STATUS_session, 1), (R.CF_SESSION_id, 1)] with cf := { (default : Service) with txn := t } }
/-- A transaction of 4 bytes of which none is written. -/
def wTxn : WriteTxn := ⟨false, 0x31C30000, 4, 0, 0⟩
/-- A transaction of no bytes, with the digest of nothing. -/
def wWritten : WriteTxn := ⟨false, 0x31C30000, 0, 0, 0xE3B0C44298FC1C149AFBF4C8996FB92427AE41E4649B934CA495991B7852B855⟩
/-- A leg with two snapshot slots, one buffer word and one state slot. -/
def wLeg : LegDesc :=
  { (default : LegDesc) with snapshot := [.const 7, .const 8], buffer := [.outputs], stateSlots := 1, period := 1, wcet := 10 }
/-- A lane of a TS-8630 whose engine 5 runs leg 1, with 0xC400 in w3 and 0x7F0 slots of 8 bytes less in w2. -/
def wRun : Lane :=
  { wReady [] with
    image := { (default : Image) with legs := [(1, wLeg), (2, { wLeg with onDemand := true })] }
    ea := { (default : Sched) with
      started := true
      engines := (List.replicate 24 freshEngine).set 5 { freshEngine with run := some ⟨1, false, false, 0, 0⟩, gated := false, w := [(2, 0x8480), (3, 0xC400)] } } }
/-- The leg of `wLeg`, with places of its own in lane SRAM. -/
def wPlaced : LegDesc := { wLeg with stateAt := 0x20000100, bufferAt := 0x20000200, statusAt := 0x20000300 }
/-- A lane whose leg 1 is due at hurdle 0 and has committed as given. -/
def wHurdle (d : List Done) : Lane :=
  { wReady (wBank [(R.EA_HURDLE 0, 1000)]) with
    image := { (default : Image) with legs := [(1, wPlaced)] }
    ea := { (default : Sched) with
      started := true
      done := d
      engines := List.replicate 24 freshEngine
      legs := [(1, { (default : LegRun) with due := true, snap := [1, 2] })] } }
/-- The lane of `wHurdle` whose engine 5 is awake and idle with this deque. -/
def wIdle (q : List Entry) : Lane := (wHurdle []).setEng 5 { freshEngine with gated := false, deque := q }
/-- A lane in which this word waits for hurdle 0. -/
def wStaged (r : Route) : Lane := { wReady [] with ea := { (default : Sched) with staged := [⟨0, r, 5⟩] } }
/-- A lane ready for demands, with this demand due. -/
def wDemand (l : Lane) (m : Nat) : Lane :=
  { l with st := { l.st with ready := true }, bk := { l.bk with queue := [⟨[BitVec.ofNat 32 (m + 64)], 7, 3, 0⟩] } }
/-- A lane whose stepper 0 is as given, with these register fields. -/
def wStepper (fs : List (Fld × Nat)) (x : Stepper) : Lane := (wSet fs).setStepper 0 x
/-- A stepper at rest. -/
def wRest : Stepper := ⟨0, 0, 0, 0, 0, none, 0, 0, [], false, false, false, 0, 0, false, false, (0, 0), none, none, false⟩
/-- A lane whose pair 0 of contacts is as given, with these register fields. -/
def wContacts (fs : List (Fld × Nat)) (x : Contacts) : Lane := (wSet fs).setContacts 0 x
/-- Contacts both inactive. -/
def wOpenPair : Contacts := { (default : Contacts) with bothOff := true }
/-- A lane in an open session that has written a well-formed image of no bytes into slot P. -/
def wStaging : Lane :=
  [0x454E4D4B, 1, 0, 0x104, 5, 1, 0, 0, 2, 0, 0, 3, 0, 0, 4, 0, 0, 5, 0, 0].zipIdx.foldl
    (fun l e => l.setGranule (slotBase 0 + 4 * e.2) e.1)
    (wOpen (some ⟨true, 0x30000000, 0, 0, 0xE3B0C44298FC1C149AFBF4C8996FB92427AE41E4649B934CA495991B7852B855⟩))

/-! ### Words written out from the encoding tables (R171 to R187) -/

/-- The integer group: op 0x01, add w3, w1, w2. -/
theorem test_word_add : decodeEngineWord .a 0 0b000001_00011_00001_00010_00000_000000 = some (.insAdd .a 0 3 1 2) := by decide
/-- The fixed-point group: op 0x02, function 0x01, qsub w3, w1, w2. -/
theorem test_word_qsub : decodeEngineWord .a 0 0x08611001 = some (.insQsub .a 0 3 1 2) := by decide
/-- An immediate: op 0x12, ori w8, w0, 0xC200. -/
theorem test_word_ori : decodeEngineWord .a 0 0x4900C200 = some (.insOri .a 0 8 0 0xC200) := by decide
/-- A load: op 0x20, ld40 w1, -1(w2). -/
theorem test_word_ld40 : decodeEngineWord .a 0 0b100000_00001_00010_0000_111111111111 = some (.insLd40 .a 0 1 2 (-1)) := by decide
/-- The spec's word for pin w1, 0(w0). -/
theorem test_word_pin : decodeEngineWord .a 0 0x90200000 = some (.insPin .a 0 false 1 0 0) := by decide
/-- A branch: op 0x30, br -1. -/
theorem test_word_br : decodeEngineWord .a 0 0b110000_00000_111111111111111111111 = some (.insBr .a 0 (-1)) := by decide
/-- The spec's word for commit. -/
theorem test_word_commit : decodeEngineWord .a 0 0xE1000000 = some (.insCommit .a 0) := by decide
/-- A word of zeros is undefined (R172). -/
theorem test_word_zero : decodeEngineWord .a 0 0 = none := by decide
/-- A field that the table marks as 0 is not 0 (R173). -/
theorem test_word_reserved : decodeEngineWord .a 0 0b000001_00011_00001_00010_00001_000000 = none := by decide
/-- A register pair of crot that reaches w31 (R173). -/
theorem test_word_pair : encodable (.insCrot .a 0 31 1 2) = false := by decide

/-! ### The spec's example of an envelope (R431) -/

/-- The check value of the words of the example under its identity. -/
theorem test_envelope_check : envCheck 0x5D84FCFF (wEnvelope.take 3) = 0x1EB3C8AC := by decide +kernel

/-! ### Worked examples of the spec -/

/-- The steal sweep of engine 6 (R141). -/
theorem test_sweep_order : sweepOrder .ts8630 6 =
    [7, 4, 5, 8, 9, 10, 11, 12, 13, 14, 15, 16, 17, 18, 19, 20, 21, 22, 23, 0, 1, 2, 3] := by decide

/-- The combine of R80: lives of 6000 h, 9000 h and 9000 h, or A down to 2000 h. -/
def wDwell (life : Nat) : Lane :=
  { wReady (wBank [(R.LM_ROLE, 0x70000), (R.LM_ROT_PERIOD, 600), (R.LM_ROT_ENV, 384 * 65536 + 128),
      (R.HA_LIFE, BitVec.ofNat 32 (life * 2 ^ R.HA_LIFE_life_h.lo))]) with
    peerB := { (default : Peer) with life := some 9000 }
    peerC := { (default : Peer) with life := some 9000 } }

/-- The dwells of 450 s, 675 s and 675 s. -/
theorem test_dwells : [LaneId.a, .b, .c].map (fun x => nearest ((wDwell 6000).dwellOf ctxA x).2) = [450, 675, 675] := by
  decide +kernel

/-- The dwells of 300 s (180 s raw), 810 s and 810 s. -/
theorem test_dwells_pinned : [LaneId.a, .b, .c].map (fun x => nearest ((wDwell 2000).dwellOf ctxA x).2) = [300, 810, 810] ∧
    ((wDwell 2000).dwellOf ctxA .a).1 = 180 := by decide +kernel

/-- Road-wheel and pressure values in q40 (R12): 12.5 A and −2.5 bar. -/
theorem test_q40 : qw (rq (25 / 2)) = 0x000C800000 ∧ qw (rq (-5 / 2)) = 0xFFFD800000 := by decide +kernel

/-- Two faults of one lane each on a two-lane member are SAFE, and DEGRADED_2 on the TS-8630 (R123, R124). -/
theorem test_two_lane_faults : modeFor .ts8620 false false [.l, .l] = 6 ∧ modeFor .ts8630 false false [.l, .l] = 2 := by decide

/-- OR of R125: STOP where the W fault is the later one, SAFE where it is the earlier. -/
theorem test_or : modeFor .ts8610 false false [.l, .w] = 4 ∧ modeFor .ts8610 false false [.w, .l] = 6 := by decide

/-! ### What the statements assume is met -/

theorem test_meets_MisalignedAccessIsBusError :
    (∃ (c : Ctx) (l : Lane) (a v : Word) (n : Nat), (l.alive = true) ∧ (0x40000000 ≤ a.toNat) ∧ (a.toNat < 0x50000000) ∧ (n ≠ 4 ∨ a.toNat % 4 ≠ 0)) ∧
    (∃ (c : Ctx) (l : Lane) (a v : Word), (l.alive = true) ∧ (0x40000000 ≤ a.toNat) ∧ (a.toNat < 0x50000000) ∧ (a.toNat % 4 ≠ 0)) ∧
    (∃ (c : Ctx) (l : Lane) (a v : Word), (l.alive = true) ∧ (0x40000000 ≤ a.toNat) ∧ (a.toNat < 0x50000000) ∧ (a.toNat % 4 ≠ 0)) ∧
    (∃ (c : Ctx) (l : Lane) (a : Word), (l.alive = true) ∧ (0x40000000 ≤ a.toNat) ∧ (a.toNat < 0x50000000) ∧ (a.toNat % 4 ≠ 0)) :=
  ⟨⟨ctxA, wReady [], 0x40000000, 0, 2, by decide⟩,
   ⟨ctxA, wReady [], 0x40034121, 0, by decide⟩,
   ⟨ctxA, wReady [], 0x40034126, 0, by decide⟩,
   ⟨ctxA, wReady [], 0x40034123, by decide⟩⟩

theorem test_meets_AbsentRegisterIsBusError :
    (∃ (c : Ctx) (l : Lane) (a v : Word), (l.alive = true) ∧ (0x40000000 ≤ a.toNat) ∧ (a.toNat < 0x50000000) ∧ (regThere c a.toNat = false)) ∧
    (∃ (c : Ctx) (l : Lane) (a v : Word) (n : Nat), (l.alive = true) ∧ (0x50000000 ≤ a.toNat)) ∧
    (∃ (c : Ctx) (l : Lane) (a v : Word) (n : Nat), (l.alive = true) ∧ (0x20400000 ≤ a.toNat) ∧ (a.toNat < 0x30000000)) ∧
    (∃ (c : Ctx) (l : Lane) (a v : Word) (n : Nat), (l.alive = true) ∧ (0x10000000 ≤ a.toNat) ∧ (a.toNat < 0x20000000) ∧ (0x10000000 + 0x40000 * blockCount c.part.member ≤ a.toNat)) :=
  ⟨⟨ctxTwo, wReady [], 0x40024000, 0, by decide⟩,
   ⟨ctxA, wReady [], 0x50000000, 0, 4, by decide⟩,
   ⟨ctxA, wReady [], 0x20400000, 0, 4, by decide⟩,
   ⟨ctxTwo, wReady [], 0x10080000, 0, 4, by decide⟩⟩

theorem test_meets_RegisterWriteSetsFields :
    ∃ (c : Ctx) (l : Lane) (a v : Word) (r : RegRow), (l.alive = true) ∧ (0x40000000 ≤ a.toNat) ∧ (a.toNat < 0x50000000) ∧ (a.toNat % 4 = 0) ∧ (irqLine a.toNat ≠ 12) ∧ (regThere c a.toNat = true) ∧ (findRow a.toNat = some r) ∧ (stagedLow r a.toNat = false) ∧ (l.writeActs c r a.toNat v = none) :=
  ⟨ctxA, wReady [], 0x40004004, 0xFFFF, ⟨0x40004004, 0, 1, 0, 1, 1, false, false, 0, 0xFFFF, 0, 0⟩, by decide⟩

theorem test_meets_SramStoreChangesItsBytes :
    ∃ (c : Ctx) (l : Lane) (a v : Word), (l.alive = true) ∧ (0x20000000 ≤ a.toNat) ∧ (a.toNat + 4 ≤ 0x20400000) :=
  ⟨ctxA, wReady [], 0x203FFFFC, 0x12345678, by decide⟩

theorem test_meets_PairWritesAndReads :
    (∃ (c : Ctx) (l : Lane) (a v : Word) (r : RegRow), (l.alive = true) ∧ (0x40000000 ≤ a.toNat) ∧ (a.toNat < 0x50000000) ∧ (a.toNat % 4 = 0) ∧ (regThere c a.toNat = true) ∧ (findRow a.toNat = some r) ∧ (stagedLow r a.toNat = true)) ∧
    (∃ (c : Ctx) (l : Lane) (v lo : Word) (n : Fin 4), (l.alive = true) ∧ (n.val < stepperCount c.part.member) ∧ ((l.stepper n.val).v = 0) ∧ (tabGet l.staging (R.SPn_CMP n.val) = some lo) ∧ (l.bit (R.SPn_CMP_CFG_fire_if_passed n.val) = false)) ∧
    (∃ (c : Ctx) (l : Lane) (a : Word) (r : RegRow), (l.alive = true) ∧ (0x40000000 ≤ a.toNat) ∧ (a.toNat < 0x50000000) ∧ (a.toNat % 4 = 0) ∧ (irqLine a.toNat ≠ 12) ∧ (regThere c a.toNat = true) ∧ (findRow a.toNat = some r) ∧ (r.pair = true) ∧ (rowHigh r a.toNat = false)) ∧
    (∃ (c : Ctx) (l : Lane) (a v : Word) (r : RegRow), (l.alive = true) ∧ (0x40000000 ≤ a.toNat) ∧ (a.toNat < 0x50000000) ∧ (a.toNat % 4 = 0) ∧ (regThere c a.toNat = true) ∧ (findRow a.toNat = some r) ∧ (stagedLow r a.toNat = true)) ∧
    (∃ (c : Ctx) (l : Lane) (a v : Word) (r : RegRow), (l.alive = true) ∧ (0x40000000 ≤ a.toNat) ∧ (a.toNat < 0x50000000) ∧ (a.toNat % 4 = 0) ∧ (regThere c a.toNat = true) ∧ (findRow a.toNat = some r) ∧ (rowHigh r a.toNat = true)) ∧
    (∃ (c : Ctx) (l : Lane) (a : Word) (r : RegRow), (l.alive = true) ∧ (0x40000000 ≤ a.toNat) ∧ (a.toNat < 0x50000000) ∧ (a.toNat % 4 = 0) ∧ (irqLine a.toNat ≠ 12) ∧ (regThere c a.toNat = true) ∧ (findRow a.toNat = some r) ∧ (r.pair = true) ∧ (rowHigh r a.toNat = false)) :=
  ⟨⟨ctxA, wReady [], 0x40034120, 7, ⟨0x40034120, 256, 4, 0, 1, 1, true, false, 0xFFFFFFFF, 0, 0, 0⟩, by decide⟩,
   ⟨ctxA, { wReady [] with staging := [(R.SPn_CMP 3, 5)] }, 1, 5, 3, by decide⟩,
   ⟨ctxA, wReady [], 0x40034118, ⟨0x40034118, 256, 4, 0, 1, 1, true, false, 0, 0, 0, 0⟩, by decide⟩,
   ⟨ctxA, wReady [], 0x40034120, 7, ⟨0x40034120, 256, 4, 0, 1, 1, true, false, 0xFFFFFFFF, 0, 0, 0⟩, by decide⟩,
   ⟨ctxA, wReady [], 0x40034124, 7, ⟨0x40034120, 256, 4, 0, 1, 1, true, false, 0xFFFFFFFF, 0, 0, 0⟩, by decide⟩,
   ⟨ctxA, wReady [], 0x40034118, ⟨0x40034118, 256, 4, 0, 1, 1, true, false, 0, 0, 0, 0⟩, by decide⟩⟩

theorem test_meets_LinkCommandsComplete_1 :
    (∃ (c : Ctx) (l : Lane) (dest : LaneId) (f : OutFrame) (rest : List OutFrame), (l.alive = true) ∧ (Lane.isPeer c dest = true) ∧ ((l.peer dest).downAt = none) ∧ (nextFrame (l.peer dest).txq = some (f, rest))) ∧
    (∃ (c : Ctx) (l : Lane) (src : LaneId) (f : LinkFrame), (l.alive = true) ∧ (Lane.isPeer c src = true) ∧ ((l.peer src).downAt = none) ∧ (discards src f = false) ∧ ((l.peer src).rxSeq = some (f.seq - 1))) ∧
    (∃ (c : Ctx) (l : Lane) (src : LaneId) (f : LinkFrame) (q : BitVec 16), (l.alive = true) ∧ (Lane.isPeer c src = true) ∧ ((l.peer src).downAt = none) ∧ (discards src f = false) ∧ ((l.peer src).rxSeq = some q) ∧ (f.seq ≠ q + 1)) ∧
    (∃ (c : Ctx) (l : Lane) (src : LaneId) (f : LinkFrame), (l.alive = true) ∧ (Lane.isPeer c src = true) ∧ ((l.peer src).downAt = none) ∧ (discards src f = true)) ∧
    (∃ (c : Ctx) (l : Lane) (x : LaneId) (ws : List Word), (l.alive = true) ∧ (Lane.isPeer c x = true) ∧ ((l.peer x).hb = some ws) ∧ ((l.peer x).hbAt + 13000 ≤ c.now) ∧ ((l.peer x).silentAt = none)) ∧
    (∃ (c : Ctx) (l : Lane) (x : LaneId), (l.alive = true) ∧ (Lane.isPeer c x = true) ∧ ((l.peer x).downAt = none)) ∧
    (∃ (c : Ctx) (l : Lane) (x : LaneId) (t : Nat), (l.alive = true) ∧ (Lane.isPeer c x = true) ∧ ((l.peer x).downAt = some t) ∧ (t + 20000 ≤ c.now) ∧ ((l.peer x).judged = false) ∧ ((l.peer x).accounted t = true)) ∧
    (∃ (c : Ctx) (l : Lane) (x : LaneId) (t : Nat), (l.alive = true) ∧ (Lane.isPeer c x = true) ∧ ((l.peer x).downAt = some t) ∧ (t + 20000 ≤ c.now) ∧ ((l.peer x).judged = false) ∧ ((l.peer x).accounted t = false) ∧ ((l.setPeer x { l.peer x with judged := true }).chargedLane c x = x)) :=
  ⟨⟨ctxA, { wReady [] with peerB := { (default : Peer) with txq := [⟨4, []⟩, ⟨2, []⟩] } }, .b, ⟨2, []⟩, [⟨4, []⟩], by decide⟩,
   ⟨ctxA, { wReady [] with peerB := { (default : Peer) with rxSeq := some 0xFFFF } }, .b, buildFrame ctxB 1 0 [0, 0, 0, 0], by decide +kernel⟩,
   ⟨ctxA, { wReady [] with peerB := { (default : Peer) with rxSeq := some 7 } }, .b, buildFrame ctxB 1 0 [0, 0, 0, 0], 7, by decide +kernel⟩,
   ⟨ctxA, wReady [], .b, { buildFrame ctxB 1 0 [0, 0, 0, 0] with check := 0 }, by decide +kernel⟩,
   ⟨{ ctxA with now := 13000 }, { wReady [] with peerB := { (default : Peer) with hb := some [] } }, .b, [], by decide⟩,
   ⟨ctxA, wReady [], .b, by decide⟩,
   ⟨{ ctxA with now := 20000 }, { wReady [] with peerB := { (default : Peer) with downAt := some 0, farUnfitAtDown := true } }, .b, 0, by decide⟩,
   ⟨{ ctxA with now := 20000 }, { wReady [(R.LM_ROLE, 0x70001)] with peerB := { (default : Peer) with downAt := some 0 } }, .b, 0, by decide⟩⟩

theorem test_meets_LinkCommandsComplete_2 :
    (∃ (c : Ctx) (l : Lane), (l.alive = true) ∧ (l.sendsMirror c = true) ∧ (l.commitsOver c = true)) ∧
    (∃ (c : Ctx) (l : Lane), (l.alive = true) ∧ (l.fit = true) ∧ (l.ea.started = true) ∧ (l.ownPlaus = none)) :=
  ⟨⟨{ ctxA with now := 200 }, { wReady [(R.LM_ROLE, 0x70001)] with ea := { (default : Sched) with started := true } }, by decide⟩,
   ⟨ctxA, { wReady [(R.LM_ROLE, 0x70001)] with ea := { (default : Sched) with started := true } }, by decide⟩⟩

theorem test_meets_DisagreementCommandsComplete :
    (∃ (c : Ctx) (l : Lane) (sender : LaneId) (lanes : BitVec 3) (quantity : BitVec 16) (heats : BitVec 2), (l.alive = true) ∧ (Lane.isPeer c sender = true) ∧ (maskHas lanes.toNat c.id = true)) ∧
    (∃ (c : Ctx) (l : Lane) (sender : LaneId) (quantity : BitVec 16), (l.alive = true) ∧ (Lane.isPeer c sender = true)) ∧
    (∃ (c : Ctx) (l : Lane) (sender target : LaneId) (row : Fin 5), (l.alive = true) ∧ (Lane.isPeer c sender = true)) ∧
    (∃ (c : Ctx) (l : Lane) (t u : Nat), (l.alive = true) ∧ (isTriple c.part.member = true) ∧ (c.id = .a) ∧ (l.peerB.inAt = some t) ∧ (l.peerC.inAt = some u) ∧ (l.peerB.outAt = none) ∧ (l.peerC.outAt = none) ∧ (t + 650 ≤ c.now) ∧ (u + 650 ≤ c.now) ∧ (l.role ≠ roleUnfit)) ∧
    (∃ (s : State) (ln target : LaneId) (row : Fin 5), s.has ln = true ∧ s.has target = true ∧ (s.lane ln).mayVote (s.ctx ln) target row.val = true) ∧
    (∃ (s : State) (ln target : LaneId), s.has ln = true ∧ s.has target = true ∧ (s.lane ln).mayRelease (s.ctx ln).now target = true) ∧
    (∃ (s : State) (ln target : LaneId), s.has ln = true ∧ s.has target = true ∧ ln ≠ target ∧ (s.lane ln).pulseDue (s.ctx ln) target = true ∧ (s.lane target).alive = true) ∧
    (∃ (s : State) (ln target : LaneId), s.has ln = true ∧ s.has target = true ∧ ln ≠ target ∧ (s.lane ln).alive = true ∧ (s.lane target).alive = true ∧ 2 ≤ ((s.lane ln).peer target).pulseMiss) :=
  ⟨⟨ctxA, wReady [], .b, 4, 1, 3, by decide⟩,
   ⟨ctxA, wReady [], .b, 0, by decide⟩,
   ⟨ctxA, wReady [], .b, .c, 4, by decide⟩,
   ⟨{ ctxA with now := 650 }, { wReady [(R.LM_ROLE, 0x70001)] with peerB := { (default : Peer) with inAt := some 0 }, peerC := { (default : Peer) with inAt := some 0 } }, 0, 0, by decide⟩,
   ⟨wState .a { wReady [(R.LM_ROLE, 0x70001)] with peerB := { (default : Peer) with hb := some [0x80000000, 0, 0, 0], line := true } } 2000, .a, .b, 4, by decide⟩,
   ⟨wState .a { wReady [] with peerB := { (default : Peer) with voteAt := some 0, voteShown := true } } 2000, .a, .b, by decide⟩,
   ⟨{ wState .a { wReady [] with ea := { (default : Sched) with started := true } } 10000 with laneB := wReady [] }, .a, .b, by decide⟩,
   ⟨{ wState .a { wReady [] with peerB := { (default : Peer) with pulseMiss := 2 } } 0 with laneB := wReady [] }, .a, .b, by decide⟩⟩

theorem test_meets_LatchesAndStandstillComplete :
    (∃ (c : Ctx) (l : Lane) (st : Stage), (l.alive = true) ∧ (l.stageOn.getLsbD (stageIx st) = true) ∧ (BitVec.ofNat 32 (2 ^ stageIx st) &&& stageMask c.part.member ≠ 0) ∧ (l.baton.inhibited = false)) ∧
    (∃ (c : Ctx) (l : Lane) (st : Stage), (l.alive = true) ∧ (l.stageOn.getLsbD (stageIx st) = true) ∧ (BitVec.ofNat 32 (2 ^ stageIx st) &&& stageMask c.part.member ≠ 0) ∧ (l.baton.inhibited = true)) ∧
    (∃ (c : Ctx) (l : Lane) (st : Stage) (t : Nat), (l.alive = true) ∧ (tabGet l.latchAt (stageIx st) = some t) ∧ (l.latchHold.getLsbD (stageIx st) = true) ∧ (t + 1000000 ≤ c.now)) ∧
    (∃ (c : Ctx) (l : Lane), (l.alive = true) ∧ (l.standing c = true) ∧ (l.get R.BK_STATUS_step ≠ 2)) ∧
    (∃ (c : Ctx) (l : Lane), (l.alive = true) ∧ (l.standing c = true) ∧ (l.get R.BK_STATUS_step = 2)) ∧
    (∃ (c : Ctx) (l : Lane) (t : Nat), (l.alive = true) ∧ (l.bk.zeroAt = some t) ∧ (l.fc.starving = true) ∧ (l.get R.BK_STATUS_step = 1) ∧ (t + (l.rd R.FC_HOLD_TIME).toNat ≤ c.now) ∧ (((l.put R.BK_STATUS_step 2).beginDecel (some c.now)).channelGone c .x = false) ∧ (((l.put R.BK_STATUS_step 2).beginDecel (some c.now)).channelGone c .y = false)) ∧
    (∃ (c : Ctx) (l : Lane) (t : Nat), (l.alive = true) ∧ (l.bk.parkedAt = some t) ∧ (l.permitted = true) ∧ (l.get R.FC_MODE_mode = 4) ∧ (l.parked = true) ∧ (t + 1000000000 ≤ c.now)) :=
  ⟨⟨ctxA, { wReady [] with stageOn := 1 }, .solenoid 0, by decide⟩,
   ⟨ctxA, { wReady [] with stageOn := 1, baton := { (default : Baton) with inhibited := true } }, .solenoid 0, by decide⟩,
   ⟨{ ctxA with now := 1000000 }, { wReady [] with latchAt := [(8, 0)], latchHold := 0x100, stageOn := 0x100 }, .stepper 0, 0, by decide⟩,
   ⟨ctxA, wStanding, by decide⟩,
   ⟨ctxA, wReady (wBank [(R.BK_STATUS, 2 * 2 ^ R.BK_STATUS_step.lo)]), by decide⟩,
   ⟨{ ctxA with now := 5 }, wStarving, 0, by decide⟩,
   ⟨{ ctxA with now := 1000000000 }, wStopped, 0, by decide⟩⟩

theorem test_meets_DecisionCommandsComplete :
    (∃ (c : Ctx) (l : Lane) (sender failed : LaneId) (cause : BitVec 4), (l.alive = true) ∧ (isTriple c.part.member = true) ∧ (Lane.isPeer c sender = true) ∧ (failed ≠ sender) ∧ (failed ≠ c.id) ∧ (l.standby = true) ∧ (l.baton.decision = none)) ∧
    (∃ (c : Ctx) (l : Lane) (sender failed : LaneId) (d : Decision), (l.alive = true) ∧ (l.baton.decision = some d) ∧ (d.successor = c.id) ∧ (d.failed = failed) ∧ (d.claimAt.isSome = true) ∧ (Lane.isPeer c sender = true)) ∧
    (∃ (c : Ctx) (l : Lane) (d : Decision) (t : Nat), (l.alive = true) ∧ (l.baton.decision = some d) ∧ (d.claimAt = some t) ∧ (t + 8000 ≤ c.now)) ∧
    (∃ (c : Ctx) (l : Lane) (d : Decision), (l.alive = true) ∧ (l.baton.decision = some d) ∧ (d.successor = c.id) ∧ (isTriple c.part.member = false) ∧ (d.countedAt + 1000 ≤ c.now)) ∧
    (∃ (c : Ctx) (l : Lane) (d : Decision), (l.alive = true) ∧ (l.baton.decision = some d) ∧ (d.successor = c.id) ∧ (isTriple c.part.member = true) ∧ (((othersOf c).filter (fun x => decide (x ≠ d.failed))).all (fun x => !l.knowsFit x || (l.peer x).silentAt.isSome) = true)) ∧
    (∃ (c : Ctx) (l : Lane) (d : Decision), (l.alive = true) ∧ (l.baton.decision = some d) ∧ (isTriple c.part.member = true) ∧ (d.successor ≠ c.id) ∧ (d.boundFrom + 10000 ≤ c.now)) :=
  ⟨⟨ctxC, wReady [(R.LM_ROLE, 0x70004)], .b, .a, 8, by decide⟩,
   ⟨ctxA, wBaton { (default : Baton) with decision := some wDecision }, .b, .c, wDecision, by decide⟩,
   ⟨{ ctxA with now := 8000 }, wBaton { (default : Baton) with decision := some wDecision }, wDecision, 0, by decide⟩,
   ⟨{ ctxTwo with now := 1000 }, wBaton { (default : Baton) with decision := some wDecision }, wDecision, by decide⟩,
   ⟨ctxA, { wReady [(R.LM_ROLE, 0x10001)] with baton := { (default : Baton) with decision := some wDecision } }, wDecision, by decide⟩,
   ⟨{ ctxC with now := 10000 }, wBaton { (default : Baton) with decision := some wDecision }, wDecision, by decide⟩⟩

theorem test_meets_UnfitNewsComplete_1 :
    (∃ (c : Ctx) (l : Lane) (sender : LaneId) (cause cls : BitVec 4), (l.alive = true) ∧ (Lane.isPeer c sender = true) ∧ ((l.peer sender).awaitLeaving = none)) ∧
    (∃ (c : Ctx) (l : Lane) (sender : LaneId) (cause cls : BitVec 4) (t : Nat), (l.alive = true) ∧ (Lane.isPeer c sender = true) ∧ ((l.peer sender).awaitLeaving = some t)) ∧
    (∃ (c : Ctx) (l : Lane) (gone : LaneId) (t : Nat), (l.alive = true) ∧ ((l.peer gone).awaitLeaving = some t) ∧ (t + 20000 ≤ c.now)) ∧
    (∃ (c : Ctx) (l : Lane) (driver : LaneId), (l.alive = true) ∧ (Lane.isPeer c driver = true) ∧ ((l.peer driver).line = false) ∧ (l.baton.window = none)) ∧
    (∃ (c : Ctx) (l : Lane) (driver : LaneId) (w : Window), (l.alive = true) ∧ (Lane.isPeer c driver = true) ∧ ((l.peer driver).line = false) ∧ (l.baton.window = some w) ∧ (w.incoming = driver)) ∧
    (∃ (c : Ctx) (l : Lane) (driver : LaneId), (l.alive = true) ∧ (Lane.isPeer c driver = true) ∧ ((l.peer driver).line = true) ∧ (l.dropsBaton c driver = true)) ∧
    (∃ (c : Ctx) (l : Lane) (w : Window), (l.alive = true) ∧ (l.baton.window = some w) ∧ (w.incoming = c.id) ∧ (w.checked = true) ∧ (l.active = true)) ∧
    (∃ (c : Ctx) (l : Lane) (w : Window), (l.alive = true) ∧ (l.baton.window = some w) ∧ (w.endsAt ≤ c.now) ∧ (w.incoming ≠ c.id) ∧ (l.standby = true)) :=
  ⟨⟨ctxA, wReady [], .b, 12, 0, by decide⟩,
   ⟨ctxA, { wReady [] with peerB := { (default : Peer) with awaitLeaving := some 0 } }, .b, 12, 4, 0, by decide⟩,
   ⟨{ ctxA with now := 20000 }, { wReady [] with peerB := { (default : Peer) with awaitLeaving := some 0 } }, .b, 0, by decide⟩,
   ⟨ctxA, wReady [], .b, by decide⟩,
   ⟨ctxC, { wReady [] with baton := { (default : Baton) with window := some wWindow } }, .a, wWindow, by decide⟩,
   ⟨ctxA, { wReady [(R.LM_ROLE, 0x70004)] with peerB := { (default : Peer) with line := true } }, .b, by decide⟩,
   ⟨ctxA, { wReady [(R.LM_ROLE, 0x70001)] with baton := { (default : Baton) with window := some wWindow } }, wWindow, by decide⟩,
   ⟨{ ctxC with now := 250000 }, { wReady [(R.LM_ROLE, 0x70000)] with baton := { (default : Baton) with window := some wWindow } }, wWindow, by decide⟩⟩

theorem test_meets_UnfitNewsComplete_2 :
    ∃ (c : Ctx) (l : Lane) (w : Window), (l.alive = true) ∧ (l.baton.window = some w) ∧ (w.endsAt ≤ c.now) ∧ (w.incoming = c.id) :=
  ⟨{ ctxA with now := 250000 }, { wReady [] with baton := { (default : Baton) with window := some wWindow } }, wWindow, by decide⟩

theorem test_meets_PassOffersComplete_1 :
    (∃ (c : Ctx) (l : Lane) (sender : LaneId) (heat : BitVec 16) (cause : BitVec 4), (l.alive = true) ∧ (Lane.isPeer c sender = true) ∧ (l.standby = true) ∧ (l.batonLane = some sender) ∧ (l.baton.decision = none) ∧ (cause ≠ 7)) ∧
    (∃ (c : Ctx) (l : Lane) (sender : LaneId) (heat : BitVec 16) (cause : BitVec 4) (t : Nat), (l.alive = true) ∧ (Lane.isPeer c sender = true) ∧ (l.standby = true) ∧ (l.batonLane = some sender) ∧ (l.baton.decision = none) ∧ (l.heatTime heat = some t) ∧ (c.now + 210000 ≤ t)) ∧
    (∃ (c : Ctx) (l : Lane) (m : PreDrive) (ix : Nat) (rest : List Nat) (p : Pass), (l.alive = true) ∧ (l.baton.window = none) ∧ (l.baton.pass = some p) ∧ (p.incoming = c.id) ∧ (p.phase = .checking) ∧ (l.checkFails c m = ix :: rest)) ∧
    (∃ (c : Ctx) (l : Lane) (m : PreDrive) (p : Pass), (l.alive = true) ∧ (l.baton.window = none) ∧ (l.baton.pass = some p) ∧ (p.incoming = c.id) ∧ (p.phase = .checking) ∧ (p.urgent = false) ∧ (l.checkFails c m = [])) ∧
    (∃ (c : Ctx) (l : Lane) (sender : LaneId) (heat : BitVec 16) (p : Pass), (l.alive = true) ∧ (l.baton.pass = some p) ∧ (p.outgoing = c.id) ∧ (p.incoming = sender) ∧ (p.phase = .offered) ∧ (p.urgent = false) ∧ (p.heat = heat) ∧ (c.now + 10000 ≤ p.zoneAt)) ∧
    (∃ (c : Ctx) (l : Lane) (p : Pass), (l.alive = true) ∧ (l.baton.pass = some p) ∧ (p.outgoing = c.id) ∧ (p.phase = .offered) ∧ (p.urgent = false) ∧ (p.zoneAt < c.now + 10000)) ∧
    (∃ (c : Ctx) (l : Lane) (sender : LaneId) (stage : BitVec 5) (p : Pass), (l.alive = true) ∧ (l.baton.pass = some p) ∧ (p.outgoing = c.id) ∧ (p.incoming = sender)) ∧
    (∃ (c : Ctx) (l : Lane) (sender : LaneId) (reason : BitVec 2) (p : Pass), (l.alive = true) ∧ (l.baton.pass = some p) ∧ (p.outgoing = c.id) ∧ (p.incoming = sender) ∧ (p.phase = .zone)) :=
  ⟨⟨ctxA, wReady [(R.LM_ROLE, 0x70004)], .b, 0, 4, by decide⟩,
   ⟨ctxA, { wReady [(R.LM_ROLE, 0x70004)] with ea := { (default : Sched) with heatAt := 210000 } }, .b, 0, 1, 210000, by decide⟩,
   ⟨ctxTwo, wDriveLane, { wDrive with stages := [] }, 16, [], wPass .b .a .checking, by decide⟩,
   ⟨ctxTwo, wDriveLane, wDrive, wPass .b .a .checking, by decide⟩,
   ⟨ctxA, wBaton { (default : Baton) with pass := some (wPass .a .b .offered) }, .b, 0, wPass .a .b .offered, by decide⟩,
   ⟨{ ctxA with now := 250000 }, wBaton { (default : Baton) with pass := some (wPass .a .b .offered) }, wPass .a .b .offered, by decide⟩,
   ⟨ctxA, wBaton { (default : Baton) with pass := some (wPass .a .b .offered) }, .b, 0, wPass .a .b .offered, by decide⟩,
   ⟨ctxA, wBaton { (default : Baton) with pass := some (wPass .a .b .zone) }, .b, 1, wPass .a .b .zone, by decide⟩⟩

theorem test_meets_PassOffersComplete_2 :
    (∃ (c : Ctx) (l : Lane) (sender : LaneId) (zoneStart : Word) (cause : BitVec 4) (p : Pass), (l.alive = true) ∧ (Lane.isPeer c sender = true) ∧ (sender ≠ c.id) ∧ (l.baton.pass = some p) ∧ (p.outgoing = sender) ∧ (p.phase = .accepted)) ∧
    (∃ (c : Ctx) (l : Lane) (sender incoming : LaneId) (zoneStart : Word) (cause : BitVec 4), (l.alive = true) ∧ (Lane.isPeer c sender = true) ∧ (sender ≠ incoming) ∧ (incoming ≠ c.id)) :=
  ⟨⟨ctxA, wBaton { (default : Baton) with pass := some (wPass .b .a .accepted) }, .b, 0, 1, wPass .b .a .accepted, by decide⟩,
   ⟨ctxA, wReady [], .b, .c, 0, 1, by decide⟩⟩

theorem test_meets_ZoneCommandsComplete :
    (∃ (c : Ctx) (l : Lane) (p : Pass), (l.alive = true) ∧ (l.baton.pass = some p) ∧ (p.phase = .confirmed) ∧ (p.zoneAt ≤ c.now) ∧ (p.outgoing = c.id) ∧ (p.cause ≠ 7)) ∧
    (∃ (c : Ctx) (l : Lane) (p : Pass), (l.alive = true) ∧ (l.baton.pass = some p) ∧ (p.phase = .confirmed) ∧ (p.zoneAt ≤ c.now) ∧ (p.outgoing ≠ c.id) ∧ (p.cause ≠ 7)) ∧
    (∃ (c : Ctx) (l : Lane) (p : Pass), (l.alive = true) ∧ (l.baton.pass = some p) ∧ (p.phase = .zone) ∧ (p.zoneAt + 12500 ≤ c.now) ∧ (p.outgoing ≠ c.id)) ∧
    (∃ (c : Ctx) (l : Lane) (p : Pass), (l.alive = true) ∧ (l.baton.pass = some p) ∧ (p.phase = .zone ∨ p.phase = .returning)) ∧
    (∃ (c : Ctx) (l : Lane) (p : Pass), (l.alive = true) ∧ (l.baton.pass = some p) ∧ (p.phase = .zone) ∧ (p.zoneAt + 100000 ≤ c.now) ∧ (p.outgoing ≠ c.id)) ∧
    (∃ (c : Ctx) (l : Lane) (p : Pass), (l.alive = true) ∧ (l.baton.pass = some p) ∧ (p.phase = .zone) ∧ (p.zoneAt + 100000 ≤ c.now) ∧ (p.outgoing = c.id) ∧ (p.cause ≠ 6) ∧ (p.cause ≠ 7) ∧ ((l.resumeSteps c).leaveDue = false)) ∧
    (∃ (c : Ctx) (l : Lane) (sender outgoing : LaneId) (cause : BitVec 4) (zoneStart : Word), (l.alive = true) ∧ (Lane.isPeer c sender = true) ∧ (outgoing ≠ c.id)) :=
  ⟨⟨{ ctxA with now := 250000 }, wBaton { (default : Baton) with pass := some (wPass .a .b .confirmed) }, wPass .a .b .confirmed, by decide⟩,
   ⟨{ ctxB with now := 250000 }, wBaton { (default : Baton) with pass := some (wPass .a .b .confirmed) }, wPass .a .b .confirmed, by decide⟩,
   ⟨{ ctxB with now := 262500 }, wBaton { (default : Baton) with pass := some (wPass .a .b .zone) }, wPass .a .b .zone, by decide⟩,
   ⟨ctxA, wBaton { (default : Baton) with pass := some (wPass .a .b .zone) }, wPass .a .b .zone, by decide⟩,
   ⟨{ ctxB with now := 350000 }, wBaton { (default : Baton) with pass := some (wPass .a .b .zone) }, wPass .a .b .zone, by decide⟩,
   ⟨{ ctxA with now := 350000 }, wBaton { (default : Baton) with pass := some (wPass .a .b .zone) }, wPass .a .b .zone, by decide⟩,
   ⟨ctxA, wReady [], .b, .c, 1, 0, by decide⟩⟩

theorem test_meets_PinsAndRotationComplete_1 :
    (∃ (c : Ctx) (l : Lane) (value : Word) (x : LaneId), (l.alive = true) ∧ (fldOf R.LM_PASS_REQ_go value = 1) ∧ (l.active = true) ∧ (l.unitsHalt = false) ∧ (l.passTarget c (laneOf (fldOf R.LM_PASS_REQ_lane value)) = some x)) ∧
    (∃ (c : Ctx) (l : Lane) (value : Word) (x : LaneId), (l.alive = true) ∧ (laneOf (fldOf R.LM_PIN_lane value) = some x) ∧ (l.fit = true) ∧ (l.unitsHalt = false) ∧ (l.knowsFit x = true)) ∧
    (∃ (c : Ctx) (l : Lane) (sender lane : LaneId) (minutes : BitVec 11), (l.alive = true) ∧ (Lane.isPeer c sender = true) ∧ (l.fit = true)) ∧
    (∃ (c : Ctx) (l : Lane) (t : Nat), (l.alive = true) ∧ (l.baton.pinEnds = some t) ∧ (t ≤ c.now)) ∧
    (∃ (c : Ctx) (l : Lane) (value : Word), (l.alive = true) ∧ (256 ≤ fldOf R.LM_ROT_ENV_weight_max value) ∧ (fldOf R.LM_ROT_ENV_weight_min value ≤ 256)) ∧
    (∃ (c : Ctx) (l : Lane) (value : Word), (l.alive = true) ∧ (fldOf R.LM_ROT_ENV_weight_max value < 256 ∨ 256 < fldOf R.LM_ROT_ENV_weight_min value)) ∧
    (∃ (c : Ctx) (l : Lane) (t : Nat) (x : LaneId), (l.alive = true) ∧ (l.baton.dwellEnds = some t) ∧ (t ≤ c.now) ∧ (l.active = true) ∧ (l.bit R.LM_ROLE_pinned = false) ∧ (l.bit R.LM_ROLE_disputed = false) ∧ (l.baton.rotTarget = none) ∧ (l.nextFit c = some x)) ∧
    (∃ (c : Ctx) (l : Lane) (sender : LaneId) (da db dc : Word), (l.alive = true) ∧ (Lane.isPeer c sender = true)) :=
  ⟨⟨ctxA, wReady [(R.LM_ROLE, 0x70001)], 5, .b, by decide⟩,
   ⟨ctxA, wReady [(R.LM_ROLE, 0x70001)], 0x10001, .b, by decide⟩,
   ⟨ctxA, wReady [(R.LM_ROLE, 0x70001)], .b, .c, 1440, by decide⟩,
   ⟨ctxA, wBaton { (default : Baton) with pinEnds := some 0 }, 0, by decide⟩,
   ⟨ctxA, wReady [], 0x1000100, by decide⟩,
   ⟨ctxA, wReady [], 0xFF0100, by decide⟩,
   ⟨ctxA, { wReady [(R.LM_ROLE, 0x70001)] with baton := { (default : Baton) with dwellEnds := some 0 } }, 0, .b, by decide⟩,
   ⟨ctxA, wReady [], .b, 1, 2, 3, by decide⟩⟩

theorem test_meets_PinsAndRotationComplete_2 :
    ∃ (c : Ctx) (l : Lane) (t : Nat) (x y : LaneId), (l.alive = true) ∧ (l.baton.deferredAt = some t) ∧ (l.baton.rotTarget = some x) ∧ (t + 1000000000 ≤ c.now) ∧ (l.baton.pass = none) ∧ (l.pwState = 0) ∧ ((cyclicAfter c c.id).find? (fun z => (l.flag R.LM_FLAGS_rot_skip).knowsFit z && !(x :: (l.flag R.LM_FLAGS_rot_skip).baton.skipped).contains z) = some y) :=
  ⟨{ ctxA with now := 1000000000 }, { wReady [(R.LM_ROLE, 0x70001)] with baton := { (default : Baton) with deferredAt := some 0, rotTarget := some .b } }, 0, .b, .c, by decide⟩

theorem test_meets_ContainmentCommandsComplete_1 :
    (∃ (c : Ctx) (l : Lane) (ix : Fin 29), (l.alive = true) ∧ (hasComparator c.part.member ix.val = true)) ∧
    (∃ (c : Ctx) (l : Lane) (ix : Fin 29) (input : BitVec 8), (l.alive = true) ∧ (hasComparator c.part.member ix.val = true)) ∧
    (∃ (c : Ctx) (l : Lane) (ix : Fin 29), (l.alive = true) ∧ (hasComparator c.part.member ix.val = true)) ∧
    (∃ (c : Ctx) (l : Lane) (memory : Fin 7) (addr value : Word), (l.alive = true) ∧ (inSram c.part.member memory.val addr.toNat = true)) ∧
    (∃ (c : Ctx) (l : Lane) (memory : Fin 7) (addr : Word), (l.alive = true) ∧ (memory.val ≠ 0) ∧ (memory.val ≠ 1) ∧ (memory.val ≠ 4)) ∧
    (∃ (c : Ctx) (l : Lane) (w : Word), (l.alive = true) ∧ (l.fc.scrubFlash = 0) ∧ (0 < l.fc.scrubAt) ∧ (tabGet l.planted (scrubPlace c.part.member l.fc.scrubAt).2 = none) ∧ (l.fc.scrubAt + 1 < scrubCount c.part.member) ∧ (inSram c.part.member (scrubPlace c.part.member l.fc.scrubAt).1 (scrubPlace c.part.member l.fc.scrubAt).2 = true)) ∧
    (∃ (c : Ctx) (l : Lane) (value : Word), (l.alive = true) ∧ (l.active = false) ∧ (l.parked = true) ∧ (fldOf R.FC_MEM_INJ_memory value ≠ 3) ∧ (fldOf R.FC_MEM_INJ_memory value ≠ 0) ∧ (fldOf R.FC_MEM_INJ_kind value ≠ 3) ∧ (fldOf R.FC_MEM_INJ_bit value ≤ 38)) ∧
    (∃ (c : Ctx) (l : Lane) (addr : Word), (l.alive = true) ∧ (l.get R.FC_MEM_INJ_memory = 2) ∧ (l.get R.FC_MEM_INJ_kind ≠ 0) ∧ (0x20000000 ≤ addr.toNat) ∧ (addr.toNat < 0x20400000)) :=
  ⟨⟨ctxA, wReady [], 28, by decide⟩,
   ⟨ctxTwo, wReady [], 27, 255, by decide⟩,
   ⟨ctxTwo, wReady [], 27, by decide⟩,
   ⟨ctxTwo, wReady [], 1, 0x1007FFFC, 9, by decide⟩,
   ⟨ctxA, wReady [], 2, 0x20000000, by decide⟩,
   ⟨ctxA, { wReady [] with fc := { (default : Contain) with scrubAt := 1 } }, 3, by decide⟩,
   ⟨ctxA, wReady [(R.LM_ROLE, 0x70000), (R.FC_MODE, BitVec.ofNat 32 (2 ^ R.FC_MODE_parked.lo))], 0x9902, by decide⟩,
   ⟨ctxA, wReady [(R.FC_MEM_INJ, 0x102)], 0x203FFFFC, by decide⟩⟩

theorem test_meets_ContainmentCommandsComplete_2 :
    (∃ (c : Ctx) (l : Lane) (ix : Fin 29), (l.alive = true) ∧ (l.ea.started = true) ∧ (hasComparator c.part.member ix.val = true) ∧ (24 ≤ ix.val) ∧ (l.ea.heatAt + 2000 + 200 * ix.val ≤ c.now)) ∧
    (∃ (c : Ctx) (l : Lane) (row : Fin 6), (l.alive = true) ∧ (l.rowApplies c row.val = true)) ∧
    (∃ (c : Ctx) (l : Lane) (value : Word), (l.alive = true) ∧ (fldOf R.LM_SELF_UNFIT_key value = 0xA5)) ∧
    (∃ (c : Ctx) (l : Lane) (value : Word), (l.alive = true) ∧ (fldOf R.LM_SELF_UNFIT_key value ≠ 0xA5)) :=
  ⟨⟨{ ctxA with now := 6800 }, { wReady [] with ea := { (default : Sched) with started := true } }, 24, by decide⟩,
   ⟨ctxA, wReady [(R.LM_ROLE, 0x70000)], 3, by decide⟩,
   ⟨ctxA, wReady [], 0xA5, by decide⟩,
   ⟨ctxA, wReady [], 0xA4, by decide⟩⟩

theorem test_meets_MarshalForwardsByTable :
    (∃ (s : State) (u : State) (b : Fin 16) (p q : TxPlace) (f : Option NxFrame) (t : BranchTable) (ts : MarshalTables), (s.part.marshal = true) ∧ (s.marshal.powered = true) ∧ (u = s.settleMarshal) ∧ (u.marshal.table b.val = some t) ∧ (u.marshal.tables = some ts) ∧ (q = u.placeOf ts p) ∧ (u.disqOver b.val = false) ∧ (u.marshal.get R.MS_STATUS_state = msSynced) ∧ (u.breach t ts.precision.toNat b.val q = none) ∧ (u.marshal.disq b.val = false)) ∧
    (∃ (s : State) (u : State) (b : Fin 16) (p q : TxPlace) (f : Option NxFrame) (t : BranchTable) (ts : MarshalTables) (k : Nat), (s.part.marshal = true) ∧ (s.marshal.powered = true) ∧ (u = s.settleMarshal) ∧ (u.marshal.table b.val = some t) ∧ (u.marshal.tables = some ts) ∧ (q = u.placeOf ts p) ∧ (u.disqOver b.val = false) ∧ (u.marshal.get R.MS_STATUS_state = msSynced) ∧ (u.breach t ts.precision.toNat b.val q = some k)) ∧
    (∃ (s : State) (u : State) (b : Fin 16) (p q : TxPlace) (f : Option NxFrame) (t : BranchTable) (ts : MarshalTables), (s.part.marshal = true) ∧ (s.marshal.powered = true) ∧ (u = s.settleMarshal) ∧ (u.marshal.table b.val = some t) ∧ (u.marshal.tables = some ts) ∧ (q = u.placeOf ts p) ∧ (u.disqOver b.val = false) ∧ (u.marshal.get R.MS_STATUS_state = msUnsynced) ∧ (t.coldstart = false)) ∧
    (∃ (s : State) (u : State) (b : Fin 16) (p q : TxPlace) (f : Option NxFrame) (t : BranchTable) (ts : MarshalTables), (s.part.marshal = true) ∧ (s.marshal.powered = true) ∧ (u = s.settleMarshal) ∧ (u.marshal.table b.val = some t) ∧ (u.marshal.tables = some ts) ∧ (q = u.placeOf ts p) ∧ (u.disqOver b.val = false) ∧ (u.marshal.get R.MS_STATUS_state = msUnsynced) ∧ (t.coldstart = true) ∧ (u.marshal.disq b.val = false) ∧ ((u.marshal.branch b.val).halfAt = none) ∧ (u.marshal.collided = false) ∧ (u.marshal.forwarding.any (fun y => decide (y.branch ≠ b.val) && y.runs u.now) = false)) ∧
    (∃ (s : State) (u : State) (b : Fin 16) (p q : TxPlace) (f : Option NxFrame) (t : BranchTable) (ts : MarshalTables), (s.part.marshal = true) ∧ (s.marshal.powered = true) ∧ (u = s.settleMarshal) ∧ (u.marshal.table b.val = some t) ∧ (u.marshal.tables = some ts) ∧ (q = u.placeOf ts p) ∧ (u.disqOver b.val = false) ∧ (u.marshal.get R.MS_STATUS_state = msUnsynced) ∧ (t.coldstart = true) ∧ (u.marshal.disq b.val = false) ∧ ((u.marshal.branch b.val).halfAt = none) ∧ (u.marshal.forwarding.any (fun y => decide (y.branch ≠ b.val) && y.runs u.now) = true)) ∧
    (∃ (s : State) (u : State), (s.part.marshal = true) ∧ (s.marshal.powered = true) ∧ (u = s.settleMarshal) ∧ (u.marshal.get R.MS_STATUS_state = msUnsynced) ∧ (u.marshal.collided = true) ∧ (u.marshal.forwarding.all (fun x => x.ended u.now) = true)) ∧
    (∃ (s : State) (u : State), (s.part.marshal = true) ∧ (s.marshal.powered = true) ∧ (u = s.settleMarshal) ∧ (u.marshal.collided = false)) ∧
    (∃ (s : State) (u : State) (ts : MarshalTables), (s.part.marshal = true) ∧ (s.marshal.powered = true) ∧ (u = s.settleMarshal) ∧ (u.marshal.get R.MS_STATUS_state = msSynced) ∧ (u.marshal.tables = some ts) ∧ (u.marshal.lastHeard + 4 * ts.cycleLen.toNat ≤ u.now)) :=
  ⟨⟨wMarshal 1, (wMarshal 1).settleMarshal, 0, .static 3 0, (wMarshal 1).settleMarshal.placeOf wTables (.static 3 0), none, wBranch, wTables, by decide⟩,
   ⟨wMarshal 1, (wMarshal 1).settleMarshal, 0, .static 4 0, (wMarshal 1).settleMarshal.placeOf wTables (.static 4 0), none, wBranch, wTables, 2, by decide⟩,
   ⟨wMarshal 0, (wMarshal 0).settleMarshal, 0, .idle, (wMarshal 0).settleMarshal.placeOf wTables .idle, none, wBranch, wTables, by decide⟩,
   ⟨wCold [], (wCold []).settleMarshal, 0, .idle, (wCold []).settleMarshal.placeOf wColdTables .idle, none, { wBranch with coldstart := true }, wColdTables, by decide⟩,
   ⟨wCold [⟨1, .idle, none, 0, [0]⟩], (wCold [⟨1, .idle, none, 0, [0]⟩]).settleMarshal, 0, .idle, (wCold []).settleMarshal.placeOf wColdTables .idle, none, { wBranch with coldstart := true }, wColdTables, by decide⟩,
   ⟨{ wMarshal 0 with now := 1000000000, marshal := { (wMarshal 0).marshal with forwarding := [], collided := true } }, ({ wMarshal 0 with now := 1000000000, marshal := { (wMarshal 0).marshal with forwarding := [], collided := true } }).settleMarshal, by decide⟩,
   ⟨wMarshal 0, (wMarshal 0).settleMarshal, by decide⟩,
   ⟨{ wMarshal 1 with now := 4000 }, ({ wMarshal 1 with now := 4000 } : State).settleMarshal, wTables, by decide⟩⟩

theorem test_meets_MarshalViolationCounts :
    (∃ (s : State) (u : State) (b : Fin 16) (k : TruncKind) (x : Forwarded) (kind : Nat), (s.part.marshal = true) ∧ (s.marshal.powered = true) ∧ (u = s.settleMarshal) ∧ (u.marshal.sending b.val = some x) ∧ (u.cutsOff x k = true) ∧ (kind = (match k with | .overrun => 3 | .header => 4 | .unsynced => 7))) ∧
    (∃ (s : State) (u : State) (b : Fin 16) (k : TruncKind), (s.part.marshal = true) ∧ (s.marshal.powered = true) ∧ (u = s.settleMarshal) ∧ (u.marshal.sending b.val = none)) :=
  ⟨⟨wMarshal 1, (wMarshal 1).settleMarshal, 0, .overrun, ⟨0, .static 3 0, none, 0, [1]⟩, 3, by decide⟩,
   ⟨wMarshal 1, (wMarshal 1).settleMarshal, 5, .overrun, by decide⟩⟩

theorem test_meets_MarshalReadmitsBranches :
    (∃ (s : State) (u : State) (b : Fin 16), (s.part.marshal = true) ∧ (s.marshal.powered = true) ∧ (u = s.settleMarshal) ∧ (u.disqOver b.val = true)) ∧
    (∃ (s : State) (ln : LaneId) (v : Word), (s.part.marshal = true) ∧ (s.marshal.powered = true) ∧ (s.has ln = true) ∧ ((s.lane ln).alive = true) ∧ (s.marshal.link ln = true) ∧ ((s.lane ln).parked = true)) ∧
    (∃ (s : State) (ln : LaneId) (v : Word), (s.part.marshal = true) ∧ (s.has ln = true) ∧ ((s.lane ln).alive = true) ∧ ((s.lane ln).parked = false)) :=
  ⟨⟨wDisq, wDisq.settleMarshal, 0, by decide⟩,
   ⟨(wMarshal 1).setLane .a (wReady [(R.FC_MODE, 2 ^ R.FC_MODE_parked.lo)]), .a, 1, by decide⟩,
   ⟨wMarshal 1, .a, 1, by decide⟩⟩

theorem test_meets_MarshalTablesAndLinks_1 :
    (∃ (s : State) (u : State) (t : MarshalTables), (s.part.marshal = true) ∧ (s.marshal.powered = true) ∧ (u = s.settleMarshal) ∧ (s.has .a = true) ∧ (s.marshal.linkA = true) ∧ (s.laneA.alive = true) ∧ (s.laneA.marshalSection = some t) ∧ (u.marshal.offerA = none) ∧ (u.marshal.offerB = none) ∧ (u.offersToo .a = true)) ∧
    (∃ (s : State) (u : State) (t : MarshalTables), (s.part.marshal = true) ∧ (s.marshal.powered = true) ∧ (u = s.settleMarshal) ∧ (s.has .a = true) ∧ (s.marshal.linkA = true) ∧ (s.laneA.alive = true) ∧ (s.laneA.marshalSection = some t) ∧ (u.marshal.offerA = none) ∧ (u.marshal.offerB = none) ∧ (u.offersToo .a = false)) ∧
    (∃ (s : State) (u : State) (t x : MarshalTables), (s.part.marshal = true) ∧ (s.marshal.powered = true) ∧ (u = s.settleMarshal) ∧ (s.has .b = true) ∧ (s.marshal.linkB = true) ∧ (s.laneB.alive = true) ∧ (s.laneB.marshalSection = some t) ∧ (u.marshal.offerA = some x) ∧ (u.marshal.offerB = none) ∧ (t.imageId ≠ x.imageId)) ∧
    (∃ (s : State) (u : State) (t x : MarshalTables), (s.part.marshal = true) ∧ (s.marshal.powered = true) ∧ (u = s.settleMarshal) ∧ (s.has .b = true) ∧ (s.marshal.linkB = true) ∧ (s.laneB.alive = true) ∧ (s.laneB.marshalSection = some t) ∧ (u.marshal.offerA = some x) ∧ (u.marshal.offerB = none) ∧ (t.imageId = x.imageId) ∧ (u.marshal.tables = none) ∧ ((u.marshal.put R.MS_TABLE_offer_b 1).get R.MS_STATUS_state = msUnsynced)) ∧
    (∃ (s : State) (u : State) (t : MarshalTables), (s.part.marshal = true) ∧ (s.marshal.powered = true) ∧ (u = s.settleMarshal) ∧ (u.marshal.loading = some t)) ∧
    (∃ (s : State) (on : Bool), (s.part.marshal = true) ∧ (s.marshal.powered = true) ∧ (s.has .a = true) ∧ (s.laneA.feeds = true)) ∧
    (∃ (s : State) (on : Bool), (s.part.marshal = true) ∧ (s.marshal.powered = !on) ∧ (s.laneA.feeds = false) ∧ (s.laneB.feeds = false)) ∧
    (∃ (s : State) (ln : LaneId), (s.part.marshal = true) ∧ (s.has ln = true) ∧ (s.marshal.link ln = true) ∧ ((s.lane ln).alive = true)) :=
  ⟨⟨{ wMarshal 0 with laneA := wSection wTables }, ({ wMarshal 0 with laneA := wSection wTables } : State).settleMarshal, wTables, by decide⟩,
   ⟨{ wMarshal 0 with laneA := wSection wTables, laneB := default }, ({ wMarshal 0 with laneA := wSection wTables, laneB := default } : State).settleMarshal, wTables, by decide⟩,
   ⟨{ wOffered (some wTables) with laneB := wSection { wTables with imageId := 9 } }, ({ wOffered (some wTables) with laneB := wSection { wTables with imageId := 9 } } : State).settleMarshal, { wTables with imageId := 9 }, wTables, by decide⟩,
   ⟨{ wOffered none with laneB := wSection wTables }, ({ wOffered none with laneB := wSection wTables } : State).settleMarshal, wTables, wTables, by decide⟩,
   ⟨{ wMarshal 2 with marshal := { (wMarshal 2).marshal with loading := some wTables } }, ({ wMarshal 2 with marshal := { (wMarshal 2).marshal with loading := some wTables } }).settleMarshal, wTables, by decide⟩,
   ⟨wMarshal 0, false, by decide⟩,
   ⟨{ wMarshal 0 with laneA := default, laneB := default }, false, by decide⟩,
   ⟨wMarshal 0, .b, by decide⟩⟩

theorem test_meets_MarshalTablesAndLinks_2 :
    ∃ (s : State) (ln : LaneId), (s.part.marshal = true) ∧ (s.has ln = true) ∧ (s.marshal.link ln = false) :=
  ⟨{ wMarshal 0 with marshal := { (wMarshal 0).marshal with linkB := false } }, .b, by decide⟩

theorem test_meets_NolxisStatesComplete_1 :
    (∃ (c : Ctx) (l : Lane) (v : Word), (l.alive = true) ∧ (v.getLsbD 0 = true) ∧ (l.nxState = nxOff) ∧ (({ l.putB R.NX_CTRL_enable true with bus := .done }).nxState = nxOff)) ∧
    (∃ (c : Ctx) (l : Lane) (v : Word), (l.alive = true) ∧ (v.getLsbD 0 = false)) ∧
    (∃ (c : Ctx) (l : Lane) (v : Word), (l.alive = true) ∧ (v.getLsbD 1 = true) ∧ (l.active = false) ∧ (l.nxState = nxActive)) ∧
    (∃ (c : Ctx) (l : Lane) (v : Word), (l.alive = true) ∧ (l.active = true)) ∧
    (∃ (c : Ctx) (l : Lane), (l.alive = true) ∧ (l.nxState = nxListen) ∧ (l.bit R.NX_NODE_coldstart = true) ∧ (l.nx.listenAt + 2 * l.cycleLen + l.nodeId * 1000 ≤ c.now)) ∧
    (∃ (c : Ctx) (l : Lane) (d : Int) (k : Bool), (l.alive = true) ∧ (l.nxState = nxIntegrate) ∧ (l.nx.verified = false) ∧ ((l.nx.adopted || l.nx.adoptedCold) = false) ∧ (combineDev l.precision l.nx.devX l.nx.devY = some (d, k)) ∧ (|d| ≤ 2 * l.precision)) ∧
    (∃ (c : Ctx) (l : Lane), (l.alive = true) ∧ (l.nxState = nxIntegrate) ∧ (l.nx.verified = false) ∧ ((l.nx.adopted || l.nx.adoptedCold) = false) ∧ (l.nx.devX = none) ∧ (l.nx.devY = none) ∧ (l.nitStart ≤ l.cycleOff)) ∧
    (∃ (c : Ctx) (l : Lane), (l.alive = true) ∧ (l.nxState = nxCold) ∧ (4 ≤ l.nx.coldCycles)) :=
  ⟨⟨ctxA, wReady [], 1, by decide⟩,
   ⟨ctxA, wReady [], 0, by decide⟩,
   ⟨ctxA, wSet [(R.LM_ROLE_role, 0), (R.NX_STATUS_state, 6)], 2, by decide⟩,
   ⟨ctxA, wReady [(R.LM_ROLE, 0x70001)], 2, by decide⟩,
   ⟨ctxA, wSet [(R.NX_STATUS_state, 1), (R.NX_NODE_coldstart, 1)], by decide⟩,
   ⟨ctxTwo, { wSet [(R.NX_STATUS_state, 4)] with nx := { (default : Nolxis) with verify := 1, devX := some 0 } }, 0, false, by decide⟩,
   ⟨ctxTwo, wSet [(R.NX_STATUS_state, 4)], by decide⟩,
   ⟨ctxA, { wSet [(R.NX_STATUS_state, 2)] with nx := { (default : Nolxis) with coldCycles := 4 } }, by decide⟩⟩

theorem test_meets_NolxisStatesComplete_2 :
    (∃ (c : Ctx) (l : Lane), (l.alive = true) ∧ (l.nxState ≠ nxOff) ∧ (({ l.inc R.NX_COLL_coll_x with nx := { l.nx with listenAt := c.now } }).nxState ≠ nxCold) ∧ (l.nx.adoptedCold = false)) ∧
    (∃ (c : Ctx) (l : Lane), (l.alive = true) ∧ (l.nxState ≠ nxOff) ∧ (({ l.inc R.NX_COLL_coll_y with nx := { l.nx with listenAt := c.now } }).nxState = nxCold)) ∧
    (∃ (c : Ctx) (l : Lane), (l.alive = true) ∧ (l.nxState = nxIntegrate) ∧ (({ l.inc R.NX_COLL_coll_x with nx := { l.nx with listenAt := c.now } }).nxState = nxIntegrate) ∧ (l.nx.adoptedCold = true)) ∧
    (∃ (c : Ctx) (l : Lane), (l.alive = true) ∧ (l.nxState = nxBackoff) ∧ (l.nx.backoffAt ≤ c.now)) ∧
    (∃ (c : Ctx) (l : Lane), (l.alive = true) ∧ (l.nxState = nxActive) ∧ (l.nx.rateRun < 2) ∧ (4 ≤ l.nx.noSync) ∧ (l.bit R.NX_STATUS_master = false)) ∧
    (∃ (c : Ctx) (l : Lane), (l.alive = true) ∧ (l.nxState = nxActive) ∧ (2 ≤ l.nx.rateRun)) ∧
    (∃ (c : Ctx) (l : Lane), (l.alive = true) ∧ (l.nxState = nxPassive) ∧ (8 ≤ l.nx.noSync)) ∧
    (∃ (c : Ctx) (l : Lane) (r : Nat), (l.alive = true) ∧ (l.nxState = nxActive) ∧ (l.wantedRank = some r) ∧ (l.followedRank ≠ some r)) :=
  ⟨⟨ctxA, wSet [(R.NX_STATUS_state, 6)], by decide⟩,
   ⟨ctxA, wSet [(R.NX_STATUS_state, 2)], by decide⟩,
   ⟨ctxA, { wSet [(R.NX_STATUS_state, 4)] with nx := { (default : Nolxis) with adoptedCold := true } }, by decide⟩,
   ⟨ctxA, wSet [(R.NX_STATUS_state, 3)], by decide⟩,
   ⟨ctxA, { wSet [(R.NX_STATUS_state, 6)] with nx := { (default : Nolxis) with noSync := 4 } }, by decide⟩,
   ⟨ctxA, { wSet [(R.NX_STATUS_state, 6)] with nx := { (default : Nolxis) with rateRun := 2 } }, by decide⟩,
   ⟨ctxA, { wSet [(R.NX_STATUS_state, 5)] with nx := { (default : Nolxis) with noSync := 8 } }, by decide⟩,
   ⟨ctxA, { wSet [(R.NX_STATUS_state, 6)] with nx := { (default : Nolxis) with heard := [(0, ⟨false, 2, 0⟩)] } }, 0, by decide⟩⟩

theorem test_meets_NolxisStatesComplete_3 :
    ∃ (c : Ctx) (l : Lane), (l.alive = true) ∧ (l.nxState = nxActive) ∧ (l.wantedRank = none) ∧ (l.bit R.NX_NODE_pacer = true) ∧ (l.bit R.NX_STATUS_master = false) :=
  ⟨ctxA, wSet [(R.NX_STATUS_state, 6), (R.NX_NODE_pacer, 1)], by decide⟩

theorem test_meets_NolxisStateShown :
    (∃ (c : Ctx) (l : Lane) (v : Word), (l.alive = true) ∧ (v.getLsbD 0 = false) ∧ (l.nxState ≠ nxOff)) ∧
    (∃ (c : Ctx) (l : Lane), (l.alive = true) ∧ (l.role ≠ roleUnfit) ∧ (l.nxState = nxPassive) ∧ (8 ≤ l.nx.noSync)) :=
  ⟨⟨ctxA, wSet [(R.NX_STATUS_state, 6)], 0, by decide⟩,
   ⟨ctxA, { wSet [(R.NX_STATUS_state, 5)] with nx := { (default : Nolxis) with noSync := 8 } }, by decide⟩⟩

theorem test_meets_NolxisFramesComplete_1 :
    (∃ (c : Ctx) (l : Lane) (ch : Chan) (slot : BitVec 11) (n : Nat), (l.alive = true) ∧ (slot.toNat ≠ l.get R.NX_STATIC_slots + 1) ∧ (slot.toNat ≠ 0) ∧ (l.inSlot slot.toNat = true) ∧ (l.nxState = nxActive) ∧ (l.bit R.NX_NODE_pacer = false) ∧ (l.txFor ch slot.toNat = some n) ∧ (l.ownsSlot slot.toNat = true)) ∧
    (∃ (c : Ctx) (l : Lane) (ch : Chan) (slot : BitVec 11), (l.alive = true) ∧ (slot.toNat ≠ l.get R.NX_STATIC_slots + 1) ∧ (slot.toNat ≠ 0) ∧ (l.inSlot slot.toNat = true) ∧ (l.nxState = nxActive) ∧ (l.bit R.NX_NODE_pacer = true) ∧ (l.pacerSlot (l.get R.NX_NODE_rank) = slot.toNat)) ∧
    (∃ (c : Ctx) (l : Lane), (l.alive = true) ∧ (l.cycleRuns = true) ∧ (l.nx.idX < 2047) ∧ (l.inDynamic = true) ∧ (l.nxState ≠ nxActive)) ∧
    (∃ (c : Ctx) (l : Lane) (n : Fin 16) (v : Word), (l.alive = true) ∧ (v.getLsbD 0 = true) ∧ (l.bit (R.NX_TXn_CFG_source n.val) = true)) ∧
    (∃ (c : Ctx) (l : Lane) (ch : Chan) (f : NxFrame), (l.alive = true) ∧ (c.part.marshal = false) ∧ (l.nxState ≠ nxOff) ∧ (l.deaf ch f = false) ∧ (f.hcrc ≠ nxHeadCrc f)) ∧
    (∃ (c : Ctx) (l : Lane) (f : NxFrame) (y : Lane), (l.alive = true) ∧ (c.part.marshal = false) ∧ (l.nxState ≠ nxOff) ∧ (l.deaf .x f = false) ∧ (l.judgeFrame .x f = .valid) ∧ (f.claim = false) ∧ (f.sync = false) ∧ (y = ((({ l with nx := { l.nx with listenAt := c.now, gotX := true, lostX := false, validX := c.now } } : Lane).put R.NX_STATUS_port_x_ok 1).flagIf (f.null || f.stale) R.NX_FLAGS_stale_rx)) ∧ (({ y with nx := { y.nx with slotSeen := f.frameId.toNat :: y.nx.slotSeen } } : Lane).scheduled = true)) ∧
    (∃ (c : Ctx) (l : Lane) (n : Fin 32), (l.alive = true) ∧ (l.bit (R.NX_RXn_STAT_defined n.val) = true) ∧ (l.nx.rxGot.contains n.val = false)) ∧
    (∃ (c : Ctx) (l : Lane) (d : Int), (l.alive = true) ∧ (l.nxState = nxActive) ∧ (l.bit R.NX_STATUS_master = false) ∧ (l.nx.corrected = false) ∧ (l.nitStart ≤ l.cycleOff) ∧ (l.nx.devX = some d) ∧ (l.nx.devY = none) ∧ (|-d| ≤ (l.get R.TM_JUMP_LIMIT_ns : Int))) :=
  ⟨⟨ctxA, wSlot, .x, 1, 0, by decide⟩,
   ⟨ctxA, { wSlot.put R.NX_NODE_pacer 1 with image := { (default : Image) with nx := { (default : NxImage) with pacers := [(7, 1)] } } }, .y, 1, by decide⟩,
   ⟨ctxA, wSet [(R.NX_STATUS_state, 4), (R.NX_DYNAMIC_minislots, 2), (R.NX_DYNAMIC_minislot_ns, 3000)], by decide⟩,
   ⟨ctxA, wSet [(R.NX_TXn_CFG_source 3, 1)], 3, 1, by decide⟩,
   ⟨ctxTwo, wSet [(R.NX_STATUS_state, 6)], .x, { mkFrame 3 0 .fresh [7] 0 with hcrc := 0 }, by decide +kernel⟩,
   ⟨ctxTwo, wSlot, { mkFrame 1 0 .fresh [7] 0 with sdEnd := 200 }, _, by decide +kernel, by decide +kernel, by decide +kernel, by decide +kernel, by decide +kernel, by decide +kernel, by decide +kernel, rfl, by decide +kernel⟩,
   ⟨ctxA, wSet [(R.NX_RXn_STAT_defined 31, 1)], 31, by decide⟩,
   ⟨ctxA, { wSet [(R.NX_STATUS_state, 6), (R.TM_JUMP_LIMIT_ns, 1000)] with nx := { (default : Nolxis) with devX := some 40 } }, 40, by decide⟩⟩

theorem test_meets_NolxisFramesComplete_2 :
    ∃ (s : State) (ln : LaneId), (s.has ln = true) ∧ ((s.lane ln).alive = true) ∧ (s.portJudged ln .x = true) ∧ (2 ≤ (s.lane ln).nx.silentX) :=
  ⟨wState .a { wSet [(R.NX_STATUS_state, 6), (R.NX_STATUS_port_x_ok, 1)] with st := { (default : Start) with awardAt := some 0 }, nx := { (default : Nolxis) with silentX := 2 } } 0, .a, by decide⟩

theorem test_meets_SpareSlotsComplete :
    (∃ (c : Ctx) (l : Lane) (slot id : Nat), (l.alive = true) ∧ (l.ownSpare = some (slot, id)) ∧ (l.nxState = nxActive) ∧ (l.bit R.NX_NODE_claim_only = true) ∧ ((l.claimTurn .x id || l.claimTurn .y id) = true) ∧ (l.get R.NX_CLAIM_state = 0)) ∧
    (∃ (c : Ctx) (l : Lane), (l.alive = true) ∧ (l.bit R.NX_STATUS_master = true)) ∧
    (∃ (c : Ctx) (l : Lane), (l.alive = true) ∧ (l.bit R.NX_STATUS_master = false)) ∧
    (∃ (c : Ctx) (l : Lane), (l.alive = true) ∧ (l.get R.NX_CLAIM_state = 1) ∧ (l.nx.claimCycle ≠ some (l.get R.NX_CYCLE_count)) ∧ (l.nx.grants.any (fun g => decide (g.slot = l.get R.NX_CLAIM_slot) && decide (g.node = l.nodeId)) = true)) ∧
    (∃ (c : Ctx) (l : Lane) (slot : BitVec 11), (l.alive = true) ∧ (l.bit R.NX_STATUS_master = true)) :=
  ⟨⟨ctxA, { wSet [(R.NX_STATUS_state, 6), (R.NX_CLAIM_slot, 5), (R.NX_NODE_claim_only, 1), (R.NX_DYNAMIC_minislots, 20), (R.NX_DYNAMIC_minislot_ns, 3000)] with nx := { (default : Nolxis) with idX := 1030 }, image := { (default : Image) with nx := { (default : NxImage) with spares := [(5, 1030, [0])] } } }, 5, 1030, by decide⟩,
   ⟨ctxA, wSet [(R.NX_STATUS_master, 1)], by decide⟩,
   ⟨ctxA, wReady [], by decide⟩,
   ⟨ctxA, { wSet [(R.NX_CLAIM_state, 1), (R.NX_CLAIM_slot, 5)] with nx := { (default : Nolxis) with grants := [⟨5, 0, 0⟩] } }, by decide⟩,
   ⟨ctxA, wSet [(R.NX_STATUS_master, 1)], 5, by decide⟩⟩

theorem test_meets_GrantsStayUnique :
    ∃ (c : Ctx) (l : Lane), (l.alive = true) ∧ ((l.nx.grants.map (fun g => g.slot)).Nodup) ∧ ((l.nx.grants.map (fun g => g.node)).Nodup) ∧ (l.bit R.NX_STATUS_master = true) :=
  ⟨ctxA, { wSet [(R.NX_STATUS_master, 1), (R.NX_RELEASE_cycles, 3)] with nx := { (default : Nolxis) with grants := [⟨5, 1, 0⟩], claims := [(5, 2), (3, 4)] } }, by decide⟩

theorem test_meets_TimeCommandsComplete :
    (∃ (c : Ctx) (l : Lane) (rc d : Int), (l.alive = true) ∧ (l.nx.correction = some (rc, some d)) ∧ (l.nitStart + 1000 ≤ l.cycleOff)) ∧
    (∃ (c : Ctx) (l : Lane) (rc : Int), (l.alive = true) ∧ (l.nx.correction = some (rc, none)) ∧ (l.nitStart + 1000 ≤ l.cycleOff)) ∧
    (∃ (c : Ctx) (l : Lane), (l.alive = true) ∧ (2 ^ 64 ≤ l.tm)) ∧
    (∃ (c : Ctx) (l : Lane) (t : Fin 64) (v : Word), (l.alive = true) ∧ (4 ≤ (l.fireUpTo c t.val).get (R.TMt_CFG_kind t.val))) ∧
    (∃ (c : Ctx) (l : Lane) (t : Fin 64) (v : Word), (l.alive = true) ∧ (∀ k, k ≤ t.val → l.mayFire k = false) ∧ (l.get (R.TMt_CFG_kind t.val) < 4) ∧ (0 < sdiff v l.stamp)) ∧
    (∃ (c : Ctx) (l : Lane) (t : Fin 64), (l.alive = true) ∧ (∀ k, k < t.val → l.mayFire k = false) ∧ (l.bit (R.TMt_CFG_armed t.val) = true) ∧ (l.bit (R.TMt_CFG_watch_en t.val) = false) ∧ (0 ≤ sdiff l.stamp (l.rd (R.TMt_DUE t.val)))) ∧
    (∃ (c : Ctx) (l : Lane) (t : Fin 64) (stamp : Word), (l.alive = true) ∧ (l.watching t.val = true) ∧ (tabGet l.watchGot t.val = some stamp)) ∧
    (∃ (c : Ctx) (l : Lane) (t : Fin 64), (l.alive = true) ∧ (∀ k, k < t.val → l.mayFire k = false) ∧ (l.watching t.val = true) ∧ (tabGet l.watchGot t.val = none) ∧ ((l.watchMargin t.val : Int) ≤ sdiff l.stamp (l.rd (R.TMt_DUE t.val)))) :=
  ⟨⟨ctxA, { wReady [] with nx := { (default : Nolxis) with correction := some (-3, some 5) }, tm := 1000 * 2 ^ 32 }, -3, 5, by decide⟩,
   ⟨ctxA, { wReady [] with nx := { (default : Nolxis) with correction := some (7, none) }, tm := 1000 * 2 ^ 32 }, 7, by decide⟩,
   ⟨ctxA, { wReady [] with tm := 2 ^ 64 }, by decide⟩,
   ⟨ctxA, wSet [(R.TMt_CFG_kind 1, 4)], 1, 9, by decide⟩,
   ⟨ctxA, wReady [], 63, 9, by decide⟩,
   ⟨ctxA, wSet [(R.TMt_CFG_armed 5, 1)], 5, by decide⟩,
   ⟨ctxA, { wSet [(R.TMt_CFG_armed 5, 1), (R.TMt_CFG_watch_en 5, 1)] with watchGot := [(5, 0)] }, 5, 0, by decide⟩,
   ⟨ctxA, { wSet [(R.TMt_CFG_armed 5, 1), (R.TMt_CFG_watch_en 5, 1), (R.TMt_CFG_watch_class 5, 3)] with tm := 100 * 2 ^ 32 }, 5, by decide⟩⟩

theorem test_meets_TimerFiringRecords :
    ∃ (c : Ctx) (l : Lane) (t : Fin 64), (l.alive = true) ∧ (∀ k, k < t.val → l.mayFire k = false) ∧ (l.bit (R.TMt_CFG_armed t.val) = true) ∧ (l.bit (R.TMt_CFG_watch_en t.val) = false) ∧ (0 ≤ sdiff l.stamp (l.rd (R.TMt_DUE t.val))) ∧ (l.get (R.TMt_CFG_kind t.val) = 0) ∧ (l.rd (R.TMt_PERIOD t.val) = 0) :=
  ⟨ctxA, wSet [(R.TMt_CFG_armed 63, 1)], 63, by decide⟩

theorem test_meets_EnvelopeCommandsComplete :
    (∃ (c : Ctx) (l : Lane) (k : Fin 64) (ws : List Word), (l.alive = true) ∧ (l.bit (R.SE_Cc_CFG_source k.val) = false)) ∧
    (∃ (c : Ctx) (l : Lane) (v : Word) (k : Nat), (l.alive = true) ∧ (v.getLsbD 0 = true) ∧ (l.get R.SE_TX_SEL_conn = k) ∧ (l.bit (R.SE_Cc_CFG_defined k) = true) ∧ (l.bit (R.SE_Cc_CFG_role k) = true) ∧ (l.bit (R.SE_Cc_CFG_source k) = true)) ∧
    (∃ (c : Ctx) (l : Lane) (k : Fin 64) (words : List Word) (arrival : Word), (l.alive = true) ∧ (l.bit (R.SE_Cc_CFG_defined k.val) = true) ∧ (l.bit (R.SE_Cc_CFG_role k.val) = false) ∧ (l.bit (R.SE_Cc_CFG_path_a k.val) = true) ∧ (l.bit R.TM_STATUS_set = true) ∧ (l.copyCame k.val false words arrival = true) ∧ (l.inTurnOf c k.val false arrival = true) ∧ (l.get (R.SE_Cc_STAT_state k.val) = seStart) ∧ (l.get (R.SE_Cc_CFG_medium k.val) = 0) ∧ (words.length = 3 + l.get (R.SE_Cc_CFG_length k.val)) ∧ ((wordAt words 0).toNat % 65536 = l.get (R.SE_Cc_CFG_length k.val)) ∧ (wordAt words (2 + l.get (R.SE_Cc_CFG_length k.val)) = envCheck (l.rd (R.SE_Cc_ID k.val)) (words.take (2 + l.get (R.SE_Cc_CFG_length k.val)))) ∧ (sdiff arrival (wordAt words 1) ≤ ((l.rd (R.SE_Cc_MAX_AGE k.val)).toNat : Int)) ∧ (-(2 * (l.precision : Int)) ≤ sdiff arrival (wordAt words 1))) ∧
    (∃ (c : Ctx) (l : Lane) (k : Fin 64), (l.alive = true) ∧ ((l.conn k.val).charges = [])) ∧
    (∃ (c : Ctx) (l : Lane) (k : Fin 64) (ch : Charge), (l.alive = true) ∧ ((l.conn k.val).charges = [ch]) ∧ (l.get (R.SE_Cc_CFG_medium k.val) = 0) ∧ ((l.setConn k.val { l.conn k.val with charges := [] }).covers k.val ch = false) ∧ (ch.excused = false)) ∧
    (∃ (c : Ctx) (l : Lane) (k : Fin 64) (ch : Charge), (l.alive = true) ∧ ((l.conn k.val).charges = [ch]) ∧ (l.get (R.SE_Cc_CFG_medium k.val) = 0) ∧ ((l.setConn k.val { l.conn k.val with charges := [] }).covers k.val ch = true)) ∧
    (∃ (c : Ctx) (l : Lane) (k : Fin 64), (l.alive = true) ∧ (l.get (R.SE_Cc_STAT_state k.val) = seBlocked) ∧ ((l.conn k.val).blockAt + l.get R.SE_LIMITS_block_ms * 1000000 ≤ c.now)) :=
  ⟨⟨ctxA, wReady [], 4, [7], by decide⟩,
   ⟨ctxA, wSet [(R.SE_TX_SEL_conn, 4), (R.SE_Cc_CFG_defined 4, 1), (R.SE_Cc_CFG_role 4, 1), (R.SE_Cc_CFG_source 4, 1)], 1, 4, by decide⟩,
   ⟨ctxA, wEnv 0 wEnvelope 0x3B9ACA00, 4, wEnvelope, 0x3B9ACA00, by decide +kernel⟩,
   ⟨ctxA, wReady [], 63, by decide⟩,
   ⟨ctxA, { wReady [] with se := [(63, ⟨[], 0, false, false, 0, none, none, [⟨false, 0, 0, 0, false⟩], 0, none, 0, 0, []⟩)] }, 63, ⟨false, 0, 0, 0, false⟩, by decide⟩,
   ⟨ctxA, { wReady [] with se := [(63, ⟨[], 0, false, false, 0, none, some (0, 0), [⟨false, 0, 0, 0, false⟩], 0, none, 0, 0, []⟩)] }, 63, ⟨false, 0, 0, 0, false⟩, by decide⟩,
   ⟨ctxA, wSet [(R.SE_Cc_STAT_state 63, 2)], 63, by decide⟩⟩

theorem test_meets_EnvelopeFaultsRejected :
    (∃ (c : Ctx) (l : Lane) (k : Fin 64) (words : List Word) (arrival : Word) (f : Fld), (l.alive = true) ∧ (l.bit (R.SE_Cc_CFG_defined k.val) = true) ∧ (l.bit (R.SE_Cc_CFG_role k.val) = false) ∧ (l.bit (R.SE_Cc_CFG_path_a k.val) = true) ∧ (l.bit R.TM_STATUS_set = true) ∧ (l.copyCame k.val false words arrival = true) ∧ (l.inTurnOf c k.val false arrival = true) ∧ (l.get (R.SE_Cc_STAT_state k.val) ≠ seBlocked) ∧ (l.get (R.SE_Cc_STAT_state k.val) ≠ sePerm) ∧ (l.get (R.SE_Cc_CFG_medium k.val) = 0) ∧ ((((wordAt words 0).toNat % 65536 ≠ l.get (R.SE_Cc_CFG_length k.val) ∨ words.length ≠ 3 + l.get (R.SE_Cc_CFG_length k.val)) ∧ f = R.SE_FLAGS_format) ∨
      (((wordAt words 0).toNat % 65536 = l.get (R.SE_Cc_CFG_length k.val) ∧ words.length = 3 + l.get (R.SE_Cc_CFG_length k.val) ∧
        wordAt words (2 + l.get (R.SE_Cc_CFG_length k.val)) ≠ envCheck (l.rd (R.SE_Cc_ID k.val)) (words.take (2 + l.get (R.SE_Cc_CFG_length k.val)))) ∧ f = R.SE_FLAGS_check_fail) ∨
      (((wordAt words 0).toNat % 65536 = l.get (R.SE_Cc_CFG_length k.val) ∧ words.length = 3 + l.get (R.SE_Cc_CFG_length k.val) ∧
        wordAt words (2 + l.get (R.SE_Cc_CFG_length k.val)) = envCheck (l.rd (R.SE_Cc_ID k.val)) (words.take (2 + l.get (R.SE_Cc_CFG_length k.val))) ∧
        ((l.rd (R.SE_Cc_MAX_AGE k.val)).toNat : Int) < sdiff arrival (wordAt words 1)) ∧ f = R.SE_FLAGS_delay))) ∧
    (∃ (c : Ctx) (l : Lane) (k : Fin 64) (pathB : Bool) (words : List Word) (arrival : Word), (l.alive = true) ∧ ((l.get (R.SE_Cc_STAT_state k.val) = seBlocked ∧ 0 ≤ sdiff l.stamp arrival ∧ c.now < (l.conn k.val).blockAt + l.get R.SE_LIMITS_block_ms * 1000000) ∨ l.get (R.SE_Cc_STAT_state k.val) = sePerm)) :=
  ⟨⟨ctxA, wEnv 0 [0x70001, 0, 0, 0] 0, 4, [0x70001, 0, 0, 0], 0, R.SE_FLAGS_check_fail, by decide +kernel⟩,
   ⟨ctxA, wEnv 3 [0, 0, 0, 0] 0, 4, false, [0, 0, 0, 0], 0, by decide +kernel⟩⟩

theorem test_meets_EnvelopeReplayRejected :
    ∃ (c : Ctx) (l : Lane) (k : Fin 64) (pathB : Bool) (words : List Word) (arrival : Word), (l.alive = true) ∧ (l.get (R.SE_Cc_STAT_state k.val) = seRun) ∧ ((BitVec.ofNat 16 ((wordAt words 0).toNat / 65536 + 65536 - l.get (R.SE_Cc_STAT_seq k.val))).toInt ≤ 0 ∨ sdiff (wordAt words 1) (l.rd (R.SE_Cc_STAMP k.val)) ≤ 0) :=
  ⟨ctxA, wEnv 1 [0, 0, 0, 0] 0, 4, false, [0, 0, 0, 0], 0, by decide +kernel⟩

theorem test_meets_ThirdBlockIsPermanent :
    (∃ (c : Ctx) (l : Lane) (k : Fin 64) (ch : Charge), (l.alive = true) ∧ ((l.conn k.val).charges = [ch]) ∧ (l.get (R.SE_Cc_CFG_medium k.val) = 0) ∧ ((l.setConn k.val { l.conn k.val with charges := [] }).covers k.val ch = false) ∧ (ch.excused = false) ∧ (l.get (R.SE_Cc_STAT_state k.val) ≠ seBlocked) ∧ (l.get (R.SE_Cc_STAT_state k.val) ≠ sePerm) ∧ (l.get R.SE_LIMITS_err_limit ≤ min (l.get (R.SE_Cc_STAT_level k.val) + 1) 255) ∧ (l.get (R.SE_Cc_STAT_blocks k.val) < 3)) ∧
    (∃ (c : Ctx) (l : Lane) (k : Fin 64), (l.alive = true) ∧ (l.get (R.SE_Cc_STAT_state k.val) = sePerm)) :=
  ⟨⟨ctxA, { wSet [(R.SE_Cc_STAT_blocks 63, 2)] with se := [(63, ⟨[], 0, false, false, 0, none, none, [⟨false, 0, 0, 0, false⟩], 0, none, 0, 0, []⟩)] }, 63, ⟨false, 0, 0, 0, false⟩, by decide⟩,
   ⟨ctxA, wSet [(R.SE_Cc_STAT_state 63, 3)], 63, by decide⟩⟩

theorem test_meets_PowerRequestsComplete_1 :
    (∃ (c : Ctx) (l : Lane) (w0 w1 : Word), (l.alive = true) ∧ (w0.toNat / 65536 = l.get R.PW_REQ_number)) ∧
    (∃ (c : Ctx) (l : Lane) (w0 w1 : Word), (l.alive = true) ∧ (w0.toNat / 65536 ≠ l.get R.PW_REQ_number) ∧ (4 ≤ w0.toNat % 8 ∨ w0.toNat / 8 % 32 ≠ 0)) ∧
    (∃ (c : Ctx) (l : Lane) (w0 w1 : Word) (l2 : Lane), (l.alive = true) ∧ (w0.toNat / 65536 ≠ l.get R.PW_REQ_number) ∧ (w0.toNat % 8 = 1) ∧ (w0.toNat / 8 % 32 = 0) ∧ (l2 = ((((((l.rollBack c []).put R.PW_REQ_number (w0.toNat / 65536)).put R.PW_REQ_wake_en (w0.toNat / 256 % 256)).put R.PW_REQ_target 1).wr R.PW_REQ_DELAY w1).put R.PW_STATUS_req (w0.toNat / 65536)).put R.PW_STATUS_target 1) ∧ (l2.pwState = 0) ∧ (l2.mayRest c = true)) ∧
    (∃ (c : Ctx) (l : Lane) (unit : Fin 22) (v : Vote), (l.alive = true) ∧ (l.pw.vote = some v) ∧ (l.pwState = 2) ∧ (v.refused = false) ∧ (v.startedAt + l.voteWindow ≤ c.now)) ∧
    (∃ (c : Ctx) (l : Lane) (others : List (LaneId × Word)) (v : Vote), (l.alive = true) ∧ (l.pw.vote = some v) ∧ (v.refused = false) ∧ (l.get R.LM_ROLE_fit_lanes = v.fit) ∧ (l.pwState = 2) ∧ ((othersOf c).filter (fun x => maskHas v.fit x) = [])) ∧
    (∃ (c : Ctx) (l : Lane) (others : List (LaneId × Word)) (v : Vote), (l.alive = true) ∧ (l.pw.vote = some v) ∧ (v.refused = true)) ∧
    (∃ (c : Ctx) (l : Lane) (t : Nat), (l.powered = true) ∧ (l.pw.ponrAt = some t) ∧ (l.pwState = 4) ∧ (l.pw.saved = false) ∧ (t + 20000000 ≤ c.now)) ∧
    (∃ (s : State) (ln : LaneId) (t : Nat), (s.has ln = true) ∧ ((s.lane ln).powered = true) ∧ ((s.lane ln).pw.ponrAt = some t) ∧ ((s.lane ln).pwState = 4) ∧ ((s.lane ln).pw.saved = true) ∧ (t + 20200000 ≤ (s.ctx ln).now) ∧ ((s.lane ln).get R.PW_WAKE_CAUSE_sources = 0) ∧ ((s.lane ln).get R.PW_STATUS_target = 3)) :=
  ⟨⟨ctxA, wReady [], 1, 0, by decide⟩,
   ⟨ctxA, wReady [], 0x10004, 0, by decide⟩,
   ⟨ctxA, wSet [(R.FC_MODE_parked, 1)], 0x10001, 0, _, by decide, by decide, by decide, by decide, rfl, by decide, by decide⟩,
   ⟨ctxA, { wSet [(R.PW_STATUS_state, 2)] with pw := { (default : Power) with vote := some ⟨1, 2, 0, 4, false, 1⟩ } }, 21, ⟨1, 2, 0, 4, false, 1⟩, by decide⟩,
   ⟨ctxA, { wSet [(R.PW_STATUS_state, 2), (R.LM_ROLE_fit_lanes, 4)] with pw := { (default : Power) with vote := some ⟨1, 2, 0, 4, false, 1⟩ } }, [], ⟨1, 2, 0, 4, false, 1⟩, by decide⟩,
   ⟨ctxA, { wSet [(R.PW_STATUS_state, 2)] with pw := { (default : Power) with vote := some ⟨1, 2, 0, 7, true, 2⟩ } }, [(.b, 0x10023)], ⟨1, 2, 0, 7, true, 2⟩, by decide⟩,
   ⟨{ ctxA with now := 20000000 }, { wSet [(R.PW_STATUS_state, 4)] with pw := { (default : Power) with ponrAt := some 0 } }, 0, by decide⟩,
   ⟨wState .a { wSet [(R.PW_STATUS_state, 4), (R.PW_STATUS_target, 3)] with pw := { (default : Power) with ponrAt := some 0, saved := true } } 20200000, .a, 0, by decide⟩⟩

theorem test_meets_PowerRequestsComplete_2 :
    ∃ (s : State) (ln : LaneId) (t : Nat), (s.has ln = true) ∧ ((s.lane ln).powered = true) ∧ ((s.lane ln).pw.ponrAt = some t) ∧ ((s.lane ln).pwState = 4) ∧ ((s.lane ln).pw.saved = true) ∧ (t + 20200000 ≤ (s.ctx ln).now) ∧ ((s.lane ln).get R.PW_WAKE_CAUSE_sources = 0) ∧ ((s.lane ln).get R.PW_STATUS_target = 2) :=
  ⟨wState .a { wSet [(R.PW_STATUS_state, 4), (R.PW_STATUS_target, 2)] with pw := { (default : Power) with ponrAt := some 0, saved := true } } 20200000, .a, 0, by decide⟩

theorem test_meets_WakeAndPadsComplete_1 :
    (∃ (c : Ctx) (l : Lane) (src : Fin 5), (l.asleep = true) ∧ (l.wakeEnabled src.val = true) ∧ (src.val ≠ 1) ∧ (l.get R.PW_WAKE_CAUSE_sources = 0)) ∧
    (∃ (c : Ctx) (l : Lane) (src : Fin 5), (l.asleep = true) ∧ (l.wakeEnabled src.val = false)) ∧
    (∃ (s : State) (ln : LaneId), (s.has ln = true) ∧ ((s.lane ln).alive = true) ∧ ((s.lane ln).drivesNothing (s.ctx ln) = true)) ∧
    (∃ (c : Ctx) (l : Lane) (x : WakeRead), (l.phase = .asleepNap) ∧ (l.get R.PW_WAKE_CAUSE_sources ≠ 0)) ∧
    (∃ (s : State) (ln : LaneId) (banks : List (List (Nat × Ecc))), (s.has ln = true) ∧ ((s.lane ln).phase = .asleepDormant) ∧ ((s.lane ln).get R.PW_WAKE_CAUSE_sources ≠ 0)) ∧
    (∃ (c : Ctx) (l : Lane) (v : Word), (l.alive = true) ∧ (v.toNat % 256 = 0xC3) ∧ (l.bit R.PW_STATUS_pads_held = true)) ∧
    (∃ (c : Ctx) (l : Lane) (v : Word), (l.alive = true) ∧ (v.toNat % 256 ≠ 0xC3 ∨ l.bit R.PW_STATUS_pads_held = false)) ∧
    (∃ (c : Ctx) (l : Lane) (t : Nat), (l.alive = true) ∧ (l.pw.bootAt = some t) ∧ (l.bit R.PW_STATUS_pads_held = true) ∧ (t + 100000000 ≤ c.now)) :=
  ⟨⟨ctxA, { wSet [(R.PW_WAKE_EN_sources, 0x11)] with phase := .asleepNap }, 4, by decide⟩,
   ⟨ctxA, { wSet [(R.PW_WAKE_EN_sources, 0x11)] with phase := .asleepNap }, 2, by decide⟩,
   ⟨wState .a (wReady []) 0, .a, by decide⟩,
   ⟨ctxA, { wSet [(R.PW_WAKE_CAUSE_sources, 1)] with phase := .asleepNap }, ⟨[], []⟩, by decide⟩,
   ⟨wState .a { wSet [(R.PW_WAKE_CAUSE_sources, 1)] with phase := .asleepDormant } 0, .a, [], by decide⟩,
   ⟨ctxA, wSet [(R.PW_STATUS_pads_held, 1)], 0xC3, by decide⟩,
   ⟨ctxA, wReady [], 0xC2, by decide⟩,
   ⟨{ ctxA with now := 100000000 }, { wSet [(R.PW_STATUS_pads_held, 1)] with pw := { (default : Power) with bootAt := some 0 } }, 0, by decide⟩⟩

theorem test_meets_WakeAndPadsComplete_2 :
    (∃ (c : Ctx) (l : Lane) (l1 l2 : Lane), (l.alive = true) ∧ (l1 = l.showOpen c) ∧ (l1.pwState < 4) ∧ (l2 = (l1.rollBack c []).failAllHoming) ∧ (l2.active = false) ∧ (l2.role ≠ roleUnfit)) ∧
    (∃ (s : State) (ln : LaneId), (s.has ln = true) ∧ ((s.lane ln).asleep = true)) ∧
    (∃ (s : State) (ln : LaneId), (s.has ln = true) ∧ ((s.lane ln).alive = true)) :=
  ⟨⟨ctxA, wSet [(R.LM_ROLE_role, 0)], _, _, by decide, rfl, by decide, rfl, by decide, by decide⟩,
   ⟨wState .a { wReady [] with phase := .asleepNap } 0, .a, by decide⟩,
   ⟨wState .a (wReady [(R.LM_ROLE, 0x70001)]) 0, .a, by decide⟩⟩

theorem test_meets_BrownOutIsQuiet :
    ∃ (s : State) (ln : LaneId), (s.has ln = true) ∧ ((s.lane ln).alive = true) :=
  ⟨wState .a (wReady [(R.LM_ROLE, 0x70001)]) 0, .a, by decide⟩

theorem test_meets_SleepDrivesNothing :
    (∃ (c : Ctx) (l : Lane) (others : List (LaneId × Word)) (v : Vote), (l.alive = true) ∧ (l.pw.vote = some v) ∧ (v.refused = false) ∧ (l.get R.LM_ROLE_fit_lanes = v.fit) ∧ (l.pwState = 2) ∧ ((othersOf c).filter (fun x => maskHas v.fit x) = [])) ∧
    (∃ (c : Ctx) (l : Lane) (t : Nat), (l.powered = true) ∧ (l.pw.ponrAt = some t) ∧ (l.pwState = 4) ∧ (l.pw.saved = false) ∧ (t + 20000000 ≤ c.now) ∧ (l.takeover = false)) :=
  ⟨⟨ctxA, { wSet [(R.PW_STATUS_state, 2), (R.LM_ROLE_fit_lanes, 4), (R.NX_STATUS_state, 6), (R.TMt_CFG_armed 9, 1)] with pw := { (default : Power) with vote := some ⟨1, 2, 0, 4, false, 1⟩ }, stageOn := 0xF }, [], ⟨1, 2, 0, 4, false, 1⟩, by decide⟩,
   ⟨{ ctxA with now := 20000000 }, { wSet [(R.PW_STATUS_state, 4)] with stageOn := 0x100, pw := { (default : Power) with ponrAt := some 0 } }, 0, by decide⟩⟩

theorem test_meets_ServiceRequestsComplete_1 :
    (∃ (c : Ctx) (l : Lane) (q : SvcReq), (l.alive = true) ∧ (l.cf.lastTxn ≠ some q.txn)) ∧
    (∃ (c : Ctx) (l : Lane) (q : SvcReq), (l.alive = true) ∧ (l.cf.lastTxn = some q.txn)) ∧
    (∃ (c : Ctx) (l : Lane) (q : SvcReq) (addr : Word) (len : Nat), (l.alive = true) ∧ (l.cf.lastTxn ≠ some q.txn) ∧ (len ≤ 1024) ∧ (len % 4 = 0) ∧ (0x30000000 ≤ addr.toNat) ∧ (addr.toNat + len ≤ 0x32000000)) ∧
    (∃ (c : Ctx) (l : Lane) (q : SvcReq) (addr : Word) (len : Nat), (l.alive = true) ∧ (l.cf.lastTxn ≠ some q.txn) ∧ (1024 < len ∨ len % 4 ≠ 0)) ∧
    (∃ (c : Ctx) (l : Lane) (q : SvcReq) (first : Word) (count : Nat), (l.alive = true) ∧ (l.cf.lastTxn ≠ some q.txn) ∧ (count ≤ 7) ∧ ((l.rd R.CF_JNL_OLDEST).toNat ≤ first.toNat) ∧ (first.toNat + count ≤ (l.rd R.CF_JNL_HEAD).toNat)) ∧
    (∃ (c : Ctx) (l : Lane) (q : SvcReq) (first : Word) (count : Nat), (l.alive = true) ∧ (l.cf.lastTxn ≠ some q.txn) ∧ (7 < count)) ∧
    (∃ (c : Ctx) (l : Lane) (q : SvcReq) (first : Word) (count : Nat), (l.alive = true) ∧ (l.cf.lastTxn ≠ some q.txn) ∧ (count ≤ 7) ∧ (first.toNat < (l.rd R.CF_JNL_OLDEST).toNat ∨ (l.rd R.CF_JNL_HEAD).toNat < first.toNat + count)) ∧
    (∃ (c : Ctx) (l : Lane) (q : SvcReq), (l.alive = true) ∧ (l.cf.lastTxn ≠ some q.txn) ∧ (l.bit R.CF_STATUS_session = true) ∧ (l.get R.CF_SESSION_id = q.session.toNat)) :=
  ⟨⟨ctxA, wReady [], ⟨1, 1, 0x0A000001, 5⟩, by decide⟩,
   ⟨ctxA, { wReady [] with cf := { (default : Service) with lastTxn := some 1, lastReply := [1] } }, ⟨1, 1, 0x0A000001, 5⟩, by decide⟩,
   ⟨ctxA, wReady [], ⟨1, 1, 0x0A000001, 5⟩, 0x30BFF000, 1024, by decide⟩,
   ⟨ctxA, wReady [], ⟨1, 1, 0x0A000001, 5⟩, 0x30BFF000, 1026, by decide⟩,
   ⟨ctxA, (wReady []).wr R.CF_JNL_HEAD 7, ⟨1, 1, 0x0A000001, 5⟩, 0, 7, by decide⟩,
   ⟨ctxA, wReady [], ⟨1, 1, 0x0A000001, 5⟩, 0, 8, by decide⟩,
   ⟨ctxA, wReady [], ⟨1, 1, 0x0A000001, 5⟩, 0, 1, by decide⟩,
   ⟨ctxA, wSet [(R.CF_STATUS_session, 1), (R.CF_SESSION_id, 1)], ⟨1, 1, 0x0A000001, 5⟩, by decide⟩⟩

theorem test_meets_ServiceRequestsComplete_2 :
    (∃ (c : Ctx) (l : Lane), (l.alive = true) ∧ (l.bit R.CF_STATUS_session = true) ∧ (l.cf.reqAt + l.idleTime * 1000000000 ≤ c.now)) ∧
    (∃ (c : Ctx) (l : Lane), (l.alive = true) ∧ (l.bit R.CF_STATUS_session = true) ∧ (l.enableOk = false)) ∧
    (∃ (s : State) (ln : LaneId) (ip : Word) (port target : BitVec 16) (ws : List Word) (bytes : Nat), (s.has ln = true) ∧ ((s.lane ln).alive = true) ∧ (16 ≤ bytes) ∧ (target.toNat = (s.lane ln).get R.ET_PORTS_service) ∧ ((s.lane ln).bit R.ET_STATUS_link_up = true) ∧ (svcWellFormed ws bytes = true) ∧ (((s.lane ln).flag R.ET_FLAGS_svc_rx).cf.lastTxn ≠ some (BitVec.ofNat 16 (wordAt ws 0).toNat)) ∧ ((svcDispatch s (s.ctx ln) ⟨BitVec.ofNat 16 (wordAt ws 0).toNat, (wordAt ws 1).extractLsb' 16 16, ip, port⟩ ((wordAt ws 0).toNat / 65536 % 256) ((ws.drop 3).dropLast) ((s.lane ln).flag R.ET_FLAGS_svc_rx)).isSome = true)) ∧
    (∃ (c : Ctx) (l : Lane) (ip : Word) (port target : BitVec 16) (ws : List Word) (bytes : Nat), (l.alive = true) ∧ (16 ≤ bytes) ∧ (target.toNat = l.get R.ET_PORTS_service) ∧ (l.bit R.ET_STATUS_link_up = true) ∧ (svcWellFormed ws bytes = false)) ∧
    (∃ (c : Ctx) (l : Lane) (fate : EthFate) (ip : Word) (port target : BitVec 16) (ws : List Word) (bytes : Nat), (l.alive = true) ∧ (l.bit R.ET_STATUS_link_up = true) ∧ (fate ≠ .good)) ∧
    (∃ (c : Ctx) (l : Lane) (ip : Word) (port target : BitVec 16) (ws : List Word) (bytes : Nat), (l.alive = true) ∧ (l.bit R.ET_STATUS_link_up = true) ∧ (target.toNat ≠ l.get R.ET_PORTS_service)) :=
  ⟨⟨{ ctxA with now := 10000000000 }, wSet [(R.CF_STATUS_session, 1)], by decide⟩,
   ⟨ctxA, wSet [(R.CF_STATUS_session, 1)], by decide⟩,
   ⟨wState .a (wSet [(R.ET_STATUS_link_up, 1)]) 0, .a, 0, 0, 0, [0x01010001, 0, 0, 628739200], 16, by decide +kernel⟩,
   ⟨ctxA, wSet [(R.ET_STATUS_link_up, 1)], 0, 0, 0, [], 16, by decide⟩,
   ⟨ctxA, wSet [(R.ET_STATUS_link_up, 1)], .badFcs, 0, 0, 0, [], 16, by decide⟩,
   ⟨ctxA, wSet [(R.ET_STATUS_link_up, 1)], 0, 0, 7, [], 16, by decide⟩⟩

theorem test_meets_ServiceWritesComplete_1 :
    (∃ (c : Ctx) (l : Lane) (q : SvcReq), (l.alive = true) ∧ (l.cf.lastTxn ≠ some q.txn) ∧ (l.writeGate c = 0) ∧ (l.bit R.CF_STATUS_session = false)) ∧
    (∃ (c : Ctx) (l : Lane) (q : SvcReq) (target : Word) (offset len base : Nat) (sha : BitVec 256), (l.alive = true) ∧ (l.cf.lastTxn ≠ some q.txn) ∧ (l.writeGate c = 0) ∧ (l.bit R.CF_STATUS_session = true) ∧ (l.get R.CF_SESSION_id = q.session.toNat) ∧ (l.cf.txn = none) ∧ (target = 1) ∧ (l.writePlace target offset len = .inl base)) ∧
    (∃ (c : Ctx) (l : Lane) (q : SvcReq) (offset len base : Nat) (sha : BitVec 256), (l.alive = true) ∧ (l.cf.lastTxn ≠ some q.txn) ∧ (l.writeGate c = 0) ∧ (l.bit R.CF_STATUS_session = true) ∧ (l.get R.CF_SESSION_id = q.session.toNat) ∧ (l.cf.txn = none) ∧ (l.writePlace 0 offset len = .inl base)) ∧
    (∃ (c : Ctx) (l : Lane) (q : SvcReq) (offset : Nat) (data : List Byte) (t : WriteTxn), (l.alive = true) ∧ (l.cf.lastTxn ≠ some q.txn) ∧ (l.writeGate c = 0) ∧ (l.bit R.CF_STATUS_session = true) ∧ (l.get R.CF_SESSION_id = q.session.toNat) ∧ (l.cf.txn = some t) ∧ (offset = t.next) ∧ (offset + data.length ≤ t.len)) ∧
    (∃ (c : Ctx) (l : Lane) (q : SvcReq) (t : WriteTxn), (l.alive = true) ∧ (l.cf.lastTxn ≠ some q.txn) ∧ (l.writeGate c = 0) ∧ (l.bit R.CF_STATUS_session = true) ∧ (l.get R.CF_SESSION_id = q.session.toNat) ∧ (l.cf.txn = some t) ∧ (t.next ≠ t.len)) ∧
    (∃ (c : Ctx) (l : Lane) (q : SvcReq) (t : WriteTxn), (l.alive = true) ∧ (l.cf.lastTxn ≠ some q.txn) ∧ (l.writeGate c = 0) ∧ (l.bit R.CF_STATUS_session = true) ∧ (l.get R.CF_SESSION_id = q.session.toNat) ∧ (l.cf.txn = some t) ∧ (t.slot = false) ∧ (l.verifies c t = true)) ∧
    (∃ (c : Ctx) (l : Lane) (q : SvcReq) (t : WriteTxn), (l.alive = true) ∧ (l.cf.lastTxn ≠ some q.txn) ∧ (l.writeGate c = 0) ∧ (l.bit R.CF_STATUS_session = true) ∧ (l.get R.CF_SESSION_id = q.session.toNat) ∧ (l.cf.txn = some t) ∧ (t.slot = true) ∧ (l.verifies c t = true)) ∧
    (∃ (c : Ctx) (l : Lane) (q : SvcReq), (l.alive = true) ∧ (l.cf.lastTxn ≠ some q.txn) ∧ (l.writeGate c = 0) ∧ (l.bit R.CF_STATUS_session = true) ∧ (l.get R.CF_SESSION_id = q.session.toNat) ∧ (l.slotState l.writeSlot = 1)) :=
  ⟨⟨ctxA, wSet [(R.SI_DIn_STAT_state 0, 1)], ⟨1, 1, 0x0A000001, 5⟩, by decide⟩,
   ⟨ctxA, wOpen none, ⟨1, 1, 0x0A000001, 5⟩, 1, 0x30000, 0x10000, 0x31C30000, 0, by decide⟩,
   ⟨ctxA, wOpen none, ⟨1, 1, 0x0A000001, 5⟩, 0, 0x1000, 0x30000000, 0, by decide⟩,
   ⟨ctxA, wOpen (some wTxn), ⟨1, 1, 0x0A000001, 5⟩, 0, [1, 2, 3, 4], wTxn, by decide⟩,
   ⟨ctxA, wOpen (some wTxn), ⟨1, 1, 0x0A000001, 5⟩, wTxn, by decide⟩,
   ⟨ctxA, wOpen (some wWritten), ⟨1, 1, 0x0A000001, 5⟩, wWritten, by decide +kernel⟩,
   ⟨ctxA, wStaging, ⟨1, 1, 0x0A000001, 5⟩, ⟨true, 0x30000000, 0, 0, 0xE3B0C44298FC1C149AFBF4C8996FB92427AE41E4649B934CA495991B7852B855⟩, by decide +kernel⟩,
   ⟨ctxA, (wOpen none).setGranule (slotRec 0) 0x00FFFFFF, ⟨1, 1, 0x0A000001, 5⟩, by decide +kernel⟩⟩

theorem test_meets_ServiceWritesComplete_2 :
    (∃ (c : Ctx) (l : Lane) (q : SvcReq) (t : WriteTxn), (l.alive = true) ∧ (l.cf.lastTxn ≠ some q.txn) ∧ (l.writeGate c = 0) ∧ (l.bit R.CF_STATUS_session = true) ∧ (l.get R.CF_SESSION_id = q.session.toNat) ∧ (l.cf.txn = some t)) ∧
    (∃ (c : Ctx) (l : Lane), (l.alive = true) ∧ (l.cf.scanned = true)) ∧
    (∃ (c : Ctx) (l : Lane), (l.alive = true) ∧ (l.cf.scanned = false) ∧ (l.tailWritten l.nextEntry = false) ∧ (l.cf.lost = false)) ∧
    (∃ (c : Ctx) (l : Lane), (l.alive = true) ∧ (l.cf.scanned = false) ∧ (l.tailWritten l.nextEntry = true)) :=
  ⟨⟨ctxA, wOpen (some wTxn), ⟨1, 1, 0x0A000001, 5⟩, wTxn, by decide⟩,
   ⟨ctxA, { wReady [] with cf := { (default : Service) with scanned := true } }, by decide⟩,
   ⟨ctxA, wReady [], by decide⟩,
   ⟨ctxA, (wReady []).setByte 0x31800000 0, by decide +kernel⟩⟩

theorem test_meets_RefusedWritesKeepImages :
    ∃ (c : Ctx) (l : Lane), l.alive = true ∧ l.writeGate c ≠ 0 :=
  ⟨ctxA, wReady [], by decide⟩

theorem test_meets_CanAndEthernetComplete_1 :
    (∃ (c : Ctx) (l : Lane) (k : Fin 2) (f : CanFrame) (i : Nat), (l.alive = true) ∧ (l.canOn k.val = true) ∧ (f.remote = false) ∧ (l.canFilter k.val f = some i) ∧ ((l.canOf k.val).fifo.length < 32)) ∧
    (∃ (c : Ctx) (l : Lane) (k : Fin 2) (f : CanFrame) (i : Nat), (l.alive = true) ∧ (l.canOn k.val = true) ∧ (f.remote = false) ∧ (l.canFilter k.val f = some i) ∧ (32 ≤ (l.canOf k.val).fifo.length)) ∧
    (∃ (c : Ctx) (l : Lane) (k : Fin 2) (m : Fin 16) (v : Word), (l.alive = true) ∧ (v.getLsbD 0 = true) ∧ (v.getLsbD 1 = false)) ∧
    (∃ (c : Ctx) (l : Lane) (k : Fin 2) (m : Fin 16), (l.alive = true) ∧ (l.bit (R.CNk_TXm_CTRL_pending k.val m.val) = true) ∧ ((l.canOf k.val).onBus ≠ some m.val)) ∧
    (∃ (c : Ctx) (l : Lane) (k : Fin 2) (m : Fin 16), (l.alive = true) ∧ ((l.canOf k.val).onBus = some m.val)) ∧
    (∃ (c : Ctx) (l : Lane) (k : Fin 2) (v : Word), (l.alive = true) ∧ (v.getLsbD 0 = true)) ∧
    (∃ (c : Ctx) (l : Lane) (k : Fin 2), (l.alive = true) ∧ (l.get (R.CNk_STATUS_state k.val) = 2) ∧ ((l.bit (R.CNk_CFG_auto_recover k.val) || (l.canOf k.val).recovering) = true)) ∧
    (∃ (c : Ctx) (l : Lane) (k : Fin 2) (v : Word), (l.alive = true) ∧ (v.getLsbD 0 = true) ∧ (l.get (R.CNk_STATUS_state k.val) = 2)) :=
  ⟨⟨ctxA, wSet [(R.CNk_FLTf_ID_en 1 31, 1)], 1, ⟨false, true, true, false, 5, 1, [7]⟩, 31, by decide⟩,
   ⟨ctxA, (wSet [(R.CNk_FLTf_ID_en 1 31, 1)]).setCan 1 ⟨List.replicate 32 default, none, false, []⟩, 1, ⟨false, true, true, false, 5, 1, [7]⟩, 31, by decide⟩,
   ⟨ctxA, wReady [], 1, 15, 0xF9, by decide⟩,
   ⟨ctxA, wSet [(R.CNk_TXm_CTRL_pending 0 3, 1)], 0, 3, by decide⟩,
   ⟨ctxA, (wReady []).setCan 1 ⟨[], some 15, false, []⟩, 1, 15, by decide⟩,
   ⟨ctxA, wReady [], 1, 1, by decide⟩,
   ⟨ctxA, wSet [(R.CNk_STATUS_state 1, 2), (R.CNk_CFG_auto_recover 1, 1)], 1, by decide⟩,
   ⟨ctxA, wSet [(R.CNk_STATUS_state 1, 2)], 1, 1, by decide⟩⟩

theorem test_meets_CanAndEthernetComplete_2 :
    (∃ (c : Ctx) (l : Lane) (peer target : Word) (bytes : List Byte), (l.alive = true) ∧ (l.bit R.ET_STATUS_link_up = true) ∧ (target = l.rd R.ET_IP)) ∧
    (∃ (c : Ctx) (l : Lane) (icmp : Bool) (peer target : Word) (bytes : List Byte), (l.alive = true) ∧ (l.bit R.ET_STATUS_link_up = true) ∧ (target ≠ l.rd R.ET_IP)) :=
  ⟨⟨ctxA, wSet [(R.ET_STATUS_link_up, 1)], 9, 0, [], by decide⟩,
   ⟨ctxA, wSet [(R.ET_STATUS_link_up, 1)], true, 9, 1, [], by decide⟩⟩

theorem test_meets_CanErrorStates :
    ∃ (c : Ctx) (l : Lane) (k : Fin 2) (ev : CanError) (t r : Nat), (l.alive = true) ∧ (l.canOn k.val = true) ∧ (canCounts (l.get (R.CNk_STATUS_tec k.val)) (l.get (R.CNk_STATUS_rec k.val)) ev = (t, r)) :=
  ⟨ctxA, wSet [(R.CNk_STATUS_tec 1, 250)], 1, .txError, 258, 0, by decide⟩

theorem test_meets_HealthCommandsComplete :
    (∃ (c : Ctx) (l : Lane) (i : Fin 8) (x : AgeRaw) (v : Nat), (l.alive = true) ∧ (l.monOn c i.val = true) ∧ (l.noSample c = false) ∧ (l.indicator c i.val x = some v)) ∧
    (∃ (c : Ctx) (l : Lane) (i : Fin 8) (x : AgeRaw), (l.alive = true) ∧ (l.noSample c = true)) ∧
    (∃ (c : Ctx) (l : Lane) (t : BitVec 16), (l.alive = true) ∧ (t.toInt ≤ (l.put R.HA_TEMP_now t.toNat).getS R.HA_TEMP_max) ∧ (t.toInt ≤ (l.put R.HA_TEMP_now t.toNat).getS R.HA_LIMITS_temp_max) ∧ (((l.put R.HA_TEMP_now t.toNat)).monOn c 6 = false)) ∧
    (∃ (c : Ctx) (l : Lane), (l.alive = true) ∧ (l.ha.opNs < 3600000000000 ∨ l.unitsHalt = true)) ∧
    (∃ (c : Ctx) (l : Lane), (l.alive = true) ∧ (3600000000000 ≤ l.ha.opNs) ∧ (l.unitsHalt = false)) ∧
    (∃ (c : Ctx) (l : Lane), (l.alive = true) ∧ (l.telOn = true) ∧ (l.ha.telAt = none)) ∧
    (∃ (c : Ctx) (l : Lane) (v : Word), (l.alive = true) ∧ (fldOf R.HA_BASELINE_RESET_key v = 0x96) ∧ (l.parked = true)) ∧
    (∃ (c : Ctx) (l : Lane) (v : Word), (l.alive = true) ∧ (fldOf R.HA_BASELINE_RESET_key v ≠ 0x96 ∨ l.parked = false)) :=
  ⟨⟨ctxA, wSet [(R.HA_STATUS_enabled, 1)], 0, .ppm 5, 5, by decide⟩,
   ⟨ctxA, { wReady [] with latchHold := 1 }, 0, .ppm 5, by decide⟩,
   ⟨ctxA, wReady [], 0xFFF0, by decide⟩,
   ⟨ctxA, wReady [], by decide⟩,
   ⟨ctxA, { wReady [] with ha := { (default : Health) with opNs := 3600000000000 } }, by decide⟩,
   ⟨ctxA, wSet [(R.ET_STATUS_link_up, 1), (R.ET_TEL_period_ms, 100)], by decide⟩,
   ⟨ctxA, wSet [(R.FC_MODE_parked, 1)], fldPut R.HA_BASELINE_RESET_key 0xFF 0x96, by decide⟩,
   ⟨ctxA, wReady [], 0x9600, by decide⟩⟩

theorem test_meets_HealthRecordWritten :
    ∃ (c : Ctx) (l : Lane) (t k : Nat) (ws : List Word), (l.alive = true) ∧ (l.ha.recordAt = some t) ∧ (k = l.nextRecord) ∧ (ws = l.recordBody (BitVec.ofNat 32 k) ++ [crc32cWords (l.recordBody (BitVec.ofNat 32 k))]) :=
  ⟨ctxA, { wReady [] with ha := { (default : Health) with recordAt := some 0 } }, 0, 0, _, by decide, rfl, rfl, rfl⟩

theorem test_meets_EngineIntegerResults :
    (∃ (c : Ctx) (l : Lane) (e : EngIx) (d : LegDesc) (x : Engine) (rd ra rb : Reg), l.alive = true ∧ Executes c l e d ∧ x = l.eng e.val) ∧
    (∃ (c : Ctx) (l : Lane) (e : EngIx) (d : LegDesc) (x : Engine) (p : Pred) (rd ra rb : Reg), l.alive = true ∧ Executes c l e d ∧ x = l.eng e.val) ∧
    (∃ (c : Ctx) (l : Lane) (e : EngIx) (d : LegDesc) (x : Engine) (rd ra : Reg) (imm : BitVec 16) (low : BitVec 8), l.alive = true ∧ Executes c l e d ∧ x = l.eng e.val) ∧
    (∃ (c : Ctx) (l : Lane) (e : EngIx) (d : LegDesc) (x : Engine) (rd ra : Reg) (amount : BitVec 6), l.alive = true ∧ Executes c l e d ∧ x = l.eng e.val) :=
  ⟨⟨ctxA, wRun, 5, wLeg, _, 1, 2, 31, by decide, ⟨by decide, by decide, by decide⟩, rfl⟩,
   ⟨ctxA, wRun, 5, wLeg, _, 3, 1, 2, 31, by decide, ⟨by decide, by decide, by decide⟩, rfl⟩,
   ⟨ctxA, wRun, 5, wLeg, _, 1, 0, 0xFFFF, 0xFF, by decide, ⟨by decide, by decide, by decide⟩, rfl⟩,
   ⟨ctxA, wRun, 5, wLeg, _, 1, 0, 63, by decide, ⟨by decide, by decide, by decide⟩, rfl⟩⟩

theorem test_meets_EngineFixedPointResults :
    (∃ (c : Ctx) (l : Lane) (e : EngIx) (d : LegDesc) (x : Engine) (rd ra rb : Reg) (k : Bool), l.alive = true ∧ Executes c l e d ∧ x = l.eng e.val) ∧
    (∃ (c : Ctx) (l : Lane) (e : EngIx) (d : LegDesc) (x : Engine) (rd ra rb : Reg), l.alive = true ∧ Executes c l e d ∧ x = l.eng e.val) :=
  ⟨⟨ctxA, wRun, 5, wLeg, _, 1, 2, 31, true, by decide, ⟨by decide, by decide, by decide⟩, rfl⟩,
   ⟨ctxA, wRun, 5, wLeg, _, 1, 2, 0, by decide, ⟨by decide, by decide, by decide⟩, rfl⟩⟩

theorem test_meets_EngineAccumulatorResults :
    ∃ (c : Ctx) (l : Lane) (e : EngIx) (d : LegDesc) (x : Engine) (rd ra rb : Reg) (k : Bool), l.alive = true ∧ Executes c l e d ∧ x = l.eng e.val :=
  ⟨ctxA, wRun, 5, wLeg, _, 1, 2, 31, true, by decide, ⟨by decide, by decide, by decide⟩, rfl⟩

theorem test_meets_EngineCompareAndBranch :
    (∃ (c : Ctx) (l : Lane) (e : EngIx) (d : LegDesc) (x : Engine) (p : Pred) (ra rb : Reg), l.alive = true ∧ Executes c l e d ∧ x = l.eng e.val) ∧
    (∃ (c : Ctx) (l : Lane) (e : EngIx) (d : LegDesc) (x : Engine) (k : Fin 8) (p pa pb : Pred) (ra : Reg) (imm : BitVec 16), l.alive = true ∧ Executes c l e d ∧ x = l.eng e.val) ∧
    (∃ (c : Ctx) (l : Lane) (e : EngIx) (d : LegDesc) (x : Engine) (p : Pred) (rd : Reg) (off : BitVec 21), l.alive = true ∧ Executes c l e d ∧ x = l.eng e.val) :=
  ⟨⟨ctxA, wRun, 5, wLeg, _, 3, 2, 31, by decide, ⟨by decide, by decide, by decide⟩, rfl⟩,
   ⟨ctxA, wRun, 5, wLeg, _, 7, 3, 0, 1, 2, 0x8000, by decide, ⟨by decide, by decide, by decide⟩, rfl⟩,
   ⟨ctxA, wRun, 5, wLeg, _, 3, 1, 0x1FFFFF, by decide, ⟨by decide, by decide, by decide⟩, rfl⟩⟩

theorem test_meets_EngineMemoryResults_1 :
    (∃ (c : Ctx) (l : Lane) (e : EngIx) (d : LegDesc) (rt ra : Reg) (disp : BitVec 12), (l.alive = true) ∧ (Executes c l e d) ∧ (loadOk d (memAddr (l.eng e.val) ra disp 8) 8 = true)) ∧
    (∃ (c : Ctx) (l : Lane) (e : EngIx) (d : LegDesc) (rt ra : Reg) (disp : BitVec 12), (l.alive = true) ∧ (Executes c l e d) ∧ (loadOk d (memAddr (l.eng e.val) ra disp 4) 4 = true)) ∧
    (∃ (c : Ctx) (l : Lane) (e : EngIx) (d : LegDesc) (rt ra : Reg) (disp : BitVec 12), (l.alive = true) ∧ (Executes c l e d) ∧ (loadOk d (memAddr (l.eng e.val) ra disp 4) 4 = true)) ∧
    (∃ (c : Ctx) (l : Lane) (e : EngIx) (d : LegDesc) (rt ra : Reg) (disp : BitVec 12), (l.alive = true) ∧ (Executes c l e d) ∧ (storeOk d (memAddr (l.eng e.val) ra disp 8) 8 = true) ∧ (e.val < l.ea.engines.length)) ∧
    (∃ (c : Ctx) (l : Lane) (e : EngIx) (d : LegDesc) (rt ra : Reg) (disp : BitVec 12), (l.alive = true) ∧ (Executes c l e d) ∧ (storeOk d (memAddr (l.eng e.val) ra disp 4) 4 = true) ∧ (e.val < l.ea.engines.length)) ∧
    (∃ (c : Ctx) (l : Lane) (e : EngIx) (d : LegDesc) (low : Bool) (rt ra : Reg) (disp : BitVec 12) (k : Nat), (l.alive = true) ∧ (Executes c l e d) ∧ (slotIx (l.eng e.val) ra disp = (k : Int)) ∧ (k < d.snapshot.length)) ∧
    (∃ (c : Ctx) (l : Lane) (e : EngIx) (d : LegDesc) (low : Bool) (rt ra : Reg) (disp : BitVec 12) (k : Nat), (l.alive = true) ∧ (Executes c l e d) ∧ (slotIx (l.eng e.val) ra disp = (k : Int)) ∧ (k < d.buffer.length) ∧ (e.val < l.ea.engines.length)) ∧
    (∃ (c : Ctx) (l : Lane) (e : EngIx) (d : LegDesc) (rt ra : Reg) (disp : BitVec 12), (l.alive = true) ∧ (Executes c l e d) ∧ (storeOk d (memAddr (l.eng e.val) ra disp 8) 8 = false)) :=
  ⟨⟨ctxA, wRun, 5, wLeg, 1, 2, 0x7F0, by decide, ⟨by decide, by decide, by decide⟩, by decide⟩,
   ⟨ctxA, wRun, 5, wLeg, 1, 3, 0, by decide, ⟨by decide, by decide, by decide⟩, by decide⟩,
   ⟨ctxA, wRun, 5, wLeg, 1, 3, 0, by decide, ⟨by decide, by decide, by decide⟩, by decide⟩,
   ⟨ctxA, wRun, 5, wLeg, 1, 2, 0x7F0, by decide, ⟨by decide, by decide, by decide⟩, by decide, by decide⟩,
   ⟨ctxA, wRun, 5, wLeg, 1, 3, 0, by decide, ⟨by decide, by decide, by decide⟩, by decide, by decide⟩,
   ⟨ctxA, wRun, 5, wLeg, true, 1, 0, 1, 1, by decide, ⟨by decide, by decide, by decide⟩, by decide, by decide⟩,
   ⟨ctxA, wRun, 5, wLeg, true, 1, 0, 0, 0, by decide, ⟨by decide, by decide, by decide⟩, by decide, by decide, by decide⟩,
   ⟨ctxA, wRun, 5, wLeg, 1, 0, 0, by decide, ⟨by decide, by decide, by decide⟩, by decide⟩⟩

theorem test_meets_EngineMemoryResults_2 :
    (∃ (c : Ctx) (l : Lane) (e : EngIx) (d : LegDesc) (rt ra : Reg) (disp : BitVec 12), (l.alive = true) ∧ (Executes c l e d) ∧ (loadOk d (memAddr (l.eng e.val) ra disp 8) 8 = false)) ∧
    (∃ (c : Ctx) (l : Lane) (e : EngIx) (d : LegDesc) (zext : Bool) (rt ra : Reg) (disp : BitVec 12), (l.alive = true) ∧ (Executes c l e d) ∧ (loadOk d (memAddr (l.eng e.val) ra disp 4) 4 = false)) ∧
    (∃ (c : Ctx) (l : Lane) (e : EngIx) (d : LegDesc) (rt ra : Reg) (disp : BitVec 12), (l.alive = true) ∧ (Executes c l e d) ∧ (storeOk d (memAddr (l.eng e.val) ra disp 4) 4 = false)) ∧
    (∃ (c : Ctx) (l : Lane) (e : EngIx) (d : LegDesc) (low : Bool) (rt ra : Reg) (disp : BitVec 12), (l.alive = true) ∧ (Executes c l e d) ∧ (slotIn (slotIx (l.eng e.val) ra disp) d.snapshot.length = false)) ∧
    (∃ (c : Ctx) (l : Lane) (e : EngIx) (d : LegDesc) (low : Bool) (rt ra : Reg) (disp : BitVec 12), (l.alive = true) ∧ (Executes c l e d) ∧ (slotIn (slotIx (l.eng e.val) ra disp) d.buffer.length = false)) :=
  ⟨⟨ctxA, wRun, 5, wLeg, 1, 0, 0, by decide, ⟨by decide, by decide, by decide⟩, by decide⟩,
   ⟨ctxA, wRun, 5, wLeg, true, 1, 0, 0, by decide, ⟨by decide, by decide, by decide⟩, by decide⟩,
   ⟨ctxA, wRun, 5, wLeg, 1, 0, 0, by decide, ⟨by decide, by decide, by decide⟩, by decide⟩,
   ⟨ctxA, wRun, 5, wLeg, true, 1, 0, 7, by decide, ⟨by decide, by decide, by decide⟩, by decide⟩,
   ⟨ctxA, wRun, 5, wLeg, true, 1, 0, 7, by decide, ⟨by decide, by decide, by decide⟩, by decide⟩⟩

theorem test_meets_EngineControlResults_1 :
    (∃ (c : Ctx) (l : Lane) (e : EngIx) (d : LegDesc) (rd ra rb : Reg), (l.alive = true) ∧ (Executes c l e d) ∧ (pairOk false rd ra = true)) ∧
    (∃ (c : Ctx) (l : Lane) (e : EngIx) (d : LegDesc) (rd ra rb : Reg), (l.alive = true) ∧ (Executes c l e d) ∧ (pairOk true rd ra = true)) ∧
    (∃ (c : Ctx) (l : Lane) (e : EngIx) (op : CordicOp), (l.alive = true) ∧ ((l.eng e.val).cordic = some op) ∧ (op.readyAt ≤ c.now)) ∧
    (∃ (c : Ctx) (l : Lane) (e : EngIx) (d : LegDesc) (word : Word), (l.alive = true) ∧ (Executes c l e d) ∧ (decodeEngineWord c.id e word = none)) ∧
    (∃ (c : Ctx) (l : Lane) (e : EngIx) (d : LegDesc) (r : Run), (l.alive = true) ∧ (Executes c l e d) ∧ ((l.eng e.val).run = some r) ∧ (16 ≤ (l.eng e.val).deque.length)) ∧
    (∃ (c : Ctx) (l : Lane) (e : EngIx) (d : LegDesc) (r : Run), (l.alive = true) ∧ (Executes c l e d) ∧ ((l.eng e.val).run = some r) ∧ ((l.eng e.val).deque.length < 16)) ∧
    (∃ (c : Ctx) (l : Lane) (e : EngIx) (d : LegDesc) (t : BitVec 17) (r : Run), (l.alive = true) ∧ (Executes c l e d) ∧ ((l.eng e.val).run = some r) ∧ (c.now + t.toNat * 10 ≤ l.timeLimit d r)) ∧
    (∃ (c : Ctx) (l : Lane) (e : EngIx) (d : LegDesc) (t : BitVec 17) (r : Run), (l.alive = true) ∧ (Executes c l e d) ∧ ((l.eng e.val).run = some r) ∧ (l.timeLimit d r < c.now + t.toNat * 10)) :=
  ⟨⟨ctxA, wRun, 5, wLeg, 30, 2, 31, by decide, ⟨by decide, by decide, by decide⟩, by decide⟩,
   ⟨ctxA, wRun, 5, wLeg, 2, 3, 31, by decide, ⟨by decide, by decide, by decide⟩, by decide⟩,
   ⟨ctxA, wRun.setEng 5 { wRun.eng 5 with cordic := some ⟨true, 0, 0, 0, 2, 0⟩ }, 5, ⟨true, 0, 0, 0, 2, 0⟩, by decide⟩,
   ⟨ctxA, wRun, 5, wLeg, 0, by decide, ⟨by decide, by decide, by decide⟩, by decide⟩,
   ⟨ctxA, wRun.setEng 5 { wRun.eng 5 with deque := List.replicate 16 default }, 5, wLeg, ⟨1, false, false, 0, 0⟩, by decide, ⟨by decide, by decide, by decide⟩, by decide, by decide⟩,
   ⟨ctxA, wRun, 5, wLeg, ⟨1, false, false, 0, 0⟩, by decide, ⟨by decide, by decide, by decide⟩, by decide, by decide⟩,
   ⟨ctxA, wRun, 5, wLeg, 0, ⟨1, false, false, 0, 0⟩, by decide, ⟨by decide, by decide, by decide⟩, by decide, by decide⟩,
   ⟨ctxA, wRun, 5, wLeg, 1, ⟨1, false, false, 0, 0⟩, by decide, ⟨by decide, by decide, by decide⟩, by decide, by decide⟩⟩

theorem test_meets_EngineControlResults_2 :
    (∃ (c : Ctx) (l : Lane) (e : EngIx) (d : LegDesc) (leg : BitVec 8) (g : LegDesc), (l.alive = true) ∧ (Executes c l e d) ∧ (l.legDesc leg.toNat = some g) ∧ (g.onDemand = true) ∧ ((l.eng e.val).spawn.length < 4)) ∧
    (∃ (c : Ctx) (l : Lane) (e : EngIx) (d : LegDesc) (rd ra rb : Reg), (l.alive = true) ∧ (Executes c l e d) ∧ (pairOk false rd ra = false)) ∧
    (∃ (c : Ctx) (l : Lane) (e : EngIx) (d : LegDesc) (rd ra rb : Reg), (l.alive = true) ∧ (Executes c l e d) ∧ (pairOk true rd ra = false)) ∧
    (∃ (c : Ctx) (l : Lane) (e : EngIx) (d : LegDesc) (leg : BitVec 8), (l.alive = true) ∧ (Executes c l e d) ∧ ((l.legDesc leg.toNat).any (fun g => g.onDemand) = false ∨ 4 ≤ (l.eng e.val).spawn.length)) ∧
    (∃ (c : Ctx) (l : Lane) (e : EngIx) (d : LegDesc), (l.alive = true) ∧ (Executes c l e d)) ∧
    (∃ (c : Ctx) (l : Lane) (e : EngIx) (d : LegDesc), (l.alive = true) ∧ (Executes c l e d)) ∧
    (∃ (c : Ctx) (l : Lane) (e : EngIx) (d : LegDesc), (l.alive = true) ∧ (Executes c l e d)) :=
  ⟨⟨ctxA, wRun, 5, wLeg, 2, { wLeg with onDemand := true }, by decide, ⟨by decide, by decide, by decide⟩, by decide, by decide, by decide⟩,
   ⟨ctxA, wRun, 5, wLeg, 31, 2, 31, by decide, ⟨by decide, by decide, by decide⟩, by decide⟩,
   ⟨ctxA, wRun, 5, wLeg, 31, 3, 31, by decide, ⟨by decide, by decide, by decide⟩, by decide⟩,
   ⟨ctxA, wRun, 5, wLeg, 1, by decide, ⟨by decide, by decide, by decide⟩, by decide⟩,
   ⟨ctxA, wRun, 5, wLeg, by decide, ⟨by decide, by decide, by decide⟩⟩,
   ⟨ctxA, wRun, 5, wLeg, by decide, ⟨by decide, by decide, by decide⟩⟩,
   ⟨ctxA, wRun, 5, wLeg, by decide, ⟨by decide, by decide, by decide⟩⟩⟩

theorem test_meets_SchedulerCommandsComplete_1 :
    (∃ (c : Ctx) (l : Lane), (l.alive = true) ∧ (l.ea.started = true) ∧ (l.boundaryDue = true) ∧ (l.halfHeat c = true)) ∧
    (∃ (c : Ctx) (l : Lane), (l.alive = true) ∧ (l.ea.started = false ∨ l.boundaryDue = false ∨ l.halfHeat c = false)) ∧
    (∃ (c : Ctx) (l : Lane) (e : EngIx) (n : Entry) (q : List Entry), (l.alive = true) ∧ (l.engFree c e.val = true) ∧ (takeBottom (l.eng e.val).deque = some (n, q))) ∧
    (∃ (c : Ctx) (l : Lane) (e : EngIx), (l.alive = true) ∧ (l.engFree c e.val = true) ∧ ((l.eng e.val).deque = [])) ∧
    (∃ (c : Ctx) (l : Lane) (e : EngIx), (l.alive = true) ∧ ((l.eng e.val).deque ≠ []) ∧ (takeBottom (l.eng e.val).deque = none)) ∧
    (∃ (c : Ctx) (l : Lane) (e : EngIx), (l.alive = true) ∧ (l.engFree c e.val = false)) ∧
    (∃ (c : Ctx) (l : Lane) (e : EngIx), (l.alive = true) ∧ (l.engFree c e.val = true) ∧ ((l.eng e.val).deque = []) ∧ (l.stealFrom c e.val (sweepOrder c.part.member e.val) = none)) ∧
    (∃ (c : Ctx) (l : Lane) (e : EngIx) (v : Nat) (n : Entry) (q : List Entry), (l.alive = true) ∧ (l.engFree c e.val = true) ∧ ((l.eng e.val).deque = []) ∧ (l.stealFrom c e.val (sweepOrder c.part.member e.val) = some (v, n, q)) ∧ (v / 4 = e.val / 4)) :=
  ⟨⟨ctxA, wHurdle [], by decide⟩,
   ⟨ctxA, wReady [], by decide⟩,
   ⟨ctxA, wIdle [⟨1, true, false, false, none⟩], 5, _, _, by decide, by decide, rfl⟩,
   ⟨ctxA, wIdle [], 5, by decide⟩,
   ⟨ctxA, wIdle [⟨1, false, true, false, none⟩], 5, by decide⟩,
   ⟨ctxA, wHurdle [], 5, by decide⟩,
   ⟨ctxA, wIdle [], 5, by decide⟩,
   ⟨ctxA, (wIdle []).setEng 6 { freshEngine with deque := [⟨1, true, false, false, none⟩] }, 5, 6, _, _, by decide, by decide, by decide, rfl, by decide⟩⟩

theorem test_meets_SchedulerCommandsComplete_2 :
    (∃ (c : Ctx) (l : Lane) (e : EngIx), (l.alive = true) ∧ (l.engFit c e.val = true) ∧ ((l.eng e.val).gated = true) ∧ ((l.eng e.val).deque ≠ [])) ∧
    (∃ (c : Ctx) (l : Lane) (e : EngIx) (k : WakeCause), (l.alive = true) ∧ (l.engFit c e.val = false ∨ (l.eng e.val).gated = false ∨ k = .injection)) ∧
    (∃ (c : Ctx) (l : Lane) (h : Fin 8), (l.alive = true) ∧ (l.ea.started = true) ∧ ((l.rd (R.EA_HURDLE h.val)).toNat ≠ 0)) ∧
    (∃ (c : Ctx) (l : Lane) (h : Fin 8), (l.alive = true) ∧ ((l.rd (R.EA_HURDLE h.val)).toNat = 0)) ∧
    (∃ (c : Ctx) (l : Lane) (h : Fin 8), (l.alive = true) ∧ (l.ea.staged.filter (fun x => decide (x.hurdle = h.val)) = []) ∧ (∀ p ∈ l.ea.legs, p.2.window ≠ some h.val)) ∧
    (∃ (c : Ctx) (l : Lane) (h : Fin 8) (ch : Nat) (v : W40), (l.alive = true) ∧ (l.ea.staged = [⟨h.val, .torque ch, v⟩]) ∧ (∀ p ∈ l.ea.legs, p.2.window ≠ some h.val) ∧ (ch < motorCount c.part.member)) ∧
    (∃ (c : Ctx) (l : Lane) (h : Fin 8) (a : Nat) (v : W40), (l.alive = true) ∧ (l.ea.staged = [⟨h.val, .sram a, v⟩]) ∧ (∀ p ∈ l.ea.legs, p.2.window ≠ some h.val)) ∧
    (∃ (c : Ctx) (l : Lane) (k : Nat) (d : LegDesc) (x : Done), (l.alive = true) ∧ (l.bk.waiting = []) ∧ (l.image.legs = [(k, d)]) ∧ (d.runAhead = true) ∧ ((l.leg k).due = true) ∧ ((l.leg k).squashed = false) ∧ (l.ea.done.find? (fun y => decide (y.leg = k) && y.ahead) = some x)) :=
  ⟨⟨ctxA, (wIdle []).setEng 6 { freshEngine with gated := true, deque := [⟨1, true, false, false, none⟩] }, 6, by decide⟩,
   ⟨ctxA, wIdle [], 5, .scheduler, by decide⟩,
   ⟨ctxA, wHurdle [], 0, by decide⟩,
   ⟨ctxA, wHurdle [], 1, by decide⟩,
   ⟨ctxA, wStaged (.torque 0), 1, by decide⟩,
   ⟨ctxA, wStaged (.torque 1), 0, 1, 5, by decide⟩,
   ⟨ctxA, wStaged (.sram 0x20000000), 0, 0x20000000, 5, by decide⟩,
   ⟨ctxA, { wHurdle [⟨1, 5, true, false, [], [], 0, []⟩] with image := { (default : Image) with legs := [(1, { wPlaced with runAhead := true })] } }, 1, { wPlaced with runAhead := true }, ⟨1, 5, true, false, [], [], 0, []⟩, by decide, by decide, by decide, by decide, by decide, by decide, by decide⟩⟩

theorem test_meets_SchedulerCommandsComplete_3 :
    (∃ (c : Ctx) (l : Lane), (l.alive = true) ∧ (l.bk.waiting = []) ∧ (∀ p ∈ l.image.legs, p.2.runAhead = true → (l.leg p.1).due = false) ∧ (l.ea.staged = []) ∧ (∀ p ∈ l.ea.legs, p.2.window = none)) ∧
    (∃ (c : Ctx) (l : Lane) (g : BitVec 8), (l.alive = true) ∧ ((l.leg g.toNat).due = true ∨ (l.leg g.toNat).window ≠ none)) ∧
    (∃ (c : Ctx) (l : Lane) (g : BitVec 8), (l.alive = true) ∧ ((l.leg g.toNat).due = false) ∧ ((l.leg g.toNat).window = none)) ∧
    (∃ (c : Ctx) (l : Lane) (a v : Word), (l.alive = true) ∧ (a.toNat < 0x10000 * engineCount c.part.member) ∧ (a.toNat % 4 = 0) ∧ (l.engFit c (a.toNat / 0x10000) = true) ∧ (l.ea.started = false) ∧ (l.st.schedAt = none)) ∧
    (∃ (c : Ctx) (l : Lane) (a v : Word), (l.alive = true) ∧ (l.ea.started = true ∨ l.st.schedAt ≠ none ∨ l.engFit c (a.toNat / 0x10000) = false ∨ a.toNat % 4 ≠ 0 ∨ 0x10000 * engineCount c.part.member ≤ a.toNat)) ∧
    (∃ (c : Ctx) (l : Lane), (l.alive = true) ∧ (l.periodDue c = true) ∧ (∀ ch, ch < motorCount c.part.member → (l.mc ch).gateFrom = none) ∧ (l.baton.pass = none)) ∧
    (∃ (c : Ctx) (l : Lane), (l.alive = true) ∧ (l.ea.started = true) ∧ (l.ea.perStamp = some l.periodStamp)) ∧
    (∃ (c : Ctx) (l : Lane) (t : Nat), (l.alive = true) ∧ (l.periodDue c = true) ∧ (motorCount c.part.member = 1) ∧ ((l.mc 0).gateFrom = some t) ∧ (t ≤ c.now) ∧ (l.mcState 0 = mcRun) ∧ (l.wantsCut 0 = false) ∧ (l.baton.pass = none) ∧ (l.baton.gateOffAt = none)) :=
  ⟨⟨ctxA, wHurdle [], by decide⟩,
   ⟨ctxA, wHurdle [], 1, by decide⟩,
   ⟨ctxA, wIdle [⟨2, false, true, false, none⟩], 2, by decide⟩,
   ⟨ctxA, wReady [], 0x17FFFC, 0x12345678, by decide⟩,
   ⟨ctxA, wHurdle [], 0, 0, by decide⟩,
   ⟨ctxA, wReady [], by decide⟩,
   ⟨ctxA, { wReady [] with ea := { (default : Sched) with started := true, perStamp := some (wReady []).periodStamp } }, by decide⟩,
   ⟨ctxTwo, { wSet [(R.MC_STATUS_state 0, 3)] with mc0 := { (default : Motor) with gateFrom := some 0, cmpNext := [1, 2, 3] } }, 0, by decide⟩⟩

theorem test_meets_LegRunFromStartToHurdle :
    (∃ (c : Ctx) (l : Lane) (e : EngIx) (n : Entry) (q : List Entry) (d : LegDesc), (l.alive = true) ∧ (l.engFree c e.val = true) ∧ (e.val < l.ea.engines.length) ∧ (takeBottom (l.eng e.val).deque = some (n, q)) ∧ (l.legDesc n.leg = some d) ∧ (n.saved = none) ∧ (n.ahead = false) ∧ ((l.leg n.leg).snap.length = d.snapshot.length) ∧ (d.snapshot.length ≤ 32) ∧ (d.buffer.length ≤ 32)) ∧
    (∃ (c : Ctx) (l : Lane) (e : EngIx) (d : LegDesc) (r : Run), (l.alive = true) ∧ (Executes c l e d) ∧ ((l.eng e.val).run = some r) ∧ (r.ahead = false) ∧ ((l.eng e.val).spawn = []) ∧ (e.val < l.ea.engines.length)) ∧
    (∃ (c : Ctx) (l : Lane) (h : Fin 8) (k : Nat) (d : LegDesc) (x : Done), (l.alive = true) ∧ (l.ea.started = true) ∧ ((l.rd (R.EA_HURDLE h.val)).toNat ≠ 0) ∧ (l.image.legs = [(k, d)]) ∧ (d.hurdle = h.val) ∧ ((l.leg k).due = true) ∧ ((l.leg k).squashed = false) ∧ (l.ea.done = [x]) ∧ (x.leg = k) ∧ (x.ahead = false) ∧ (l.ea.staged.all (fun y => decide (y.hurdle ≠ atOnce)) = true) ∧ (d.buffer.all Route.isStage = true) ∧ (blockState ((l.leg k).home / 4) d + x.state.length ≤ d.stateAt) ∧ (d.stateAt + x.state.length ≤ d.bufferAt) ∧ (d.bufferAt + x.buffer.length ≤ d.statusAt)) ∧
    (∃ (c : Ctx) (l : Lane) (h : Fin 8), (l.alive = true) ∧ (l.ea.started = true) ∧ ((l.rd (R.EA_HURDLE h.val)).toNat ≠ 0) ∧ (l.ea.staged.all (fun y => decide (y.hurdle ≠ atOnce)) = true) ∧ (∀ p ∈ l.image.legs, p.2.hurdle = h.val → (l.leg p.1).consecutive ≠ 2 ∧ ∀ x ∈ l.ea.done, x.leg = p.1 → x.ahead = true)) :=
  ⟨⟨ctxA, wIdle [⟨1, true, false, false, none⟩], 5, _, _, _, by decide, by decide, by decide, rfl, rfl, by decide⟩,
   ⟨ctxA, wRun, 5, wLeg, ⟨1, false, false, 0, 0⟩, by decide, ⟨by decide, by decide, by decide⟩, by decide, by decide, by decide, by decide⟩,
   ⟨ctxA, wHurdle [⟨1, 5, false, false, List.replicate 8 3, List.replicate 8 4, 2, []⟩], 0, _, _, _, by decide, by decide, by decide, rfl, by decide, by decide, by decide, rfl, by decide⟩,
   ⟨ctxA, wHurdle [], 0, by decide⟩⟩

theorem test_meets_MotorAndStageCommandsComplete_1 :
    (∃ (c : Ctx) (l : Lane) (ch : Fin 2) (s0 : PwmSample), (l.alive = true) ∧ (ch.val < motorCount c.part.member) ∧ (l.mcState ch.val = mcPulse ∨ l.mcState ch.val = mcFault) ∧ (l.bit (R.MC_STATUS_inj_active ch.val) = false) ∧ (l.baton.pass = none)) ∧
    (∃ (c : Ctx) (l : Lane) (ch : Fin 2) (s0 : PwmSample), (l.alive = true) ∧ (ch.val < motorCount c.part.member) ∧ (l.mcState ch.val = mcOff ∨ l.mcState ch.val = mcCatch ∨ l.mcState ch.val = mcAsc) ∧ (l.bit (R.MC_STATUS_inj_active ch.val) = false) ∧ (l.baton.pass = none)) ∧
    (∃ (c : Ctx) (l : Lane) (ch : Fin 2) (s0 : PwmSample), (l.alive = true) ∧ (ch.val < motorCount c.part.member) ∧ (l.mcState ch.val = mcRun)) ∧
    (∃ (c : Ctx) (l : Lane) (ch : Fin 2), (l.alive = true) ∧ (ch.val < motorCount c.part.member) ∧ (l.mayEnable c = true) ∧ (l.bit (R.MC_STATUS_enabled ch.val) = false) ∧ (l.mcState ch.val = mcOff) ∧ (l.bit (R.MC_STATUS_locked ch.val) = false)) ∧
    (∃ (c : Ctx) (l : Lane) (ch : Fin 2), (l.alive = true) ∧ (ch.val < motorCount c.part.member) ∧ (l.mayEnable c = true) ∧ (l.bit (R.MC_STATUS_enabled ch.val) = false) ∧ (l.mcState ch.val = mcOff)) ∧
    (∃ (c : Ctx) (l : Lane) (ch : Fin 2) (on : Bool), (l.alive = true) ∧ (ch.val < motorCount c.part.member) ∧ (on = true ∧ (l.mayEnable c = false ∨ l.bit (R.MC_STATUS_enabled ch.val) = true) ∨ on = false ∧ l.mayEnable c = true)) ∧
    (∃ (c : Ctx) (l : Lane) (ch : Fin 2), (l.alive = true) ∧ (ch.val < motorCount c.part.member) ∧ (l.mayEnable c = false) ∧ (l.mcState ch.val = mcRun) ∧ (l.bit (R.PS_STATUS_asc ch.val) = false)) ∧
    (∃ (c : Ctx) (l : Lane) (ch : Fin 2) (t : Nat), (l.alive = true) ∧ (ch.val < motorCount c.part.member) ∧ ((l.mc ch.val).catchFrom = some t) ∧ (t + l.catchWindow ch.val ≤ c.now) ∧ (l.mcState ch.val = mcCatch) ∧ (l.bit (R.MC_STATUS_locked ch.val) = true)) :=
  ⟨⟨ctxA, wSet [(R.MC_STATUS_state 0, 5)], 0, ⟨1, 2, 3, 0, 0, 0, 0, 0, 0, 0, 0⟩, by decide⟩,
   ⟨ctxA, wReady [], 0, ⟨1, 2, 3, 0, 0, 0, 0, 0, 0, 0, 0⟩, by decide⟩,
   ⟨ctxA, wSet [(R.MC_STATUS_state 0, 3)], 0, ⟨1, 2, 3, 0, 0, 0, 0, 0, 0, 0, 0⟩, by decide⟩,
   ⟨ctxA, wSet [(R.LM_ROLE_role, 1), (R.BK_STATUS_permit, 1)], 0, by decide⟩,
   ⟨ctxA, wSet [(R.LM_ROLE_role, 1), (R.BK_STATUS_permit, 1)], 0, by decide⟩,
   ⟨ctxA, wReady [], 0, true, by decide⟩,
   ⟨ctxA, wSet [(R.MC_STATUS_state 1, 3), (R.MC_STATUS_enabled 1, 1)], 1, by decide⟩,
   ⟨ctxA, { wSet [(R.MC_STATUS_state 0, 1), (R.MC_STATUS_locked 0, 1)] with mc0 := { (default : Motor) with catchFrom := some 0 } }, 0, 0, by decide⟩⟩

theorem test_meets_MotorAndStageCommandsComplete_2 :
    (∃ (c : Ctx) (l : Lane) (ch : Fin 2) (t : Nat), (l.alive = true) ∧ (ch.val < motorCount c.part.member) ∧ ((l.mc ch.val).catchFrom = some t) ∧ (t + l.catchWindow ch.val ≤ c.now) ∧ (l.mcState ch.val = mcCatch) ∧ (l.bit (R.MC_STATUS_locked ch.val) = false) ∧ (l.isStill ch.val = true)) ∧
    (∃ (c : Ctx) (l : Lane) (ch : Fin 2) (t : Nat), (l.alive = true) ∧ (ch.val < motorCount c.part.member) ∧ ((l.mc ch.val).catchFrom = some t) ∧ (t + l.catchWindow ch.val ≤ c.now) ∧ (l.mcState ch.val = mcCatch) ∧ (l.bit (R.MC_STATUS_locked ch.val) = false) ∧ (l.isStill ch.val = false)) ∧
    (∃ (c : Ctx) (l : Lane) (ch : Fin 2), (l.alive = true) ∧ (ch.val < motorCount c.part.member) ∧ ((l.mc ch.val).catchFrom = none)) ∧
    (∃ (c : Ctx) (l : Lane) (ch : Fin 2) (t : Nat), (l.alive = true) ∧ (ch.val < motorCount c.part.member) ∧ ((l.mc ch.val).catchFrom = some t) ∧ (c.now < t + l.catchWindow ch.val ∨ l.mcState ch.val ≠ mcCatch)) ∧
    (∃ (c : Ctx) (l : Lane) (ch : Fin 2) (is : List W40) (g : W40) (sx sy tot : Int), (l.alive = true) ∧ (ch.val < motorCount c.part.member) ∧ (l.mcState ch.val = mcPulse) ∧ (|qr (qv g)| ≤ l.stillSpeed ch.val) ∧ (l.pulsesOver c ch.val is = true) ∧ (l.bit (R.MC_STATUS_enabled ch.val) = false) ∧ (pulseSums (fun k => qv ((is[k]?).getD 0)) = (sx, sy)) ∧ (is.foldl (fun a w => a + qv w) 0 = tot) ∧ (tot ≠ 0) ∧ (mkRat 4 10000 ≤ asymSq sx sy tot)) ∧
    (∃ (c : Ctx) (l : Lane) (ch : Fin 2) (is : List W40) (g : W40), (l.alive = true) ∧ (ch.val < motorCount c.part.member) ∧ (l.mcState ch.val = mcPulse) ∧ (l.stillSpeed ch.val < |qr (qv g)|)) ∧
    (∃ (c : Ctx) (l : Lane) (ch : Fin 2) (is : List W40) (g : W40) (sx sy tot : Int) (milli : Nat), (l.alive = true) ∧ (ch.val < motorCount c.part.member) ∧ (l.mcState ch.val = mcPulse) ∧ (|qr (qv g)| ≤ l.stillSpeed ch.val) ∧ (l.pulsesOver c ch.val is = true) ∧ (pulseSums (fun k => qv ((is[k]?).getD 0)) = (sx, sy)) ∧ (is.foldl (fun a w => a + qv w) 0 = tot) ∧ (asymSq sx sy tot < mkRat 4 10000 ∨ tot = 0) ∧ (milli = min (isqrtNear (nearest (asymSq sx sy tot * 1000000)).toNat) 65535) ∧ ((l.mc ch.val).tests = 0)) ∧
    (∃ (c : Ctx) (l : Lane) (ch : Fin 2) (is : List W40) (g : W40) (sx sy tot : Int) (milli : Nat), (l.alive = true) ∧ (ch.val < motorCount c.part.member) ∧ (l.mcState ch.val = mcPulse) ∧ (|qr (qv g)| ≤ l.stillSpeed ch.val) ∧ (l.pulsesOver c ch.val is = true) ∧ (pulseSums (fun k => qv ((is[k]?).getD 0)) = (sx, sy)) ∧ (is.foldl (fun a w => a + qv w) 0 = tot) ∧ (asymSq sx sy tot < mkRat 4 10000 ∨ tot = 0) ∧ (milli = min (isqrtNear (nearest (asymSq sx sy tot * 1000000)).toNat) 65535) ∧ ((l.mc ch.val).tests = 1)) :=
  ⟨⟨ctxA, { wSet [(R.MC_STATUS_state 0, 1), (R.MC_CATCH_CFG_still_permille 0, 100)] with mc0 := { (default : Motor) with catchFrom := some 0 } }.putQ (R.MC_W_RATED 0) (100 * qOne), 0, 0, by decide +kernel⟩,
   ⟨ctxA, { wSet [(R.MC_STATUS_state 0, 1)] with mc0 := { (default : Motor) with catchFrom := some 0 } }, 0, 0, by decide +kernel⟩,
   ⟨ctxA, wReady [], 0, by decide⟩,
   ⟨ctxA, { wReady [] with mc0 := { (default : Motor) with catchFrom := some 0 } }, 0, 0, by decide⟩,
   ⟨ctxA, wSet [(R.MC_STATUS_state 0, 2)], 0, [0x1800000, 0x1000000, 0x1000000, 0x1000000, 0x1000000, 0x1000000], 0, 0x1000000, 0, 0x6800000, by decide +kernel⟩,
   ⟨ctxA, wSet [(R.MC_STATUS_state 0, 2), (R.MC_STATUS_enabled 0, 1)], 0, [], 1, by decide +kernel⟩,
   ⟨ctxA, wSet [(R.MC_STATUS_state 0, 2)], 0, [1, 1, 1, 1, 1, 1], 0, 0, 0, 6, 0, by decide +kernel⟩,
   ⟨ctxA, { wSet [(R.MC_STATUS_state 0, 2)] with mc0 := { (default : Motor) with tests := 1 } }, 0, [1, 1, 1, 1, 1, 1], 0, 0, 0, 6, 0, by decide +kernel⟩⟩

theorem test_meets_MotorAndStageCommandsComplete_3 :
    (∃ (c : Ctx) (l : Lane) (ch : Fin 2) (is : List W40) (g : W40), (l.alive = true) ∧ (ch.val < motorCount c.part.member) ∧ (l.mcState ch.val ≠ mcPulse ∨ |qr (qv g)| ≤ l.stillSpeed ch.val ∧ l.pulsesOver c ch.val is = false)) ∧
    (∃ (c : Ctx) (l : Lane) (ch : Fin 2) (t : Nat), (l.alive = true) ∧ (ch.val < motorCount c.part.member) ∧ ((l.mc ch.val).losAt = some t) ∧ ((l.mc ch.val).losOpen = true) ∧ (t + 20000000 ≤ c.now) ∧ (l.mcState ch.val = mcCatch ∨ l.mcState ch.val = mcPulse)) ∧
    (∃ (c : Ctx) (l : Lane) (ch : Fin 2), (l.alive = true) ∧ (ch.val < motorCount c.part.member) ∧ ((l.mc ch.val).losOpen = false)) ∧
    (∃ (c : Ctx) (l : Lane) (ch : Fin 2) (v : Word), (l.alive = true) ∧ (ch.val < motorCount c.part.member) ∧ (16 ≤ v.toNat % 256) ∧ (v.toNat % 256 ≤ v.toNat / 256 % 256)) ∧
    (∃ (c : Ctx) (l : Lane) (ch : Fin 2) (v : Word), (l.alive = true) ∧ (ch.val < motorCount c.part.member) ∧ (v.toNat % 256 < 16 ∨ v.toNat / 256 % 256 < v.toNat % 256)) ∧
    (∃ (c : Ctx) (l : Lane) (ch : Fin 2) (v : Word), (l.alive = true) ∧ (motorCount c.part.member ≤ ch.val)) ∧
    (∃ (c : Ctx) (l : Lane) (ch : Fin 2) (on : Bool), (l.alive = true) ∧ (motorCount c.part.member ≤ ch.val)) ∧
    (∃ (c : Ctx) (l : Lane) (ch : Fin 2) (k : Fin 10) (w : BitVec 3) (st : Bool), (l.alive = true) ∧ (ch.val < motorCount c.part.member) ∧ (l.bridgeCan c ch.val k.val w.toNat = false)) :=
  ⟨⟨ctxA, wReady [], 0, [], 0, by decide⟩,
   ⟨⟨⟨.ts8630, true⟩, .a, 20000000⟩, { wSet [(R.MC_STATUS_state 0, 1)] with mc0 := { (default : Motor) with losAt := some 0, losOpen := true } }, 0, 0, by decide⟩,
   ⟨ctxA, wReady [], 0, by decide⟩,
   ⟨ctxA, wReady [], 0, 0x51010, by decide⟩,
   ⟨ctxA, wReady [], 0, 0x100F, by decide⟩,
   ⟨ctxTwo, wReady [], 1, 0x1010, by decide⟩,
   ⟨ctxTwo, wReady [], 1, true, by decide⟩,
   ⟨ctxA, wReady [], 0, 4, 7, false, by decide⟩⟩

theorem test_meets_MotorAndStageCommandsComplete_4 :
    (∃ (c : Ctx) (l : Lane) (ch : Fin 2) (k : Fin 10) (w : BitVec 3) (st : Bool), (l.alive = true) ∧ (ch.val < motorCount c.part.member) ∧ (l.bridgeCan c ch.val k.val w.toNat = true) ∧ (k.val = 2 ∨ k.val = 4 ∨ k.val = 5 ∨ k.val = 7) ∧ (l.role = roleUnfit)) ∧
    (∃ (c : Ctx) (l : Lane) (ch : Fin 2) (k : Fin 10) (w : BitVec 3) (st : Bool), (l.alive = true) ∧ (ch.val < motorCount c.part.member) ∧ (l.bridgeCan c ch.val k.val w.toNat = true)) ∧
    (∃ (c : Ctx) (l : Lane) (ch : Fin 2), (l.alive = true) ∧ (ch.val < motorCount c.part.member)) ∧
    (∃ (c : Ctx) (l : Lane) (ch : Fin 2), (l.alive = true) ∧ (ch.val < motorCount c.part.member)) ∧
    (∃ (c : Ctx) (l : Lane) (ch : Fin 2), (l.alive = true) ∧ (ch.val < motorCount c.part.member) ∧ ((l.mc ch.val).badCut = 0) ∧ ((l.mc ch.val).badLogic < 2)) ∧
    (∃ (c : Ctx) (l : Lane) (ch : Fin 2), (l.alive = true) ∧ (ch.val < motorCount c.part.member) ∧ ((l.mc ch.val).badLogic = 1)) ∧
    (∃ (c : Ctx) (l : Lane) (ch : Fin 2) (v : Word), (l.alive = true) ∧ (ch.val < motorCount c.part.member) ∧ (v.getLsbD 1 = false) ∧ (l.bit (R.PS_CTRL_asc_test ch.val) = true) ∧ (l.bit (R.PS_STATUS_asc ch.val) = true) ∧ (l.mcState ch.val = mcAsc) ∧ ((l.put (R.PS_CTRL_asc_test ch.val) 0).ascOtherwise ch.val = false)) ∧
    (∃ (c : Ctx) (l : Lane) (ch : Fin 2) (v : Word), (l.alive = true) ∧ (ch.val < motorCount c.part.member) ∧ (v.getLsbD 1 = true) ∧ (l.active = false) ∧ (l.parked = true) ∧ (l.unitsHalt = false) ∧ (l.bit (R.PS_CTRL_asc_test ch.val) = false) ∧ ((l.put (R.PS_CTRL_asc_test ch.val) 1).ascPowered ch.val (l.bit (R.PS_CFG_asc_high ch.val)) = true) ∧ ((l.put (R.PS_CTRL_asc_test ch.val) 1).wantsCut ch.val = false)) :=
  ⟨⟨ctxA, wSet [(R.LM_ROLE_role, 2), (R.MC_STATUS_state 0, 3)], 0, 2, 5, false, by decide⟩,
   ⟨ctxA, wReady [], 0, 3, 2, false, by decide⟩,
   ⟨ctxA, wReady [], 0, by decide⟩,
   ⟨ctxA, wReady [], 0, by decide⟩,
   ⟨ctxA, wReady [], 0, by decide⟩,
   ⟨ctxA, { wReady [] with mc0 := { (default : Motor) with badLogic := 1 } }, 0, by decide⟩,
   ⟨ctxA, wSet [(R.PS_CTRL_asc_test 0, 1), (R.PS_STATUS_asc 0, 1), (R.MC_STATUS_state 0, 4)], 0, 0, by decide⟩,
   ⟨ctxA, wSet [(R.FC_MODE_parked, 1), (R.PS_VG_mv 0, 12000)], 0, 2, by decide⟩⟩

theorem test_meets_MotorAndStageCommandsComplete_5 :
    (∃ (c : Ctx) (l : Lane) (ch : Fin 2) (v : Word), (l.alive = true) ∧ (ch.val < motorCount c.part.member) ∧ (v.getLsbD 1 = true) ∧ (l.active = false) ∧ (l.parked = true) ∧ (l.unitsHalt = false) ∧ (l.bit (R.PS_CTRL_asc_test ch.val) = false) ∧ ((l.put (R.PS_CTRL_asc_test ch.val) 1).ascPowered ch.val (l.bit (R.PS_CFG_asc_high ch.val)) = false)) ∧
    (∃ (c : Ctx) (l : Lane) (ch : Fin 2) (v : Word), (l.alive = true) ∧ (ch.val < motorCount c.part.member) ∧ (v.getLsbD 0 = false)) ∧
    (∃ (c : Ctx) (l : Lane) (ch : Fin 2) (v : Word), (l.alive = true) ∧ (ch.val < motorCount c.part.member) ∧ (v.getLsbD 0 = true) ∧ (l.active = false) ∧ (l.parked = true) ∧ (l.unitsHalt = false)) ∧
    (∃ (c : Ctx) (l : Lane) (ch : Fin 2), (l.alive = true) ∧ (ch.val < motorCount c.part.member) ∧ (l.bit (R.PS_STATUS_chop_on ch.val) = false)) ∧
    (∃ (c : Ctx) (l : Lane) (ch : Fin 2), (l.alive = true) ∧ (ch.val < motorCount c.part.member) ∧ (l.bit (R.PS_STATUS_chop_on ch.val) = true)) ∧
    (∃ (c : Ctx) (l : Lane) (ch : Fin 2) (v : W40), (l.alive = true) ∧ (ch.val < motorCount c.part.member) ∧ (l.bit (R.PS_STATUS_chop_on ch.val) = true) ∧ (if (l.mc ch.val).chopTest then (l.mc ch.val).chopAt + 10000 ≤ c.now else qv v < l.q (R.PS_V_CHOP_ON ch.val) - l.q (R.PS_V_CHOP_HYST ch.val) ∧ (l.mc ch.val).chopAt + 2000 ≤ c.now)) ∧
    (∃ (c : Ctx) (l : Lane) (ch : Fin 2) (v : W40), (l.alive = true) ∧ (ch.val < motorCount c.part.member) ∧ (l.bit (R.PS_STATUS_chop_on ch.val) = false ∨ (l.mc ch.val).chopTest = true ∧ c.now < (l.mc ch.val).chopAt + 10000 ∨ (l.mc ch.val).chopTest = false ∧ (l.q (R.PS_V_CHOP_ON ch.val) - l.q (R.PS_V_CHOP_HYST ch.val) ≤ qv v ∨ c.now < (l.mc ch.val).chopAt + 2000))) ∧
    (∃ (c : Ctx) (l : Lane) (ch : Fin 2) (v : W40), (l.alive = true) ∧ (ch.val < motorCount c.part.member) ∧ (l.bit (R.PS_STATUS_chop_on ch.val) = false) ∧ ((l.mc ch.val).chopUntested = true ∨ (l.mc ch.val).chopAt + 1000000000 ≤ c.now) ∧ (12 * qOne ≤ qv v)) :=
  ⟨⟨ctxA, wSet [(R.FC_MODE_parked, 1)], 0, 2, by decide⟩,
   ⟨ctxA, wReady [], 0, 2, by decide⟩,
   ⟨ctxA, wSet [(R.FC_MODE_parked, 1)], 0, 1, by decide⟩,
   ⟨ctxA, wReady [], 0, by decide⟩,
   ⟨ctxA, wSet [(R.PS_STATUS_chop_on 0, 1)], 0, by decide⟩,
   ⟨⟨⟨.ts8630, true⟩, .a, 2000⟩, wSet [(R.PS_STATUS_chop_on 0, 1), (⟨R.PS_V_CHOP_ON 0, 31, 0⟩, 8)], 0, 7, by decide⟩,
   ⟨ctxA, wReady [], 0, 7, by decide⟩,
   ⟨⟨⟨.ts8630, true⟩, .a, 1000000000⟩, wReady [], 0, 0xC000000, by decide⟩⟩

theorem test_meets_MotorAndStageCommandsComplete_6 :
    (∃ (c : Ctx) (l : Lane) (ch : Fin 2) (v : W40), (l.alive = true) ∧ (ch.val < motorCount c.part.member) ∧ (l.bit (R.PS_STATUS_chop_on ch.val) = true ∨ (l.mc ch.val).chopUntested = false ∧ c.now < (l.mc ch.val).chopAt + 1000000000 ∨ qv v < 12 * qOne)) ∧
    (∃ (c : Ctx) (l : Lane) (ch : Fin 2) (v i : W40), (l.alive = true) ∧ (ch.val < motorCount c.part.member) ∧ (c.now < (l.mc ch.val).chopAt + 5000)) ∧
    (∃ (c : Ctx) (l : Lane) (ch : Fin 2) (v i : W40), (l.alive = true) ∧ (ch.val < motorCount c.part.member) ∧ ((l.mc ch.val).chopAt + 5000 ≤ c.now) ∧ (l.bit (R.PS_STATUS_chop_on ch.val) = false) ∧ (qv i < l.q (R.PS_I_CHOP_MIN ch.val))) ∧
    (∃ (c : Ctx) (l : Lane) (ch : Fin 2) (v i : W40), (l.alive = true) ∧ (ch.val < motorCount c.part.member) ∧ ((l.mc ch.val).chopAt + 5000 ≤ c.now) ∧ (l.bit (R.PS_STATUS_chop_on ch.val) = true) ∧ (l.chopPasses ch.val true (qv v) (qv i) = false) ∧ ((l.mc ch.val).chopBadOn = 1)) ∧
    (∃ (c : Ctx) (l : Lane) (ch : Fin 2), (l.alive = true) ∧ (ch.val < motorCount c.part.member) ∧ ((l.mc ch.val).ascKind9 = true)) ∧
    (∃ (c : Ctx) (l : Lane) (ch : Fin 2) (x : LaneId), (l.alive = true) ∧ (ch.val < motorCount c.part.member) ∧ ((l.mc ch.val).ascKind9 = false) ∧ (l.holdsBaton c = true) ∧ ((((l.put (R.PS_STATUS_ovp_active ch.val) 1).flag (R.PS_FLAGS_ovp ch.val)).shortSet c ch.val).nextFit c = some x)) ∧
    (∃ (c : Ctx) (l : Lane) (ch : Fin 2), (l.alive = true) ∧ (ch.val < motorCount c.part.member) ∧ ((l.mc ch.val).ascKind9 = false) ∧ (l.role = roleUnfit) ∧ (l.bit (R.PS_STATUS_asc ch.val) = false)) ∧
    (∃ (c : Ctx) (l : Lane) (ch : Fin 2), (l.alive = true) ∧ (ch.val < motorCount c.part.member) ∧ (l.active = false) ∧ ((l.mc ch.val).ascKind9 = true) ∧ (l.q (R.PS_VDC ch.val) < l.q (R.PS_V_OVP ch.val) - 2 * qOne)) :=
  ⟨⟨ctxA, wReady [], 0, 0, by decide⟩,
   ⟨ctxA, wReady [], 0, 0, 0, by decide⟩,
   ⟨⟨⟨.ts8630, true⟩, .a, 5000⟩, wSet [(⟨R.PS_I_CHOP_MIN 0, 31, 0⟩, 8)], 0, 0, 7, by decide⟩,
   ⟨⟨⟨.ts8630, true⟩, .a, 5000⟩, { wSet [(R.PS_STATUS_chop_on 0, 1), (⟨R.PS_R_CHOP 0, 31, 0⟩, 0x1000000)] with mc0 := { (default : Motor) with chopBadOn := 1 } }, 0, 0x1000000, 0, by decide +kernel⟩,
   ⟨ctxA, { wSet [(R.PS_STATUS_fault 0, 1)] with mc0 := { (default : Motor) with ascKind9 := true } }, 0, by decide⟩,
   ⟨ctxA, wSet [(R.LM_ROLE_role, 1), (R.LM_ROLE_fit_lanes, 3)], 0, .b, by decide⟩,
   ⟨ctxA, wSet [(R.LM_ROLE_role, 2)], 0, by decide⟩,
   ⟨ctxA, { wSet [(⟨R.PS_V_OVP 0, 31, 0⟩, 0x3000000)] with mc0 := { (default : Motor) with ascKind9 := true } }, 0, by decide⟩⟩

theorem test_meets_MotorAndStageCommandsComplete_7 :
    ∃ (c : Ctx) (l : Lane) (ch : Fin 2), (l.alive = true) ∧ (ch.val < motorCount c.part.member) ∧ (l.active = true ∨ (l.mc ch.val).ascKind9 = false ∨ l.q (R.PS_V_OVP ch.val) - 2 * qOne ≤ l.q (R.PS_VDC ch.val)) :=
  ⟨ctxA, wReady [], 0, by decide⟩

theorem test_meets_TestRequestsNeedParkedStandby :
    (∃ (c : Ctx) (l : Lane) (ch : Fin 2) (v : Word), (l.alive = true) ∧ (ch.val < motorCount c.part.member) ∧ (v.getLsbD 1 = true) ∧ (l.active = true ∨ l.parked = false ∨ l.unitsHalt = true)) ∧
    (∃ (c : Ctx) (l : Lane) (ch : Fin 2) (v : Word), (l.alive = true) ∧ (ch.val < motorCount c.part.member) ∧ (v.getLsbD 0 = true) ∧ (l.active = true ∨ l.parked = false ∨ l.unitsHalt = true)) ∧
    (∃ (c : Ctx) (l : Lane) (ch : Fin 2) (v : Word), (l.alive = true) ∧ (ch.val < motorCount c.part.member) ∧ (v.getLsbD 1 = true) ∧ (l.active = false) ∧ (l.parked = true) ∧ (l.unitsHalt = false)) ∧
    (∃ (c : Ctx) (l : Lane) (ch : Fin 2) (v : Word), (l.alive = true) ∧ (ch.val < motorCount c.part.member) ∧ (v.getLsbD 0 = true) ∧ (l.active = false) ∧ (l.parked = true) ∧ (l.unitsHalt = false)) :=
  ⟨⟨ctxA, wReady [], 1, 2, by decide⟩,
   ⟨ctxA, wReady [], 1, 3, by decide⟩,
   ⟨ctxA, wSet [(R.FC_MODE_parked, 1)], 0, 2, by decide⟩,
   ⟨ctxA, wSet [(R.FC_MODE_parked, 1), (R.PS_CTRL_asc_test 0, 1)], 0, 1, by decide⟩⟩

theorem test_meets_SteeringAndBrakingCommandsComplete_1 :
    (∃ (c : Ctx) (l : Lane), (l.alive = true) ∧ (l.bk.queue.filter l.isDue = [])) ∧
    (∃ (c : Ctx) (l : Lane), (l.alive = true) ∧ (l.bk.queue.filter l.isDue = [])) ∧
    (∃ (c : Ctx) (l : Lane), (l.alive = true) ∧ (l.bk.queue.filter l.isDue = [])) ∧
    (∃ (c : Ctx) (l : Lane), (l.alive = true) ∧ (l.bk.queue.filter l.isDue = [])) ∧
    (∃ (c : Ctx) (l : Lane) (r : DemandRec), (l.alive = true) ∧ (l.bk.queue = [r]) ∧ (l.isDue r = true) ∧ (demMode r.words = 1) ∧ (l.inAge r = false)) ∧
    (∃ (c : Ctx) (l : Lane) (r : DemandRec), (l.alive = true) ∧ (l.bk.queue = [r]) ∧ (l.isDue r = true) ∧ (demMode r.words = 2) ∧ (l.inAge r = false)) ∧
    (∃ (c : Ctx) (l : Lane) (r : DemandRec), (l.alive = true) ∧ (l.bk.queue = [r]) ∧ (l.isDue r = true) ∧ (demMode r.words = 3) ∧ (l.inAge r = false)) ∧
    (∃ (c : Ctx) (l : Lane) (r : DemandRec), (l.alive = true) ∧ (l.bk.queue = [r]) ∧ (l.isDue r = true) ∧ (demMode r.words = 4) ∧ (l.inAge r = false)) :=
  ⟨⟨ctxA, wReady [], by decide⟩,
   ⟨ctxA, wReady [], by decide⟩,
   ⟨ctxA, wReady [], by decide⟩,
   ⟨ctxA, wReady [], by decide⟩,
   ⟨ctxA, { wDemand (wReady []) 1 with tm := 5 * 2 ^ 32 }, _, by decide, rfl, by decide⟩,
   ⟨ctxA, { wDemand (wReady []) 2 with tm := 5 * 2 ^ 32 }, _, by decide, rfl, by decide⟩,
   ⟨ctxA, { wDemand (wReady []) 3 with tm := 5 * 2 ^ 32 }, _, by decide, rfl, by decide⟩,
   ⟨ctxA, { wDemand (wReady []) 4 with tm := 5 * 2 ^ 32 }, _, by decide, rfl, by decide⟩⟩

theorem test_meets_SteeringAndBrakingCommandsComplete_2 :
    (∃ (c : Ctx) (l : Lane) (r : DemandRec), (l.alive = true) ∧ (l.bk.queue = [r]) ∧ (l.isDue r = true) ∧ (l.inAge r = true) ∧ (demMode r.words = 1) ∧ (l.st.ready = true) ∧ (l.get R.PW_STATUS_state = 0) ∧ (l.fc.starving = false) ∧ (l.get R.FC_MODE_mode ≠ 6) ∧ (l.get R.FC_MODE_mode ≠ 4)) ∧
    (∃ (c : Ctx) (l : Lane) (r : DemandRec), (l.alive = true) ∧ (l.bk.queue = [r]) ∧ (l.isDue r = true) ∧ (l.inAge r = true) ∧ (demMode r.words = 1) ∧ (l.st.ready = true) ∧ (l.get R.PW_STATUS_state = 0) ∧ (l.get R.FC_MODE_mode = 6 ∨ l.get R.FC_MODE_mode = 4)) ∧
    (∃ (c : Ctx) (l : Lane) (r : DemandRec), (l.alive = true) ∧ (l.bk.queue = [r]) ∧ (l.isDue r = true) ∧ (l.inAge r = true) ∧ (demMode r.words = 2) ∧ (l.st.ready = true) ∧ (l.get R.PW_STATUS_state = 0) ∧ (l.fc.starving = false) ∧ (l.get R.FC_MODE_mode ≠ 6) ∧ (l.get R.FC_MODE_mode ≠ 4) ∧ (l.engaged = true)) ∧
    (∃ (c : Ctx) (l : Lane) (r : DemandRec), (l.alive = true) ∧ (l.bk.queue = [r]) ∧ (l.isDue r = true) ∧ (l.inAge r = true) ∧ (demMode r.words = 2) ∧ (l.st.ready = true) ∧ (l.get R.PW_STATUS_state = 0) ∧ (l.fc.starving = false) ∧ (l.get R.FC_MODE_mode ≠ 6) ∧ (l.get R.FC_MODE_mode ≠ 4) ∧ (l.engaged = false)) ∧
    (∃ (c : Ctx) (l : Lane) (r : DemandRec), (l.alive = true) ∧ (l.bk.queue = [r]) ∧ (l.isDue r = true) ∧ (l.inAge r = true) ∧ (demMode r.words = 3) ∧ (l.st.ready = true) ∧ (l.get R.PW_STATUS_state = 0) ∧ (l.fc.starving = false) ∧ (l.get R.FC_MODE_mode ≠ 6) ∧ (l.get R.FC_MODE_mode ≠ 4) ∧ (l.engaged = true) ∧ (l.get R.BK_PARK_state ≠ 4) ∧ (l.demInForce ≠ 3)) ∧
    (∃ (c : Ctx) (l : Lane) (r : DemandRec), (l.alive = true) ∧ (l.bk.queue = [r]) ∧ (l.isDue r = true) ∧ (l.inAge r = true) ∧ (demMode r.words = 3) ∧ (l.st.ready = true) ∧ (l.get R.PW_STATUS_state = 0) ∧ (l.fc.starving = false) ∧ (l.get R.FC_MODE_mode ≠ 6) ∧ (l.get R.FC_MODE_mode ≠ 4) ∧ (l.engaged = true) ∧ (l.get R.BK_PARK_state = 4)) ∧
    (∃ (c : Ctx) (l : Lane) (r : DemandRec), (l.alive = true) ∧ (l.bk.queue = [r]) ∧ (l.isDue r = true) ∧ (l.inAge r = true) ∧ (demMode r.words = 4) ∧ (l.st.ready = true) ∧ (l.get R.PW_STATUS_state = 0) ∧ (l.fc.starving = false) ∧ (l.get R.FC_MODE_mode ≠ 6) ∧ (l.get R.FC_MODE_mode ≠ 4) ∧ (l.engaged = true)) ∧
    (∃ (c : Ctx) (l : Lane), (l.alive = true) ∧ ((l.conn l.image.lib.speedConn).held = true) ∧ ((wordAt (l.conn l.image.lib.speedConn).payload 2).getLsbD 0 = true) ∧ (sdiff l.stamp (l.rd (R.SE_Cc_STAMP l.image.lib.speedConn)) ≤ ((l.rd (R.SE_Cc_MAX_AGE l.image.lib.speedConn)).toNat : Int))) :=
  ⟨⟨ctxA, wDemand (wSet [(R.LM_ROLE_role, 1)]) 1, _, by decide, rfl, by decide⟩,
   ⟨ctxA, wDemand (wSet [(R.FC_MODE_mode, 6)]) 1, _, by decide, rfl, by decide⟩,
   ⟨ctxA, wDemand (wSet [(R.BK_STATUS_engaged, 1)]) 2, _, by decide, rfl, by decide⟩,
   ⟨ctxA, wDemand (wSet []) 2, _, by decide, rfl, by decide⟩,
   ⟨ctxA, wDemand (wSet [(R.BK_STATUS_engaged, 1)]) 3, _, by decide, rfl, by decide⟩,
   ⟨ctxA, wDemand (wSet [(R.BK_STATUS_engaged, 1), (R.BK_PARK_state, 4)]) 3, _, by decide, rfl, by decide⟩,
   ⟨ctxA, wDemand (wSet [(R.BK_STATUS_engaged, 1)]) 4, _, by decide, rfl, by decide⟩,
   ⟨ctxA, { wReady [] with se := [(0, ⟨[0, 0xFF, 1], 0, true, false, 0, none, none, [], 0, none, 0, 0, []⟩)] }, by decide⟩⟩

theorem test_meets_SteeringAndBrakingCommandsComplete_3 :
    (∃ (c : Ctx) (l : Lane), (l.alive = true) ∧ ((l.conn l.image.lib.speedConn).held = false ∨ (wordAt (l.conn l.image.lib.speedConn).payload 2).getLsbD 0 = false ∨ ((l.rd (R.SE_Cc_MAX_AGE l.image.lib.speedConn)).toNat : Int) < sdiff l.stamp (l.rd (R.SE_Cc_STAMP l.image.lib.speedConn)))) ∧
    (∃ (c : Ctx) (l : Lane), (l.alive = true) ∧ (l.bit R.BK_STATUS_speed_valid = true) ∧ (((l.rd (R.SE_Cc_MAX_AGE l.image.lib.speedConn)).toNat : Int) < sdiff l.stamp l.bk.speedStamp)) ∧
    (∃ (c : Ctx) (l : Lane), (l.alive = true) ∧ (l.bit R.BK_STATUS_speed_valid = false ∨ sdiff l.stamp l.bk.speedStamp ≤ ((l.rd (R.SE_Cc_MAX_AGE l.image.lib.speedConn)).toNat : Int))) ∧
    (∃ (c : Ctx) (l : Lane) (t : Nat), (l.alive = true) ∧ (l.bk.takeover = false) ∧ (l.bk.overAt = some t) ∧ (t + 200000000 ≤ c.now)) ∧
    (∃ (c : Ctx) (l : Lane) (t : Nat), (l.alive = true) ∧ (l.bk.takeover = true) ∧ (l.bk.underAt = some t) ∧ (t + 200000000 ≤ c.now)) ∧
    (∃ (c : Ctx) (l : Lane) (on : Bool), (l.alive = true) ∧ (on = l.bk.takeover)) ∧
    (∃ (c : Ctx) (l : Lane) (n : Fin 6) (k : Fin 4), (l.alive = true) ∧ (k.val = 1 ∨ (2 ≤ k.val ∧ l.latchHold.getLsbD n.val = false)) ∧ (l.bit (R.BKn_STATUS_fault n.val) = false) ∧ (n.val < solenoidCount c.part.member) ∧ (l.get (R.BKn_CFG_role n.val) = 0 ∨ l.get (R.BKn_CFG_role n.val) = 4 ∨ l.role = roleUnfit)) ∧
    (∃ (c : Ctx) (l : Lane) (n : Fin 6) (k : Fin 4), (l.alive = true) ∧ (k.val = 0 ∨ (2 ≤ k.val ∧ l.latchHold.getLsbD n.val = true) ∨ l.bit (R.BKn_STATUS_fault n.val) = true ∨ solenoidCount c.part.member ≤ n.val)) :=
  ⟨⟨ctxA, wReady [], by decide⟩,
   ⟨ctxA, { wSet [(R.BK_STATUS_speed_valid, 1)] with tm := 5 * 2 ^ 32 }, by decide⟩,
   ⟨ctxA, wReady [], by decide⟩,
   ⟨⟨⟨.ts8630, true⟩, .a, 200000000⟩, { wReady [] with bk := { (default : Brake) with overAt := some 0 } }, 0, by decide⟩,
   ⟨⟨⟨.ts8630, true⟩, .a, 200000000⟩, { wReady [] with bk := { (default : Brake) with takeover := true, underAt := some 0 } }, 0, by decide⟩,
   ⟨ctxA, wReady [], false, by decide⟩,
   ⟨ctxA, { wReady [] with stageOn := 0xFF }, 5, 2, by decide⟩,
   ⟨ctxTwo, wReady [], 5, 1, by decide⟩⟩

theorem test_meets_SteeringAndBrakingCommandsComplete_4 :
    (∃ (c : Ctx) (l : Lane) (n : Fin 6) (i : W40), (l.alive = true) ∧ (l.standby = true) ∧ (tabGet l.bk.lastTest n.val = none) ∧ (l.get (R.BKn_CFG_role n.val) ≠ 0) ∧ (l.bit (R.BKn_STATUS_fault n.val) = false) ∧ (n.val < solenoidCount c.part.member) ∧ (mkRat 20 1000 ≤ qr (qv i))) ∧
    (∃ (c : Ctx) (l : Lane) (n : Fin 6) (i : W40), (l.alive = true) ∧ (l.standby = true) ∧ (tabGet l.bk.lastTest n.val = none) ∧ (l.get (R.BKn_CFG_role n.val) ≠ 0) ∧ (l.bit (R.BKn_STATUS_fault n.val) = false) ∧ (n.val < solenoidCount c.part.member) ∧ (qr (qv i) < mkRat 20 1000)) ∧
    (∃ (c : Ctx) (l : Lane) (n : Fin 6) (i : W40), (l.alive = true) ∧ (l.standby = false ∨ l.get (R.BKn_CFG_role n.val) = 0 ∨ l.bit (R.BKn_STATUS_fault n.val) = true ∨ solenoidCount c.part.member ≤ n.val)) ∧
    (∃ (c : Ctx) (l : Lane) (n : Fin 6) (v : Word), (l.alive = true) ∧ (n.val < solenoidCount c.part.member) ∧ (v.toNat % 65536 ≤ v.toNat / 65536) ∧ (v.toNat / 65536 ≤ 500)) ∧
    (∃ (c : Ctx) (l : Lane) (n : Fin 6) (v : Word), (l.alive = true) ∧ (n.val < solenoidCount c.part.member) ∧ (v.toNat / 65536 < v.toNat % 65536 ∨ 500 < v.toNat / 65536)) ∧
    (∃ (c : Ctx) (l : Lane) (n : Fin 6) (v : Word), (l.alive = true) ∧ (solenoidCount c.part.member ≤ n.val)) ∧
    (∃ (c : Ctx) (l : Lane), (l.alive = true) ∧ (l.get R.BK_PARK_state = 1) ∧ (l.parkDue c = true)) ∧
    (∃ (c : Ctx) (l : Lane), (l.alive = true) ∧ (l.get R.BK_PARK_state ≠ 1 ∨ l.parkDue c = false)) :=
  ⟨⟨ctxA, wSet [(R.BKn_CFG_role 0, 1)], 0, 0x100000, by decide +kernel⟩,
   ⟨ctxA, wSet [(R.BKn_CFG_role 0, 1)], 0, 0, by decide +kernel⟩,
   ⟨ctxA, wReady [], 0, 0, by decide⟩,
   ⟨ctxA, wReady [], 5, 0x01F401F4, by decide⟩,
   ⟨ctxA, wReady [], 5, 0x01F50000, by decide⟩,
   ⟨ctxTwo, wReady [], 4, 0, by decide⟩,
   ⟨⟨⟨.ts8630, true⟩, .a, 300000000⟩, { wSet [(R.BK_PARK_state, 1)] with bk := { (default : Brake) with still := true } }, by decide⟩,
   ⟨ctxA, wReady [], by decide⟩⟩

theorem test_meets_SteeringAndBrakingCommandsComplete_5 :
    (∃ (c : Ctx) (l : Lane), (l.alive = true) ∧ (l.get R.BK_PARK_state = 1) ∧ (l.bk.parkAt + l.image.lib.tRelMax ≤ c.now)) ∧
    (∃ (c : Ctx) (l : Lane), (l.alive = true) ∧ (l.get R.BK_PARK_state ≠ 1 ∨ c.now < l.bk.parkAt + l.image.lib.tRelMax)) ∧
    (∃ (c : Ctx) (l : Lane), (l.alive = true) ∧ (l.get R.BK_PARK_state = 2) ∧ (l.bk.still = true) ∧ (l.demInForce = 3)) ∧
    (∃ (c : Ctx) (l : Lane), (l.alive = true) ∧ (l.get R.BK_PARK_state ≠ 2 ∨ l.bk.still = false)) ∧
    (∃ (c : Ctx) (l : Lane), (l.alive = true) ∧ (l.get R.BK_PARK_state = 3) ∧ (l.parkDue c = true)) ∧
    (∃ (c : Ctx) (l : Lane), (l.alive = true) ∧ (l.get R.BK_PARK_state ≠ 3 ∨ l.parkDue c = false)) ∧
    (∃ (c : Ctx) (l : Lane), (l.alive = true) ∧ (l.fit = true)) ∧
    (∃ (c : Ctx) (l : Lane), (l.alive = true) ∧ (l.fit = false)) :=
  ⟨⟨⟨⟨.ts8630, true⟩, .a, 1⟩, { wSet [(R.BK_PARK_state, 1)] with bk := { (default : Brake) with still := true } }, by decide⟩,
   ⟨ctxA, wReady [], by decide⟩,
   ⟨⟨⟨.ts8630, true⟩, .a, 1⟩, { wSet [(R.BK_PARK_state, 2), (R.BK_STATUS_mode, 3)] with bk := { (default : Brake) with still := true } }, by decide⟩,
   ⟨ctxA, wReady [], by decide⟩,
   ⟨⟨⟨.ts8630, true⟩, .a, 300000000⟩, { wSet [(R.BK_PARK_state, 3)] with bk := { (default : Brake) with still := true } }, by decide⟩,
   ⟨ctxA, wReady [], by decide⟩,
   ⟨ctxA, wSet [(R.LM_ROLE_role, 1)], by decide⟩,
   ⟨ctxA, wSet [(R.LM_ROLE_role, 2)], by decide⟩⟩

theorem test_meets_StepperCommandsComplete_1 :
    (∃ (c : Ctx) (l : Lane) (n : Fin 4) (lv : BitVec 10) (t : Nat) (p : W40), (l.alive = true) ∧ (n.val < stepperCount c.part.member) ∧ ((l.stepper n.val).stepAt = some t) ∧ (l.dueAt (l.stepper n.val).stride t ≤ c.now) ∧ (l.maySteps c n.val = true) ∧ ((l.stepper n.val).braking = false) ∧ (l.homing n.val = false) ∧ ((l.stepper n.val).cmpLate = none) ∧ (p = l.pair (R.SPn_POS n.val) + BitVec.ofInt 40 ((l.stepper n.val).dlt * l.stepDir n.val)) ∧ (p.toNat / 256 = (l.pair (R.SPn_POS n.val)).toNat / 256)) ∧
    (∃ (c : Ctx) (l : Lane) (n : Fin 4) (lv : BitVec 10), (l.alive = true) ∧ (n.val < stepperCount c.part.member) ∧ (l.stepDue c n.val = true)) ∧
    (∃ (c : Ctx) (l : Lane) (n : Fin 4) (lv : BitVec 10), (l.alive = true) ∧ (l.stepDue c n.val = false ∨ stepperCount c.part.member ≤ n.val)) ∧
    (∃ (c : Ctx) (l : Lane) (n : Fin 4) (v lo : Word), (l.alive = true) ∧ (n.val < stepperCount c.part.member) ∧ (lo = (tabGet l.staging (R.SPn_TARGET n.val)).getD (l.rd (R.SPn_TARGET n.val))) ∧ (l.active = true) ∧ (l.spRole n.val = 3) ∧ (l.bit (R.SPn_STATUS_homing_required n.val) = false) ∧ (l.homing n.val = false) ∧ (l.beyondLimit n.val (v.setWidth 8 ++ lo) = false) ∧ (l.unitsHalt = false)) ∧
    (∃ (c : Ctx) (l : Lane) (n : Fin 4) (v lo : Word), (l.alive = true) ∧ (n.val < stepperCount c.part.member) ∧ (lo = (tabGet l.staging (R.SPn_TARGET n.val)).getD (l.rd (R.SPn_TARGET n.val))) ∧ (l.active = true) ∧ (l.spRole n.val = 3) ∧ (l.bit (R.SPn_STATUS_homing_required n.val) = true ∨ l.homing n.val = true ∨ l.beyondLimit n.val (v.setWidth 8 ++ lo) = true ∨ l.unitsHalt = true)) ∧
    (∃ (c : Ctx) (l : Lane) (n : Fin 4) (v : Word), (l.alive = true) ∧ (n.val < stepperCount c.part.member) ∧ (l.active = false ∨ l.spRole n.val ≠ 3)) ∧
    (∃ (c : Ctx) (l : Lane) (n : Fin 4) (v : Word), (l.alive = true) ∧ (stepperCount c.part.member ≤ n.val)) ∧
    (∃ (c : Ctx) (l : Lane) (n : Fin 4), (l.alive = true) ∧ ((l.stepper n.val).v = 0) ∧ ((l.stepper n.val).lastStep + 100000000 ≤ c.now) ∧ ((l.stepper n.val).stalled = false) ∧ (l.latchHold.getLsbD (8 + n.val) = false)) :=
  ⟨⟨ctxA, wStepper [(⟨R.SPn_TARGET 0, 31, 0⟩, 64)] { wRest with dlt := 64, stride := 1000, vNext := 5, stepAt := some 0 }, 0, 0, 0, _, by decide, by decide, by decide, by decide, by decide, by decide, by decide, by decide, rfl, by decide⟩,
   ⟨ctxA, wStepper [] { wRest with stepAt := some 0 }, 0, 0, by decide⟩,
   ⟨ctxA, wReady [], 0, 0, by decide⟩,
   ⟨ctxA, { wSet [(R.LM_ROLE_role, 1), (R.SPn_CFG_role 0, 3), (⟨R.SPn_ACCEL 0, 31, 0⟩, 1000)] with staging := [(R.SPn_TARGET 0, 512)] }, 0, 0, 512, by decide +kernel⟩,
   ⟨ctxA, wSet [(R.LM_ROLE_role, 1), (R.SPn_CFG_role 0, 3), (R.SPn_STATUS_homing_required 0, 1)], 0, 0, 0, by decide⟩,
   ⟨ctxA, wReady [], 0, 0, by decide⟩,
   ⟨ctxTwo, wReady [], 2, 0, by decide⟩,
   ⟨⟨⟨.ts8630, true⟩, .a, 100000000⟩, wReady [], 0, by decide⟩⟩

theorem test_meets_StepperCommandsComplete_2 :
    (∃ (c : Ctx) (l : Lane) (n : Fin 4), (l.alive = true) ∧ ((l.stepper n.val).v ≠ 0 ∨ c.now < (l.stepper n.val).lastStep + 100000000 ∨ (l.stepper n.val).stalled = true ∨ l.latchHold.getLsbD (8 + n.val) = true)) ∧
    (∃ (c : Ctx) (l : Lane) (n : Fin 4) (k : Fin 4), (l.alive = true) ∧ (n.val < stepperCount c.part.member) ∧ (k.val ≠ 0) ∧ (l.bit (R.SPn_STATUS_fault n.val) = false) ∧ (l.spRole n.val ≠ 1)) ∧
    (∃ (c : Ctx) (l : Lane) (n k : Fin 4), (l.alive = true) ∧ (k.val = 0 ∨ l.bit (R.SPn_STATUS_fault n.val) = true ∨ stepperCount c.part.member ≤ n.val)) ∧
    (∃ (c : Ctx) (l : Lane) (n : Fin 4), (l.alive = true) ∧ (n.val < stepperCount c.part.member) ∧ (l.active = true) ∧ (l.spRole n.val ≠ 0) ∧ (l.homing n.val = false) ∧ (l.unitsHalt = false) ∧ (l.spRole n.val ≠ 1 ∨ l.bit R.BK_STATUS_engaged = false)) ∧
    (∃ (c : Ctx) (l : Lane) (n : Fin 4), (l.alive = true) ∧ (n.val < stepperCount c.part.member) ∧ (l.active = false ∨ l.spRole n.val = 0 ∨ l.homing n.val = true ∨ l.unitsHalt = true ∨ (l.spRole n.val = 1 ∧ l.bit R.BK_STATUS_engaged = true))) ∧
    (∃ (c : Ctx) (l : Lane) (n : Fin 4), (l.alive = true) ∧ (stepperCount c.part.member ≤ n.val)) ∧
    (∃ (c : Ctx) (l : Lane) (n : Fin 4), (l.alive = true) ∧ (n.val < stepperCount c.part.member) ∧ (l.active = true)) ∧
    (∃ (c : Ctx) (l : Lane) (n : Fin 4), (l.alive = true) ∧ (n.val < stepperCount c.part.member) ∧ (l.active = false)) :=
  ⟨⟨ctxA, wReady [], 0, by decide⟩,
   ⟨ctxA, { wReady [] with stageOn := 0xFFFF }, 3, 3, by decide⟩,
   ⟨ctxTwo, wReady [], 3, 1, by decide⟩,
   ⟨ctxA, wSet [(R.LM_ROLE_role, 1), (R.SPn_CFG_role 0, 2), (⟨R.SPn_ACCEL 0, 31, 0⟩, 1000)], 0, by decide⟩,
   ⟨ctxA, wReady [], 0, by decide⟩,
   ⟨ctxTwo, wReady [], 2, by decide⟩,
   ⟨ctxA, wSet [(R.LM_ROLE_role, 1)], 0, by decide⟩,
   ⟨ctxA, wReady [], 0, by decide⟩⟩

theorem test_meets_StepperCommandsComplete_3 :
    (∃ (c : Ctx) (l : Lane) (n : Fin 4), (l.alive = true) ∧ (stepperCount c.part.member ≤ n.val)) ∧
    (∃ (c : Ctx) (l : Lane) (n : Fin 4) (i : HomeInput) (a : Bool) (t : Word), (l.alive = true) ∧ (n.val < stepperCount c.part.member) ∧ (l.homePair n.val i ≤ 11) ∧ (l.edgeBack (l.homePair n.val i) (l.homeWin n.val) a t = true)) ∧
    (∃ (c : Ctx) (l : Lane) (n : Fin 4) (i : HomeInput) (a : Bool) (t : Word), (l.alive = true) ∧ (n.val < stepperCount c.part.member) ∧ (l.edgeBack (l.homePair n.val i) (l.homeWin n.val) a t = false)) ∧
    (∃ (c : Ctx) (l : Lane) (n : Fin 4) (i : HomeInput) (a : Bool) (t : Word), (l.alive = true) ∧ (n.val < stepperCount c.part.member) ∧ (l.edgeIs (l.homePair n.val i) a t = false ∨ sdiff l.stamp t < (l.homeWin n.val : Int))) ∧
    (∃ (c : Ctx) (l : Lane) (n : Fin 4) (i : HomeInput) (a : Bool) (t : Word), (l.alive = true) ∧ (n.val < stepperCount c.part.member) ∧ (l.homePair n.val i ≤ 11) ∧ (l.edgeIs (l.homePair n.val i) a t = true) ∧ ((l.homeWin n.val : Int) ≤ sdiff l.stamp t)) ∧
    (∃ (c : Ctx) (l : Lane) (n : Fin 4) (i : HomeInput) (a h : Bool) (t : Word), (l.alive = true) ∧ (11 < l.homePair n.val i)) ∧
    (∃ (c : Ctx) (l : Lane) (n : Fin 4) (i : HomeInput) (t : Word), (l.alive = true) ∧ (n.val < stepperCount c.part.member) ∧ (l.homePair n.val i ≤ 11) ∧ (l.edgeIs (l.homePair n.val i) true t = true) ∧ ((l.homeWin n.val : Int) ≤ sdiff l.stamp t) ∧ ((l.stepper n.val).edged = none) ∧ (l.homing n.val = true) ∧ (l.homePair n.val i ≠ l.get (R.SPn_HOME_CFG_target_in n.val))) ∧
    (∃ (c : Ctx) (l : Lane) (n : Fin 4) (t : Word), (l.alive = true) ∧ (n.val < stepperCount c.part.member) ∧ (l.homePair n.val .target ≤ 11) ∧ (l.edgeIs (l.homePair n.val .target) true t = true) ∧ ((l.homeWin n.val : Int) ≤ sdiff l.stamp t) ∧ (l.homeState n.val = homeSeek) ∧ (l.bit (R.SPn_STATUS_dir n.val) = false) ∧ (l.bit (R.SPn_HOME_CFG_home_dir n.val) = true)) :=
  ⟨⟨ctxTwo, wReady [], 2, by decide⟩,
   ⟨ctxA, wSet [(R.SPn_HOME_CFG_d_win 0, 5), (⟨R.SI_DIn_TIME 0, 31, 0⟩, 1)], 0, .target, true, 0, by decide⟩,
   ⟨ctxA, wReady [], 0, .target, true, 0, by decide⟩,
   ⟨ctxA, wSet [(R.SPn_HOME_CFG_d_win 0, 5)], 0, .target, true, 0, by decide⟩,
   ⟨ctxA, wReady [], 0, .target, false, 0, by decide⟩,
   ⟨ctxA, wSet [(R.SPn_HOME_CFG_neg_in 0, 15)], 0, .neg, true, true, 0, by decide⟩,
   ⟨ctxA, wStepper [(R.SPn_HOME_STAT_state 0, 2), (R.SPn_HOME_CFG_neg_in 0, 1), (R.SI_DIn_STAT_state 1, 1)] { wRest with v := 5, stepAt := some 3 }, 0, .neg, 0, by decide⟩,
   ⟨ctxA, wStepper [(R.SPn_HOME_STAT_state 0, 2), (R.SPn_HOME_CFG_home_dir 0, 1), (R.SI_DIn_STAT_state 0, 1)] { wRest with v := 5, stepAt := some 3 }, 0, 0, by decide⟩⟩

theorem test_meets_StepperCommandsComplete_4 :
    (∃ (c : Ctx) (l : Lane) (n : Fin 4), (l.alive = true) ∧ (0 < (l.stepper n.val).v) ∧ (l.homing n.val = false) ∧ (l.bit (R.SPn_STATUS_dir n.val) = false) ∧ (l.homePair n.val .pos ≤ 11) ∧ (l.bit (R.SI_DIn_STAT_state (l.homePair n.val .pos)) = true) ∧ ((l.homeWin n.val : Int) ≤ sdiff l.stamp (l.rd (R.SI_DIn_TIME (l.homePair n.val .pos))))) ∧
    (∃ (c : Ctx) (l : Lane) (n : Fin 4), (l.alive = true) ∧ (0 < (l.stepper n.val).v) ∧ (l.homing n.val = false) ∧ (l.bit (R.SPn_STATUS_dir n.val) = true) ∧ (l.homePair n.val .neg ≤ 11) ∧ (l.bit (R.SI_DIn_STAT_state (l.homePair n.val .neg)) = true) ∧ ((l.homeWin n.val : Int) ≤ sdiff l.stamp (l.rd (R.SI_DIn_TIME (l.homePair n.val .neg))))) ∧
    (∃ (c : Ctx) (l : Lane) (n : Fin 4), (l.alive = true) ∧ ((l.stepper n.val).v = 0 ∨ l.homing n.val = true)) ∧
    (∃ (c : Ctx) (l : Lane) (n : Fin 4) (v lo : Word) (q : W40), (l.alive = true) ∧ (n.val < stepperCount c.part.member) ∧ (lo = (tabGet l.staging (R.SPn_CMP n.val)).getD (l.rd (R.SPn_CMP n.val))) ∧ (q = v.setWidth 8 ++ lo) ∧ (l.stepDue c n.val = false) ∧ (0 < (l.stepper n.val).v) ∧ (0 < (q - l.pair (R.SPn_POS n.val)).toInt * l.stepDir n.val)) ∧
    (∃ (c : Ctx) (l : Lane) (n : Fin 4) (v lo : Word) (q : W40), (l.alive = true) ∧ (n.val < stepperCount c.part.member) ∧ (lo = (tabGet l.staging (R.SPn_CMP n.val)).getD (l.rd (R.SPn_CMP n.val))) ∧ (q = v.setWidth 8 ++ lo) ∧ (l.stepDue c n.val = false) ∧ (0 < (l.stepper n.val).v) ∧ ((q - l.pair (R.SPn_POS n.val)).toInt * l.stepDir n.val ≤ 0) ∧ (l.bit (R.SPn_CMP_CFG_fire_if_passed n.val) = true)) ∧
    (∃ (c : Ctx) (l : Lane) (n : Fin 4) (v lo : Word) (q : W40), (l.alive = true) ∧ (n.val < stepperCount c.part.member) ∧ (lo = (tabGet l.staging (R.SPn_CMP n.val)).getD (l.rd (R.SPn_CMP n.val))) ∧ (q = v.setWidth 8 ++ lo) ∧ (l.stepDue c n.val = false) ∧ (0 < (l.stepper n.val).v) ∧ ((q - l.pair (R.SPn_POS n.val)).toInt * l.stepDir n.val ≤ 0) ∧ (l.bit (R.SPn_CMP_CFG_fire_if_passed n.val) = false)) ∧
    (∃ (c : Ctx) (l : Lane) (n : Fin 4) (v lo : Word) (q : W40), (l.alive = true) ∧ (n.val < stepperCount c.part.member) ∧ (lo = (tabGet l.staging (R.SPn_CMP n.val)).getD (l.rd (R.SPn_CMP n.val))) ∧ (q = v.setWidth 8 ++ lo) ∧ (l.stepDue c n.val = false) ∧ ((l.stepper n.val).v = 0) ∧ (q ≠ l.pair (R.SPn_POS n.val))) ∧
    (∃ (c : Ctx) (l : Lane) (n : Fin 4) (v : Word), (l.alive = true) ∧ (n.val < stepperCount c.part.member) ∧ (l.stepDue c n.val = true)) :=
  ⟨⟨ctxA, wStepper [(R.SI_DIn_STAT_state 0, 1)] { wRest with v := 5 }, 0, by decide⟩,
   ⟨ctxA, wStepper [(R.SI_DIn_STAT_state 0, 1), (R.SPn_STATUS_dir 0, 1)] { wRest with v := 5 }, 0, by decide⟩,
   ⟨ctxA, wReady [], 0, by decide⟩,
   ⟨ctxA, { wStepper [] { wRest with v := 5 } with staging := [(R.SPn_CMP 0, 7)] }, 0, 0, 7, 7, by decide⟩,
   ⟨ctxA, wStepper [(R.SPn_CMP_CFG_fire_if_passed 0, 1), (R.SPn_STATUS_dir 0, 1)] { wRest with v := 5 }, 0, 0, 0, 0, by decide⟩,
   ⟨ctxA, wStepper [(R.SPn_STATUS_dir 0, 1)] { wRest with v := 5 }, 0, 0, 0, 0, by decide⟩,
   ⟨ctxA, wReady [], 0, 1, 0, 0x100000000, by decide⟩,
   ⟨ctxA, wStepper [] { wRest with stepAt := some 0 }, 0, 0, by decide⟩⟩

theorem test_meets_StepperCommandsComplete_5 :
    (∃ (c : Ctx) (l : Lane) (n : Fin 4) (v : Word), (l.alive = true) ∧ (stepperCount c.part.member ≤ n.val)) ∧
    (∃ (c : Ctx) (l : Lane) (n : Fin 4), (l.alive = true) ∧ (n.val < stepperCount c.part.member)) ∧
    (∃ (c : Ctx) (l : Lane) (n : Fin 4), (l.alive = true) ∧ (stepperCount c.part.member ≤ n.val)) ∧
    (∃ (c : Ctx) (l : Lane) (n : Fin 4) (v : Word), (l.alive = true) ∧ (n.val < stepperCount c.part.member) ∧ (100 ≤ v.toNat % 65536) ∧ (v.toNat % 65536 ≤ v.toNat / 65536) ∧ (v.toNat / 65536 ≤ l.get (R.SPn_I_LIMITS_i_ceil n.val))) ∧
    (∃ (c : Ctx) (l : Lane) (n : Fin 4) (v : Word), (l.alive = true) ∧ (n.val < stepperCount c.part.member) ∧ (v.toNat % 65536 < 100 ∨ v.toNat / 65536 < v.toNat % 65536 ∨ l.get (R.SPn_I_LIMITS_i_ceil n.val) < v.toNat / 65536)) ∧
    (∃ (c : Ctx) (l : Lane) (n : Fin 4) (v : Word), (l.alive = true) ∧ (stepperCount c.part.member ≤ n.val)) :=
  ⟨⟨ctxTwo, wReady [], 2, 0, by decide⟩,
   ⟨ctxA, wReady [], 0, by decide⟩,
   ⟨ctxTwo, wReady [], 2, by decide⟩,
   ⟨ctxA, wSet [(R.SPn_I_LIMITS_i_ceil 0, 4000)], 0, 0x01000064, by decide⟩,
   ⟨ctxA, wReady [], 0, 0, by decide⟩,
   ⟨ctxTwo, wReady [], 2, 0, by decide⟩⟩

theorem test_meets_SensorsAndOutputsCommandsComplete_1 :
    (∃ (c : Ctx) (l : Lane) (a b : SinCos), (l.alive = true) ∧ (l.bit R.PW_STATUS_pads_held = false)) ∧
    (∃ (c : Ctx) (l : Lane) (a b : SinCos), (l.alive = true) ∧ (l.bit R.PW_STATUS_pads_held = true)) ∧
    (∃ (c : Ctx) (l : Lane) (a b : SinCos), (l.alive = true) ∧ (l.get (R.AFn_CFG_mode 0) = 0) ∧ (l.get (R.AFn_CFG_mode 1) = 0)) ∧
    (∃ (c : Ctx) (l : Lane) (a b : SinCos) (sc : Int × Int) (d : Int), (l.alive = true) ∧ (l.bit R.PW_STATUS_pads_held = false) ∧ (l.get (R.AFn_CFG_mode 0) ≠ 0) ∧ (l.get (R.AFn_CFG_mode 1) = 0) ∧ (l.correctSample 0 a = sc) ∧ (l.get (R.AFn_MON_CFG_amp_lo 0) * l.get (R.AFn_NOMINAL_a_nom 0) ≤ radius sc.1 sc.2 * 256) ∧ (radius sc.1 sc.2 * 256 ≤ l.get (R.AFn_MON_CFG_amp_hi 0) * l.get (R.AFn_NOMINAL_a_nom 0)) ∧ (nearEnd a.s = false) ∧ (nearEnd a.c = false) ∧ (l.supplyOk c (l.get (R.AFn_CFG_supply 0)) = true) ∧ (l.afStarted 0 = true) ∧ (l.afExpired c 0 = false) ∧ (d = signed12 (l.fromZero 0 (phaseOf sc.1 sc.2) - (l.pair (R.AFn_POS 0)).toNat % 4096)) ∧ (d.natAbs ≤ 1024)) ∧
    (∃ (c : Ctx) (l : Lane) (n : Fin 2) (t : Nat), (l.alive = true) ∧ ((l.af n.val).invalidAt = some t) ∧ (t + l.get (R.AFn_FAULT_CFG_fault_us n.val) * 1000 < c.now) ∧ (l.bit (R.AFn_STATUS_sa_fault n.val) = false)) ∧
    (∃ (c : Ctx) (l : Lane) (n : Fin 2), (l.alive = true) ∧ ((l.af n.val).invalidAt = none ∨ l.bit (R.AFn_STATUS_sa_fault n.val) = true)) ∧
    (∃ (c : Ctx) (l : Lane) (n : Fin 2) (t : Nat), (l.alive = true) ∧ (l.si.checkFrom = some t) ∧ (t + 20000000 ≤ c.now) ∧ (l.get (R.AFn_CFG_mode n.val) ≠ 0) ∧ (l.afStarted n.val = false)) ∧
    (∃ (c : Ctx) (l : Lane) (n : Fin 2), (l.alive = true) ∧ (l.si.checkFrom = none ∨ l.get (R.AFn_CFG_mode n.val) = 0 ∨ l.afStarted n.val = true)) :=
  ⟨⟨ctxA, wReady [], ⟨1, 2⟩, ⟨3, 4⟩, by decide⟩,
   ⟨ctxA, wSet [(R.PW_STATUS_pads_held, 1)], ⟨1, 2⟩, ⟨3, 4⟩, by decide⟩,
   ⟨ctxA, wReady [], ⟨1, 2⟩, ⟨3, 4⟩, by decide⟩,
   ⟨ctxA, wSet [(R.AFn_CFG_mode 0, 1), (R.AFn_CFG_ppr 0, 1), (R.AFn_NOMINAL_a_nom 0, 16000), (R.AFn_MON_CFG_amp_lo 0, 100), (R.AFn_MON_CFG_amp_hi 0, 400), (⟨R.AFn_CAL_GP 0, 31, 16⟩, 32768), (R.AFn_STATUS_started 0, 1), (R.SI_SUP_on 0, 1)], ⟨0, 16000⟩, ⟨0, 0⟩, _, _, by decide, by decide, by decide, by decide, rfl, by decide +kernel, by decide +kernel, by decide, by decide, by decide +kernel, by decide, by decide, rfl, by decide +kernel⟩,
   ⟨⟨⟨.ts8630, true⟩, .a, 1⟩, { wReady [] with af1 := { (default : Angle) with invalidAt := some 0, kind := 3 } }, 1, 0, by decide⟩,
   ⟨ctxA, wReady [], 0, by decide⟩,
   ⟨⟨⟨.ts8630, true⟩, .a, 20000000⟩, { wSet [(R.AFn_CFG_mode 1, 1)] with si := { (default : SafeIo) with checkFrom := some 0 } }, 1, 0, by decide⟩,
   ⟨ctxA, wReady [], 0, by decide⟩⟩

theorem test_meets_SensorsAndOutputsCommandsComplete_2 :
    (∃ (c : Ctx) (l : Lane) (n : Fin 2) (t : Nat) (up : Bool), (l.alive = true) ∧ ((l.af n.val).cross = some (t, up)) ∧ (t + (l.rd (R.AFn_ZERO_TIME n.val)).toNat ≤ c.now) ∧ (l.bit (R.AFn_STATUS_coasting n.val) = false)) ∧
    (∃ (c : Ctx) (l : Lane) (n : Fin 2), (l.alive = true) ∧ ((l.af n.val).cross = none ∨ l.bit (R.AFn_STATUS_coasting n.val) = true)) ∧
    (∃ (c : Ctx) (l : Lane) (n : Fin 12) (a b : Bool) (e1 e2 : Word), (l.alive = true) ∧ (fldOf (R.SI_DIn_CFG_mode n.val) (l.pairCfg n.val) = 0)) ∧
    (∃ (c : Ctx) (l : Lane) (n : Fin 12) (e : Word), (l.alive = true) ∧ (fldOf (R.SI_DIn_CFG_mode n.val) (l.pairCfg n.val) = 1) ∧ (fldOf (R.SI_DIn_CFG_t_filt n.val) (l.pairCfg n.val) = 0) ∧ (l.masked c 0 = false) ∧ (l.masked c 1 = false) ∧ (l.contact n.val false = false) ∧ (l.contact n.val true = false) ∧ ((l.contacts n.val).n1 = none) ∧ ((l.contacts n.val).n2 = none) ∧ (l.get (R.SI_DIn_STAT_fault n.val) = 0) ∧ (l.bit (R.SI_DIn_STAT_state n.val) = false) ∧ ((l.contacts n.val).bothOff = true)) ∧
    (∃ (c : Ctx) (l : Lane) (n : Fin 12) (t : Nat), (l.alive = true) ∧ ((l.contacts n.val).mixedAt = some t) ∧ (t + fldOf (R.SI_DIn_CFG_t_disc n.val) (l.pairCfg n.val) * 10000000 < c.now) ∧ (l.get (R.SI_DIn_STAT_fault n.val) = 0)) ∧
    (∃ (c : Ctx) (l : Lane) (n : Fin 12), (l.alive = true) ∧ ((l.contacts n.val).mixedAt = none)) ∧
    (∃ (c : Ctx) (l : Lane) (k : Fin 2), (l.alive = true) ∧ (Nat.testBit (l.get R.SI_TP_STAT_pulsing) k.val = false) ∧ (l.tpDue c k.val = true)) ∧
    (∃ (c : Ctx) (l : Lane) (k : Fin 2), (l.alive = true) ∧ (Nat.testBit (l.get R.SI_TP_STAT_pulsing) k.val = true ∨ l.tpDue c k.val = false)) :=
  ⟨⟨ctxA, { wReady [] with af0 := { (default : Angle) with cross := some (0, true) } }, 0, 0, true, by decide⟩,
   ⟨ctxA, wReady [], 0, by decide⟩,
   ⟨ctxA, wReady [], 1, true, true, 0, 0, by decide⟩,
   ⟨ctxA, wSet [(R.SI_DIn_CFG_mode 11, 1)], 11, 0, by decide⟩,
   ⟨⟨⟨.ts8630, true⟩, .a, 50000001⟩, wContacts [(R.SI_DIn_CFG_t_disc 0, 5), (R.SI_DIn_STAT_state 0, 1)] { wOpenPair with mixedAt := some 0 }, 0, 0, by decide⟩,
   ⟨ctxA, wReady [], 0, by decide⟩,
   ⟨ctxA, wReady [], 1, by decide⟩,
   ⟨ctxA, wSet [(R.SI_TP_STAT_pulsing, 2)], 1, by decide⟩⟩

theorem test_meets_SensorsAndOutputsCommandsComplete_3 :
    (∃ (c : Ctx) (l : Lane) (k : Fin 2) (a b : BitVec 12) (t : Nat), (l.alive = true) ∧ ((l.source k.val).startAt = some t) ∧ (Nat.testBit (l.get R.SI_TP_STAT_pulsing) k.val = true) ∧ ((l.source k.val).checked = false) ∧ (t + 50000 ≤ c.now) ∧ (∀ n, n < 12 → l.bit (R.SI_DIn_CFG_tp_check n) = false)) ∧
    (∃ (c : Ctx) (l : Lane) (k : Fin 2) (a b : BitVec 12) (t : Nat), (l.alive = true) ∧ ((l.source k.val).startAt = some t) ∧ (t + 50000 ≤ c.now) ∧ (k.val = 0) ∧ (Nat.testBit (l.get R.SI_TP_STAT_pulsing) k.val = true) ∧ ((l.source k.val).checked = false) ∧ (l.bit (R.SI_DIn_CFG_tp_check 3) = true) ∧ (l.get (R.SI_DIn_CFG_mode 3) ≠ 0) ∧ ((l.source k.val).pre1.getLsbD 3 = true) ∧ (a.getLsbD 3 = true) ∧ (l.get (R.SI_DIn_STAT_fault 3) = 0)) ∧
    (∃ (c : Ctx) (l : Lane) (k : Fin 2) (t : Nat), (l.alive = true) ∧ ((l.source k.val).startAt = some t) ∧ (Nat.testBit (l.get R.SI_TP_STAT_pulsing) k.val = true) ∧ (t + l.get R.SI_TP_CFG_pulse_us * 1000 ≤ c.now)) ∧
    (∃ (c : Ctx) (l : Lane) (k : Fin 2), (l.alive = true) ∧ (Nat.testBit (l.get R.SI_TP_STAT_pulsing) k.val = false)) ∧
    (∃ (c : Ctx) (l : Lane) (k : Fin 2), (l.alive = true) ∧ (∀ n, n < 12 → l.bit (R.SI_DIn_CFG_tp_check n) = false)) ∧
    (∃ (c : Ctx) (l : Lane) (v : Word), (l.alive = true) ∧ (l.active = true) ∧ (l.unitsHalt = false) ∧ (∀ k, k < 8 → l.get (R.SI_DOk_CFG_role k) ≠ 2)) ∧
    (∃ (c : Ctx) (l : Lane) (v : Word), (l.alive = true) ∧ (l.active = true) ∧ (l.unitsHalt = false) ∧ (∀ k, k < 8 → l.get (R.SI_DOk_CFG_role k) = 2) ∧ (∀ k, k < 8 → l.latchHold.getLsbD (16 + k) = false)) ∧
    (∃ (c : Ctx) (l : Lane) (v : Word), (l.alive = true) ∧ (l.active = false ∨ l.unitsHalt = true)) :=
  ⟨⟨⟨⟨.ts8630, true⟩, .a, 50000⟩, (wSet [(R.SI_TP_STAT_pulsing, 1)]).setSource 0 ⟨some 0, 0, false, 0, 0⟩, 0, 0, 0, 0, by decide +kernel⟩,
   ⟨⟨⟨.ts8630, true⟩, .a, 50000⟩, (wSet [(R.SI_TP_STAT_pulsing, 1), (R.SI_DIn_CFG_tp_check 3, 1), (R.SI_DIn_CFG_mode 3, 1)]).setSource 0 ⟨some 0, 0, false, 8, 0⟩, 0, 8, 0, 0, by decide +kernel⟩,
   ⟨ctxA, (wSet [(R.SI_TP_STAT_pulsing, 3)]).setSource 1 ⟨some 0, 0, false, 0, 0⟩, 1, 0, by decide⟩,
   ⟨ctxA, wReady [], 0, by decide⟩,
   ⟨ctxA, wReady [], 1, by decide +kernel⟩,
   ⟨ctxA, wSet [(R.LM_ROLE_role, 1)], 0xFF, by decide +kernel⟩,
   ⟨ctxA, wSet ((R.LM_ROLE_role, 1) :: (List.range 8).map (fun k => (R.SI_DOk_CFG_role k, 2))), 0xA5, by decide +kernel⟩,
   ⟨ctxA, wReady [], 0xFF, by decide⟩⟩

theorem test_meets_SensorsAndOutputsCommandsComplete_4 :
    (∃ (c : Ctx) (l : Lane) (k : Fin 8) (a b d : Bool), (l.alive = true) ∧ (l.pulseSlot c k.val = true) ∧ (l.pulseFails k.val a b d = true) ∧ (l.bit (R.SI_DOk_STAT_valid k.val) = false)) ∧
    (∃ (c : Ctx) (l : Lane) (k : Fin 8) (a b d : Bool), (l.alive = true) ∧ (l.pulseSlot c k.val = false ∨ l.pulseFails k.val a b d = false)) ∧
    (∃ (c : Ctx) (l : Lane) (k : Fin 8) (f : Fin 7), (l.alive = true) ∧ (f.val = 1 ∨ f.val = 6 ∨ (f.val = 2 ∧ l.outputDriven k.val = false ∧ l.outputStood c k.val 50000 = true ∧ l.rowApplies c 3 = false) ∨ (f.val = 3 ∧ l.active = true ∧ Nat.testBit (l.get R.SI_DO_STATE_cmd) k.val = false ∧ l.bit R.LM_ROLE_in_zone = false ∧ l.outputStood c k.val 10000000 = true) ∨ (f.val = 4 ∧ l.pulseSlot c k.val = true ∧ 20000 ≤ l.pulsePhase k.val) ∨ (f.val = 5 ∧ l.bit (R.SI_DOk_CFG_open_chk k.val) = true ∧ l.outputDriven k.val = true ∧ l.outputStood c k.val 100000000 = true)) ∧ (l.bit (R.SI_DOk_STAT_valid k.val) = false)) ∧
    (∃ (c : Ctx) (l : Lane) (k : Fin 8) (f : Fin 7), (l.alive = true) ∧ (f.val = 0 ∨ (f.val ≠ 2 ∧ l.bit (R.SI_DOk_STAT_valid k.val) = true) ∨ (f.val = 2 ∧ (l.outputDriven k.val = true ∨ l.outputStood c k.val 50000 = false)) ∨ (f.val = 3 ∧ (l.active = false ∨ Nat.testBit (l.get R.SI_DO_STATE_cmd) k.val = true ∨ l.bit R.LM_ROLE_in_zone = true ∨ l.outputStood c k.val 10000000 = false)) ∨ (f.val = 4 ∧ (l.pulseSlot c k.val = false ∨ l.pulsePhase k.val < 20000)) ∨ (f.val = 5 ∧ (l.bit (R.SI_DOk_CFG_open_chk k.val) = false ∨ l.outputDriven k.val = false ∨ l.outputStood c k.val 100000000 = false)))) ∧
    (∃ (c : Ctx) (l : Lane) (a b : List (BitVec 16)), (l.alive = true) ∧ (l.bit R.PW_STATUS_pads_held = false)) ∧
    (∃ (c : Ctx) (l : Lane) (a b : List (BitVec 16)), (l.alive = true) ∧ (l.bit R.PW_STATUS_pads_held = true)) ∧
    (∃ (c : Ctx) (l : Lane) (a b : List (BitVec 16)), (l.alive = true) ∧ (∀ n, n < 8 → l.get (R.SI_AIm_CFG_mode n) = 0)) ∧
    (∃ (c : Ctx) (l : Lane) (n : Fin 8) (t : Nat), (l.alive = true) ∧ ((l.analog n.val).invalidAt = some t) ∧ (t + l.get (R.SI_AIm_FAULT_CFG_fault_us n.val) * 1000 < c.now) ∧ (2 ≤ l.get (R.SI_AIm_CFG_role n.val)) ∧ (l.get (R.SI_AIm_CFG_role n.val) ≤ 4) ∧ ((l.analog n.val).told = false) ∧ (l.bit (R.SI_AIm_STAT_sp_fault n.val) = false)) :=
  ⟨⟨⟨⟨.ts8630, true⟩, .a, 60000⟩, { wSet [(R.LM_ROLE_role, 1), (R.SI_DO_STATE_cmd, 1), (R.SI_OP_CFG_period_ms, 1000)] with stageOn := 0x10000, tm := 60000 * 2 ^ 32 }, 0, true, true, false, by decide⟩,
   ⟨ctxA, wReady [], 0, false, false, false, by decide⟩,
   ⟨ctxA, { wReady [] with stageOn := 0xFF0000 }, 7, 6, by decide⟩,
   ⟨ctxA, wReady [], 7, 3, by decide⟩,
   ⟨ctxA, wReady [], [], [], by decide⟩,
   ⟨ctxA, wSet [(R.PW_STATUS_pads_held, 1)], [], [], by decide⟩,
   ⟨ctxA, wReady [], [], [24000, 12000], by decide +kernel⟩,
   ⟨⟨⟨.ts8630, true⟩, .a, 1⟩, (wSet [(R.SI_AIm_CFG_role 7, 4)]).setAnalog 7 ⟨[], 0, 2, some 0, 0, false⟩, 7, 0, by decide⟩⟩

theorem test_meets_SensorsAndOutputsCommandsComplete_5 :
    (∃ (c : Ctx) (l : Lane) (n : Fin 8) (t : Nat), (l.alive = true) ∧ ((l.analog n.val).invalidAt = some t) ∧ (t + l.get (R.SI_AIm_FAULT_CFG_fault_us n.val) * 1000 < c.now) ∧ (l.get (R.SI_AIm_CFG_role n.val) = 1) ∧ ((l.analog n.val).told = false)) ∧
    (∃ (c : Ctx) (l : Lane) (n : Fin 8), (l.alive = true) ∧ ((l.analog n.val).invalidAt = none ∨ (l.analog n.val).told = true)) ∧
    (∃ (c : Ctx) (l : Lane) (k : Fin 2) (mv : BitVec 16) (lim : Bool), (l.alive = true) ∧ (l.bit (R.SI_SUP_on k.val) = true) ∧ (lim = true ∨ offWindow mv = true) ∧ (l.get (R.SI_SUP_faults k.val) < 2)) ∧
    (∃ (c : Ctx) (l : Lane) (k : Fin 2) (mv : BitVec 16) (lim : Bool), (l.alive = true) ∧ (l.bit (R.SI_SUP_on k.val) = true) ∧ (lim = true ∨ offWindow mv = true) ∧ (2 ≤ l.get (R.SI_SUP_faults k.val))) ∧
    (∃ (c : Ctx) (l : Lane) (k : Fin 2) (mv : BitVec 16) (lim : Bool), (l.alive = true) ∧ (l.bit (R.SI_SUP_on k.val) = false ∨ (lim = false ∧ offWindow mv = false))) ∧
    (∃ (c : Ctx) (l : Lane) (k : Fin 2) (t : Nat), (l.alive = true) ∧ (tabGet l.si.supOffAt k.val = some t) ∧ (l.bit (R.SI_SUP_fault k.val) = true) ∧ (l.bit (R.SI_SUP_latched k.val) = false) ∧ (t + 100000000 ≤ c.now)) ∧
    (∃ (c : Ctx) (l : Lane) (k : Fin 2), (l.alive = true) ∧ (l.bit (R.SI_SUP_fault k.val) = false ∨ l.bit (R.SI_SUP_latched k.val) = true ∨ tabGet l.si.supOffAt k.val = none)) :=
  ⟨⟨⟨⟨.ts8630, true⟩, .a, 1⟩, (wSet [(R.SI_AIm_CFG_role 7, 1)]).setAnalog 7 ⟨[], 0, 2, some 0, 0, false⟩, 7, 0, by decide⟩,
   ⟨ctxA, wReady [], 0, by decide⟩,
   ⟨ctxA, wSet [(R.SI_SUP_on 1, 1), (R.SI_SUP_faults 1, 1)], 1, 0xFFFF, true, by decide⟩,
   ⟨ctxA, wSet [(R.SI_SUP_on 1, 1), (R.SI_SUP_faults 1, 2)], 1, 0, false, by decide⟩,
   ⟨ctxA, wReady [], 1, 0, false, by decide⟩,
   ⟨⟨⟨.ts8630, true⟩, .a, 100000000⟩, { wSet [(R.SI_SUP_fault 1, 1)] with si := { (default : SafeIo) with supOffAt := [(1, 0)] } }, 1, 0, by decide⟩,
   ⟨ctxA, wReady [], 0, by decide⟩⟩

theorem test_meets_StartCommandsComplete_1 :
    (∃ (s : State) (ln : LaneId), (s.has ln = true) ∧ ((s.lane ln).phase = .off)) ∧
    (∃ (s : State) (ln : LaneId), (s.has ln = true) ∧ ((s.lane ln).phase ≠ .off)) ∧
    (∃ (c : Ctx) (l : Lane), (l.alive = true) ∧ (l.phase = .boot) ∧ (l.presenceOk c = true) ∧ (l.calBytes = [])) ∧
    (∃ (c : Ctx) (l : Lane), (l.alive = true) ∧ (l.phase = .hashing) ∧ (l.slotValid c 0 = true) ∧ (l.slotValid c 1 = false)) ∧
    (∃ (c : Ctx) (l : Lane), (l.alive = true) ∧ (l.phase = .hashing) ∧ (l.slotValid c 0 = false) ∧ (l.slotValid c 1 = false)) ∧
    (∃ (c : Ctx) (l : Lane) (id : BitVec 64), (l.alive = true) ∧ (l.phase = .agreeing) ∧ (l.offerNow = some id)) ∧
    (∃ (c : Ctx) (l : Lane) (sender : LaneId) (id : BitVec 64) (alt : Bool), (l.alive = true) ∧ (sender ≠ c.id) ∧ (l.bit R.CF_STATUS_agreed = true) ∧ (l.ea.started = true) ∧ ((l.peer sender).hb.all (fun ws => decide (2 ≤ (frameWord ws 0).toNat / 2 ^ 30)) = true)) ∧
    (∃ (c : Ctx) (l : Lane) (id : BitVec 64) (k : Nat), (l.alive = true) ∧ (l.phase = .agreeing) ∧ (l.offersStand c = true) ∧ (l.offerless c = 0) ∧ (majorityOf (l.offers c) 0 = some id) ∧ ((l.offers c).all (fun o => decide (o.2 = id)) = true) ∧ (l.offerNow = some id) ∧ (l.cf.cand = some k)) :=
  ⟨⟨wState .a { wReady [] with phase := .off } 0, .a, by decide⟩,
   ⟨wState .a (wReady []) 0, .a, by decide⟩,
   ⟨ctxA, { wReady [] with phase := .boot }, by decide⟩,
   ⟨ctxA, wImage, by decide +kernel⟩,
   ⟨ctxA, { wReady [] with phase := .hashing }, by decide +kernel⟩,
   ⟨ctxA, { wReady [] with phase := .agreeing, cf := { (default : Service) with cand := some 1, digestA := 1 } }, 0, by decide⟩,
   ⟨ctxA, { wReady [(R.CF_STATUS, 2 ^ R.CF_STATUS_agreed.lo)] with ea := { (default : Sched) with started := true } }, .b, 0, false, by decide⟩,
   ⟨{ ctxA with now := 1000000 }, { wReady [] with phase := .agreeing, cf := { (default : Service) with cand := some 1, digestA := 1 } }, 0, 1, by decide⟩⟩

theorem test_meets_StartCommandsComplete_2 :
    (∃ (c : Ctx) (l : Lane) (r : SelfTest), (l.alive = true) ∧ (l.phase = .testing) ∧ (l.bit R.PW_STATUS_pads_held = false)) ∧
    (∃ (c : Ctx) (l : Lane), (l.alive = true) ∧ (l.phase = .agreed) ∧ (l.nxState = nxActive) ∧ (l.ea.started = false) ∧ (l.heatIndex = 0) ∧ (l.runningHeard c = none)) ∧
    (∃ (c : Ctx) (l : Lane) (x : LaneId) (ws : List Word), (l.alive = true) ∧ (l.phase = .agreed) ∧ (l.nxState = nxActive) ∧ (l.ea.started = false) ∧ (l.heatIndex = 0) ∧ (l.runningHeard c = some (x, ws))) ∧
    (∃ (c : Ctx) (l : Lane), (l.alive = true) ∧ (l.phase = .ready ∨ l.phase = .awarding) ∧ (l.nxState = nxActive) ∧ (l.ea.started = false) ∧ (l.heatIndex = 0)) ∧
    (∃ (c : Ctx) (l : Lane), (l.alive = true) ∧ (l.phase = .sensing) ∧ (l.afterStart c 20000000 = true) ∧ (((l.notStarted c 0).notStarted c 1).st.noMajority < 8)) ∧
    (∃ (c : Ctx) (l : Lane), (l.alive = true) ∧ (l.phase = .awarding) ∧ (l.st.late = false) ∧ (l.st.awardAt = none) ∧ (l.role = roleStandby) ∧ (l.afterStart c (20000000 + laneCode c.id * l.slotTime c) = true)) ∧
    (∃ (c : Ctx) (l : Lane) (x : LaneId), (l.alive = true) ∧ (l.phase = .awarding) ∧ (l.st.late = false) ∧ (l.st.awardAt = none) ∧ (l.afterStart c (20000000 + (lanesOf c.part.member).length * l.slotTime c) = true) ∧ (l.awarded c = some x) ∧ (x ≠ c.id)) ∧
    (∃ (c : Ctx) (l : Lane), (l.alive = true) ∧ (l.phase = .awarding) ∧ (l.st.late = false) ∧ (l.st.awardAt = none) ∧ (l.afterStart c (20000000 + (lanesOf c.part.member).length * l.slotTime c) = true) ∧ (l.awarded c = some c.id)) :=
  ⟨⟨ctxA, { wReady [] with phase := .testing }, default, by decide⟩,
   ⟨ctxA, { wReady [(R.NX_STATUS, 6)] with phase := .agreed }, by decide⟩,
   ⟨ctxA, { wReady [(R.NX_STATUS, 6)] with phase := .agreed, peerB := { (default : Peer) with ran := some (0, [0x40000000, 0]) } }, .b, [0x40000000, 0], by decide⟩,
   ⟨ctxA, { wReady [(R.NX_STATUS, 6)] with phase := .ready }, by decide⟩,
   ⟨{ ctxA with now := 20000000 }, { wReady [] with phase := .sensing, st := { (default : Start) with schedAt := some 0 } }, by decide⟩,
   ⟨{ ctxA with now := 20000000 }, { wReady [(R.LM_ROLE, 0x70000)] with phase := .awarding, st := { (default : Start) with schedAt := some 0 } }, by decide⟩,
   ⟨{ ctxB with now := 30000000 }, { wReady [(R.LM_ROLE, 0x70000)] with phase := .awarding, st := { (default : Start) with schedAt := some 0, joint := [.a] } }, .a, by decide⟩,
   ⟨{ ctxA with now := 30000000 }, { wReady [(R.LM_ROLE, 0x70000)] with phase := .awarding, st := { (default : Start) with schedAt := some 0, joint := [.a] } }, by decide⟩⟩

theorem test_meets_StartCommandsComplete_3 :
    (∃ (c : Ctx) (l : Lane) (t : Nat) (x : LaneId), (l.alive = true) ∧ (l.st.awardAt = some t) ∧ (l.batonLane = some x) ∧ (l.phase = .awarding ∨ l.phase = .ready) ∧ (x ≠ c.id) ∧ (l.standby = true) ∧ (l.st.late = false) ∧ (t + 10000 ≤ c.now) ∧ ((l.peer x).line = false) ∧ ((l.peer x).lineAt ≤ t) ∧ (l.baton.decision = none)) ∧
    (∃ (c : Ctx) (l : Lane), (l.alive = true) ∧ (l.active = true) ∧ (l.st.ready = false) ∧ (l.st.awardAt ≠ none) ∧ (l.st.late = false) ∧ (l.bit R.BK_STATUS_engaged = false) ∧ (l.get R.BK_PARK_state = 0)) ∧
    (∃ (c : Ctx) (l : Lane), (l.alive = true) ∧ (l.phase = .awarding) ∧ (l.fit = true) ∧ (l.batonLane ≠ none) ∧ (l.spoolsHomed c = true) ∧ (l.bk.movingAt = none)) :=
  ⟨⟨{ ctxB with now := 10000 }, { wReady [(R.LM_ROLE, 0x70000)] with phase := .awarding, st := { (default : Start) with awardAt := some 0 } }, 0, .a, by decide⟩,
   ⟨ctxA, { wReady [(R.LM_ROLE, 0x70001)] with st := { (default : Start) with awardAt := some 0 } }, by decide⟩,
   ⟨ctxA, { wReady [(R.LM_ROLE, 0x70001)] with phase := .awarding }, by decide⟩⟩

theorem test_meets_StepTakesTheFrontCommand :
    (∃ (s : State) (i : Instr) (rest : List Instr), s.pending = i :: rest) ∧
    (∃ s : State, s.pending = [] ∧ s.has .c = true ∧ (s.lane .c).alive = true) :=
  ⟨⟨{ State.reset with pending := [.chopperOn .a 0] }, .chopperOn .a 0, [], rfl⟩,
   ⟨State.reset, by decide +kernel⟩⟩

theorem test_meets_StepKeepsTheModuleFitted :
    (∃ s t : State, s.fitted = true ∧ step s = .next t) ∧
    (∃ s t : State, step s = .next t ∧ isTriple s.part.member = false) :=
  ⟨⟨State.reset, _, by decide, rfl⟩,
   ⟨{ State.reset with part := ⟨.ts8610, false⟩ }, _, rfl, by decide⟩⟩

theorem test_meets_EngineStoresStayInItsTcm :
    ∃ (s : State) (ln : LaneId) (e : EngIx) (w : Word) (i : Instr), decodeEngineWord ln e w = some i ∧
      (∀ p ∈ (s.lane ln).image.legs, p.2.buffer.length ≤ 32 ∧ p.2.stateSlots ≤ 64 ∧ p.2.blockAt + 8 * p.2.stateSlots ≤ 0x40000) ∧ (s.lane ln).engRuns (s.ctx ln) e.val = true :=
  ⟨wState .a wRun 0, .a, 5, 0x80220000, _, rfl, by decide +kernel, by decide +kernel⟩

theorem test_meets_EngineWordsRoundTrip :
    (∃ (i : Instr) (w : Word), encodable i = true ∧ encodeEngineWord i = some w) ∧
    (∃ (ln : LaneId) (e : EngIx) (w : Word) (i : Instr), decodeEngineWord ln e w = some i) :=
  ⟨⟨.insCommit .a 0, _, rfl, rfl⟩,
   ⟨.a, 0, 0xE1000000, _, rfl⟩⟩

end Sys2Proof.Tests
end

/-! PROOFS. A supervisor core's accesses (R8, R16 to R22, R561, R562): bus errors, stores to lane SRAM, and the two statements
about writes that a single access refutes. -/

namespace Sys2Proof.Machine

/-! ### A command in a lane whose units run -/

/-- A command that acts on one lane gives what it makes of that lane. -/
theorem gives_of_onAlive {i : Instr} {s : State} {ln : LaneId} {c : Ctx} {l : Lane} (f : Ctx → Lane → Lane)
    (h : Here s ln c l) (hi : exec i s = onAlive ln f s) : Gives i s ln (f c l) := by
  obtain ⟨hhas, rfl, halive, rfl⟩ := h
  exact hi.trans (onAlive_of_alive ln f s hhas halive)

/-- A command gives one lane only. -/
theorem Gives.unique {i : Instr} {s : State} {ln : LaneId} {l m : Lane} (hl : Gives i s ln l) (hm : Gives i s ln m) : l = m := by
  have hs : s.setLane ln l = s.setLane ln m := Host.Outcome.next.inj (hl.symm.trans hm)
  simpa using congrArg (State.lane · ln) hs

/-- Outside the marshal's window REGISTER_WRITE is the core's write. -/
theorem registerWrite_gives_coreWrite {s : State} {ln : LaneId} {c : Ctx} {l : Lane} (a v : Word) (n : Nat) (h : Here s ln c l)
    (hw : ¬(irqLine a.toNat = 12 ∧ 0x40048000 ≤ a.toNat ∧ a.toNat < 0x4004C000)) :
    Gives (.registerWrite ln a n v) s ln (l.coreWrite c a.toNat n v) :=
  gives_of_onAlive (fun c l => l.coreWrite c a.toNat n v) h (if_neg hw)

/-! ### Which addresses are registers (R16, R18, R408) -/

/-- A row of the register table that holds whole words only. -/
def rowAligned (r : RegRow) : Bool := decide (r.base % 4 = 0 ∧ r.stride % 4 = 0 ∧ r.stride2 % 4 = 0)

theorem regTable_all_rowAligned : regTable.all rowAligned = true := by decide +kernel

theorem rowHas_aligned (r : RegRow) (a : Nat) (hr : rowAligned r = true) (h : rowHas r a = true) : a % 4 = 0 := by
  have mod_aligned (x y : Nat) (hy : y % 4 = 0) : (if y = 0 then x else x % y) % 4 = x % 4 := by
    split
    · rfl
    · exact Nat.mod_mod_of_dvd x (Nat.dvd_of_mod_eq_zero hy)
  simp only [rowAligned, decide_eq_true_eq] at hr
  obtain ⟨hbase, hstride, hstride2⟩ := hr
  simp only [rowHas, Bool.and_eq_true, decide_eq_true_eq, mod_aligned _ _ hstride, mod_aligned _ _ hstride2] at h
  omega

theorem findRow_isSome_aligned (a : Nat) (h : (findRow a).isSome = true) : a % 4 = 0 := by
  obtain ⟨r, hmem, hrow⟩ := List.find?_isSome.mp h
  exact rowHas_aligned r a (List.all_eq_true.mp regTable_all_rowAligned r hmem) hrow

/-- Every register of a member stands at a multiple of four. -/
theorem regThere_aligned (c : Ctx) (a : Nat) (h : regThere c a = true) : a % 4 = 0 := by
  simp only [regThere, inTxWindow, inRxWindow, Bool.and_eq_true, Bool.or_eq_true, decide_eq_true_eq] at h
  obtain ⟨-, (hrow | ⟨-, htx⟩) | ⟨-, hrx⟩⟩ := h
  · exact findRow_isSome_aligned a hrow
  · exact htx
  · exact hrx

/-! ### Bus errors in the peripheral region (R8, R22, R561) -/

/-- The core's write to an address of the peripheral region that is not one aligned word of a register. -/
theorem Lane.coreWrite_no_register (c : Ctx) (l : Lane) (a n : Nat) (v : Word) (hlo : 0x40000000 ≤ a) (hhi : a < 0x50000000)
    (h : ¬(n = 4 ∧ a % 4 = 0 ∧ regThere c a = true)) : l.coreWrite c a n v = { l with bus := .error } := by
  have hperi : ¬(a < 0x40000000 ∨ 0x50000000 ≤ a) := by omega
  rw [Lane.coreWrite, if_neg hperi, if_neg h]

/-- REGISTER_WRITE to such an address, the marshal's window included. -/
theorem registerWrite_no_register {s : State} {ln : LaneId} {c : Ctx} {l : Lane} (a v : Word) (n : Nat) (h : Here s ln c l)
    (hlo : 0x40000000 ≤ a.toNat) (hhi : a.toNat < 0x50000000) (hno : ¬(n = 4 ∧ a.toNat % 4 = 0 ∧ regThere c a.toNat = true)) :
    Gives (.registerWrite ln a n v) s ln { l with bus := .error } := by
  by_cases hw : irqLine a.toNat = 12 ∧ 0x40048000 ≤ a.toNat ∧ a.toNat < 0x4004C000
  · obtain ⟨hhas, rfl, halive, rfl⟩ := h
    change execRegisterWrite ln a n v s = _
    simp only [execRegisterWrite]
    rw [if_pos hw, if_neg (by simp [hhas, halive]), if_neg hno]
  · rw [← Lane.coreWrite_no_register c l a.toNat n v hlo hhi hno]
    exact registerWrite_gives_coreWrite a v n h hw

/-- The block memories end below lane SRAM (R21). -/
theorem Lane.blockThere_above (c : Ctx) (l : Lane) (a n : Nat) (h : 0x20000000 ≤ a) : l.blockThere c a n = false := by
  have hcount : blockCount c.part.member ≤ 6 := by cases c.part.member <;> decide
  have hend : ¬(0x10000000 ≤ a ∧ a + n ≤ 0x10000000 + 0x40000 * blockCount c.part.member) := by omega
  simp [Lane.blockThere, hend]

/-- Above the flash window there is no memory that the core reads. -/
theorem Lane.memThere_peripheral (c : Ctx) (l : Lane) (a n : Nat) (h : 0x40000000 ≤ a) : l.memThere c a n = false := by
  have heng : engineCount c.part.member ≤ 24 := by cases c.part.member <;> decide
  have htcm : ¬(a + n ≤ 0x10000 * engineCount c.part.member) := by omega
  have hsram : ¬(0x20000000 ≤ a ∧ a + n ≤ 0x20400000) := by omega
  have hflash : ¬(0x30000000 ≤ a ∧ a + n ≤ 0x32000000) := by omega
  simp [Lane.memThere, Lane.tcmThere, htcm, l.blockThere_above c a n (by omega), hsram, hflash]

theorem pairLoWriteL_misaligned (c : Ctx) (l : Lane) (a : Nat) (v : Word) (hlo : 0x40000000 ≤ a) (hhi : a < 0x50000000)
    (h : a % 4 ≠ 0) : pairLoWriteL c a v l = { l with bus := .error } := by
  have hno : regThere c a ≠ true := fun hreg => h (regThere_aligned c a hreg)
  rw [pairLoWriteL, if_neg (fun hs => hno hs.1)]
  exact l.coreWrite_no_register c a 4 v hlo hhi (fun hs => h hs.2.1)

theorem pairLoReadL_misaligned (c : Ctx) (l : Lane) (a : Nat) (hlo : 0x40000000 ≤ a) (h : a % 4 ≠ 0) :
    pairLoReadL c a l = { l with bus := .error } := by
  simp [pairLoReadL, h, l.memThere_peripheral c a 4 hlo]

/-- Settles O1: no register stands at a misaligned address, so every form of the access falls to the bus error. -/
theorem misalignedAccessIsBusError : Obligations.MisalignedAccessIsBusError := by
  refine ⟨fun s ln c l a v n h hlo hhi hbad => ?_, fun s ln c l a v h hlo hhi hbad => ?_,
    fun s ln c l a v h hlo hhi hbad => ?_, fun s ln c l a h hlo hhi hbad => ?_⟩
  · exact registerWrite_no_register a v n h hlo hhi (by omega)
  · rw [← pairLoWriteL_misaligned c l a.toNat v hlo hhi hbad]
    exact gives_of_onAlive (fun c l => pairLoWriteL c a.toNat v l) h rfl
  · rw [← l.coreWrite_no_register c a.toNat 4 v hlo hhi (fun hs => hbad hs.2.1)]
    exact gives_of_onAlive (fun c l => pairHiWriteL c a.toNat v l) h rfl
  · rw [← pairLoReadL_misaligned c l a.toNat hlo hbad]
    exact gives_of_onAlive (fun c l => pairLoReadL c a.toNat l) h (if_neg (fun hs => hbad hs.2.1))

/-! ### Stores to lane SRAM (R21, R562) -/

/-- A word is its four bytes, the most significant one first. -/
theorem append_wordBytes (w : Word) :
    w.extractLsb' 24 8 ++ w.extractLsb' 16 8 ++ w.extractLsb' 8 8 ++ w.extractLsb' 0 8 = w := by
  rw [BitVec.extractLsb'_append_extractLsb'_eq_extractLsb' (by omega), BitVec.extractLsb'_append_extractLsb'_eq_extractLsb' (by omega),
    BitVec.extractLsb'_append_extractLsb'_eq_extractLsb' (by omega)]
  exact BitVec.extractLsb'_eq_self

/-- A granule reads the word that was stored there. -/
@[simp] theorem Lane.granule_setGranule_same (l : Lane) (a : Nat) (w : Word) : (l.setGranule a w).granule a = w := by
  simpa [Lane.granule, Lane.setGranule, wordBytes, Lane.setBytes, Lane.byte_setByte, Nat.add_assoc] using append_wordBytes w

/-- The core's store of four bytes in lane SRAM stores the granule. -/
theorem Lane.coreWrite_sram (c : Ctx) (l : Lane) (a : Nat) (v : Word) (hlo : 0x20000000 ≤ a) (hhi : a + 4 ≤ 0x20400000) :
    l.coreWrite c a 4 v = { l.setGranule a v with bus := .done } := by
  have hmem : a < 0x40000000 ∨ 0x50000000 ≤ a := by omega
  have htcm : ¬a < 0x10000000 := by omega
  rw [Lane.coreWrite, if_pos hmem, Lane.writeMem, if_neg htcm, if_neg (by simp [l.blockThere_above c a 4 hlo]), if_pos ⟨hlo, hhi⟩]
  rfl

/-- Settles O4: the store is that of its granule, which the memory laws describe. -/
theorem sramStoreChangesItsBytes : Obligations.SramStoreChangesItsBytes := by
  intro s ln c l a v h hlo hhi
  refine ⟨_, registerWrite_gives_coreWrite a v 4 h (by omega), ?_⟩
  rw [l.coreWrite_sram c a.toNat v hlo hhi]
  exact ⟨l.granule_setGranule_same a.toNat v, fun k hk => l.byte_setBytes_out a.toNat k (wordBytes v) hk,
    fun k _ => l.rd_setBytes a.toNat k (wordBytes v), rfl⟩

/-! ### What two of the statements leave out -/

/-- A store of no byte at the end of lane SRAM lies within it: it is done and stores nothing. -/
theorem Lane.coreWrite_no_byte_sram_end (c : Ctx) (l : Lane) (v : Word) :
    l.coreWrite c 0x20400000 0 v = { l with bus := .done } := by
  simp [Lane.coreWrite, Lane.writeMem, l.blockThere_above c 0x20400000 0, Lane.setBytes]

/-- Lane A of the module after reset. -/
theorem here_reset_a : Here State.reset .a (State.reset.ctx .a) State.reset.laneA :=
  ⟨rfl, rfl, by decide +kernel, rfl⟩

/-- Refutes O2: its third clause takes every size, and a REGISTER_WRITE of size 0 at 0x20400000, the end of lane SRAM, in
lane A after reset is done and no bus error. (A write of size 0 is not a well-formed command.) -/
theorem not_absentRegisterIsBusError : ¬ Obligations.AbsentRegisterIsBusError := by
  rintro ⟨-, -, hsram, -⟩
  have herror := hsram State.reset .a _ _ 0x20400000 0 0 here_reset_a (by decide) (by decide)
  have hdone := registerWrite_gives_coreWrite 0x20400000 0 0 here_reset_a (by decide)
  rw [show (0x20400000 : Word).toNat = 0x20400000 from rfl, Lane.coreWrite_no_byte_sram_end] at hdone
  have hbus := congrArg Lane.bus (Gives.unique herror hdone)
  cases hbus

/-- The module after reset, at the instant at which hardware sets LM_FLAGS.pulse_fail in lane A. -/
def flagJustSet : State := State.reset.setLane .a (State.reset.laneA.flag R.LM_FLAGS_pulse_fail)

/-- Refutes O3: a flag that hardware sets in the cycle in which firmware writes 1 to it stays set (R114, which the model's
clearFlags follows), so the write of 0x8000 to LM_FLAGS in `flagJustSet` leaves pulse_fail at 1. -/
theorem not_registerWriteSetsFields : ¬ Obligations.RegisterWriteSetsFields := by
  intro hall
  have here : Here flagJustSet .a (flagJustSet.ctx .a) flagJustSet.laneA := ⟨rfl, rfl, by decide +kernel, rfl⟩
  obtain ⟨m, hgives, hcleared, -⟩ := hall flagJustSet .a _ _ 0x4000000C 0x8000
    ⟨0x4000000C, 0, 1, 0, 1, 1, false, false, 0x0, 0xFFFF, 0x0, 0x0⟩ here (by decide) (by decide) (by decide) (by decide)
    (by decide +kernel) (by decide +kernel) (by decide) (by decide +kernel)
  have hwritten := registerWrite_gives_coreWrite 0x4000000C 0x8000 4 here (by decide)
  rw [Gives.unique hgives hwritten] at hcleared
  have hstays : (flagJustSet.laneA.coreWrite (flagJustSet.ctx .a) 0x4000000C 4 0x8000).rd 0x4000000C = 0x8000 := by decide +kernel
  exact absurd (hstays.symm.trans hcleared) (by decide +kernel)

end Sys2Proof.Machine

/-! PROOFS. What a loss of the marshal's supply does to lane C (R7, R48, R50). -/

namespace Sys2Proof.Machine

/-- Where the marshal of an -M part loses its supply, its failure is noted in the record of lane C whatever the member. -/
theorem State.supplyMarshal_laneC_of_loss (s : State) (hpart : s.part.marshal = true) (hon : s.marshal.powered = true)
    (hlost : s.marshalSupplied = false) : s.supplyMarshal.laneC = s.laneC.marshalFails := by
  simp [State.supplyMarshal, hpart, hon, hlost]

/-- The module after M_VAUX has gone, before the marshal follows its supply. -/
def State.vauxOff (s : State) : State := { s with marshal := { s.marshal with vaux := false } }

theorem step_marshalSupplyChange_off (s : State) :
    step { s with pending := [.marshalSupplyChange false] } = .next { s with pending := [] }.vauxOff.supplyMarshal := rfl

/-- A TS-8610-M whose lanes are off and whose marshal runs on M_VAUX alone; the record of lane C, which the member does not have,
holds a loss of channel X in class 1. -/
def marshalOnVaux : State :=
  let p : Part := ⟨.ts8610, true⟩
  let off : Lane := Lane.fresh p 2 0
  { State.reset with
    part := p, laneA := Lane.fresh p 0 0, laneB := Lane.fresh p 1 0, laneC := { off with fc := { off.fc with gone := [(0, 1)] } }
    marshal := { Marshal.fresh with vaux := true } }

/-- The loss of M_VAUX turns that class into 8. -/
theorem marshalOnVaux_laneC_changes : marshalOnVaux.vauxOff.supplyMarshal.laneC ≠ marshalOnVaux.laneC := by
  rw [marshalOnVaux.vauxOff.supplyMarshal_laneC_of_loss rfl rfl (by decide +kernel)]
  intro hsame
  exact absurd (congrArg (·.fc.gone) hsame) (by decide +kernel)

/-- Even from a fitted state a step can change lane C of a two-lane member: supplyMarshal does not ask whether the member has it. -/
theorem exists_fitted_step_changes_absent_laneC :
    ∃ s t : State, s.fitted = true ∧ step s = .next t ∧ isTriple s.part.member = false ∧ t.laneC ≠ s.laneC :=
  ⟨{ marshalOnVaux with pending := [.marshalSupplyChange false] }, _, by decide +kernel, step_marshalSupplyChange_off marshalOnVaux,
    rfl, marshalOnVaux_laneC_changes⟩

/-- Refutes O58: its last clause, that lane C of a two-lane member stays as before, fails in `marshalOnVaux` at the loss of M_VAUX. -/
theorem not_stepKeepsTheModuleFitted : ¬ Obligations.StepKeepsTheModuleFitted := by
  rintro ⟨-, hframe⟩
  obtain ⟨s, t, -, hstep, htwo, hchanged⟩ := exists_fitted_step_changes_absent_laneC
  obtain ⟨-, -, -, hkept⟩ := hframe s t hstep
  exact hchanged (hkept htwo)

end Sys2Proof.Machine

/-! PROOFS. A command that acts on one lane: what it answers, from what its meaning makes of that lane. -/

namespace Sys2Proof.Machine

/-- A command that acts on one lane gives what its meaning is proved to be there. -/
theorem gives_of_onAlive_eq {i : Instr} {s : State} {ln : LaneId} {c : Ctx} {l m : Lane} (f : Ctx → Lane → Lane)
    (h : Here s ln c l) (hi : exec i s = onAlive ln f s) (hf : f c l = m) : Gives i s ln m :=
  hf ▸ gives_of_onAlive f h hi

/-- The same of a command that acts on a lane with or without supply. -/
theorem gives_of_onLane_eq {i : Instr} {s : State} {ln : LaneId} {c : Ctx} {l m : Lane} (f : Ctx → Lane → Lane)
    (h : There s ln c l) (hi : exec i s = onLane ln f s) (hf : f c l = m) : Gives i s ln m := by
  obtain ⟨hhas, rfl, rfl⟩ := h
  rw [Gives, hi, onLane_of_has ln f s hhas, hf]

/-- A lane whose units run is there. -/
theorem Here.there {s : State} {ln : LaneId} {c : Ctx} {l : Lane} (h : Here s ln c l) : There s ln c l :=
  let ⟨hhas, hlane, _, hctx⟩ := h
  ⟨hhas, hlane, hctx⟩

/-- A command whose sensor faults the other lanes count. -/
theorem tells_of_onAlive_eq {i : Instr} {s : State} {ln : LaneId} {c : Ctx} {l m : Lane} (f : Ctx → Lane → Lane)
    (h : Here s ln c l) (hi : exec i s = sharingSensors ln s (onAlive ln f s)) (hf : f c l = m) : Tells i s ln m := by
  obtain ⟨hhas, rfl, halive, rfl⟩ := h
  rw [Tells, hi, onAlive_of_alive ln f s hhas halive, hf]
  rfl

/-- Such a command that finds no new sensor fault changes its own lane only. -/
theorem Tells.gives {i : Instr} {s : State} {ln : LaneId} {l : Lane} (h : Tells i s ln l)
    (hsame : l.sensorFaults = (s.lane ln).sensorFaults) : Gives i s ln l := by
  rw [Tells, State.tellNew_same s ln _ (by rw [State.lane_setLane_same, hsame])] at h
  exact h

end Sys2Proof.Machine

/-! PROOFS. The state after reset; and statements on the lanes and the marshal that a single command refutes. -/

namespace Sys2Proof.Machine

-- One theorem after another: a theorem taken up on a task of its own holds a thread while it waits for the kernel's
-- evaluation of a state.
set_option Elab.async false

/-! ### Reset (R39, R92, R368, R411) -/

/-- A lane of the state after reset is one whose supply has just risen. -/
theorem State.lane_reset (ln : LaneId) : State.reset.lane ln = Lane.risen resetPart (laneCode ln) := by cases ln <;> rfl

/-- Settles O57: the three lanes after reset, one by one. -/
theorem resetStateHolds : Obligations.ResetStateHolds := by
  refine ⟨⟨rfl, by decide +kernel, rfl⟩, fun ln => ?_⟩
  rw [State.lane_reset]
  cases ln with
  | a => decide +kernel
  | b => decide +kernel
  | c => decide +kernel

/-! ### Hold latches of the sensor supplies (R58, R60, R61, R368) -/

/-- A released latch leaves a sensor supply as it is (R61). -/
theorem Lane.releaseLatches_keeps_supply (l : Lane) (which : BitVec 32) (k : Fin 2) :
    (l.releaseLatches which).stageOn.getLsbD (stageIx (.supply k)) = l.stageOn.getLsbD (stageIx (.supply k)) := by
  have hmask : (0x00FFFFFF : BitVec 32).getLsbD (stageIx (.supply k)) = false := by fin_cases k <;> rfl
  have hlt : stageIx (.supply k) < 32 := by fin_cases k <;> decide
  simp only [Lane.releaseLatches, BitVec.getLsbD_and, BitVec.getLsbD_not, hmask, hlt, Bool.and_false, decide_true, Bool.not_false,
    Bool.and_true]

/-- LATCH_TIMEOUT does not switch a sensor supply off. -/
theorem latchTimeoutL_keeps_supply (c : Ctx) (l : Lane) (k : Fin 2) :
    (latchTimeoutL c (.supply k) l).stageOn.getLsbD (stageIx (.supply k)) = l.stageOn.getLsbD (stageIx (.supply k)) := by
  unfold latchTimeoutL
  dsimp only
  split
  · split
    · split <;> simp [Lane.releaseLatches_keeps_supply]
    · rfl
  · rfl

/-- The module after reset, 1 ms after the hold latch of sensor supply 0 of lane A entered holding. -/
def supplyLatchHeld : State :=
  { State.reset.setLane .a (State.reset.laneA.holdLatches (State.reset.ctx .a) (BitVec.ofNat 32 (2 ^ stageIx (.supply 0)))) with
    now := 1000000 }

theorem here_supplyLatchHeld_a : Here supplyLatchHeld .a (supplyLatchHeld.ctx .a) supplyLatchHeld.laneA :=
  ⟨rfl, rfl, by decide +kernel, rfl⟩

/-- Refutes O8: its third clause has LATCH_TIMEOUT switch off every stage with a latch, but a sensor supply stays on (R61, R368), as
supply 0 of lane A does in `supplyLatchHeld`. -/
theorem not_latchesAndStandstillComplete : ¬ Obligations.LatchesAndStandstillComplete := by
  rintro ⟨-, -, htimeout, -⟩
  obtain ⟨m, hgives, hoff, -⟩ := htimeout supplyLatchHeld .a _ _ (.supply 0) 0 here_supplyLatchHeld_a (by decide +kernel)
    (by decide +kernel) (by decide +kernel)
  have htimed : Gives (.latchTimeout .a (.supply 0)) supplyLatchHeld .a (latchTimeoutL _ (.supply 0) supplyLatchHeld.laneA) :=
    gives_of_onLane_eq (fun c l => latchTimeoutL c (.supply 0) l) here_supplyLatchHeld_a.there rfl rfl
  have hon : supplyLatchHeld.laneA.stageOn.getLsbD (stageIx (.supply 0)) = true := by decide +kernel
  rw [Gives.unique hgives htimed, latchTimeoutL_keeps_supply, hon] at hoff
  cases hoff

/-! ### The incoming lane takes over after a wake from DORMANT (R74, R318) -/

/-- The module after reset with lane A as the incoming lane of a takeover, active and checked, whose stepper currents have yet to rise
after a wake from DORMANT. -/
def takeoverAfterWake : State :=
  let l := State.reset.laneA.setRole roleActive
  State.reset.setLane .a { l with
    baton := { l.baton with window := some ⟨.a, .b, 250000, 0, 0, true⟩ }, pw := { l.pw with rampDue := true } }

theorem here_takeoverAfterWake_a : Here takeoverAfterWake .a (takeoverAfterWake.ctx .a) takeoverAfterWake.laneA :=
  ⟨rfl, rfl, by decide +kernel, rfl⟩

/-- Refutes O10: its clause on TAKEOVER_ASSERT leaves out that a lane that takes over no longer waits for the ramp of its stepper
currents after DORMANT (R318), as lane A in `takeoverAfterWake` does. -/
theorem not_unfitNewsComplete : ¬ Obligations.UnfitNewsComplete := by
  rintro ⟨-, -, -, -, -, -, hassert, -⟩
  have hstated := hassert takeoverAfterWake .a _ _ ⟨.a, .b, 250000, 0, 0, true⟩ here_takeoverAfterWake_a rfl rfl rfl
    (by decide +kernel)
  have hactual : Gives (.takeoverAssert .a) takeoverAfterWake .a (takeoverAssertL _ takeoverAfterWake.laneA) :=
    gives_of_onAlive_eq takeoverAssertL here_takeoverAfterWake_a rfl rfl
  have hsame := congrArg (fun l : Lane => l.pw.rampDue) (Gives.unique hstated hactual)
  exact absurd hsame (by decide +kernel)

/-! ### The marshal's supply and the lanes that share its flags (R48, R50, R409) -/

/-- Refutes O18: its clause on MARSHAL_SUPPLY_CHANGE without lane A and B names the marshal alone, but at the loss of M_VAUX the lanes
note the marshal's failure too (R50), as lane C does in `marshalOnVaux`. -/
theorem not_marshalTablesAndLinks : ¬ Obligations.MarshalTablesAndLinks := by
  rintro ⟨-, -, -, -, -, -, hsupply, -⟩
  have hstated := hsupply marshalOnVaux false rfl rfl (by decide +kernel) (by decide +kernel)
  have hactual : exec (.marshalSupplyChange false) marshalOnVaux = .next marshalOnVaux.vauxOff.supplyMarshal := rfl
  have hlaneC := congrArg State.laneC (Host.Outcome.next.inj (hactual.symm.trans hstated))
  exact marshalOnVaux_laneC_changes hlaneC

/-- Lane A wakes from DORMANT where lane B has no supply, so that the marshal has none, and lane C still shows the flag of its last
change of state. -/
def marshalAsleep : State :=
  { State.reset with
    laneA := { State.reset.laneA.put R.PW_WAKE_CAUSE_sources 1 with phase := .asleepDormant }
    laneB := { State.reset.laneB with phase := .off }
    laneC := State.reset.laneC.flag R.MS_FLAGS_state_change
    marshal := { Marshal.fresh with powered := false } }

/-- The module after lane A has woken, before the marshal follows its supply. -/
def marshalAsleep.woken : State := marshalAsleep.setLane .a (dormantWakeL (marshalAsleep.ctx .a) [[], [], [], []] marshalAsleep.laneA)

theorem marshalAsleep_laneC_changes : marshalAsleep.woken.supplyMarshal.laneC ≠ marshalAsleep.laneC := by
  intro hsame
  exact absurd (congrArg (fun l : Lane => l.rd R.MS_FLAGS) hsame) (by decide +kernel)

/-- Refutes O31: its clause on DORMANT_WAKE leaves every other lane as it is, but the marshal powers up with the woken lane (R48) and
clears the flags that lane C shows of it in `marshalAsleep` (R409). -/
theorem not_wakeAndPadsComplete : ¬ Obligations.WakeAndPadsComplete := by
  rintro ⟨-, -, -, -, hwake, -⟩
  obtain ⟨m, hstated, -, -, -, -, -, hothers⟩ := hwake marshalAsleep .a [[], [], [], []] rfl rfl (by decide +kernel)
  have hactual : exec (.dormantWake .a [[], [], [], []]) marshalAsleep = .next marshalAsleep.woken.supplyMarshal := rfl
  have hm := Host.Outcome.next.inj (hactual.symm.trans hstated)
  exact marshalAsleep_laneC_changes ((congrArg State.laneC hm).trans (hothers .c (by decide)))

end Sys2Proof.Machine

/-! PROOFS. The cross-lane links (R35 to R43, R56, R85): one equation for each case of a command that is stated. -/

namespace Sys2Proof.Machine

section
variable {c : Ctx} {l : Lane} {x : LaneId}

/-- A lane is no peer of itself. -/
theorem Lane.isPeer_ne (h : Lane.isPeer c x = true) : x ≠ c.id := by
  simp only [Lane.isPeer, othersOf, List.contains_iff_mem, List.mem_filter, decide_eq_true_eq] at h
  exact h.2

/-! ### Frames sent and received (R36, R37, R38) -/

theorem linkFrameSendL_of_next {f : OutFrame} {rest : List OutFrame} (halive : l.alive = true) (hpeer : Lane.isPeer c x = true)
    (hup : (l.peer x).downAt = none) (hnext : nextFrame (l.peer x).txq = some (f, rest)) :
    linkFrameSendL c x l = l.setPeer x { l.peer x with
      txq := rest, txSeq := (l.peer x).txSeq + 1,
      txNow := some (buildFrame c f.ftype (l.peer x).txSeq (if f.ftype = 1 then l.heartbeat c else f.payload)) } := by
  simp [linkFrameSendL, halive, hpeer, hup, hnext]

theorem linkFrameReceiveL_of_discarded (f : LinkFrame) (hpeer : Lane.isPeer c x = true) (hup : (l.peer x).downAt = none)
    (hdiscard : discards x f = true) : linkFrameReceiveL c x f l = l.discardFrame c x := by
  simp [linkFrameReceiveL, hpeer, hup, hdiscard]

/-- A kept frame is counted for a gap where it does not carry the number after the last one (R37). -/
theorem linkFrameReceiveL_of_kept (f : LinkFrame) (q : BitVec 16) (hpeer : Lane.isPeer c x = true)
    (hup : (l.peer x).downAt = none) (hkept : discards x f = false) (hseq : (l.peer x).rxSeq = some q) :
    linkFrameReceiveL c x f l =
      (let l1 := (l.setPeer x { l.peer x with badRun := 0, rxSeq := some f.seq }).setLinkUp c x true
       if f.seq = q + 1 then l1
       else l1.inc (if onLink0 c x then R.LM_LINK0_LOST_count else R.LM_LINK1_LOST_count)).takeFrame c x f := by
  by_cases hgap : f.seq = q + 1 <;> simp [linkFrameReceiveL, hpeer, hup, hkept, hseq, hgap]

/-! ### Silence and links down (R40, R42) -/

theorem heartbeatMissedL_of_silent {ws : List Word} (hpeer : Lane.isPeer c x = true) (hhb : (l.peer x).hb = some ws)
    (hlate : (l.peer x).hbAt + 13000 ≤ c.now) (hheard : (l.peer x).silentAt = none) :
    heartbeatMissedL c x l = (l.setPeer x { l.peer x with missed := 2, silentAt := some c.now }).nowSilent c x := by
  have h8 : ¬c.now < (l.peer x).hbAt + 8000 := by omega
  have h13 : ¬c.now < (l.peer x).hbAt + 13000 := by omega
  simp [heartbeatMissedL, hpeer, hhb, h8, h13, hheard]

theorem Lane.linkLost_of_up (hup : (l.peer x).downAt = none) :
    l.linkLost c x =
      ((l.setPeer x { l.peer x with
        downAt := some c.now, judged := false, txq := [], txNow := none, mirrorRx := none,
        farUnfitAtDown := !l.knowsFit x || (l.peer x).leaving.isSome }).setLinkUp c x false).flag R.LM_FLAGS_link_down := by
  simp [Lane.linkLost, hup]

/-- 20 µs after a link went down it is judged once: accounted for, or charged (R42). -/
theorem linkFaultChargeL_of_due {t : Nat} (hpeer : Lane.isPeer c x = true) (hdown : (l.peer x).downAt = some t)
    (hdue : t + 20000 ≤ c.now) (hjudged : (l.peer x).judged = false) :
    linkFaultChargeL c x l =
      (let l1 := l.setPeer x { l.peer x with judged := true }
       if (l.peer x).accounted t then l1
       else if l1.chargedLane c x = c.id then
         (if onLink0 c x then l1.put R.LM_LINK_STAT_link0_charged 1 else l1.put R.LM_LINK_STAT_link1_charged 1).logicFault c 0xC
       else (l1.countOther c x 1 0xC).learnUnfit c x) := by
  have hearly : ¬c.now < t + 20000 := by omega
  simp [linkFaultChargeL, hdown, hearly, hjudged, hpeer]

/-! ### MIRROR and PLAUS (R56, R85) -/

theorem plausSendL_of_first (hfit : l.fit = true) (hstarted : l.ea.started = true) (hfirst : l.ownPlaus = none) :
    plausSendL c l =
      ({ l with ownPlausPrev := none, ownPlaus := some (l.heat16, l.plausFrame) }.queueAll c
        ⟨4, BitVec.ofNat 32 l.heat16.toNat :: l.plausFrame⟩ (othersOf c)).tryJudge c l.heat16 true := by
  simp [plausSendL, hfit, hstarted, hfirst]

end

/-- Settles O6: each clause is the equation of its command. -/
theorem linkCommandsComplete : Obligations.LinkCommandsComplete := by
  refine ⟨?heartbeat, ?send, ?inSequence, ?gap, ?discarded, ?missed, ?down, ?accounted, ?charged, ?mirror, ?plaus⟩
  case heartbeat =>
    intro s ln c l h
    exact gives_of_onAlive_eq heartbeatSendL h rfl rfl
  case send =>
    intro s ln c l dest f rest h hpeer hup hnext
    obtain ⟨-, -, halive, -⟩ := id h
    exact gives_of_onLane_eq (linkFrameSendL · dest) h.there rfl (linkFrameSendL_of_next halive hpeer hup hnext)
  case inSequence =>
    intro s ln c l src f h hpeer hup hkept hseq
    refine tells_of_onAlive_eq (linkFrameReceiveL · src f) h rfl ?_
    simp [linkFrameReceiveL_of_kept f _ hpeer hup hkept hseq]
  case gap =>
    intro s ln c l src f q h hpeer hup hkept hseq hgap
    refine tells_of_onAlive_eq (linkFrameReceiveL · src f) h rfl ?_
    simp only [linkFrameReceiveL_of_kept f q hpeer hup hkept hseq, hgap, if_false]
  case discarded =>
    intro s ln c l src f h hpeer hup hdiscard
    exact tells_of_onAlive_eq (linkFrameReceiveL · src f) h rfl (linkFrameReceiveL_of_discarded f hpeer hup hdiscard)
  case missed =>
    intro s ln c l x ws h hpeer hhb hlate hheard
    exact gives_of_onAlive_eq (heartbeatMissedL · x) h rfl (heartbeatMissedL_of_silent hpeer hhb hlate hheard)
  case down =>
    intro s ln c l x h hpeer hup
    refine gives_of_onAlive_eq (fun c l => if Lane.isPeer c x then l.linkDown c x else l) h rfl ?_
    rw [if_pos hpeer, Lane.linkDown, Lane.linkLost_of_up hup]
  case accounted =>
    intro s ln c l x t h hpeer hdown hdue hjudged hacc
    refine gives_of_onAlive_eq (linkFaultChargeL · x) h rfl ?_
    simp [linkFaultChargeL_of_due hpeer hdown hdue hjudged, hacc]
  case charged =>
    intro s ln c l x t h hpeer hdown hdue hjudged hacc hcharged
    refine gives_of_onAlive_eq (linkFaultChargeL · x) h rfl ?_
    simp [linkFaultChargeL_of_due hpeer hdown hdue hjudged, hacc, hcharged, Lane.isPeer_ne hpeer]
  case mirror =>
    intro s ln c l h hsends hover
    refine gives_of_onAlive_eq mirrorSendL h rfl ?_
    rw [mirrorSendL, if_neg (by simp [hsends, hover])]
  case plaus =>
    intro s ln c l h hfit hstarted hfirst
    exact tells_of_onAlive_eq plausSendL h rfl (plausSendL_of_first hfit hstarted hfirst)

end Sys2Proof.Machine

/-! PROOFS. Disagreements, the inhibit votes and the tests of their lines (R46, R47, R86 to R90). -/

namespace Sys2Proof.Machine

/-! ### A lane's bit in a three-lane mask (R39, R92) -/

/-- A lane's bit of a mask that a three-bit field holds is as it was set. -/
theorem maskHas_maskSet (m : Nat) (hm : m < 8) (x : LaneId) (b : Bool) : maskHas (maskSet m x b % 8) x = b := by
  revert m b
  cases x <;> decide

/-- A vote into a lane stands in LM_VOTE.votes_in as it was set there. -/
theorem Lane.maskHas_put_votes_in (l : Lane) (x : LaneId) (b : Bool) :
    maskHas ((l.put R.LM_VOTE_votes_in (maskSet (l.get R.LM_VOTE_votes_in) x b)).get R.LM_VOTE_votes_in) x = b := by
  rw [Lane.get_put_same _ _ _ (by decide) (by decide)]
  exact maskHas_maskSet _ (fldOf_lt R.LM_VOTE_votes_in _) x b

@[simp] theorem Lane.get_setPeer (l : Lane) (x : LaneId) (p : Peer) (f : Fld) : (l.setPeer x p).get f = l.get f := by simp [Lane.get]

@[simp] theorem Lane.peer_setPeer_same (l : Lane) (x : LaneId) (p : Peer) : (l.setPeer x p).peer x = p := by cases x <;> rfl

/-- A lane whose memory list is the same has every byte as before. -/
theorem SameMem.of_mem_eq {l m : Lane} (h : m.mem = l.mem) : SameMem l m := fun a => congrArg (memGet · a) h

/-! ### Disagreements (R86, R87, R90) -/

section
variable {c : Ctx} {l : Lane} {x : LaneId}

theorem disagreeL_of_named (lanes : BitVec 3) (quantity : BitVec 16) (heats : BitVec 2) (hpeer : Lane.isPeer c x = true)
    (hnamed : maskHas lanes.toNat c.id = true) :
    disagreeL c x lanes quantity heats l =
      (let l1 := l.put R.LM_DISAGREE_quantity quantity.toNat
       ((l1.put R.LM_DISAGREE_lanes (maskSet (l1.get R.LM_DISAGREE_lanes) x true)).put R.LM_DISAGREE_heats heats.toNat).flag
         R.LM_FLAGS_disagree) := by
  simp [disagreeL, hpeer, hnamed]

/-! ### The inhibit trip (R46) -/

/-- The other lanes of lane A on a three-lane member. -/
theorem othersOf_a_of_triple (htriple : isTriple c.part.member = true) (ha : c.id = .a) : othersOf c = [.b, .c] := by
  simp [othersOf, lanesOf, htriple, ha]

/-- A vote that has stood for isolator, filter and 500 ns and has not ended. -/
theorem Peer.votedUntil_of_standing {p : Peer} {t now : Nat} (hin : p.inAt = some t) (hout : p.outAt = none)
    (hdue : t + 650 ≤ now) : p.votedUntil now = true := by
  have h : t + voteDelay + 500 ≤ now := by unfold voteDelay; omega
  simp [Peer.votedUntil, hin, hout, h]

/-- Two votes that stand make lane A unfit by them, unless it is so already. -/
theorem inhibitTripL_of_votes {t u : Nat} (htriple : isTriple c.part.member = true) (ha : c.id = .a)
    (hb : l.peerB.inAt = some t) (hc : l.peerC.inAt = some u) (hbo : l.peerB.outAt = none) (hco : l.peerC.outAt = none)
    (ht : t + 650 ≤ c.now) (hu : u + 650 ≤ c.now) (hrole : l.role ≠ roleUnfit) :
    inhibitTripL c l = l.becomeUnfit c 0xB 1 0xB .votes := by
  have hvotes := Peer.votedUntil_of_standing hb hbo ht
  have hvotes' := Peer.votedUntil_of_standing hc hco hu
  simp [inhibitTripL, othersOf_a_of_triple htriple ha, Lane.peer, Peer.voteEnd, hbo, hco, hvotes, hvotes', htriple, hrole]

end

/-! ### Votes shown in their target (R89, R90) -/

/-- VOTE_ASSERT shows the vote in its target from now on. -/
theorem voteAssert_shown (s : State) (ln target : LaneId) (row : Fin 5) (hhas : s.has ln = true) (htarget : s.has target = true)
    (hmay : (s.lane ln).mayVote (s.ctx ln) target row.val = true) :
    ∃ t, exec (.voteAssert ln target row) s = .next t ∧ maskHas ((t.lane target).get R.LM_VOTE_votes_in) ln = true ∧
      ((t.lane target).peer ln).inAt = some (s.ctx target).now ∧ ((t.lane target).peer ln).outAt = none ∧
      SameMem (s.lane target) (t.lane target) := by
  have hne : target ≠ ln := by
    simp only [Lane.mayVote, Bool.and_eq_true] at hmay
    obtain ⟨⟨⟨-, hpeer⟩, -⟩, -⟩ := hmay
    exact Lane.isPeer_ne hpeer
  refine ⟨_, if_pos (by simp [hhas, htarget, hmay]), ?_⟩
  simp [State.lane_setLane_ne _ _ _ _ hne, Lane.maskHas_put_votes_in, SameMem.of_mem_eq]

/-- Replacing a lane by one with the same memory keeps the memory of every lane. -/
theorem State.mem_lane_setLane (s : State) (x y : LaneId) (l : Lane) (h : l.mem = (s.lane x).mem) :
    ((s.setLane x l).lane y).mem = (s.lane y).mem := by
  by_cases hy : y = x
  · subst hy; rw [State.lane_setLane_same, h]
  · rw [State.lane_setLane_ne _ _ _ _ hy]

/-- VOTE_RELEASE shows the vote as ended in its target. -/
theorem voteRelease_shown (s : State) (ln target : LaneId) (hhas : s.has ln = true) (htarget : s.has target = true)
    (hmay : (s.lane ln).mayRelease (s.ctx ln).now target = true) :
    ∃ t, exec (.voteRelease ln target) s = .next t ∧ maskHas ((t.lane target).get R.LM_VOTE_votes_in) ln = false ∧
      ((t.lane target).peer ln).outAt = some (s.ctx target).now ∧ SameMem (s.lane target) (t.lane target) := by
  refine ⟨_, if_pos (by simp [hhas, htarget, hmay]), ?_⟩
  simp [Lane.maskHas_put_votes_in, SameMem.of_mem_eq, State.mem_lane_setLane]

/-! ### Tests of the vote lines (R47) -/

/-- VOTE_TEST_PULSE that is due: a miss is counted in the voter, and the target shows whether the pulse came. -/
theorem voteTestPulse_of_due (s : State) (ln target : LaneId) (received : Bool) (hhas : s.has ln = true)
    (htarget : s.has target = true) (hne : ln ≠ target) (hdue : (s.lane ln).pulseDue (s.ctx ln) target = true)
    (halive : (s.lane target).alive = true) :
    exec (.voteTestPulse ln target received) s = .next ((s.setLane ln ((s.lane ln).setPeer target { (s.lane ln).peer target with
      pulseMiss := if received then 0 else ((s.lane ln).peer target).pulseMiss + 1 })).setLane target ((s.lane target).putB
        (if onLink0 (s.ctx target) ln then R.LM_STATUS_pulse_rx_0 else R.LM_STATUS_pulse_rx_1) received)) := by
  refine (if_pos (by simp [hhas, htarget, hdue])).trans ?_
  simp [State.lane_setLane_ne _ _ _ _ hne.symm, halive]

/-- VOTE_TEST_FAIL after two misses: recorded in the voter, and the target is unfit. -/
theorem voteTestFail_of_misses (s : State) (ln target : LaneId) (hhas : s.has ln = true) (htarget : s.has target = true)
    (hne : ln ≠ target) (halive : (s.lane ln).alive = true) (halive' : (s.lane target).alive = true)
    (hmiss : 2 ≤ ((s.lane ln).peer target).pulseMiss) :
    exec (.voteTestFail ln target) s = .next ((s.setLane ln (voteTestFailL target (s.lane ln))).setLane target
      ((s.lane target).becomeUnfit (s.ctx target) 0xA 1 0xA .inhibit)) := by
  refine (if_pos (by simp [hhas, htarget, halive, hne, hmiss])).trans ?_
  simp [State.lane_setLane_ne _ _ _ _ hne.symm, halive']

/-- Settles O7: the equations of the commands in one lane, and the lemmas on votes and tests, which two lanes take part in. -/
theorem disagreementCommandsComplete : Obligations.DisagreementCommandsComplete := by
  refine ⟨?disagree, ?disputed, ?vote, ?trip, voteAssert_shown, voteRelease_shown, voteTestPulse_of_due, voteTestFail_of_misses⟩
  case disagree =>
    intro s ln c l sender lanes quantity heats h hpeer hnamed
    exact gives_of_onAlive_eq (disagreeL · sender lanes quantity heats) h rfl (disagreeL_of_named lanes quantity heats hpeer hnamed)
  case disputed =>
    intro s ln c l sender quantity h hpeer
    exact gives_of_onAlive_eq (disputedL · sender quantity) h rfl (if_pos hpeer)
  case vote =>
    intro s ln c l sender target row h hpeer
    exact gives_of_onAlive_eq (voteL · sender target row) h rfl (if_pos hpeer)
  case trip =>
    intro s ln c l t u h htriple ha hb hc hbo hco ht hu hrole
    exact gives_of_onAlive_eq inhibitTripL h rfl (inhibitTripL_of_votes htriple ha hb hc hbo hco ht hu hrole)

end Sys2Proof.Machine

/-! PROOFS. The commands of the fault-containment unit (R25, R92 to R113): one equation for each case of a command that is stated. -/

namespace Sys2Proof.Machine

section
variable {c : Ctx} {l : Lane}

/-! ### Comparators and parity (R96, R98, R104) -/

theorem twinMismatchL_of_mismatch (ix : Fin 29) (h : hasComparator c.part.member ix.val = true) :
    twinMismatchL c ix 1 false l = (l.flag R.FC_FLAGS_mismatch).twinFault c ix.val 0 := by
  simp [twinMismatchL, h]

theorem inputDisagreeL_of_tolerated (ix : Fin 29) (input : BitVec 8) (h : hasComparator c.part.member ix.val = true) :
    inputDisagreeL c ix input false l =
      (((l.put R.FC_IA_input input.toNat).put R.FC_IA_twin ix.val).inc R.FC_IA_tolerated).flag R.FC_FLAGS_ia_disagree := by
  simp [inputDisagreeL, h]

theorem parityErrorL_of_comparator (ix : Fin 29) (h : hasComparator c.part.member ix.val = true) :
    parityErrorL c ix l = (l.flag R.FC_FLAGS_parity).twinFault c ix.val 3 := if_pos h

/-! ### Memory errors (R106 to R109) -/

theorem correctedErrorL_of_sram (memory : Fin 7) (addr value : Word) (h : inSram c.part.member memory.val addr.toNat = true) :
    correctedErrorL c memory addr value l = (l.countCe memory.val).setGranule addr.toNat value := if_pos h

/-- An uncorrectable error of lane SRAM, the image slot in use, the calibration or the fabric is a fault of the lane (R107). -/
theorem uncorrectableErrorL_of_lane (memory : Fin 7) (addr : Word) (h0 : memory.val ≠ 0) (h1 : memory.val ≠ 1)
    (h4 : memory.val ≠ 4) :
    uncorrectableErrorL c memory addr l =
      (((l.put R.FC_UE_INFO_memory memory.val).wr R.FC_UE_ADDR addr).flag R.FC_FLAGS_ue).hardFault c 0xC := by
  unfold uncorrectableErrorL
  split
  · exact absurd ‹_› h0
  · exact absurd ‹_› h1
  · exact absurd ‹_› h4
  · rfl

theorem uncorrectableErrorL_of_journal (addr : Word) :
    uncorrectableErrorL c 4 addr l =
      (let m := (((l.put R.FC_UE_INFO_memory 4).wr R.FC_UE_ADDR addr).flag R.FC_FLAGS_ue).flag R.FC_FLAGS_journal_ue
       { m with planted := tabPut m.planted (addr.toNat / 4 * 4) 2 }) := by
  simp [uncorrectableErrorL]

/-- Inside a volatile pass the scrubber does not wait, and no period starts (R108). -/
theorem scrubReadL_of_inside (r : Ecc) (raced : Bool) (hflash : l.fc.scrubFlash = 0) (hat : 0 < l.fc.scrubAt) :
    scrubReadL c r raced l =
      (l.scrubbed c (scrubPlace c.part.member l.fc.scrubAt).1 (scrubPlace c.part.member l.fc.scrubAt).2 r raced).scrubNext c := by
  have hne : l.fc.scrubAt ≠ 0 := by omega
  simp [scrubReadL, Lane.scrubWaits, Lane.scrubBegin, hflash, hne]

theorem Lane.scrubbed_of_corrected (memory a : Nat) (w : Word) (hclean : tabGet l.planted a = none)
    (hsram : inSram c.part.member memory a = true) :
    l.scrubbed c memory a (.corrected w) false = (l.countCe memory).setGranule a w := by
  simp [Lane.scrubbed, Lane.eccAt, hclean, hsram]

theorem memInjWriteL_of_accepted (value : Word) (hrole : l.active = false) (hparked : l.parked = true)
    (h3 : fldOf R.FC_MEM_INJ_memory value ≠ 3) (h0 : fldOf R.FC_MEM_INJ_memory value ≠ 0)
    (hkind : fldOf R.FC_MEM_INJ_kind value ≠ 3) (hbit : fldOf R.FC_MEM_INJ_bit value ≤ 38) :
    memInjWriteL c value l =
      ((({ l with bus := .done }).put R.FC_MEM_INJ_memory (fldOf R.FC_MEM_INJ_memory value)).put R.FC_MEM_INJ_kind
        (fldOf R.FC_MEM_INJ_kind value)).put R.FC_MEM_INJ_bit (fldOf R.FC_MEM_INJ_bit value) := by
  have hbit' : ¬38 < fldOf R.FC_MEM_INJ_bit value := by omega
  simp [memInjWriteL, hrole, hparked, h3, h0, hkind, hbit']

theorem memErrorPlantL_of_sram (addr : Word) (hmem : l.get R.FC_MEM_INJ_memory = 2) (hkind : l.get R.FC_MEM_INJ_kind ≠ 0)
    (hlo : 0x20000000 ≤ addr.toNat) (hhi : addr.toNat < 0x20400000) :
    memErrorPlantL c addr l =
      { l.wr R.FC_MEM_INJ 0 with planted := tabPut l.planted (addr.toNat / 4 * 4) (l.get R.FC_MEM_INJ_kind) } := by
  simp [memErrorPlantL, hmem, hkind, hlo, hhi]

/-! ### Injections, management checks and LM_SELF_UNFIT (R92, R102, R112) -/

/-- A missed injection of a comparator that belongs to no engine is a fault of the lane (R102). -/
theorem comparatorInjectionL_of_missed (ix : Fin 29) (hstarted : l.ea.started = true)
    (hcomp : hasComparator c.part.member ix.val = true) (h24 : 24 ≤ ix.val) (hdue : l.ea.heatAt + 2000 + 200 * ix.val ≤ c.now) :
    comparatorInjectionL c ix false l =
      ((({ l with fc := { l.fc with injMissedNow := true } }.inc R.FC_INJ_missed).put R.FC_INJ_last_missed ix.val).flag
        R.FC_FLAGS_inj_missed).hardFault c 0xC := by
  have hengine : ¬ix.val < 24 := by omega
  have hearly : ¬c.now < l.ea.heatAt + 2000 + 200 * ix.val := by omega
  simp [comparatorInjectionL, hstarted, hcomp, hengine, hearly]

theorem managementFaultL_of_applies (row : Fin 6) (h : l.rowApplies c row.val = true) :
    managementFaultL c row l = (if row.val = 3 then l.nodesStuck c else l).roleFault c row.val := by
  simp [managementFaultL, h]

end

/-- Settles O14: each clause is the equation of its command. -/
theorem containmentCommandsComplete : Obligations.ContainmentCommandsComplete := by
  refine ⟨?mismatch, ?input, ?parity, ?corrected, ?uncorrectable, ?journal, ?scrub, ?injWrite, ?plant, ?missed, ?management, ?unfit,
    ?ignored⟩
  case mismatch =>
    intro s ln c l ix h hcomp
    exact gives_of_onAlive_eq (twinMismatchL · ix 1 false) h rfl (twinMismatchL_of_mismatch ix hcomp)
  case input =>
    intro s ln c l ix input h hcomp
    exact gives_of_onAlive_eq (inputDisagreeL · ix input false) h rfl (inputDisagreeL_of_tolerated ix input hcomp)
  case parity =>
    intro s ln c l ix h hcomp
    exact gives_of_onAlive_eq (parityErrorL · ix) h rfl (parityErrorL_of_comparator ix hcomp)
  case corrected =>
    intro s ln c l memory addr value h hsram
    exact gives_of_onAlive_eq (correctedErrorL · memory addr value) h rfl (correctedErrorL_of_sram memory addr value hsram)
  case uncorrectable =>
    intro s ln c l memory addr h h0 h1 h4
    exact gives_of_onAlive_eq (uncorrectableErrorL · memory addr) h rfl (uncorrectableErrorL_of_lane memory addr h0 h1 h4)
  case journal =>
    intro s ln c l addr h
    exact gives_of_onAlive_eq (uncorrectableErrorL · 4 addr) h rfl (uncorrectableErrorL_of_journal addr)
  case scrub =>
    intro s ln c l w h hflash hat hclean _ hsram
    refine gives_of_onAlive_eq (scrubReadL · (.corrected w) false) h rfl ?_
    rw [scrubReadL_of_inside _ _ hflash hat, Lane.scrubbed_of_corrected _ _ _ hclean hsram]
  case injWrite =>
    intro s ln c l value h hrole hparked h3 h0 hkind hbit
    exact gives_of_onAlive_eq (memInjWriteL · value) h rfl (memInjWriteL_of_accepted value hrole hparked h3 h0 hkind hbit)
  case plant =>
    intro s ln c l addr h hmem hkind hlo hhi
    exact gives_of_onAlive_eq (memErrorPlantL · addr) h rfl (memErrorPlantL_of_sram addr hmem hkind hlo hhi)
  case missed =>
    intro s ln c l ix h hstarted hcomp h24 hdue
    exact gives_of_onAlive_eq (comparatorInjectionL · ix false) h rfl (comparatorInjectionL_of_missed ix hstarted hcomp h24 hdue)
  case management =>
    intro s ln c l row h happlies
    exact gives_of_onAlive_eq (managementFaultL · row) h rfl (managementFaultL_of_applies row happlies)
  case unfit =>
    intro s ln c l value h hkey
    exact gives_of_onAlive_eq (selfUnfitWriteL · value) h rfl (if_pos hkey)
  case ignored =>
    intro s ln c l value h hkey
    exact gives_of_onAlive_eq (selfUnfitWriteL · value) h rfl (if_neg hkey)

end Sys2Proof.Machine

/-! PROOFS. The events of the scheduler (R52, R136 to R166, R199, R209): what takes effect at a commit window's end, what a free engine
does, TCM writes and PWM periods. -/

namespace Sys2Proof.Machine

/-! ### Staged words (R149, R160) -/

/-- A route to a transmit buffer, whose words are gathered per buffer. -/
def Route.toBuffer : Route → Bool
  | .nxTx _ _ => true
  | .canTx _ _ _ => true
  | .seTx _ _ => true
  | _ => false

section
variable {c : Ctx} {l : Lane} {ss : List Staged}

/-- A buffer takes no word of a set of which none is routed to a transmit buffer. -/
theorem wordsFor_of_no_buffer (h : ∀ x ∈ ss, x.route.toBuffer = false) (f : Route → Option Nat)
    (hf : ∀ r, r.toBuffer = false → f r = none) : wordsFor ss f = [] := by
  rw [wordsFor, List.filterMap_eq_nil_iff]
  exact fun x hx => by rw [hf _ (h x hx), Option.map_none]

theorem Lane.applyNx_of_no_buffer (h : ∀ x ∈ ss, x.route.toBuffer = false) (n : Nat) : l.applyNx ss n = l :=
  if_pos (Or.inl (wordsFor_of_no_buffer h _ fun r hr => by cases r <;> simp_all [Route.toBuffer]))

theorem Lane.applyCan_of_no_buffer (h : ∀ x ∈ ss, x.route.toBuffer = false) (k m : Nat) : l.applyCan ss k m = l :=
  if_pos (wordsFor_of_no_buffer h _ fun r hr => by cases r <;> simp_all [Route.toBuffer])

theorem Lane.applySe_of_no_buffer (h : ∀ x ∈ ss, x.route.toBuffer = false) (k : Nat) : l.applySe ss k = l :=
  if_pos (Or.inl (wordsFor_of_no_buffer h _ fun r hr => by cases r <;> simp_all [Route.toBuffer]))

/-- Words of output stages and lane SRAM take effect one by one. -/
theorem Lane.applyWords_of_no_buffer (h : ∀ x ∈ ss, x.route.toBuffer = false) :
    l.applyWords c ss = ss.foldl (fun y x => y.applyWord c x) l := by
  simp only [Lane.applyWords]
  rw [List.foldl_fixed' fun k => Lane.applySe_of_no_buffer h k, List.foldl_fixed' fun m => Lane.applyCan_of_no_buffer h 1 m,
    List.foldl_fixed' fun m => Lane.applyCan_of_no_buffer h 0 m, List.foldl_fixed' fun n => Lane.applyNx_of_no_buffer h n]

/-- No leg's commit window is that of the hurdle, so that its end shuts none. -/
theorem Lane.takeEffect_of_no_window {h : Nat} (hwin : ∀ p ∈ l.ea.legs, p.2.window ≠ some h) :
    l.takeEffect c h =
      { l with ea := { l.ea with staged := l.ea.staged.filter (fun x => decide (x.hurdle ≠ h)) } }.applyWords c
        (l.ea.staged.filter (fun x => decide (x.hurdle = h))) := by
  have hlegs : l.ea.legs.map (fun p : Nat × LegRun => (p.1, if p.2.window = some h then { p.2 with window := none } else p.2)) =
      l.ea.legs := by
    rw [List.map_congr_left (g := id) fun p hp => by rw [if_neg (hwin p hp)]; rfl, List.map_id]
  simp only [Lane.takeEffect, hlegs]

/-- The end of a window with nothing staged and no leg changes nothing. -/
theorem Lane.takeEffect_of_nothing {h : Nat} (hstaged : l.ea.staged.filter (fun x => decide (x.hurdle = h)) = [])
    (hwin : ∀ p ∈ l.ea.legs, p.2.window ≠ some h) : l.takeEffect c h = l := by
  have hkept : l.ea.staged.filter (fun x => decide (x.hurdle ≠ h)) = l.ea.staged := by
    rw [List.filter_eq_self]
    rw [List.filter_eq_nil_iff] at hstaged
    simpa using hstaged
  rw [Lane.takeEffect_of_no_window hwin, hstaged, hkept, Lane.applyWords_of_no_buffer (by simp)]
  rfl

/-- One word staged takes effect at the end of its window and is staged no longer. -/
theorem Lane.takeEffect_of_one {x : Staged} (hstaged : l.ea.staged = [x]) (hwin : ∀ p ∈ l.ea.legs, p.2.window ≠ some x.hurdle)
    (hroute : x.route.toBuffer = false) :
    l.takeEffect c x.hurdle = { l with ea := { l.ea with staged := [] } }.applyWord c x := by
  rw [Lane.takeEffect_of_no_window hwin, hstaged]
  simp [Lane.applyWords_of_no_buffer, hroute]

/-! ### The early commit (R160, R189) -/

/-- With no leg of the library waiting there is none to commit. -/
theorem Lane.commitLibrary_of_none (hwait : l.bk.waiting = []) : l.commitLibrary c = l := by
  have hbk : ({ l.bk with waiting := [] } : Brake) = l.bk := by rw [← hwait]
  simp [Lane.commitLibrary, hwait, hbk]

/-- A run-ahead leg that is due and was not squashed is committed with its corrected words, counted, and its spawns pushed. -/
theorem Lane.commitAhead_of_due {k : Nat} {d : LegDesc} {x : Done} (hahead : d.runAhead = true) (hdue : (l.leg k).due = true)
    (hkept : (l.leg k).squashed = false) (hdone : l.ea.done.find? (fun y => decide (y.leg = k) && y.ahead) = some x) :
    l.commitAhead c (k, d) =
      (let l1 := (l.commitLeg 8 (l.corrected d x) 2).inc R.EA_RA_COMMIT_count
       { l1 with ea := { l1.ea with done := l1.ea.done.filter (fun y => decide (y ≠ x)) } }.pushSpawns c x.engine x.spawn) := by
  simp [Lane.commitAhead, hdone, hahead, hdue, hkept]

theorem Lane.commitAhead_of_not_due {p : Nat × LegDesc} (h : p.2.runAhead = true → (l.leg p.1).due = false) :
    l.commitAhead c p = l := by
  have hno : (p.2.runAhead && (l.leg p.1).due) = false := by cases hr : p.2.runAhead <;> simp_all
  unfold Lane.commitAhead
  dsimp only
  split
  · simp [hno]
  · rfl

/-- Legs of which none is due leave the lane as it is. -/
theorem Lane.foldl_commitAhead_of_none_due (ps : Tab LegDesc) (h : ∀ p ∈ ps, p.2.runAhead = true → (l.leg p.1).due = false) :
    ps.foldl (fun y p => y.commitAhead c p) l = l := by
  induction ps with
  | nil => rfl
  | cons p t ih =>
    rw [List.foldl_cons, Lane.commitAhead_of_not_due (h p List.mem_cons_self)]
    exact ih fun q hq => h q (List.mem_cons_of_mem p hq)

/-! ### Free engines (R142, R145, R156, R164) -/

theorem legStartL_of_entry {e : EngIx} {n : Entry} {q : List Entry} (hfree : l.engFree c e.val = true)
    (htake : takeBottom (l.eng e.val).deque = some (n, q)) :
    legStartL c e l = (l.setEng e.val { l.eng e.val with deque := q }).startEntry c e.val n := by
  simp [legStartL, hfree, htake]

theorem legStartL_of_empty {e : EngIx} (hfree : l.engFree c e.val = true) (hempty : (l.eng e.val).deque = []) :
    legStartL c e l = l.sweep c e.val := by
  simp [legStartL, hfree, hempty, takeBottom]

/-- An engine with entries of which none is ready waits (R156). -/
theorem legStartL_of_none_ready {e : EngIx} (hsome : (l.eng e.val).deque ≠ []) (htake : takeBottom (l.eng e.val).deque = none) :
    legStartL c e l = l := by
  simp [legStartL, hsome, htake]

theorem legStartL_of_not_free {e : EngIx} (hfree : l.engFree c e.val = false) : legStartL c e l = l := by
  simp [legStartL, hfree]

theorem stealSweepL_of_empty {e : EngIx} (hfree : l.engFree c e.val = true) (hempty : (l.eng e.val).deque = []) :
    stealSweepL c e l = l.sweep c e.val := by
  simp [stealSweepL, hfree, hempty]

theorem Lane.sweep_of_none {e : Nat} (hsteal : l.stealFrom c e (sweepOrder c.part.member e) = none) :
    l.sweep c e = l.setEng e { (l.eng e).clear.writeDigest 0 with gated := true } := by
  simp [Lane.sweep, hsteal]

theorem Lane.sweep_of_local {e v : Nat} {n : Entry} {q : List Entry}
    (hsteal : l.stealFrom c e (sweepOrder c.part.member e) = some (v, n, q)) (hblock : v / 4 = e / 4) :
    l.sweep c e =
      (let l1 := l.setEng v { l.eng v with deque := q }
       { l1 with ea := { l1.ea with localSteals := l1.ea.localSteals + 1 } }.startEntry c e n) := by
  simp [Lane.sweep, hsteal, hblock]

theorem engineWakeL_of_push {e : EngIx} (hfit : l.engFit c e.val = true) (hgated : (l.eng e.val).gated = true)
    (hsome : (l.eng e.val).deque ≠ []) : engineWakeL c e .push l = l.setEng e.val { l.eng e.val with gated := false } := by
  simp [engineWakeL, hfit, hgated, hsome]

/-- An unfit engine, one that is not gated, and the injection slot wake none (R164). -/
theorem engineWakeL_of_not_woken {e : EngIx} {k : WakeCause}
    (h : l.engFit c e.val = false ∨ (l.eng e.val).gated = false ∨ k = .injection) : engineWakeL c e k l = l := by
  obtain hunfit | hawake | rfl := h
  · simp [engineWakeL, hunfit]
  · simp [engineWakeL, hawake]
  · simp [engineWakeL]

/-! ### Writes to a TCM (R166) -/

/-- An aligned word in the TCM of a fit engine is there. -/
theorem Lane.tcmThere_of_aligned {a : Nat} (hlt : a < 0x10000 * engineCount c.part.member) (hal : a % 4 = 0)
    (hfit : l.engFit c (a / 0x10000) = true) : l.tcmThere c a 4 = true := by
  have hend : a + 4 ≤ 0x10000 * engineCount c.part.member := by omega
  have hlast : (a + 3) / 0x10000 = a / 0x10000 := by omega
  simp [Lane.tcmThere, hend, hlast, hfit]

theorem tcmWriteL_of_before_heat {a v : Word} (hlt : a.toNat < 0x10000 * engineCount c.part.member) (hal : a.toNat % 4 = 0)
    (hfit : l.engFit c (a.toNat / 0x10000) = true) (hstarted : l.ea.started = false) (hsched : l.st.schedAt = none) :
    tcmWriteL c a v l = { l.setGranule a.toNat v with bus := .done } :=
  if_pos ⟨hal, Lane.tcmThere_of_aligned hlt hal hfit, by simp [Lane.beforeHeat, hstarted, hsched]⟩

theorem tcmWriteL_of_refused {a v : Word}
    (h : l.ea.started = true ∨ l.st.schedAt ≠ none ∨ l.engFit c (a.toNat / 0x10000) = false ∨ a.toNat % 4 ≠ 0 ∨
      0x10000 * engineCount c.part.member ≤ a.toNat) : tcmWriteL c a v l = { l with bus := .error } := by
  refine if_neg ?_
  simp only [Lane.tcmThere, Lane.beforeHeat, Bool.and_eq_true, decide_eq_true_eq, Bool.not_eq_true', Option.isNone_iff_eq_none]
  rintro ⟨hal, ⟨⟨hend, hfit⟩, -⟩, hstarted, hsched⟩
  obtain h | h | h | h | h := h
  · simp [hstarted] at h
  · exact h hsched
  · simp [hfit] at h
  · exact h hal
  · omega

/-! ### PWM periods (R199, R209, R241) -/

theorem Lane.startGates_of_none {ch : Nat} (h : (l.mc ch).gateFrom = none) : l.startGates c ch = l := by
  simp [Lane.startGates, h]

/-- Where no gate of the member waits for the boundary none starts. -/
theorem Lane.foldl_startGates_of_none (n : Nat) (h : ∀ ch, ch < n → (l.mc ch).gateFrom = none) :
    (List.range n).foldl (fun y ch => y.startGates c ch) l = l := by
  induction n with
  | zero => rfl
  | succ n ih =>
    rw [List.range_succ, List.foldl_append, ih fun ch hch => h ch (by omega)]
    exact Lane.startGates_of_none (h n (by omega))

@[simp] theorem Lane.rd_noteBridge (ch a : Nat) : (l.noteBridge c ch).rd a = l.rd a := l.rd_setMc ch a _

@[simp] theorem Lane.bit_noteBridge (ch : Nat) (f : Fld) : (l.noteBridge c ch).bit f = l.bit f := by
  unfold Lane.bit Lane.get
  rw [Lane.rd_noteBridge]

/-- A one-bit field that was set reads 1. -/
theorem Lane.bit_putB_true (l : Lane) (f : Fld) (h : f.lo = f.hi) (h32 : f.hi < 32) : (l.putB f true).bit f = true := by
  unfold Lane.bit
  rw [show l.putB f true = l.put f 1 from rfl, Lane.get_put_same _ _ _ (by omega) h32, h]
  simp

/-- A power stage that nothing cuts keeps its channel's state: the paths follow their requests (R241). -/
theorem Lane.sto_of_not_cut {ch : Nat} (hcut : l.wantsCut ch = false) : l.sto c ch = l.stoPaths c ch := by
  simp [Lane.sto, hcut]

/-- A running channel with no path requested and no gate waiting: both paths are released and its gates switch (R241). -/
theorem Lane.stoPaths_of_running {ch : Nat} (hcut : l.wantsCut ch = false) (hrun : l.mcState ch = mcRun)
    (hpass : l.baton.pass = none) (hgate : (l.mc ch).gateFrom = none) :
    l.stoPaths c ch =
      (((l.putB (R.PS_STATUS_supply_cut ch) false).putB (R.PS_STATUS_logic_disable ch) false).putB
        (R.PS_STATUS_switching ch) true).noteBridge c ch := by
  have hlogic : l.wantsLogic c ch = false := by
    simp [Lane.wantsLogic, Lane.wantsOther, Lane.muted, hcut, hrun, hpass, mcRun, mcOff, mcCatch, mcPulse]
  simp [Lane.stoPaths, hcut, hlogic, hrun, hgate]

/-- A channel takes the values of its next load, and its gates wait no longer. -/
def Lane.loadGates (l : Lane) (ch : Nat) : Lane := (l.setMc ch { l.mc ch with gateFrom := none }).loadCmp ch

/-- A boundary starts the gates that wait for it; no gap is measured where none is open (R92, R209). -/
theorem Lane.startGates_of_due {ch t : Nat} (hgate : (l.mc ch).gateFrom = some t) (hdue : t ≤ c.now)
    (hgap : ((l.loadGates ch).sto c ch).baton.gateOffAt = none) : l.startGates c ch = (l.loadGates ch).sto c ch := by
  unfold Lane.loadGates at hgap ⊢
  simp [Lane.startGates, hgate, hdue, hgap]

/-- Channel 0 starts to switch at its boundary where it runs and nothing cuts it (R209). -/
theorem Lane.startGates_of_running {t : Nat} (hgate : (l.mc 0).gateFrom = some t) (hdue : t ≤ c.now)
    (hrun : l.mcState 0 = mcRun) (hcut : l.wantsCut 0 = false) (hpass : l.baton.pass = none) (hgap : l.baton.gateOffAt = none) :
    l.startGates c 0 =
      ((((l.loadGates 0).putB (R.PS_STATUS_supply_cut 0) false).putB (R.PS_STATUS_logic_disable 0) false).putB
        (R.PS_STATUS_switching 0) true).noteBridge c 0 := by
  have hsto := (Lane.sto_of_not_cut (c := c) (l := l.loadGates 0) hcut).trans (Lane.stoPaths_of_running hcut hrun hpass rfl)
  rw [Lane.startGates_of_due hgate hdue (by rw [hsto]; exact hgap), hsto]

end

/-- What a period boundary does to a one-channel member whose gates may start: the channel switches with the values of its next load,
and of registers and memory only PS_STATUS changes. -/
theorem Lane.startGates_running_spec {c : Ctx} {l : Lane} {t : Nat} (hgate : (l.mc 0).gateFrom = some t) (hdue : t ≤ c.now)
    (hrun : l.mcState 0 = mcRun) (hcut : l.wantsCut 0 = false) (hpass : l.baton.pass = none) (hgap : l.baton.gateOffAt = none) :
    (l.startGates c 0).bit (R.PS_STATUS_switching 0) = true ∧ ((l.startGates c 0).mc 0).cmp = (l.mc 0).cmpNext ∧
      ((l.startGates c 0).mc 0).gateFrom = none ∧ SameRegs l (l.startGates c 0) [R.PS_STATUS 0] ∧ SameMem l (l.startGates c 0) ∧
      (l.startGates c 0).baton.pass = none := by
  rw [Lane.startGates_of_running hgate hdue hrun hcut hpass hgap]
  refine ⟨?_, rfl, rfl, fun a ha => ?_, fun _ => rfl, hpass⟩
  · rw [Lane.bit_noteBridge]
    exact Lane.bit_putB_true _ _ rfl (by decide)
  · have hne : a ≠ R.PS_STATUS 0 := by simpa using ha
    simp [Lane.putB, Lane.rd_put_ne, hne, Lane.loadGates, Lane.loadCmp]

section
variable {c : Ctx} {l : Lane}

/-- Where no gate of the member waits and no pass is on, a period boundary only takes the period. -/
theorem Lane.periodBoundary_of_no_gate (hgates : ∀ ch, ch < motorCount c.part.member → (l.mc ch).gateFrom = none)
    (hpass : l.baton.pass = none) : l.periodBoundary c = l.takePeriod c := by
  have hfold := Lane.foldl_startGates_of_none (c := c) (l := l.takePeriod c) _ hgates
  have hpass' : (l.takePeriod c).baton.pass = none := hpass
  simp [Lane.periodBoundary, hfold, hpass']

/-- On a one-channel member without a pass the boundary starts the gates of channel 0. -/
theorem Lane.periodBoundary_of_one (hone : motorCount c.part.member = 1)
    (hpass : ((l.takePeriod c).startGates c 0).baton.pass = none) :
    l.periodBoundary c = (l.takePeriod c).startGates c 0 := by
  simp [Lane.periodBoundary, hone, List.range_succ, hpass]

theorem pwmPeriodBoundaryL_of_taken (hstarted : l.ea.started = true) (htaken : l.ea.perStamp = some l.periodStamp) :
    pwmPeriodBoundaryL c l = l := by
  simp [pwmPeriodBoundaryL, Lane.periodDue, hstarted, htaken]

end

/-- Settles O48: each clause is the equation of its command. -/
theorem schedulerCommandsComplete : Obligations.SchedulerCommandsComplete := by
  refine ⟨?boundary, ?noBoundary, ?legEntry, ?legSweep, ?legWaits, ?legNotFree, ?sweepNone, ?sweepLocal, ?wakePush, ?wakeNone,
    ?hurdle, ?unusedHurdle, ?commitNothing, ?commitTorque, ?commitSram, ?early, ?earlyNothing, ?readyLater, ?ready, ?tcm, ?tcmRefused,
    ?period, ?periodTaken, ?gates⟩
  case boundary =>
    intro s ln c l h hstarted hdue hhalf
    refine tells_of_onAlive_eq (heatBoundaryL · s.recovered) h rfl ?_
    simp [heatBoundaryL, hstarted, hdue, hhalf]
  case noBoundary =>
    intro s ln c l h hno
    have hsame : heatBoundaryL c s.recovered l = l := by
      rw [heatBoundaryL, if_neg]
      obtain hno | hno | hno := hno <;> simp [hno]
    obtain ⟨-, hlane, -⟩ := id h
    exact (tells_of_onAlive_eq (heatBoundaryL · s.recovered) h rfl hsame).gives (by rw [hlane])
  case legEntry =>
    intro s ln c l e n q h hfree htake
    exact gives_of_onAlive_eq (legStartL · e) h rfl (legStartL_of_entry hfree htake)
  case legSweep =>
    intro s ln c l e h hfree hempty
    exact gives_of_onAlive_eq (legStartL · e) h rfl (legStartL_of_empty hfree hempty)
  case legWaits =>
    intro s ln c l e h hsome htake
    exact gives_of_onAlive_eq (legStartL · e) h rfl (legStartL_of_none_ready hsome htake)
  case legNotFree =>
    intro s ln c l e h hfree
    exact gives_of_onAlive_eq (legStartL · e) h rfl (legStartL_of_not_free hfree)
  case sweepNone =>
    intro s ln c l e h hfree hempty hsteal
    exact gives_of_onAlive_eq (stealSweepL · e) h rfl ((stealSweepL_of_empty hfree hempty).trans (Lane.sweep_of_none hsteal))
  case sweepLocal =>
    intro s ln c l e v n q h hfree hempty hsteal hblock
    exact gives_of_onAlive_eq (stealSweepL · e) h rfl ((stealSweepL_of_empty hfree hempty).trans (Lane.sweep_of_local hsteal hblock))
  case wakePush =>
    intro s ln c l e h hfit hgated hsome
    exact gives_of_onAlive_eq (engineWakeL · e .push) h rfl (engineWakeL_of_push hfit hgated hsome)
  case wakeNone =>
    intro s ln c l e k h hno
    exact gives_of_onAlive_eq (engineWakeL · e k) h rfl (engineWakeL_of_not_woken hno)
  case hurdle =>
    intro s ln c l hd h hstarted hused
    exact gives_of_onAlive_eq (hurdleReachedL · hd) h rfl (if_pos ⟨hstarted, hused⟩)
  case unusedHurdle =>
    intro s ln c l hd h hunused
    exact gives_of_onAlive_eq (hurdleReachedL · hd) h rfl (if_neg fun hand => hand.2 hunused)
  case commitNothing =>
    intro s ln c l hd h hstaged hwin
    exact gives_of_onAlive_eq (commitTakesEffectL · hd) h rfl (Lane.takeEffect_of_nothing hstaged hwin)
  case commitTorque =>
    intro s ln c l hd ch v h hstaged hwin hch
    exact gives_of_onAlive_eq (commitTakesEffectL · hd) h rfl ((Lane.takeEffect_of_one hstaged hwin rfl).trans (if_pos hch))
  case commitSram =>
    intro s ln c l hd a v h hstaged hwin
    exact gives_of_onAlive_eq (commitTakesEffectL · hd) h rfl (Lane.takeEffect_of_one hstaged hwin rfl)
  case early =>
    intro s ln c l k d x h hwait hlegs hahead hdue hkept hdone
    refine gives_of_onAlive_eq earlyCommitL h rfl ?_
    rw [earlyCommitL, Lane.commitLibrary_of_none hwait, hlegs, List.foldl_cons, List.foldl_nil,
      Lane.commitAhead_of_due hahead hdue hkept hdone]
  case earlyNothing =>
    intro s ln c l h hwait hlegs hstaged hwin
    refine gives_of_onAlive_eq earlyCommitL h rfl ?_
    have hshut (k : Nat) : l.takeEffect c k = l :=
      Lane.takeEffect_of_nothing (by simp [hstaged]) fun p hp => by simp [hwin p hp]
    rw [earlyCommitL, Lane.commitLibrary_of_none hwait, Lane.foldl_commitAhead_of_none_due _ hlegs, hshut, hshut]
  case readyLater =>
    intro s ln c l g h hwaits
    refine gives_of_onAlive_eq (fun _ l => raLegReadyL g l) h rfl (if_pos ?_)
    simpa [Option.isSome_iff_ne_none] using hwaits
  case ready =>
    intro s ln c l g h hdue hwin
    exact gives_of_onAlive_eq (fun _ l => raLegReadyL g l) h rfl (if_neg (by simp [hdue, hwin]))
  case tcm =>
    intro s ln c l a v h hlt hal hfit hstarted hsched
    refine ⟨_, gives_of_onAlive_eq (tcmWriteL · a v) h rfl (tcmWriteL_of_before_heat hlt hal hfit hstarted hsched), ?_⟩
    exact ⟨l.granule_setGranule_same a.toNat v, fun k hk => l.byte_setBytes_out a.toNat k (wordBytes v) hk,
      fun k _ => l.rd_setBytes a.toNat k (wordBytes v), rfl⟩
  case tcmRefused =>
    intro s ln c l a v h hno
    exact gives_of_onAlive_eq (tcmWriteL · a v) h rfl (tcmWriteL_of_refused hno)
  case period =>
    intro s ln c l h hdue hgates hpass
    exact gives_of_onAlive_eq pwmPeriodBoundaryL h rfl ((if_pos hdue).trans (Lane.periodBoundary_of_no_gate hgates hpass))
  case periodTaken =>
    intro s ln c l h hstarted htaken
    exact gives_of_onAlive_eq pwmPeriodBoundaryL h rfl (pwmPeriodBoundaryL_of_taken hstarted htaken)
  case gates =>
    intro s ln c l t h hdue hone hgate ht hrun hcut hpass hgap
    obtain ⟨hswitch, hcmp, hfrom, hregs, hmem, hpass'⟩ :=
      Lane.startGates_running_spec (c := c) (l := l.takePeriod c) hgate ht hrun hcut hpass hgap
    exact ⟨_, gives_of_onAlive_eq pwmPeriodBoundaryL h rfl ((if_pos hdue).trans (Lane.periodBoundary_of_one hone hpass')),
      hswitch, hcmp, hfrom, hregs, hmem⟩

end Sys2Proof.Machine

/-! PROOFS. Baton decisions, relay passes, pins and rotation (R62 to R84, R92, R513): one equation for each case of a command that is
stated; and the statement on changeover zones, which a lane woken from DORMANT refutes. -/

namespace Sys2Proof.Machine

section
variable {c : Ctx} {l : Lane} {sender : LaneId} {p : Pass} {d : Decision}

/-! ### Baton decisions (R71, R72, R73) -/

/-- A standby without a decision of its own agrees with a claimant (R72, log 28). -/
theorem claimL_of_no_decision {failed : LaneId} (htriple : isTriple c.part.member = true) (hpeer : Lane.isPeer c sender = true)
    (hsender : failed ≠ sender) (hself : failed ≠ c.id) (hstandby : l.standby = true) (hnone : l.baton.decision = none) :
    claimL c sender failed l =
      (let l0 := (((l.setFit failed false).pinLost failed).judgePorts c).awaitCause c failed
       let l1 := (l0.sendTo c sender 0x02 [laneCode failed]).put R.LM_ROLE_baton_lane (laneCode sender)
       let l2 := { l1 with baton := { l1.baton with
         decision := none, window := some ⟨sender, failed, c.now + 250000, c.now, l.stamp, false⟩, pass := none, note := none } }
       (l2.put R.LM_ROLE_deciding 0).recordDrop c failed sender l.stamp) := by
  simp [claimL, htriple, hpeer, hsender, hself, hstandby, hnone]

theorem claimAckL_of_claimed {failed : LaneId} (hd : l.baton.decision = some d) (hmine : d.successor = c.id)
    (hfailed : d.failed = failed) (hclaimed : d.claimAt.isSome = true) (hpeer : Lane.isPeer c sender = true) :
    claimAckL c sender failed l = l.complete c := by
  simp [claimAckL, hd, hmine, hfailed, hclaimed, hpeer]

theorem claimTimeoutL_of_due {t : Nat} (hd : l.baton.decision = some d) (hclaimed : d.claimAt = some t) (hdue : t + 8000 ≤ c.now) :
    claimTimeoutL c l = l.complete c := by
  simp [claimTimeoutL, hd, hclaimed, hdue]

/-- On a two-lane member the decision is complete 1 µs after the deassertion (R71). -/
theorem batonDecisionCompleteL_of_two_lanes (hd : l.baton.decision = some d) (hmine : d.successor = c.id)
    (htwo : isTriple c.part.member = false) (hdue : d.countedAt + 1000 ≤ c.now) : batonDecisionCompleteL c l = l.complete c := by
  simp [batonDecisionCompleteL, hd, hmine, htwo, hdue]

/-- On the TS-8630 it is complete at once where no third lane can object (R72). -/
theorem batonDecisionCompleteL_of_alone (hd : l.baton.decision = some d) (hmine : d.successor = c.id)
    (htriple : isTriple c.part.member = true)
    (halone : ((othersOf c).filter (fun x => decide (x ≠ d.failed))).all (fun x => !l.knowsFit x || (l.peer x).silentAt.isSome) = true) :
    batonDecisionCompleteL c l = l.complete c := by
  rw [batonDecisionCompleteL, hd]
  simp only
  rw [if_neg (not_not.mpr hmine), if_pos htriple, if_pos halone]

theorem successorClaimTimeoutL_of_due (hd : l.baton.decision = some d) (htriple : isTriple c.part.member = true)
    (hother : d.successor ≠ c.id) (hdue : d.boundFrom + 10000 ≤ c.now) :
    successorClaimTimeoutL c l = (l.countOther c d.successor 1 0xC).learnUnfit c d.successor := by
  simp [successorClaimTimeoutL, hd, htriple, hother, hdue]

/-! ### Offers of a relay pass (R64, R65, R67, R69) -/

theorem passOfferL_of_urgent (heat : BitVec 16) {cause : BitVec 4} (hpeer : Lane.isPeer c sender = true) (hstandby : l.standby = true)
    (hbaton : l.batonLane = some sender) (hnone : l.baton.decision = none) (hcause : cause ≠ 7) :
    passOfferL c sender heat cause true l =
      l.setPass (some ⟨sender, c.id, cause.toNat, true, heat, .checking, 0, 0, 0, 0, 0⟩) := by
  rw [passOfferL, if_neg (by simp [hpeer, hstandby, hbaton, hnone]), if_pos rfl]
  exact if_neg hcause

theorem passOfferL_of_planned {heat : BitVec 16} (cause : BitVec 4) {t : Nat} (hpeer : Lane.isPeer c sender = true)
    (hstandby : l.standby = true) (hbaton : l.batonLane = some sender) (hnone : l.baton.decision = none)
    (hheat : l.heatTime heat = some t) (hahead : c.now + 210000 ≤ t) :
    passOfferL c sender heat cause false l = l.setPass
      (some ⟨sender, c.id, cause.toNat, false, heat, .checking, t, l.stamp + BitVec.ofNat 32 (t - c.now), 0, 0, 0⟩) := by
  simp [passOfferL, hpeer, hstandby, hbaton, hnone, hheat, Nat.not_lt.mpr hahead]

theorem preDriveCheckDoneL_of_failed {m : PreDrive} {ix : Nat} {rest : List Nat} (hwindow : l.baton.window = none)
    (hp : l.baton.pass = some p) (hmine : p.incoming = c.id) (hphase : p.phase = .checking) (hfails : l.checkFails c m = ix :: rest) :
    preDriveCheckDoneL c m l =
      ((((l.showCheck c m).showShorts c m).sendTo c p.outgoing 0x05 [ix]).setPass none).failCheck c ix := by
  simp [preDriveCheckDoneL, hwindow, hp, hmine, hphase, hfails]

theorem preDriveCheckDoneL_of_passed {m : PreDrive} (hwindow : l.baton.window = none) (hp : l.baton.pass = some p)
    (hmine : p.incoming = c.id) (hphase : p.phase = .checking) (hplanned : p.urgent = false) (hfails : l.checkFails c m = []) :
    preDriveCheckDoneL c m l = (((l.showCheck c m).showShorts c m).sendTo c p.outgoing 0x04 [p.heat.toNat]).setPass
      (some { p with phase := .accepted }) := by
  simp [preDriveCheckDoneL, hwindow, hp, hmine, hphase, hplanned, hfails]

theorem passAcceptL_of_in_time (hp : l.baton.pass = some p) (hout : p.outgoing = c.id) (hin : p.incoming = sender)
    (hphase : p.phase = .offered) (hplanned : p.urgent = false) (hdue : c.now + 10000 ≤ p.zoneAt) :
    passAcceptL c sender p.heat l =
      (let q := { p with
         phase := .confirmed, zoneAt := p.zoneAt, zoneStamp := l.stamp + BitVec.ofNat 32 (p.zoneAt - c.now) }
       (l.sendAll c 0x0E [laneCode sender, q.zoneStamp.toNat, p.cause]).setPass (some q)) := by
  simp [passAcceptL, hp, hout, hin, hphase, hplanned, Nat.not_lt.mpr hdue]

theorem passAcceptDeadlineL_of_late (hp : l.baton.pass = some p) (hout : p.outgoing = c.id) (hphase : p.phase = .offered)
    (hplanned : p.urgent = false) (hlate : p.zoneAt < c.now + 10000) :
    passAcceptDeadlineL c l = (l.abortPass c 0).retryPass c p := by
  simp [passAcceptDeadlineL, hp, hout, hphase, hplanned, hlate]

theorem passRefuseL_of_incoming (hp : l.baton.pass = some p) (hout : p.outgoing = c.id) (hin : p.incoming = sender) :
    passRefuseL c sender l = (l.awaitCause c sender).learnUnfit c sender := by
  simp [passRefuseL, hp, hout, hin]

/-- Inside the zone an abort of the incoming lane begins the return to this one (R69). -/
theorem passAbortL_of_zone (reason : BitVec 2) (hp : l.baton.pass = some p) (hout : p.outgoing = c.id) (hin : p.incoming = sender)
    (hphase : p.phase = .zone) :
    passAbortL c sender reason l =
      (({ l with baton := { l.baton with sampleBack := decide (reason = 3), retry := if reason = 3 then some p else none } }.setPass
        (some { p with phase := .returning, rampAt := c.now, returnFrom := p.share })).flag R.LM_FLAGS_relay_abort) := by
  simp [passAbortL, hp, hout, hin, hphase]

theorem passConfirmL_of_accepted (zoneStart : Word) (hpeer : Lane.isPeer c sender = true) (hother : sender ≠ c.id)
    (hp : l.baton.pass = some p) (hout : p.outgoing = sender) (hphase : p.phase = .accepted) :
    passConfirmL c sender c.id zoneStart l =
      (l.setPass (some { p with
        phase := .confirmed, zoneAt := c.now + (sdiff zoneStart l.stamp).toNat, zoneStamp := zoneStart })).noteZone sender c.id
        (c.now + (sdiff zoneStart l.stamp).toNat) := by
  simp [passConfirmL, hpeer, hother, hp, hout, hphase]

/-- A third lane notes the announced zone (R67). -/
theorem passConfirmL_of_third {incoming : LaneId} (zoneStart : Word) (hpeer : Lane.isPeer c sender = true)
    (hother : sender ≠ incoming) (hthird : incoming ≠ c.id) :
    passConfirmL c sender incoming zoneStart l = l.noteZone sender incoming (c.now + (sdiff zoneStart l.stamp).toNat) := by
  simp [passConfirmL, hpeer, hother, hthird]

/-! ### Pins, dwells and pass requests (R63, R80 to R84, R92, R513) -/

theorem passReqWriteL_of_target {value : Word} {x : LaneId} (hgo : fldOf R.LM_PASS_REQ_go value = 1) (hactive : l.active = true)
    (hrun : l.unitsHalt = false) (htarget : l.passTarget c (laneOf (fldOf R.LM_PASS_REQ_lane value)) = some x) :
    passReqWriteL c value l = ({ l with bus := .done } : Lane).requestPass 3 (some x) := by
  have htarget' : ({ l with bus := .done } : Lane).passTarget c (laneOf (fldOf R.LM_PASS_REQ_lane value)) = some x := htarget
  rw [passReqWriteL, if_pos ⟨hgo, hactive, hrun⟩, htarget']

theorem pinWriteL_of_fit {value : Word} {x : LaneId} (hlane : laneOf (fldOf R.LM_PIN_lane value) = some x) (hfit : l.fit = true)
    (hrun : l.unitsHalt = false) (hknown : l.knowsFit x = true) :
    pinWriteL c value l = (({ l with bus := .done } : Lane).sendAll c 0x08
      [laneCode x, min (fldOf R.LM_PIN_minutes value) 1440]).applyPin c x (fldOf R.LM_PIN_minutes value) := by
  have hnotRefused : (!l.fit || l.unitsHalt || (decide (fldOf R.LM_PIN_minutes value ≠ 0) && !l.knowsFit x)) ≠ true := by
    simp [hfit, hrun, hknown]
  rw [pinWriteL, hlane]
  exact if_neg hnotRefused

theorem pinExpiryL_of_due {t : Nat} (hends : l.baton.pinEnds = some t) (hdue : t ≤ c.now) :
    pinExpiryL c l = l.endPin.flag R.LM_FLAGS_pin_expired := by
  simp [pinExpiryL, hends, hdue]

theorem dwellExpiryL_of_next {t : Nat} {x : LaneId} (hends : l.baton.dwellEnds = some t) (hdue : t ≤ c.now) (hactive : l.active = true)
    (hpinned : l.bit R.LM_ROLE_pinned = false) (hdisputed : l.bit R.LM_ROLE_disputed = false) (hnone : l.baton.rotTarget = none)
    (hnext : l.nextFit c = some x) :
    dwellExpiryL c l = { l with baton := { l.baton with rotTarget := some x, deferredAt := some c.now, skipped := [] } } := by
  simp [dwellExpiryL, hends, hdue, hactive, hpinned, hdisputed, hnone, hnext]

/-- After 1 s of deferral the target is skipped for the next fit lane that was not (R81). -/
theorem rotationSkipL_of_next {t : Nat} {x y : LaneId} (hdeferred : l.baton.deferredAt = some t) (htarget : l.baton.rotTarget = some x)
    (hdue : t + 1000000000 ≤ c.now) (hnone : l.baton.pass = none) (hrun : l.pwState = 0)
    (hnext : (cyclicAfter c c.id).find? (fun z => (l.flag R.LM_FLAGS_rot_skip).knowsFit z &&
      !(x :: (l.flag R.LM_FLAGS_rot_skip).baton.skipped).contains z) = some y) :
    rotationSkipL c l =
      (let l1 := l.flag R.LM_FLAGS_rot_skip
       { l1 with baton := { l1.baton with rotTarget := some y, deferredAt := some c.now, skipped := x :: l1.baton.skipped } }) := by
  rw [rotationSkipL, hdeferred, htarget]
  simp only
  rw [if_pos ⟨hdue, hnone, hrun⟩, hnext]

end

/-- Settles O9: each clause is the equation of its command. -/
theorem decisionCommandsComplete : Obligations.DecisionCommandsComplete := by
  refine ⟨?claim, ?ack, ?timeout, ?two, ?alone, ?successor⟩
  case claim =>
    intro s ln c l sender failed cause h htriple hpeer hsender hself hstandby hnone
    exact gives_of_onAlive_eq (claimL · sender failed) h rfl (claimL_of_no_decision htriple hpeer hsender hself hstandby hnone)
  case ack =>
    intro s ln c l sender failed d h hd hmine hfailed hclaimed hpeer
    exact gives_of_onAlive_eq (claimAckL · sender failed) h rfl (claimAckL_of_claimed hd hmine hfailed hclaimed hpeer)
  case timeout =>
    intro s ln c l d t h hd hclaimed hdue
    exact gives_of_onAlive_eq claimTimeoutL h rfl (claimTimeoutL_of_due hd hclaimed hdue)
  case two =>
    intro s ln c l d h hd hmine htwo hdue
    exact gives_of_onAlive_eq batonDecisionCompleteL h rfl (batonDecisionCompleteL_of_two_lanes hd hmine htwo hdue)
  case alone =>
    intro s ln c l d h hd hmine htriple halone
    exact gives_of_onAlive_eq batonDecisionCompleteL h rfl (batonDecisionCompleteL_of_alone hd hmine htriple halone)
  case successor =>
    intro s ln c l d h hd htriple hother hdue
    exact gives_of_onAlive_eq successorClaimTimeoutL h rfl (successorClaimTimeoutL_of_due hd htriple hother hdue)

/-- Settles O11: each clause is the equation of its command. -/
theorem passOffersComplete : Obligations.PassOffersComplete := by
  refine ⟨?urgent, ?planned, ?failed, ?passed, ?accept, ?deadline, ?refuse, ?abort, ?confirm, ?third⟩
  case urgent =>
    intro s ln c l sender heat cause h hpeer hstandby hbaton hnone hcause
    exact gives_of_onAlive_eq (passOfferL · sender heat cause true) h rfl
      (passOfferL_of_urgent heat hpeer hstandby hbaton hnone hcause)
  case planned =>
    intro s ln c l sender heat cause t h hpeer hstandby hbaton hnone hheat hahead
    exact gives_of_onAlive_eq (passOfferL · sender heat cause false) h rfl
      (passOfferL_of_planned cause hpeer hstandby hbaton hnone hheat hahead)
  case failed =>
    intro s ln c l m ix rest p h hwindow hp hmine hphase hfails
    exact gives_of_onAlive_eq (preDriveCheckDoneL · m) h rfl (preDriveCheckDoneL_of_failed hwindow hp hmine hphase hfails)
  case passed =>
    intro s ln c l m p h hwindow hp hmine hphase hplanned hfails
    exact gives_of_onAlive_eq (preDriveCheckDoneL · m) h rfl (preDriveCheckDoneL_of_passed hwindow hp hmine hphase hplanned hfails)
  case accept =>
    intro s ln c l sender heat p h hp hout hin hphase hplanned hheat hdue
    subst hheat
    exact gives_of_onAlive_eq (passAcceptL · sender p.heat) h rfl (passAcceptL_of_in_time hp hout hin hphase hplanned hdue)
  case deadline =>
    intro s ln c l p h hp hout hphase hplanned hlate
    exact gives_of_onAlive_eq passAcceptDeadlineL h rfl (passAcceptDeadlineL_of_late hp hout hphase hplanned hlate)
  case refuse =>
    intro s ln c l sender stage p h hp hout hin
    exact gives_of_onAlive_eq (passRefuseL · sender) h rfl (passRefuseL_of_incoming hp hout hin)
  case abort =>
    intro s ln c l sender reason p h hp hout hin hphase
    exact gives_of_onAlive_eq (passAbortL · sender reason) h rfl (passAbortL_of_zone reason hp hout hin hphase)
  case confirm =>
    intro s ln c l sender zoneStart cause p h hpeer hother hp hout hphase
    exact gives_of_onAlive_eq (passConfirmL · sender c.id zoneStart) h rfl
      (passConfirmL_of_accepted zoneStart hpeer hother hp hout hphase)
  case third =>
    intro s ln c l sender incoming zoneStart cause h hpeer hother hthird
    exact gives_of_onAlive_eq (passConfirmL · sender incoming zoneStart) h rfl (passConfirmL_of_third zoneStart hpeer hother hthird)

/-- Settles O13: each clause is the equation of its command. -/
theorem pinsAndRotationComplete : Obligations.PinsAndRotationComplete := by
  refine ⟨?request, ?pin, ?message, ?expiry, ?period, ?envelope, ?ignored, ?dwell, ?weights, ?skip⟩
  case request =>
    intro s ln c l value x h hgo hactive hrun htarget
    exact gives_of_onAlive_eq (passReqWriteL · value) h rfl (passReqWriteL_of_target hgo hactive hrun htarget)
  case pin =>
    intro s ln c l value x h hlane hfit hrun hknown
    exact gives_of_onAlive_eq (pinWriteL · value) h rfl (pinWriteL_of_fit hlane hfit hrun hknown)
  case message =>
    intro s ln c l sender lane minutes h hpeer hfit
    exact gives_of_onAlive_eq (pinMessageL · sender lane minutes) h rfl (if_pos (by simp [hpeer, hfit]))
  case expiry =>
    intro s ln c l t h hends hdue
    exact gives_of_onAlive_eq pinExpiryL h rfl (pinExpiryL_of_due hends hdue)
  case period =>
    intro s ln c l value h
    exact gives_of_onAlive_eq (fun _ l => rotPeriodWriteL value l) h rfl rfl
  case envelope =>
    intro s ln c l value h hmax hmin
    exact gives_of_onAlive_eq (fun _ l => rotEnvWriteL value l) h rfl (if_pos ⟨hmax, hmin⟩)
  case ignored =>
    intro s ln c l value h hbad
    exact gives_of_onAlive_eq (fun _ l => rotEnvWriteL value l) h rfl (if_neg (by omega))
  case dwell =>
    intro s ln c l t x h hends hdue hactive hpinned hdisputed hnone hnext
    exact gives_of_onAlive_eq dwellExpiryL h rfl (dwellExpiryL_of_next hends hdue hactive hpinned hdisputed hnone hnext)
  case weights =>
    intro s ln c l sender da db dc h hpeer
    exact gives_of_onAlive_eq (weightsL · sender da db dc) h rfl (if_pos hpeer)
  case skip =>
    intro s ln c l t x y h hdeferred htarget hdue hnone hrun hnext
    exact gives_of_onAlive_eq rotationSkipL h rfl (rotationSkipL_of_next hdeferred htarget hdue hnone hrun hnext)

/-! ### A changeover zone after a wake from DORMANT (R66, R318) -/

/-- A confirmed pass from lane B to lane A, whose zone starts at time 0. -/
def passFromB : Pass := ⟨.b, .a, 1, false, 0, .confirmed, 0, 0, 0, 0, 0⟩

/-- The module after reset with lane A as the incoming lane of a pass whose zone starts now, and whose stepper currents have yet to
rise after a wake from DORMANT. -/
def zoneAfterWake : State :=
  let l := State.reset.laneA.setRole roleStandby
  State.reset.setLane .a { l with
    baton := { l.baton with pass := some passFromB }, pw := { l.pw with rampDue := true } }

theorem here_zoneAfterWake_a : Here zoneAfterWake .a (zoneAfterWake.ctx .a) zoneAfterWake.laneA :=
  ⟨rfl, rfl, by decide +kernel, rfl⟩

/-- Refutes O12: its clause on ZONE_START in the incoming lane leaves out that a lane that drives its stages no longer waits for the
ramp of its stepper currents after DORMANT (R318), as lane A in `zoneAfterWake` does. -/
theorem not_zoneCommandsComplete : ¬ Obligations.ZoneCommandsComplete := by
  rintro ⟨-, hstart, -⟩
  have hstated := hstart zoneAfterWake .a _ _ passFromB here_zoneAfterWake_a rfl rfl (Nat.zero_le _)
    (by decide) (by decide)
  have hactual : Gives (.zoneStart .a) zoneAfterWake .a (zoneStartL _ zoneAfterWake.laneA) :=
    gives_of_onAlive_eq zoneStartL here_zoneAfterWake_a rfl rfl
  have hsame := congrArg (fun l : Lane => l.pw.rampDue) (Gives.unique hstated hactual)
  exact absurd hsame (by decide +kernel)

end Sys2Proof.Machine

/-! PROOFS. What a loss of a lane's supply does to the lanes that share the marshal's flags (R48, R409). -/

namespace Sys2Proof.Machine

/-! ### BROWN_OUT and the marshal's supply (R48, R76, R409) -/

theorem Lane.takeMsFlags_phase (l : Lane) (w : Word) : (l.takeMsFlags w).phase = l.phase := by
  unfold Lane.takeMsFlags Lane.irqNote
  split <;> rfl

theorem Lane.marshalFails_phase (l : Lane) : l.marshalFails.phase = l.phase := by
  simp only [Lane.marshalFails, apply_ite Lane.phase, ite_self]

theorem State.msShare_phase (s : State) (x y : LaneId) : ((s.msShare x).lane y).phase = (s.lane y).phase := by
  unfold State.msShare
  split
  · by_cases h : y = x
    · rw [h, State.lane_setLane_same, Lane.takeMsFlags_phase]
    · rw [State.lane_setLane_ne _ _ _ _ h]
  · rfl

/-- A lane stays off, asleep or awake while the marshal follows its supply. -/
theorem State.supplyMarshal_phase (s : State) (y : LaneId) : (s.supplyMarshal.lane y).phase = (s.lane y).phase := by
  unfold State.supplyMarshal
  dsimp only
  split
  · split
    · simp only [State.msShareAll, State.msShare_phase]
      cases y <;> rfl
    · cases y <;> exact Lane.marshalFails_phase _
  · rfl

theorem brownOutL_phase (c : Ctx) (l : Lane) : (brownOutL c l).phase = .off := by
  unfold brownOutL
  split
  case isTrue hoff => exact hoff
  case isFalse => split <;> rfl

/-- BROWN_OUT: the lane goes off, the marshal follows its supply, and the lane's votes end. -/
theorem brownOut_next (s : State) (ln : LaneId) (hhas : s.has ln = true) :
    exec (.brownOut ln) s =
      .next ((s.setLane ln (brownOutL (s.ctx ln) (s.lane ln))).supplyMarshal.votesEnd ln) := by
  change votesEndAfter ln (supplyAfter (onLane ln (fun c l => brownOutL c l) s)) = _
  have hoff : ((s.setLane ln (brownOutL (s.ctx ln) (s.lane ln))).supplyMarshal.lane ln).phase = .off := by
    rw [State.supplyMarshal_phase, State.lane_setLane_same, brownOutL_phase]
  rw [onLane_of_has ln _ s hhas, supplyAfter, votesEndAfter, if_pos (Or.inl hoff)]

/-- The module after reset, but with a marshal that has not powered up yet beside its supplied lanes, and with the flag of the
marshal's last change of state in lane C. -/
def marshalLags : State :=
  { State.reset with
    laneC := State.reset.laneC.flag R.MS_FLAGS_state_change
    marshal := { Marshal.fresh with powered := false } }

/-- The module after lane A has lost its supply. -/
def marshalLags.browned : State :=
  (marshalLags.setLane .a (brownOutL (marshalLags.ctx .a) marshalLags.laneA)).supplyMarshal.votesEnd .a

/-- At the brown-out the marshal powers up on the supply of lane B, and its flags, all clear, show in lane C (R48, R409). -/
theorem marshalLags_laneC_changes : (marshalLags.browned.lane .c).rd R.MS_FLAGS ≠ (marshalLags.lane .c).rd R.MS_FLAGS := by
  decide +kernel

/-- Refutes O32: a brown-out has the marshal follow its supply, and the statement does not ask that it did so before, so that it also
speaks of `marshalLags`, in which a loss of lane A's supply changes MS_FLAGS of lane C. -/
theorem not_brownOutIsQuiet : ¬ Obligations.BrownOutIsQuiet := by
  intro hall
  obtain ⟨m, hstated, -, -, -, -, -, -, hothers⟩ := hall marshalLags .a rfl (by decide +kernel)
  have hm : marshalLags.browned = m := Host.Outcome.next.inj ((brownOut_next marshalLags .a rfl).symm.trans hstated)
  obtain ⟨-, hregs, -⟩ := hothers .c (by decide)
  exact marshalLags_laneC_changes (hm ▸ hregs R.MS_FLAGS (by decide))

end Sys2Proof.Machine

/-! PROOFS. The engine instructions that act on their lane (R165, R170, R181 to R195), and one of them that refutes a statement. -/

namespace Sys2Proof.Machine

/-! ### One instruction of an engine that can execute (R145, R194) -/

section
variable {i : Instr} {s : State} {ln : LaneId} {c : Ctx} {l : Lane} {e : EngIx} {d : LegDesc}

theorem Lane.issue_of_executes (f : LegDesc → Engine → Lane) (hx : Executes c l e d) :
    l.issue c e.val f = f d (l.eng e.val) := by
  obtain ⟨hruns, hdesc, hfetch⟩ := hx
  simp [Lane.issue, hruns, hdesc, hfetch]

/-- An instruction that acts on the lane gives what its meaning is proved to be there. -/
theorem gives_of_laneOp {m : Lane} (f : Ctx → Lane → LegDesc → Engine → Lane) (h : Here s ln c l) (hx : Executes c l e d)
    (hi : exec i s = laneOp ln e f s) (hf : f c l d (l.eng e.val) = m) : Gives i s ln m :=
  gives_of_onAlive_eq (fun c l => l.issue c e.val fun d x => f c l d x) h hi ((Lane.issue_of_executes _ hx).trans hf)

/-- An instruction that works on the engine's own registers. -/
theorem gives_of_regOp (f : Engine → Engine) (h : Here s ln c l) (hx : Executes c l e d) (hi : exec i s = regOp ln e f s) :
    Gives i s ln (l.setEng e.val (f (l.eng e.val)).next) :=
  gives_of_onAlive_eq (fun c l => l.issue c e.val fun _ x => l.setEng e.val (f x).next) h hi (Lane.issue_of_executes _ hx)

/-- The run of an engine that can execute, whose leg is the one it executes. -/
theorem Executes.run (hx : Executes c l e d) : ∃ r, (l.eng e.val).run = some r ∧ l.legDesc r.leg = some d := by
  obtain ⟨-, hdesc, -⟩ := hx
  exact Option.bind_eq_some_iff.mp hdesc

end

/-! ### An engine replaced -/

section
variable (l : Lane) (e : Nat) (x : Engine)

@[simp] theorem Lane.rd_setEng (a : Nat) : (l.setEng e x).rd a = l.rd a := rfl
@[simp] theorem Lane.granule_setEng (a : Nat) : (l.setEng e x).granule a = l.granule a := rfl
@[simp] theorem Lane.slot_setEng (a : Nat) : (l.setEng e x).slot a = l.slot a := rfl

variable {l e} in
theorem Lane.eng_setEng_same (he : e < l.ea.engines.length) : (l.setEng e x).eng e = x := by
  simp [Lane.eng, Lane.setEng, he]

end

/-! ### Bytes, slots and granules (R170) -/

/-- Bytes stored one after the other. -/
theorem Lane.setBytes_append (l : Lane) (a : Nat) (bs cs : List Byte) :
    l.setBytes a (bs ++ cs) = (l.setBytes a bs).setBytes (a + bs.length) cs := by
  induction bs generalizing l a with
  | nil => rfl
  | cons x t ih => simp only [List.cons_append, Lane.setBytes, ih, List.length_cons, Nat.add_assoc, Nat.add_comm 1]

@[simp] theorem length_wordBytes (w : Word) : (wordBytes w).length = 4 := rfl

@[simp] theorem length_slotBytes (v : W40) : (slotBytes v).length = 8 := rfl

/-- A slot is stored as its two granules, the low one first. -/
theorem Lane.setSlot_eq_setGranules (l : Lane) (a : Nat) (v : W40) :
    l.setSlot a v = (l.setGranule a (v.setWidth 32)).setGranule (a + 4) ((v.extractLsb' 32 8).signExtend 32) :=
  l.setBytes_append a _ _

/-- A stored granule stands apart from the granules beside it. -/
theorem Lane.granule_setGranule_above (l : Lane) (a : Nat) (w : Word) : (l.setGranule (a + 4) w).granule a = l.granule a := by
  unfold Lane.granule Lane.setGranule
  simp only [fun k (hk : k < a + 4) => l.byte_setBytes_out (a + 4) k (wordBytes w) (Or.inl hk), Nat.lt_add_of_pos_right,
    Nat.add_lt_add_left, Nat.reduceLT]

theorem Lane.byte_setGranule_same (l : Lane) (a : Nat) (w : Word) : (l.setGranule a w).byte a = w.extractLsb' 0 8 := by
  refine ((l.setByte a _).byte_setBytes_out (a + 1) a _ (Or.inl (Nat.lt_succ_self a))).trans ?_
  rw [Lane.byte_setByte, if_pos rfl]

/-- Of its high granule a slot has the lowest byte. -/
theorem Lane.slot_setGranules (l : Lane) (a : Nat) (lo hi : Word) :
    ((l.setGranule a lo).setGranule (a + 4) hi).slot a = hi.extractLsb' 0 8 ++ lo := by
  rw [Lane.slot, Lane.byte_setGranule_same, Lane.granule_setGranule_above, Lane.granule_setGranule_same]

/-- Two granules stored side by side change eight bytes. -/
theorem Lane.sameBytes_setGranules (l : Lane) (a : Nat) (lo hi : Word) :
    SameBytes l ((l.setGranule a lo).setGranule (a + 4) hi) a 8 := by
  intro k hk
  have hhi := (l.setGranule a lo).byte_setBytes_out (a + 4) k (wordBytes hi) (by rw [length_wordBytes]; omega)
  have hlo := l.byte_setBytes_out a k (wordBytes lo) (by rw [length_wordBytes]; omega)
  exact hhi.trans hlo

/-- The high byte of a 40-bit value beside its low word. -/
theorem highByte_append_lowWord (v : W40) :
    (((v.extractLsb' 32 8).signExtend 32 : Word).extractLsb' 0 8 : Byte) ++ (v.setWidth 32 : Word) = v := by
  have hhigh : ((v.extractLsb' 32 8).signExtend 32 : Word).extractLsb' 0 8 = v.extractLsb' 32 8 := by
    ext k hk
    have hk32 : k < 32 := by omega
    simp [BitVec.getElem_signExtend, hk, hk32]
  rw [hhigh, BitVec.setWidth_eq_extractLsb' (by omega), BitVec.extractLsb'_append_extractLsb'_eq_extractLsb' (by omega)]
  exact BitVec.extractLsb'_eq_self

/-- A word with a byte of 0 above it. -/
theorem zeroByte_append_word (w : Word) : ((0 : Word).extractLsb' 0 8 : Byte) ++ w = w.setWidth 40 := by
  exact (BitVec.setWidth_eq_append (by omega)).symm

/-- A stored granule changes four bytes. -/
theorem Lane.sameBytes_setGranule (l : Lane) (a : Nat) (w : Word) : SameBytes l (l.setGranule a w) a 4 :=
  fun k hk => l.byte_setBytes_out a k (wordBytes w) hk

/-- A stored slot changes eight bytes. -/
theorem Lane.sameBytes_setSlot (l : Lane) (a : Nat) (v : W40) : SameBytes l (l.setSlot a v) a 8 := by
  rw [Lane.setSlot_eq_setGranules]
  exact l.sameBytes_setGranules a _ _

@[simp] theorem Lane.slot_setSlot_same (l : Lane) (a : Nat) (v : W40) : (l.setSlot a v).slot a = v := by
  rw [Lane.setSlot_eq_setGranules, Lane.slot_setGranules, highByte_append_lowWord]

/-! ### Loads, stores and ports (R134, R165, R181 to R183) -/

/-- A lane whose bank of registers is the same has every register as before. -/
theorem sameRegs_of_regs_eq {l m : Lane} {as : List Nat} (h : m.regs = l.regs) : SameRegs l m as := fun a _ => congrArg (bankGet · a) h

/-- A lane of which only memory changed, in a range, before an engine went on: all else is as before. -/
theorem Lane.stored_frame {l m : Lane} {e a n : Nat} (x : Engine) (hbytes : SameBytes l m a n) (hregs : m.regs = l.regs)
    (he : e < m.ea.engines.length) :
    SameBytes l (m.setEng e x) a n ∧ SameRegs l (m.setEng e x) [] ∧ (m.setEng e x).eng e = x :=
  ⟨hbytes, sameRegs_of_regs_eq hregs, Lane.eng_setEng_same x he⟩

/-- A slot index that names a slot, as a number. -/
theorem slotIn_of_eq {k : Int} {j n : Nat} (hk : k = (j : Int)) (hj : j < n) : slotIn k n = true := by
  simp only [slotIn, hk, Bool.and_eq_true, decide_eq_true_eq]
  omega

/-- A buffer slot as POUT writes it (R183): whole, or its low granule with 0 above. -/
def Lane.setPort (l : Lane) (low : Bool) (a : Nat) (v : W40) : Lane :=
  if low then (l.setGranule a (v.setWidth 32)).setGranule (a + 4) 0 else l.setSlot a v

theorem Lane.setPort_whole (l : Lane) (a : Nat) (v : W40) : l.setPort false a v = l.setSlot a v := if_neg (by decide)

theorem Lane.setPort_low (l : Lane) (a : Nat) (v : W40) :
    l.setPort true a v = (l.setGranule a (v.setWidth 32)).setGranule (a + 4) 0 := if_pos rfl

theorem Lane.slot_setPort (l : Lane) (low : Bool) (a : Nat) (v : W40) :
    (l.setPort low a v).slot a = if low then (v.setWidth 32 : Word).setWidth 40 else v := by
  cases low with
  | false => rw [Lane.setPort_whole, Lane.slot_setSlot_same, if_neg (by decide)]
  | true => rw [Lane.setPort_low, Lane.slot_setGranules, zeroByte_append_word, if_pos rfl]

theorem Lane.sameBytes_setPort (l : Lane) (low : Bool) (a : Nat) (v : W40) : SameBytes l (l.setPort low a v) a 8 := by
  cases low with
  | false => rw [Lane.setPort_whole]; exact l.sameBytes_setSlot a v
  | true => rw [Lane.setPort_low]; exact l.sameBytes_setGranules a _ 0

@[simp] theorem Lane.setPort_regs (l : Lane) (low : Bool) (a : Nat) (v : W40) : (l.setPort low a v).regs = l.regs := by
  cases low <;> simp [Lane.setPort]

@[simp] theorem Lane.setPort_ea (l : Lane) (low : Bool) (a : Nat) (v : W40) : (l.setPort low a v).ea = l.ea := by
  cases low <;> simp [Lane.setPort]

section
variable {s : State} {ln : LaneId} {c : Ctx} {l : Lane} {e : EngIx} {d : LegDesc} {rt ra : Reg} {disp : BitVec 12}

theorem insSt40_gives (h : Here s ln c l) (hx : Executes c l e d) (hok : storeOk d (memAddr (l.eng e.val) ra disp 8) 8 = true) :
    Gives (.insSt40 ln e rt ra disp) s ln
      ((l.setSlot (tcmAddr e.val (memAddr (l.eng e.val) ra disp 8)) ((l.eng e.val).reg rt)).setEng e.val (l.eng e.val).next) :=
  gives_of_laneOp _ h hx (execSt40.eq_1 ..) (if_pos hok)

theorem insSt32_gives (h : Here s ln c l) (hx : Executes c l e d) (hok : storeOk d (memAddr (l.eng e.val) ra disp 4) 4 = true) :
    Gives (.insSt32 ln e rt ra disp) s ln
      ((l.setGranule (tcmAddr e.val (memAddr (l.eng e.val) ra disp 4)) (((l.eng e.val).reg rt).setWidth 32)).setEng e.val
        (l.eng e.val).next) :=
  gives_of_laneOp _ h hx (execSt32.eq_1 ..) (if_pos hok)

theorem insPout_gives {low : Bool} {k : Nat} (h : Here s ln c l) (hx : Executes c l e d)
    (hk : slotIx (l.eng e.val) ra disp = (k : Int)) (hlt : k < d.buffer.length) :
    Gives (.insPout ln e low rt ra disp) s ln
      ((l.setPort low (tcmAddr e.val (0xC100 + 8 * k)) ((l.eng e.val).reg rt)).setEng e.val (l.eng e.val).next) := by
  refine gives_of_laneOp _ h hx (execPout.eq_1 ..) ((if_pos (slotIn_of_eq hk hlt)).trans ?_)
  rw [hk, Int.toNat_natCast]
  rfl

end

/-- Settles O46: an access that its window admits reads or stores the addressed bytes; any other is a window trap. -/
theorem engineMemoryResults : Obligations.EngineMemoryResults := by
  refine ⟨?load40, ?load32z, ?load32s, ?store40, ?store32, ?portIn, ?portOut, ?store40Trap, ?load40Trap, ?load32Trap, ?store32Trap,
    ?portInTrap, ?portOutTrap⟩
  case load40 =>
    intro s ln c l e d rt ra disp h hx hok
    exact gives_of_laneOp _ h hx (execLd40.eq_1 ..) (if_pos hok)
  case load32z =>
    intro s ln c l e d rt ra disp h hx hok
    exact gives_of_laneOp _ h hx (execLd32.eq_1 ..) (if_pos hok)
  case load32s =>
    intro s ln c l e d rt ra disp h hx hok
    exact gives_of_laneOp _ h hx (execLd32.eq_1 ..) (if_pos hok)
  case store40 =>
    intro s ln c l e d rt ra disp h hx hok he
    refine ⟨_, insSt40_gives h hx hok, ?_, Lane.stored_frame _ (l.sameBytes_setSlot _ _) (by simp) (by simpa using he)⟩
    rw [Lane.slot_setEng, Lane.slot_setSlot_same]
  case store32 =>
    intro s ln c l e d rt ra disp h hx hok he
    refine ⟨_, insSt32_gives h hx hok, ?_, Lane.stored_frame _ (l.sameBytes_setGranule _ _) (by simp) (by simpa using he)⟩
    rw [Lane.granule_setEng, Lane.granule_setGranule_same]
  case portIn =>
    intro s ln c l e d low rt ra disp k h hx hk hlt
    refine gives_of_laneOp _ h hx (execPin.eq_1 ..) ((if_pos (slotIn_of_eq hk hlt)).trans ?_)
    rw [hk, Int.toNat_natCast]
  case portOut =>
    intro s ln c l e d low rt ra disp k h hx hk hlt he
    refine ⟨_, insPout_gives h hx hk hlt, ?_, Lane.stored_frame _ (l.sameBytes_setPort _ _ _) (by simp) (by simpa using he)⟩
    rw [Lane.slot_setEng, Lane.slot_setPort]
  case store40Trap =>
    intro s ln c l e d rt ra disp h hx hno
    exact gives_of_laneOp _ h hx (execSt40.eq_1 ..) (if_neg (by simp [hno]))
  case load40Trap =>
    intro s ln c l e d rt ra disp h hx hno
    exact gives_of_laneOp _ h hx (execLd40.eq_1 ..) (if_neg (by simp [hno]))
  case load32Trap =>
    intro s ln c l e d zext rt ra disp h hx hno
    exact gives_of_laneOp _ h hx (execLd32.eq_1 ..) (if_neg (by simp [hno]))
  case store32Trap =>
    intro s ln c l e d rt ra disp h hx hno
    exact gives_of_laneOp _ h hx (execSt32.eq_1 ..) (if_neg (by simp [hno]))
  case portInTrap =>
    intro s ln c l e d low rt ra disp h hx hno
    exact gives_of_laneOp _ h hx (execPin.eq_1 ..) (if_neg (by simp [hno]))
  case portOutTrap =>
    intro s ln c l e d low rt ra disp h hx hno
    exact gives_of_laneOp _ h hx (execPout.eq_1 ..) (if_neg (by simp [hno]))

/-! ### CORDIC operations, traps and leg control (R185 to R195) -/

/-- Settles O47: each clause is the case of its instruction's meaning that its premises choose. -/
theorem engineControlResults : Obligations.EngineControlResults := by
  refine ⟨?crot, ?catan, ?cordicResult, ?undefined, ?yieldFull, ?yieldRoom, ?hurdleFits, ?hurdleMissed, ?spawn, ?crotTrap, ?catanTrap,
    ?spawnTrap, ?digest, ?commit, ?squash⟩
  case crot =>
    intro s ln c l e d rd ra rb h hx hpair
    exact gives_of_laneOp _ h hx (execCrot.eq_1 ..) (if_pos hpair)
  case catan =>
    intro s ln c l e d rd ra rb h hx hpair
    exact gives_of_laneOp _ h hx (execCatan.eq_1 ..) (if_pos hpair)
  case cordicResult =>
    intro s ln c l e op h hop hready
    refine gives_of_onAlive_eq _ h (execCordicResult.eq_1 ..) ?_
    simp only [hop, hready, if_true]
  case undefined =>
    intro s ln c l e d word h hx hnone
    have hid : c.id = ln := by obtain ⟨-, -, -, rfl⟩ := h; rfl
    exact gives_of_laneOp _ h hx (execEncodingTrap.eq_1 ..) (if_pos (hid ▸ hnone))
  case yieldFull =>
    intro s ln c l e d r h hx hrun hfull
    refine gives_of_laneOp _ h hx (execYield.eq_1 ..) ?_
    simp only [hrun, Nat.not_lt.mpr hfull, if_false]
  case yieldRoom =>
    intro s ln c l e d r h hx hrun hroom
    refine gives_of_laneOp _ h hx (execYield.eq_1 ..) ?_
    simp only [hrun, hroom, if_true]
  case hurdleFits =>
    intro s ln c l e d t r h hx hrun hfits
    refine gives_of_laneOp _ h hx (execHurdle.eq_1 ..) ?_
    simp only [hrun, Nat.not_lt.mpr hfits, if_false]
  case hurdleMissed =>
    intro s ln c l e d t r h hx hrun hlate
    refine gives_of_laneOp _ h hx (execHurdle.eq_1 ..) ?_
    simp only [hrun, hlate, if_true]
  case spawn =>
    intro s ln c l e d leg g h hx hleg hdemand hroom
    refine gives_of_laneOp _ h hx (execSpawn.eq_1 ..) ?_
    simp only [hleg, hdemand, hroom, and_self, if_true]
    rfl
  case crotTrap =>
    intro s ln c l e d rd ra rb h hx hpair
    exact gives_of_laneOp _ h hx (execCrot.eq_1 ..) (if_neg (by simp [hpair]))
  case catanTrap =>
    intro s ln c l e d rd ra rb h hx hpair
    exact gives_of_laneOp _ h hx (execCatan.eq_1 ..) (if_neg (by simp [hpair]))
  case spawnTrap =>
    intro s ln c l e d leg h hx hno
    refine gives_of_laneOp _ h hx (execSpawn.eq_1 ..) ?_
    cases hleg : l.legDesc leg.toNat with
    | none => rfl
    | some g =>
      refine if_neg fun hboth => ?_
      obtain ⟨hdemand, hroom⟩ := hboth
      obtain hno | hfull := hno
      · simp [hleg, hdemand] at hno
      · omega
  case digest =>
    intro s ln c l e d h hx
    exact gives_of_regOp (fun x => x.writeDigest x.pc) h hx rfl
  case commit =>
    intro s ln c l e d h hx
    exact gives_of_laneOp _ h hx (execCommit.eq_1 ..) rfl
  case squash =>
    intro s ln c l e d h hx
    exact gives_of_laneOp _ h hx (execSquash.eq_1 ..) rfl

/-! ### A leg that ends in a lane with an open write transaction (R77, R148, R486) -/

/-- A privileged leg, at whose third consecutive miss its lane is unfit (R148). -/
def privilegedLeg : LegDesc := { (default : LegDesc) with privileged := true }

/-- The module after reset with lane A active and its engine 0 running a privileged leg that has missed twice; in the lane a service
session is open, whose write transaction is for a word of lane SRAM that holds 1. -/
def thirdMissInSession : State :=
  let l := (State.reset.laneA.setRole roleActive).put R.CF_STATUS_session 1
  State.reset.setLane .a { l with
    mem := [(0x20000000, 1)]
    image := { (default : Image) with legs := [(1, privilegedLeg)] }
    cf := { l.cf with txn := some ⟨false, 0x20000000, 4, 0, 0⟩ }
    ea := { l.ea with
      engines := l.ea.engines.set 0 { freshEngine with run := some ⟨1, false, false, 0, 0⟩, gated := false }
      legs := [(1, { (default : LegRun) with consecutive := 2 })] } }

theorem here_thirdMissInSession_a : Here thirdMissInSession .a (thirdMissInSession.ctx .a) thirdMissInSession.laneA :=
  ⟨rfl, rfl, by decide +kernel, rfl⟩

theorem executes_thirdMissInSession : Executes (thirdMissInSession.ctx .a) thirdMissInSession.laneA 0 privilegedLeg :=
  ⟨by decide +kernel, rfl, by decide +kernel⟩

/-- The miss makes the lane unfit, which drops the baton and aborts the transaction; its range is erased. -/
theorem thirdMissInSession_erases_sram :
    (thirdMissInSession.laneA.endRun (thirdMissInSession.ctx .a) (0 : EngIx).val 1).byte 0x20000000 = 0 := by decide +kernel

/-- Refutes O59: its premises do not say that an open write transaction lies in flash, and the end of a leg can abort one (R77, R148),
which erases its range; in `thirdMissInSession` INS_SQUASH so changes a byte of lane SRAM. -/
theorem not_engineStoresStayInItsTcm : ¬ Obligations.EngineStoresStayInItsTcm := by
  intro hall
  have hsquash := gives_of_laneOp (i := .insSquash .a 0) _ here_thirdMissInSession_a executes_thirdMissInSession
    (execSquash.eq_1 ..) rfl
  obtain ⟨-, -, -, -, -, hkept⟩ := hall thirdMissInSession _ .a 0 0xE1400000 (.insSquash .a 0) rfl (by decide +kernel) hsquash
  have hbyte := hkept 0x20000000 (by decide) (by decide) (by decide)
  rw [State.lane_setLane_same, thirdMissInSession_erases_sram] at hbyte
  exact absurd hbyte (by decide +kernel)

end Sys2Proof.Machine

/-! PROOFS. A leg from its start to its hurdle (R135, R145 to R149, R168 to R170, R191): what an engine loads, what a commit keeps, what
the hurdle writes, and what a miss changes. -/

namespace Sys2Proof.Machine

/-! ### Bytes and slots of a range -/

@[simp] theorem Lane.length_bytes (l : Lane) (a n : Nat) : (l.bytes a n).length = n := by
  induction n generalizing a with
  | zero => rfl
  | succ n ih => rw [Lane.bytes, List.length_cons, ih]

theorem Lane.bytes_congr {l m : Lane} {a n : Nat} (h : ∀ k, a ≤ k → k < a + n → m.byte k = l.byte k) : m.bytes a n = l.bytes a n := by
  induction n generalizing a with
  | zero => rfl
  | succ n ih => rw [Lane.bytes, Lane.bytes, h a (by omega) (by omega), ih fun k hlo hhi => h k (by omega) (by omega)]

section
variable (l : Lane) (a b : Nat) (bs : List Byte)

theorem Lane.bytes_setBytes_same : (l.setBytes a bs).bytes a bs.length = bs := by
  induction bs generalizing l a with
  | nil => rfl
  | cons x t ih =>
    rw [List.length_cons, Lane.setBytes, Lane.bytes, ih, Lane.byte_setBytes_out _ _ _ _ (Or.inl (by omega)), Lane.byte_setByte, if_pos rfl]

variable {a b bs}

/-- Bytes beside the stored ones read as before. -/
theorem Lane.bytes_setBytes_out {n : Nat} (h : a + n ≤ b ∨ b + bs.length ≤ a) : (l.setBytes b bs).bytes a n = l.bytes a n :=
  Lane.bytes_congr fun k hlo hhi => l.byte_setBytes_out b k bs (by omega)

theorem Lane.granule_setBytes_out (h : a + 4 ≤ b ∨ b + bs.length ≤ a) : (l.setBytes b bs).granule a = l.granule a := by
  unfold Lane.granule
  rw [l.byte_setBytes_out b a bs (by omega), l.byte_setBytes_out b (a + 1) bs (by omega), l.byte_setBytes_out b (a + 2) bs (by omega),
    l.byte_setBytes_out b (a + 3) bs (by omega)]

theorem Lane.slot_setBytes_out (h : a + 8 ≤ b ∨ b + bs.length ≤ a) : (l.setBytes b bs).slot a = l.slot a := by
  rw [Lane.slot, Lane.slot, l.granule_setBytes_out (by omega), l.byte_setBytes_out b (a + 4) bs (by omega)]

end

/-- Stored slots are read one by one (R170). -/
theorem Lane.slot_setBytes_slotsBytes (l : Lane) (a : Nat) (vs : List W40) (i : Nat) (hi : i < vs.length) :
    (l.setBytes a (slotsBytes vs)).slot (a + 8 * i) = vs[i] := by
  induction vs generalizing l a i with
  | nil => exact absurd hi (Nat.not_lt_zero i)
  | cons v t ih =>
    have hsplit : l.setBytes a (slotsBytes (v :: t)) = (l.setSlot a v).setBytes (a + 8) (slotsBytes t) := l.setBytes_append a _ _
    rw [hsplit]
    cases i with
    | zero => exact ((l.setSlot a v).slot_setBytes_out (Or.inl (Nat.le_refl _))).trans (l.slot_setSlot_same a v)
    | succ i =>
      rw [show a + 8 * (i + 1) = a + 8 + 8 * i by omega]
      exact ih (l.setSlot a v) (a + 8) i (Nat.lt_of_succ_lt_succ hi)

theorem Lane.bytes_of_mem_eq {l m : Lane} (h : m.mem = l.mem) (a n : Nat) : m.bytes a n = l.bytes a n :=
  Lane.bytes_congr fun k _ _ => SameMem.of_mem_eq h k

theorem Lane.granule_of_mem_eq {l m : Lane} (h : m.mem = l.mem) (a : Nat) : m.granule a = l.granule a := by
  unfold Lane.granule
  simp only [SameMem.of_mem_eq h _]

/-! ### A leg's record replaced -/

theorem Lane.leg_setLeg (l : Lane) (k j : Nat) (r : LegRun) : (l.setLeg k r).leg j = if j = k then r else l.leg j := by
  unfold Lane.leg Lane.setLeg
  rw [tabGet_tabPut]
  split <;> rfl

@[simp] theorem Lane.leg_setEng (l : Lane) (e : Nat) (x : Engine) (k : Nat) : (l.setEng e x).leg k = l.leg k := rfl

@[simp] theorem Lane.slot_setLeg (l : Lane) (k : Nat) (r : LegRun) (a : Nat) : (l.setLeg k r).slot a = l.slot a := rfl

@[simp] theorem Lane.bytes_setEng (l : Lane) (e : Nat) (x : Engine) (a n : Nat) : (l.setEng e x).bytes a n = l.bytes a n :=
  Lane.bytes_congr fun _ _ _ => rfl

/-! ### The start of a run (R145, R169) -/

/-- The windows of a leg in its engine's TCM, loaded for a run of this heat. -/
def Lane.loadLeg (l : Lane) (e leg : Nat) (d : LegDesc) : Lane :=
  (((l.setBytes (tcmAddr e 0xC000) (slotsBytes ((l.leg leg).snap.take d.snapshot.length))).setLeg leg
    { l.leg leg with lastEngine := e }).setBytes (tcmAddr e 0xC100) (l.bytes d.bufferAt (8 * d.buffer.length))).setBytes
      (tcmAddr e 0xC200) (l.committedState e leg d)

section
variable {c : Ctx} {l : Lane} {e leg : Nat} {n : Entry} {d : LegDesc}

/-- An engine as it begins a run: its registers are 0, and it executes from the entry of the leg (R169). -/
def Engine.begin (x : Engine) (entry : Word) (run : Run) : Engine := { x.clear with pc := entry, run := some run, gated := false }

/-- An engine starts a new run of this heat: its windows are loaded, and it begins. -/
theorem Lane.startEntry_of_new (hdesc : l.legDesc n.leg = some d) (hsaved : n.saved = none) (hahead : n.ahead = false) :
    l.startEntry c e n =
      (l.loadLeg e n.leg d).setEng e (((l.loadLeg e n.leg d).eng e).begin d.entry ⟨n.leg, false, n.second, c.now, c.now⟩) := by
  unfold Lane.startEntry
  rw [hdesc]
  dsimp only
  rw [hsaved, hahead, if_neg (by decide)]
  rfl

theorem Lane.slot_loadLeg (hsnap : (l.leg leg).snap.length = d.snapshot.length) (hlen : d.snapshot.length ≤ 32) {i : Nat}
    (hi : i < d.snapshot.length) : (l.loadLeg e leg d).slot (tcmAddr e (0xC000 + 8 * i)) = ((l.leg leg).snap[i]?).getD 0 := by
  have haddr : tcmAddr e (0xC000 + 8 * i) = tcmAddr e 0xC000 + 8 * i := by unfold tcmAddr; omega
  have hbuffer : tcmAddr e 0xC000 + 8 * i + 8 ≤ tcmAddr e 0xC100 := by unfold tcmAddr; omega
  have hstate : tcmAddr e 0xC000 + 8 * i + 8 ≤ tcmAddr e 0xC200 := by unfold tcmAddr; omega
  have hread : i < ((l.leg leg).snap.take d.snapshot.length).length := by rw [List.length_take]; omega
  rw [haddr, Lane.loadLeg, Lane.slot_setBytes_out _ (Or.inl hstate), Lane.slot_setBytes_out _ (Or.inl hbuffer), Lane.slot_setLeg,
    Lane.slot_setBytes_slotsBytes _ _ _ _ hread, List.getElem_take, List.getElem?_eq_getElem (by omega), Option.getD_some]

theorem Lane.buffer_loadLeg (hlen : d.buffer.length ≤ 32) :
    (l.loadLeg e leg d).bytes (tcmAddr e 0xC100) (8 * d.buffer.length) = l.bytes d.bufferAt (8 * d.buffer.length) := by
  have hbelow : tcmAddr e 0xC100 + 8 * d.buffer.length ≤ tcmAddr e 0xC200 := by unfold tcmAddr; omega
  rw [Lane.loadLeg, Lane.bytes_setBytes_out _ (Or.inl hbelow)]
  simpa using Lane.bytes_setBytes_same _ (tcmAddr e 0xC100) (l.bytes d.bufferAt (8 * d.buffer.length))

theorem Lane.state_loadLeg : (l.loadLeg e leg d).bytes (tcmAddr e 0xC200) (8 * d.stateSlots) = l.committedState e leg d := by
  have hlen : (l.committedState e leg d).length = 8 * d.stateSlots := l.length_bytes _ _
  rw [← hlen]
  exact Lane.bytes_setBytes_same _ _ _

@[simp] theorem Lane.loadLeg_engines : (l.loadLeg e leg d).ea.engines = l.ea.engines := by
  simp [Lane.loadLeg, Lane.setLeg]

@[simp] theorem Lane.eng_loadLeg (k : Nat) : (l.loadLeg e leg d).eng k = l.eng k := by
  unfold Lane.eng
  rw [Lane.loadLeg_engines]

@[simp] theorem Lane.loadLeg_regs : (l.loadLeg e leg d).regs = l.regs := by
  simp [Lane.loadLeg, Lane.setLeg]

end

/-- A register of an engine whose registers are all 0. -/
theorem Engine.reg_of_no_words {x : Engine} (h : x.w = []) (q : Reg) : x.reg q = 0 := by
  simp [Engine.reg, h]

@[simp] theorem Lane.committedState_setEng (l : Lane) (e : Nat) (x : Engine) (k leg : Nat) (d : LegDesc) :
    (l.setEng e x).committedState k leg d = l.committedState k leg d := by
  unfold Lane.committedState
  rw [Lane.bytes_setEng]
  rfl

/-- LEG_START of an entry that starts a new run of this heat. -/
theorem legStartL_of_new {c : Ctx} {l : Lane} {e : EngIx} {n : Entry} {q : List Entry} {d : LegDesc} (hfree : l.engFree c e.val = true)
    (htake : takeBottom (l.eng e.val).deque = some (n, q)) (hdesc : l.legDesc n.leg = some d) (hsaved : n.saved = none)
    (hahead : n.ahead = false) :
    legStartL c e l =
      (let popped := l.setEng e.val { l.eng e.val with deque := q }
       (popped.loadLeg e.val n.leg d).setEng e.val
         ((popped.eng e.val).begin d.entry ⟨n.leg, false, n.second, c.now, c.now⟩)) := by
  have hdesc' : (l.setEng e.val { l.eng e.val with deque := q }).legDesc n.leg = some d := hdesc
  rw [legStartL_of_entry hfree htake, Lane.startEntry_of_new hdesc' hsaved hahead, Lane.eng_loadLeg]

/-! ### The commit of a run (R146, R169, R191) -/

/-- The done area of a run whose commit instruction executes (R146). -/
def Lane.doneArea (l : Lane) (e : Nat) (r : Run) (d : LegDesc) : Done :=
  ⟨r.leg, e, r.ahead, r.second, l.bufferBytes e d, l.stateBytes e d, (l.eng e).sat, (l.eng e).spawn⟩

/-- A done area in place of an earlier one of the same leg and heat. -/
def Lane.keepDone (l : Lane) (x : Done) : Lane :=
  { l with ea := { l.ea with done := l.ea.done.filter (fun (g : Done) => decide (g.leg ≠ x.leg ∨ g.ahead ≠ x.ahead)) ++ [x] } }

theorem Lane.mem_keepDone (l : Lane) (x : Done) : x ∈ (l.keepDone x).ea.done := by simp [Lane.keepDone]

section
variable {c : Ctx} {l : Lane} {e : Nat}

/-- A freed engine runs nothing, and its registers are 0. -/
theorem Lane.eng_freeEngine_same (he : e < l.ea.engines.length) :
    ((l.freeEngine c e).eng e).run = none ∧ ((l.freeEngine c e).eng e).w = [] := by
  unfold Lane.freeEngine
  rw [Lane.eng_setEng_same _ he]
  exact ⟨rfl, rfl⟩

/-- The lane after the commit of a run that pushes no spawn. -/
def Lane.committed (c : Ctx) (l : Lane) (e : Nat) (r : Run) (d : LegDesc) : Lane :=
  let l1 := (l.setEng e ((l.eng e).writeDigest (l.eng e).pc)).keepDone (l.doneArea e r d)
  (l1.setLeg r.leg { l1.leg r.leg with lastTime := c.now - r.firstAt }).freeEngine c e

theorem Lane.commitRun_of_run {d : LegDesc} {r : Run} (hrun : (l.eng e).run = some r) (hdesc : l.legDesc r.leg = some d) :
    l.commitRun c e =
      if r.ahead then l.committed c e r d else (l.committed c e r d).pushSpawns c e (l.eng e).spawn := by
  simp only [Lane.commitRun, hrun, hdesc]
  rfl

theorem Lane.commitRun_of_no_spawn {d : LegDesc} {r : Run} (hrun : (l.eng e).run = some r) (hdesc : l.legDesc r.leg = some d)
    (hspawn : (l.eng e).spawn = []) : l.commitRun c e = l.committed c e r d := by
  rw [Lane.commitRun_of_run hrun hdesc, hspawn]
  exact ite_self _

theorem Lane.committed_mem (r : Run) (d : LegDesc) : (l.committed c e r d).mem = l.mem := by
  simp only [Lane.committed, Lane.freeEngine, Lane.setLeg, Lane.keepDone, Lane.setEng]

theorem Lane.committed_regs (r : Run) (d : LegDesc) : (l.committed c e r d).regs = l.regs := by
  simp only [Lane.committed, Lane.freeEngine, Lane.setLeg, Lane.keepDone, Lane.setEng]

theorem Lane.committed_staged (r : Run) (d : LegDesc) : (l.committed c e r d).ea.staged = l.ea.staged := by
  simp only [Lane.committed, Lane.freeEngine, Lane.setLeg, Lane.keepDone, Lane.setEng]

theorem Lane.eng_committed (r : Run) (d : LegDesc) (he : e < l.ea.engines.length) :
    ((l.committed c e r d).eng e).run = none ∧ ((l.committed c e r d).eng e).w = [] :=
  Lane.eng_freeEngine_same (by simpa [Lane.setLeg, Lane.keepDone, Lane.setEng] using he)

theorem Lane.mem_done_committed (r : Run) (d : LegDesc) : l.doneArea e r d ∈ (l.committed c e r d).ea.done :=
  Lane.mem_keepDone _ _

end

/-! ### The end of a commit window in which nothing is staged (R149, R156) -/

/-- A leg's record after the commit window of a hurdle. -/
def LegRun.shutAt (r : LegRun) (h : Nat) : LegRun := if r.window = some h then { r with window := none } else r

@[simp] theorem LegRun.shutAt_consecutive (r : LegRun) (h : Nat) : (r.shutAt h).consecutive = r.consecutive := by
  unfold LegRun.shutAt; split <;> rfl
@[simp] theorem LegRun.shutAt_lastEnd (r : LegRun) (h : Nat) : (r.shutAt h).lastEnd = r.lastEnd := by
  unfold LegRun.shutAt; split <;> rfl
@[simp] theorem LegRun.shutAt_due (r : LegRun) (h : Nat) : (r.shutAt h).due = r.due := by
  unfold LegRun.shutAt; split <;> rfl

/-- The commit window of a hurdle shut for every leg. -/
def Lane.shutWindows (l : Lane) (h : Nat) : Lane :=
  { l with ea := { l.ea with legs := l.ea.legs.map fun (p : Nat × LegRun) => (p.1, p.2.shutAt h) } }

theorem tabGet_map {α β : Type} (f : α → β) (t : Tab α) (i : Nat) :
    tabGet (t.map fun p => (p.1, f p.2)) i = (tabGet t i).map f := by
  induction t with
  | nil => rfl
  | cons p t ih =>
    simp only [List.map_cons, tabGet, ih]
    split <;> rfl

theorem Lane.leg_shutWindows (l : Lane) (h k : Nat) : (l.shutWindows h).leg k = (l.leg k).shutAt h := by
  have hlegs : (l.shutWindows h).ea.legs = l.ea.legs.map fun (p : Nat × LegRun) => (p.1, p.2.shutAt h) := rfl
  rw [Lane.leg, hlegs, tabGet_map fun r : LegRun => r.shutAt h, Lane.leg]
  cases tabGet l.ea.legs k <;> rfl

theorem Lane.takeEffect_of_unstaged {c : Ctx} {l : Lane} {h : Nat} (hstaged : ∀ x ∈ l.ea.staged, x.hurdle ≠ h) :
    l.takeEffect c h = l.shutWindows h := by
  have hnone : l.ea.staged.filter (fun x => decide (x.hurdle = h)) = [] := by simpa [List.filter_eq_nil_iff] using hstaged
  have hall : l.ea.staged.filter (fun x => decide (x.hurdle ≠ h)) = l.ea.staged := by simpa [List.filter_eq_self] using hstaged
  simp only [Lane.takeEffect, hnone, hall]
  rw [Lane.applyWords_of_no_buffer (by simp)]
  rfl

/-- HURDLE_REACHED of a used hurdle where no word is written at once: its legs are taken, and no window stays open at once. -/
theorem hurdleReachedL_of_unstaged {c : Ctx} {l : Lane} {h : Fin 8} (hstarted : l.ea.started = true)
    (hused : (l.rd (R.EA_HURDLE h.val)).toNat ≠ 0)
    (hstaged : ∀ x ∈ (l.atHurdleAll c h.val l.image.legs).ea.staged, x.hurdle ≠ atOnce) :
    hurdleReachedL c h l = (l.atHurdleAll c h.val l.image.legs).shutWindows atOnce :=
  (if_pos ⟨hstarted, hused⟩).trans (Lane.takeEffect_of_unstaged hstaged)

/-! ### A leg taken at its hurdle (R149, R191) -/

/-- The words of a leg of which all go to output stages are staged for its hurdle. -/
theorem hurdle_of_mem_stageWords {h : Nat} {bs : List Byte} {rs : List Route} (hall : rs.all Route.isStage = true) (k : Nat) :
    ∀ x ∈ stageWords h bs k rs, x.hurdle = h := by
  induction rs generalizing k with
  | nil => simp [stageWords]
  | cons r t ih =>
    simp only [List.all_cons, Bool.and_eq_true] at hall
    obtain ⟨hr, ht⟩ := hall
    rw [stageWords, List.forall_mem_cons]
    exact ⟨if_pos hr, ih ht (k + 1)⟩

/-- What the hurdle writes of a leg: its state in lane SRAM and in its home block, its buffer and its total of saturations. -/
def Lane.storeLeg (l : Lane) (d : LegDesc) (block : Nat) (x : Done) (total : Nat) : Lane :=
  (((l.setBytes d.stateAt x.state).setBytes (blockState block d) x.state).setBytes d.bufferAt x.buffer).setGranule d.statusAt
    (BitVec.ofNat 32 total)

section
variable {l : Lane} {d : LegDesc} {b : Nat} {x : Done} {total : Nat}

theorem Lane.granule_storeLeg : (l.storeLeg d b x total).granule d.statusAt = BitVec.ofNat 32 total :=
  Lane.granule_setGranule_same _ _ _

theorem Lane.buffer_storeLeg (hbuffer : d.bufferAt + x.buffer.length ≤ d.statusAt) :
    (l.storeLeg d b x total).bytes d.bufferAt x.buffer.length = x.buffer := by
  rw [Lane.storeLeg, Lane.setGranule, Lane.bytes_setBytes_out _ (Or.inl hbuffer), Lane.bytes_setBytes_same]

theorem Lane.blockState_storeLeg (hblock : blockState b d + x.state.length ≤ d.stateAt)
    (hstate : d.stateAt + x.state.length ≤ d.bufferAt) (hbuffer : d.bufferAt + x.buffer.length ≤ d.statusAt) :
    (l.storeLeg d b x total).bytes (blockState b d) x.state.length = x.state := by
  rw [Lane.storeLeg, Lane.setGranule, Lane.bytes_setBytes_out _ (Or.inl (by omega)), Lane.bytes_setBytes_out _ (Or.inl (by omega)),
    Lane.bytes_setBytes_same]

theorem Lane.state_storeLeg (hblock : blockState b d + x.state.length ≤ d.stateAt)
    (hstate : d.stateAt + x.state.length ≤ d.bufferAt) (hbuffer : d.bufferAt + x.buffer.length ≤ d.statusAt) :
    (l.storeLeg d b x total).bytes d.stateAt x.state.length = x.state := by
  rw [Lane.storeLeg, Lane.setGranule, Lane.bytes_setBytes_out _ (Or.inl (by omega)), Lane.bytes_setBytes_out _ (Or.inl hstate),
    Lane.bytes_setBytes_out _ (Or.inr hblock), Lane.bytes_setBytes_same]

/-- Every byte beside the four places is as before. -/
theorem Lane.byte_storeLeg_out {a : Nat} (hblock : a < blockState b d ∨ blockState b d + x.state.length ≤ a)
    (hstate : a < d.stateAt ∨ d.stateAt + x.state.length ≤ a) (hbuffer : a < d.bufferAt ∨ d.bufferAt + x.buffer.length ≤ a)
    (hstatus : a < d.statusAt ∨ d.statusAt + 4 ≤ a) : (l.storeLeg d b x total).byte a = l.byte a := by
  rw [Lane.storeLeg, Lane.setGranule, Lane.byte_setBytes_out _ _ _ _ hstatus, Lane.byte_setBytes_out _ _ _ _ hbuffer,
    Lane.byte_setBytes_out _ _ _ _ hblock, Lane.byte_setBytes_out _ _ _ _ hstate]

end

section
variable {l : Lane} {x : Done} {d : LegDesc} (h code : Nat) (hdesc : l.legDesc x.leg = some d)
include hdesc

/-- The lane after a leg's commit at its hurdle, by what it holds of memory, registers and the scheduler. -/
theorem Lane.commitLeg_of_desc :
    l.commitLeg h x code =
      (let r := l.leg x.leg
       let total := min (r.satTotal + x.sat) 0xFFFFFFFF
       let l1 := (l.storeLeg d (r.home / 4) x total).setLeg x.leg
         { r with satTotal := total, consecutive := 0, lastEnd := code, due := false, window := some h }
       { l1 with ea := { l1.ea with
          staged := l1.ea.staged ++ stageWords h x.buffer 0 d.buffer, done := l1.ea.done.filter (fun y => decide (y ≠ x)) } }) := by
  unfold Lane.commitLeg
  rw [hdesc]
  rfl

theorem Lane.commitLeg_mem :
    (l.commitLeg h x code).mem =
      (l.storeLeg d ((l.leg x.leg).home / 4) x (min ((l.leg x.leg).satTotal + x.sat) 0xFFFFFFFF)).mem := by
  rw [Lane.commitLeg_of_desc h code hdesc]
  rfl

theorem Lane.commitLeg_regs : (l.commitLeg h x code).regs = l.regs := by
  rw [Lane.commitLeg_of_desc h code hdesc]
  simp [Lane.setLeg, Lane.storeLeg]

theorem Lane.commitLeg_staged : (l.commitLeg h x code).ea.staged = l.ea.staged ++ stageWords h x.buffer 0 d.buffer := by
  rw [Lane.commitLeg_of_desc h code hdesc]
  simp [Lane.setLeg, Lane.storeLeg]

theorem Lane.commitLeg_done : (l.commitLeg h x code).ea.done = l.ea.done.filter (fun y => decide (y ≠ x)) := by
  rw [Lane.commitLeg_of_desc h code hdesc]
  simp [Lane.setLeg, Lane.storeLeg]

theorem Lane.leg_commitLeg :
    (l.commitLeg h x code).leg x.leg = { l.leg x.leg with
      satTotal := min ((l.leg x.leg).satTotal + x.sat) 0xFFFFFFFF, consecutive := 0, lastEnd := code, due := false, window := some h } := by
  rw [Lane.commitLeg_of_desc h code hdesc]
  exact (Lane.leg_setLeg _ _ _ _).trans (if_pos rfl)

end

/-! ### Misses at a hurdle (R146, R148) -/

/-- A leg's record after a miss. -/
def LegRun.missed (r : LegRun) : LegRun :=
  { r with misses := min (r.misses + 1) 4095, consecutive := min (r.consecutive + 1) 3, lastEnd := 4, due := false }

section
variable {c : Ctx} {l : Lane} {k cause : Nat}

/-- A miss that is not the third in a row leaves the lane as fit as it was. -/
theorem Lane.miss_of_not_third (hthird : (l.leg k).consecutive ≠ 2) :
    (l.miss c k cause).ea = { (l.setLeg k (l.leg k).missed).ea with missThisHeat := true } ∧ (l.miss c k cause).mem = l.mem := by
  have hno (p : Prop) : ¬(p ∧ min ((l.leg k).consecutive + 1) 3 = 3 ∧ (l.leg k).consecutive < 3) := by omega
  simp only [Lane.miss, hno, if_false]
  simp [Lane.setLeg, LegRun.missed]

/-- The lane with other engines. -/
def Lane.withEngines (l : Lane) (es : List Engine) : Lane := { l with ea := { l.ea with engines := es } }

/-- Runs that stop change engines only. -/
theorem Lane.stopRuns_eq_withEngines (ahead : Bool) (ls : List Nat) : ∃ es, l.stopRuns c k ahead ls = l.withEngines es := by
  induction ls generalizing l with
  | nil => exact ⟨_, rfl⟩
  | cons e t ih =>
    rw [Lane.stopRuns]
    split
    next r _ =>
      split
      · obtain ⟨es, hes⟩ := ih (l := (l.setEng e ((l.eng e).writeDigest (l.eng e).pc)).freeEngine c e)
        exact ⟨es, hes⟩
      · exact ih
    next => exact ih

/-- A due leg without a done area misses at its hurdle (R148). -/
theorem Lane.atHurdle_of_no_done {h : Nat} (hdue : (l.leg k).due = true) (hnone : ∀ x ∈ l.ea.done, x.leg = k → x.ahead = true) :
    ∃ es, l.atHurdle c h k = (l.withEngines es).miss c k 0 := by
  have hfind : l.ea.done.find? (fun x => decide (x.leg = k) && !x.ahead) = none := by
    simpa [List.find?_eq_none] using hnone
  obtain ⟨es, hes⟩ := Lane.stopRuns_eq_withEngines (c := c) (l := l) (k := k) false (List.range (engineCount c.part.member))
  refine ⟨es.map fun x => { x with deque := x.deque.filter fun n => decide (n.leg ≠ k ∨ n.ahead ≠ false) }, ?_⟩
  simp only [Lane.atHurdle, hdue, hfind, hes]
  rfl

theorem Lane.atHurdle_of_not_due {h : Nat} (hdue : (l.leg k).due = false) : l.atHurdle c h k = l := by
  simp [Lane.atHurdle, hdue]

end

/-- From one lane to another, nothing that a hurdle writes or stages has changed, and due legs may have missed. -/
structure OnlyMisses (l m : Lane) : Prop where
  mem : m.mem = l.mem
  staged : m.ea.staged = l.ea.staged
  done : m.ea.done = l.ea.done
  legs : ∀ k, m.leg k = l.leg k ∨ (l.leg k).due = true ∧ m.leg k = (l.leg k).missed

theorem OnlyMisses.refl (l : Lane) : OnlyMisses l l := ⟨rfl, rfl, rfl, fun _ => Or.inl rfl⟩

section
variable {l m n : Lane} {k : Nat}

/-- A leg that is not due stays as it is. -/
theorem OnlyMisses.leg_of_not_due (hm : OnlyMisses l m) (hdue : (l.leg k).due = false) : m.leg k = l.leg k := by
  obtain hsame | ⟨hno, -⟩ := hm.legs k
  · exact hsame
  · rw [hdue] at hno
    cases hno

/-- A leg that is still due stays as it is. -/
theorem OnlyMisses.leg_of_due (hm : OnlyMisses l m) (hdue : (m.leg k).due = true) : m.leg k = l.leg k := by
  obtain hsame | ⟨-, hmissed⟩ := hm.legs k
  · exact hsame
  · rw [hmissed] at hdue
    cases hdue

/-- A due leg that is due no longer has missed. -/
theorem OnlyMisses.missed_of_due (hm : OnlyMisses l m) (hdue : (l.leg k).due = true) (hdone : (m.leg k).due = false) :
    m.leg k = (l.leg k).missed := by
  obtain hsame | ⟨-, hmissed⟩ := hm.legs k
  · rw [hsame, hdue] at hdone
    cases hdone
  · exact hmissed

theorem OnlyMisses.trans (hm : OnlyMisses l m) (hn : OnlyMisses m n) : OnlyMisses l n where
  mem := hn.mem.trans hm.mem
  staged := hn.staged.trans hm.staged
  done := hn.done.trans hm.done
  legs k := by
    obtain hsame | ⟨hdue, hmissed⟩ := hm.legs k
    · rw [← hsame]
      exact hn.legs k
    · rw [hn.leg_of_not_due (by rw [hmissed]; rfl)]
      exact Or.inr ⟨hdue, hmissed⟩

end

section
variable {c : Ctx} {l : Lane} {h : Nat}

/-- A leg at its hurdle that has no done area, and whose third miss in a row this is not: it is due no longer, and nothing but a miss
has happened. -/
theorem Lane.atHurdle_onlyMisses {k : Nat} (hthird : (l.leg k).due = true → (l.leg k).consecutive ≠ 2)
    (hnone : ∀ x ∈ l.ea.done, x.leg = k → x.ahead = true) :
    OnlyMisses l (l.atHurdle c h k) ∧ ((l.atHurdle c h k).leg k).due = false := by
  cases hdue : (l.leg k).due with
  | false =>
    rw [Lane.atHurdle_of_not_due hdue]
    exact ⟨OnlyMisses.refl l, hdue⟩
  | true =>
    obtain ⟨es, hes⟩ := Lane.atHurdle_of_no_done (c := c) (h := h) hdue hnone
    obtain ⟨hea, hmem⟩ := Lane.miss_of_not_third (c := c) (l := l.withEngines es) (cause := 0) (hthird hdue)
    rw [← hes] at hea hmem
    have hleg (j : Nat) : (l.atHurdle c h k).leg j = if j = k then (l.leg k).missed else l.leg j := by
      rw [Lane.leg, hea]
      exact Lane.leg_setLeg (l.withEngines es) k j _
    refine ⟨⟨hmem, by rw [hea]; rfl, by rw [hea]; rfl, fun j => ?_⟩, ?_⟩
    · by_cases hj : j = k
      · subst hj
        exact Or.inr ⟨hdue, (hleg j).trans (if_pos rfl)⟩
      · exact Or.inl ((hleg j).trans (if_neg hj))
    · rw [hleg, if_pos rfl]
      rfl

/-- The same of all legs of a hurdle. -/
theorem Lane.atHurdleAll_onlyMisses (ls : Tab LegDesc)
    (hthird : ∀ p ∈ ls, p.2.hurdle = h → (l.leg p.1).due = true → (l.leg p.1).consecutive ≠ 2)
    (hnone : ∀ p ∈ ls, p.2.hurdle = h → ∀ x ∈ l.ea.done, x.leg = p.1 → x.ahead = true) :
    OnlyMisses l (l.atHurdleAll c h ls) ∧ ∀ p ∈ ls, p.2.hurdle = h → ((l.atHurdleAll c h ls).leg p.1).due = false := by
  induction ls generalizing l with
  | nil => exact ⟨OnlyMisses.refl l, by simp⟩
  | cons p t ih =>
    obtain ⟨hthirdHead, hthirdTail⟩ := List.forall_mem_cons.mp hthird
    obtain ⟨hnoneHead, hnoneTail⟩ := List.forall_mem_cons.mp hnone
    rw [Lane.atHurdleAll]
    by_cases hp : p.2.hurdle = h
    · obtain ⟨hmiss, hover⟩ := Lane.atHurdle_onlyMisses (c := c) (h := h) (hthirdHead hp) (hnoneHead hp)
      rw [if_pos hp]
      obtain ⟨hrest, hoverRest⟩ := ih (l := l.atHurdle c h p.1)
        (fun q hq hqh hdue => by
          rw [hmiss.leg_of_due hdue]
          rw [hmiss.leg_of_due hdue] at hdue
          exact hthirdTail q hq hqh hdue)
        (fun q hq hqh => by
          rw [hmiss.done]
          exact hnoneTail q hq hqh)
      refine ⟨hmiss.trans hrest, List.forall_mem_cons.mpr ⟨fun _ => ?_, hoverRest⟩⟩
      rw [hrest.leg_of_not_due hover, hover]
    · rw [if_neg hp]
      obtain ⟨hrest, hoverRest⟩ := ih hthirdTail hnoneTail
      exact ⟨hrest, List.forall_mem_cons.mpr ⟨fun hph => absurd hph hp, hoverRest⟩⟩

end

/-- Settles O49: each clause from what its operation leaves in the lane (`loadLeg`, `committed`, `storeLeg`, `OnlyMisses`). -/
theorem legRunFromStartToHurdle : Obligations.LegRunFromStartToHurdle := by
  refine ⟨?start, ?commit, ?hurdle, ?miss⟩
  case start =>
    intro s ln c l e n q d h hfree he htake hdesc hsaved hahead hsnap hsnap32 hbuf32
    refine ⟨_, gives_of_onAlive_eq (legStartL · e) h rfl (legStartL_of_new hfree htake hdesc hsaved hahead), ?_⟩
    dsimp only
    rw [Lane.eng_setEng_same _ he, Lane.eng_setEng_same _ (by simpa [Lane.setEng] using he)]
    refine ⟨fun i hi => ?_, ?_, ?_, rfl, rfl, Engine.reg_of_no_words rfl, rfl, rfl, rfl, rfl, rfl, fun a _ => ?_⟩
    · rw [Lane.slot_setEng, Lane.slot_loadLeg (by rw [Lane.leg_setEng, hsnap]) hsnap32 hi, Lane.leg_setEng]
    · rw [Lane.bytes_setEng, Lane.buffer_loadLeg hbuf32, Lane.bytes_setEng]
    · rw [Lane.bytes_setEng, Lane.state_loadLeg, Lane.committedState_setEng]
    · rw [Lane.rd_setEng]
      simp only [Lane.rd, Lane.loadLeg_regs]
      rfl
  case commit =>
    intro s ln c l e d r h hx hrun hahead hspawn he
    obtain ⟨r', hrun', hdesc⟩ := hx.run
    obtain rfl : r = r' := Option.some.inj (hrun.symm.trans hrun')
    have hgives : Gives (.insCommit ln e) s ln (l.committed c e.val r d) :=
      gives_of_laneOp _ h hx (execCommit.eq_1 ..) (Lane.commitRun_of_no_spawn hrun hdesc hspawn)
    have hdone := l.mem_done_committed (c := c) (e := e.val) r d
    rw [Lane.doneArea, hahead, hspawn] at hdone
    obtain ⟨hfreed, hwords⟩ := Lane.eng_committed (c := c) r d he
    exact ⟨_, hgives, hdone, hfreed, Engine.reg_of_no_words hwords, Lane.committed_staged r d,
      sameRegs_of_regs_eq (Lane.committed_regs r d), SameMem.of_mem_eq (Lane.committed_mem r d)⟩
  case hurdle =>
    intro s ln c l h k d x hh hstarted hused hlegs hhurdle hdue hkept hdone hleg hahead hstaged hstages hblock hstate hbuffer
    subst hleg
    have hdesc : l.legDesc x.leg = some d := by simp [Lane.legDesc, hlegs, tabGet]
    have htaken : l.atHurdleAll c h.val l.image.legs = l.commitLeg h.val x 1 := by
      simp [hlegs, Lane.atHurdleAll, Lane.atHurdle, hhurdle, hdue, hkept, hdone, hahead]
    have hnow : ∀ y ∈ (l.atHurdleAll c h.val l.image.legs).ea.staged, y.hurdle ≠ atOnce := by
      rw [htaken, Lane.commitLeg_staged _ _ hdesc, List.forall_mem_append]
      refine ⟨by simpa using hstaged, fun y hy => ?_⟩
      rw [hurdle_of_mem_stageWords hstages 0 y hy, atOnce]
      omega
    have hreached := hurdleReachedL_of_unstaged hstarted hused hnow
    rw [htaken] at hreached
    have hmem : ((l.commitLeg h.val x 1).shutWindows atOnce).mem = _ := Lane.commitLeg_mem h.val 1 hdesc
    refine ⟨_, gives_of_onAlive_eq (hurdleReachedL · h) hh rfl hreached, ?_, ?_, ?_, ?_, ?_, ?_, ?_, ?_, ?_, ?_, ?_⟩
    · rw [Lane.bytes_of_mem_eq hmem, Lane.state_storeLeg hblock hstate hbuffer]
    · rw [Lane.bytes_of_mem_eq hmem, Lane.blockState_storeLeg hblock hstate hbuffer]
    · rw [Lane.bytes_of_mem_eq hmem, Lane.buffer_storeLeg hbuffer]
    · rw [Lane.granule_of_mem_eq hmem, Lane.granule_storeLeg]
    · exact Lane.commitLeg_staged h.val 1 hdesc
    · refine (Lane.commitLeg_done h.val 1 hdesc).trans ?_
      simp [hdone]
    · rw [Lane.leg_shutWindows, LegRun.shutAt_consecutive, Lane.leg_commitLeg h.val 1 hdesc]
    · rw [Lane.leg_shutWindows, LegRun.shutAt_lastEnd, Lane.leg_commitLeg h.val 1 hdesc]
    · rw [Lane.leg_shutWindows, LegRun.shutAt_due, Lane.leg_commitLeg h.val 1 hdesc]
    · exact sameRegs_of_regs_eq (Lane.commitLeg_regs h.val 1 hdesc)
    · rintro a ⟨houtBlock, houtState, houtBuffer, houtStatus⟩
      rw [SameMem.of_mem_eq hmem, Lane.byte_storeLeg_out houtBlock houtState houtBuffer houtStatus]
  case miss =>
    intro s ln c l h hh hstarted hused hstaged hlegs
    obtain ⟨hmisses, hover⟩ := Lane.atHurdleAll_onlyMisses (c := c) (l := l) (h := h.val) l.image.legs
      (fun p hp hph _ => (hlegs p hp hph).left) (fun p hp hph => (hlegs p hp hph).right)
    have hnow : ∀ y ∈ (l.atHurdleAll c h.val l.image.legs).ea.staged, y.hurdle ≠ atOnce := by
      rw [hmisses.staged]
      simpa using hstaged
    refine ⟨_, gives_of_onAlive_eq (hurdleReachedL · h) hh rfl (hurdleReachedL_of_unstaged hstarted hused hnow),
      SameMem.of_mem_eq hmisses.mem, hmisses.staged, hmisses.done, fun p hp hph hdue => ?_⟩
    rw [Lane.leg_shutWindows, LegRun.shutAt_lastEnd, LegRun.shutAt_due, LegRun.shutAt_consecutive,
      hmisses.missed_of_due hdue (hover p hp hph)]
    exact ⟨rfl, rfl, rfl⟩

end Sys2Proof.Machine

/-! PROOFS. The engine's instruction words (R171 to R187): the fields of a word, and the two ways between a word and
the instruction that it spells. -/

namespace Sys2Proof.Machine

/-! ### Fields of a word (R171) -/

section
variable {w : Word} {hi lo : Nat}

theorem ewField_lt (w : Word) (hi lo : Nat) : ewField w hi lo < 2 ^ (hi - lo + 1) := Nat.mod_lt _ (Nat.two_pow_pos _)

/-- A part of a field. -/
theorem ewField_sub {v hi' lo' : Nat} (h : ewField w hi lo = v) (hin : lo ≤ lo' ∧ lo' ≤ hi' ∧ hi' ≤ hi) :
    ewField w hi' lo' = v / 2 ^ (lo' - lo) % 2 ^ (hi' - lo' + 1) := by
  obtain ⟨hlo, hle, hhi⟩ := hin
  have hbelow : 2 ^ lo' = 2 ^ lo * 2 ^ (lo' - lo) := by rw [← pow_add, Nat.add_sub_cancel' hlo]
  have hwidth : 2 ^ (hi - lo + 1) = 2 ^ (lo' - lo) * 2 ^ (hi - lo' + 1) := by rw [← pow_add]; congr 1; omega
  have hdvd : 2 ^ (hi' - lo' + 1) ∣ 2 ^ (hi - lo' + 1) := pow_dvd_pow 2 (by omega)
  rw [← h, ewField, ewField, hbelow, ← Nat.div_div_eq_div_mul, hwidth, Nat.mod_mul_right_div_self, Nat.mod_mod_of_dvd _ hdvd]

/-- Two fields side by side are one. -/
theorem ewField_append (w : Word) {mid : Nat} (hlo : lo ≤ mid) (hhi : mid < hi) :
    ewField w hi lo = ewField w hi (mid + 1) * 2 ^ (mid + 1 - lo) + ewField w mid lo := by
  have hbelow : 2 ^ (mid + 1) = 2 ^ lo * 2 ^ (mid + 1 - lo) := by rw [← pow_add]; congr 1; omega
  have hwidth : 2 ^ (hi - lo + 1) = 2 ^ (mid + 1 - lo) * 2 ^ (hi - (mid + 1) + 1) := by rw [← pow_add]; congr 1; omega
  have hmid : mid - lo + 1 = mid + 1 - lo := by omega
  rw [ewField, ewField, ewField, hwidth, Nat.mod_mul, hbelow, Nat.div_div_eq_div_mul, hmid, Nat.mul_comm, Nat.add_comm]

/-- A field whose upper part is 0. -/
theorem ewField_of_upper_zero {mid : Nat} (h : ewField w hi (mid + 1) = 0) (hlo : lo ≤ mid) (hhi : mid < hi) :
    ewField w hi lo = ewField w mid lo := by
  rw [ewField_append w hlo hhi, h, Nat.zero_mul, Nat.zero_add]

/-- Bits 15:0 as the third register's field and a function code. -/
theorem ewField_low_split (w : Word) : ewField w 15 0 = ewField w 15 11 * 2048 + ewField w 10 0 :=
  ewField_append w (by decide) (by decide)

/-! ### Operands in fields (R168, R171) -/

theorem ewReg_val (w : Word) (lo : Nat) : (ewReg w lo).val = ewField w (lo + 4) lo := by
  simp [ewReg, ewField]

theorem ewPred_val (w : Word) (lo : Nat) : (ewPred w lo).val = ewField w (lo + 1) lo := by
  simp [ewPred, ewField]

theorem ewReg_eq {r : Reg} (h : ewField w (lo + 4) lo = r.val) : ewReg w lo = r := Fin.ext ((ewReg_val w lo).trans h)

theorem ewPred_eq {p : Pred} (h : ewField w (lo + 1) lo = p.val) : ewPred w lo = p := Fin.ext ((ewPred_val w lo).trans h)

/-- A predicate stands in a register's field with 0 above it. -/
theorem ewPred_of_reg_field {p : Pred} (h : ewField w (lo + 4) lo = p.val) :
    ewPred w lo = p ∧ ewField w (lo + 4) (lo + 2) = 0 := by
  have hnum := ewField_sub (lo' := lo) (hi' := lo + 1) h (by omega)
  have hzero := ewField_sub (lo' := lo + 2) (hi' := lo + 4) h (by omega)
  simp only [Nat.add_sub_cancel_left, Nat.sub_self, Nat.add_sub_add_left] at hnum hzero
  exact ⟨ewPred_eq (by omega), by omega⟩

theorem reg_field_of_ewPred (h : ewField w (lo + 4) (lo + 2) = 0) : ewField w (lo + 4) lo = (ewPred w lo).val := by
  rw [ewPred_val]
  exact ewField_of_upper_zero h (by omega) (by omega)

theorem toNat_setWidth_eq_ewField (w : Word) (n : Nat) : (w.setWidth (n + 1)).toNat = ewField w n 0 := by
  simp [ewField]

theorem setWidth_eq {n : Nat} {v : BitVec (n + 1)} (h : ewField w n 0 = v.toNat) : w.setWidth (n + 1) = v :=
  BitVec.eq_of_toNat_eq ((toNat_setWidth_eq_ewField w n).trans h)

theorem toNat_ofNat_ewField {n : Nat} (h : ewField w hi (n + 1) = 0) (hn : n < hi) :
    (BitVec.ofNat (n + 1) (ewField w hi 0)).toNat = ewField w hi 0 := by
  rw [BitVec.toNat_ofNat, ewField_of_upper_zero h (Nat.zero_le n) hn]
  exact Nat.mod_mod _ _

theorem cond_le (b : Bool) (n : Nat) : cond b n 0 ≤ n := by
  cases b <;> simp

theorem cond_decide_eq_one {k : Nat} (hk : k ≤ 1) (n : Nat) : cond (decide (k = 1)) n 0 = k * n := by
  obtain rfl | rfl : k = 0 ∨ k = 1 := by omega
  all_goals simp

/-- A flag above a displacement (R181, R183). -/
theorem flag_of_low_field {z : Bool} {disp : BitVec 12} (h : ewField w 15 0 = cond z 4096 0 + disp.toNat) :
    ewField w 15 12 = z.toNat ∧ w.setWidth 12 = disp := by
  have hz := ewField_sub (hi' := 15) (lo' := 12) h (by decide)
  have hdisp := ewField_sub (hi' := 11) (lo' := 0) h (by decide)
  cases z
  all_goals
    simp only [cond_true, cond_false, Bool.toNat_true, Bool.toNat_false] at hz hdisp ⊢
    exact ⟨by omega, setWidth_eq (by omega)⟩

/-! ### The four forms of a word (R171) -/

variable {op d a b low fn : Nat}

/-- One field below the opcode. -/
theorem word_of_arg_iff (hop : op < 64 := by omega) (hlow : low < 2 ^ 26 := by omega) :
    some (ewWord op 0 0 low) = some w ↔ ewField w 31 26 = op ∧ ewField w 25 0 = low := by
  simp only [Option.some.injEq, ← BitVec.toNat_inj, ewWord, ewField, BitVec.toNat_ofNat]
  omega

/-- A register's field and a branch offset. -/
theorem word_of_offset_iff (hop : op < 64 := by omega) (hd : d < 32 := by omega) (hlow : low < 2 ^ 21 := by omega) :
    some (ewWord op d 0 low) = some w ↔ ewField w 31 26 = op ∧ ewField w 25 21 = d ∧ ewField w 20 0 = low := by
  simp only [Option.some.injEq, ← BitVec.toNat_inj, ewWord, ewField, BitVec.toNat_ofNat]
  omega

/-- Two registers' fields and an immediate. -/
theorem word_of_imm_iff (hop : op < 64 := by omega) (hd : d < 32 := by omega) (ha : a < 32 := by omega)
    (hlow : low < 2 ^ 16 := by omega) :
    some (ewWord op d a low) = some w ↔
      ewField w 31 26 = op ∧ ewField w 25 21 = d ∧ ewField w 20 16 = a ∧ ewField w 15 0 = low := by
  simp only [Option.some.injEq, ← BitVec.toNat_inj, ewWord, ewField, BitVec.toNat_ofNat]
  omega

/-- Three registers' fields and a function code. -/
theorem word_of_fn_iff (hlow : low = b * 2048 + fn) (hop : op < 64 := by omega) (hd : d < 32 := by omega)
    (ha : a < 32 := by omega) (hb : b < 32 := by omega) (hfn : fn < 2 ^ 11 := by omega) :
    some (ewWord op d a low) = some w ↔
      ewField w 31 26 = op ∧ ewField w 25 21 = d ∧ ewField w 20 16 = a ∧ ewField w 15 11 = b ∧ ewField w 10 0 = fn := by
  have hbfield := ewField_lt w 15 11
  have hfnfield := ewField_lt w 10 0
  rw [word_of_imm_iff, ewField_low_split]
  omega

end

/-! ### From the instruction to its word and back (R172 to R187) -/

section
variable {w : Word} {ln : LaneId} {e : EngIx}

theorem decode_insSel {p : Pred} {rd ra rb : Reg} (h : encodeEngineWord (.insSel ln e p rd ra rb) = some w) :
    decodeEngineWord ln e w = some (.insSel ln e p rd ra rb) := by
  obtain ⟨hop, hd, ha, hb, hfn⟩ := Iff.mp (word_of_fn_iff (Nat.add_assoc (rb.val * 2048) _ _)) h
  have hcode : ewField w 5 0 = 0x0D := (ewField_sub hfn (by decide)).trans (by omega)
  have hp : ewPred w 6 = p := ewPred_eq ((ewField_sub hfn (by decide)).trans (by omega))
  have hzero : ewField w 10 8 = 0 := (ewField_sub hfn (by decide)).trans (by omega)
  simp only [decodeEngineWord, hop, decodeInteger, ewReg_eq hd, ewReg_eq ha, ewReg_eq hb, hcode, hp, hzero]
  rfl

theorem decode_insLdx {rd : Reg} {imm : BitVec 8} (h : encodeEngineWord (.insLdx ln e rd imm) = some w) :
    decodeEngineWord ln e w = some (.insLdx ln e rd imm) := by
  obtain ⟨hop, hd, hlow⟩ := Iff.mp word_of_offset_iff h
  have hzero : ewField w 20 8 = 0 := (ewField_sub hlow (by decide)).trans (by omega)
  have himm : w.setWidth 8 = imm := setWidth_eq ((ewField_sub hlow (by decide)).trans (by omega))
  simp only [decodeEngineWord, hop, ewReg_eq hd, hzero, himm]
  rfl

theorem decode_insCmpi {k : Fin 8} {p : Pred} {ra : Reg} {imm : BitVec 16}
    (h : encodeEngineWord (.insCmpi ln e k p ra imm) = some w) :
    decodeEngineWord ln e w = some (.insCmpi ln e k p ra imm) := by
  obtain ⟨hop, hd, ha, hlow⟩ := Iff.mp word_of_imm_iff h
  have hk : ewField w 25 23 = k.val := (ewField_sub hd (by decide)).trans (by omega)
  have hp : ewPred w 21 = p := ewPred_eq ((ewField_sub hd (by decide)).trans (by omega))
  simp only [decodeEngineWord, hop, hk, Fin.ofNat_val_eq_self, hp, ewReg_eq ha, setWidth_eq hlow]

theorem decode_insShi {rd ra : Reg} {k : Fin 3} {amount : BitVec 6}
    (h : encodeEngineWord (.insShi ln e rd ra k amount) = some w) :
    decodeEngineWord ln e w = some (.insShi ln e rd ra k amount) := by
  obtain ⟨hop, hd, ha, hlow⟩ := Iff.mp word_of_imm_iff h
  have hzero : ewField w 15 8 = 0 := (ewField_sub hlow (by decide)).trans (by omega)
  have hk : ewField w 7 6 = k.val := (ewField_sub hlow (by decide)).trans (by omega)
  have hamount : w.setWidth 6 = amount := setWidth_eq ((ewField_sub hlow (by decide)).trans (by omega))
  simp only [decodeEngineWord, hop, ewReg_eq hd, ewReg_eq ha, hzero, hk, hamount, Fin.ofNat_val_eq_self]
  exact if_pos ⟨trivial, by omega⟩

theorem decode_insHurdle {t : BitVec 17} (h : encodeEngineWord (.insHurdle ln e t) = some w) :
    decodeEngineWord ln e w = some (.insHurdle ln e t) := by
  obtain ⟨hop, hlow⟩ := Iff.mp word_of_arg_iff h
  have hcode : ewField w 25 22 = 1 := (ewField_sub hlow (by decide)).trans (by omega)
  have hzero : ewField w 21 17 = 0 := (ewField_sub hlow (by decide)).trans (by omega)
  have ht : ewField w 21 0 = t.toNat := (ewField_sub hlow (by decide)).trans (by omega)
  simp only [decodeEngineWord, hop, decodeLeg, hcode, hzero, ht, BitVec.ofNat_toNat, BitVec.setWidth_eq]
  rfl

theorem decode_insSpawn {leg : BitVec 8} (h : encodeEngineWord (.insSpawn ln e leg) = some w) :
    decodeEngineWord ln e w = some (.insSpawn ln e leg) := by
  obtain ⟨hop, hlow⟩ := Iff.mp word_of_arg_iff h
  have hcode : ewField w 25 22 = 2 := (ewField_sub hlow (by decide)).trans (by omega)
  have hzero : ewField w 21 8 = 0 := (ewField_sub hlow (by decide)).trans (by omega)
  have hleg : ewField w 21 0 = leg.toNat := (ewField_sub hlow (by decide)).trans (by omega)
  simp only [decodeEngineWord, hop, decodeLeg, hcode, hzero, hleg, BitVec.ofNat_toNat, BitVec.setWidth_eq]
  rfl

/-- The instruction's operands stand in the fields of its word, from which the decoder takes them. -/
theorem decode_of_encode {i : Instr} (hok : encodable i = true) (h : encodeEngineWord i = some w) :
    ∃ ln e, decodeEngineWord ln e w = some i := by
  cases i
  case insAdd ln e rd ra rb | insSub ln e rd ra rb | insAnd ln e rd ra rb | insOr ln e rd ra rb | insXor ln e rd ra rb
      | insSll ln e rd ra rb | insSrl ln e rd ra rb | insSra ln e rd ra rb | insMin ln e rd ra rb | insMax ln e rd ra rb
      | insMinu ln e rd ra rb | insMaxu ln e rd ra rb | insMul ln e rd ra rb | insQadd ln e rd ra rb | insQsub ln e rd ra rb
      | insQmul ln e rd ra rb | insQdiv ln e rd ra rb | insQsat ln e rd ra rb | insQshl ln e rd ra rb | insQsrr ln e rd ra rb =>
    obtain ⟨hop, hd, ha, hb, hfn⟩ := Iff.mp (word_of_fn_iff rfl) h
    refine ⟨ln, e, ?_⟩
    simp (disch := decide) only [decodeEngineWord, hop, decodeInteger, decodeFixed, ewReg_eq hd, ewReg_eq ha, ewReg_eq hb,
      ewField_sub hfn]
    rfl
  case insSel ln e p rd ra rb => exact ⟨ln, e, decode_insSel h⟩
  case insClz ln e rd ra | insQabs ln e rd ra | insQneg ln e rd ra =>
    obtain ⟨hop, hd, ha, hlow⟩ := Iff.mp word_of_imm_iff h
    refine ⟨ln, e, ?_⟩
    simp (disch := decide) only [decodeEngineWord, hop, decodeInteger, decodeFixed, ewReg_eq hd, ewReg_eq ha, ewField_sub hlow]
    rfl
  case insJr ln e ra =>
    obtain ⟨hop, hd, ha, hlow⟩ := Iff.mp word_of_imm_iff h
    refine ⟨ln, e, ?_⟩
    simp (disch := decide) only [decodeEngineWord, hop, decodeInteger, hd, ewReg_eq ha, ewField_sub hlow]
    rfl
  case insEq ln e p ra rb | insNe ln e p ra rb | insLt ln e p ra rb | insLe ln e p ra rb | insLtu ln e p ra rb
      | insLeu ln e p ra rb | insLtw ln e p ra rb | insLew ln e p ra rb =>
    obtain ⟨hop, hd, ha, hb, hfn⟩ := Iff.mp (word_of_fn_iff rfl) h
    obtain ⟨hp, hd⟩ := ewPred_of_reg_field hd
    refine ⟨ln, e, ?_⟩
    simp (disch := decide) only [decodeEngineWord, hop, decodeCompare, hp, hd, ewReg_eq ha, ewReg_eq hb, ewField_sub hfn]
    rfl
  case insPand ln e p pa pb | insPor ln e p pa pb | insPxor ln e p pa pb =>
    obtain ⟨hop, hd, ha, hb, hfn⟩ := Iff.mp (word_of_fn_iff rfl) h
    obtain ⟨hp, hd⟩ := ewPred_of_reg_field hd
    obtain ⟨hpa, ha⟩ := ewPred_of_reg_field ha
    obtain ⟨hpb, hb⟩ := ewPred_of_reg_field hb
    refine ⟨ln, e, ?_⟩
    simp (disch := decide) only [decodeEngineWord, hop, decodeCompare, hp, hd, hpa, ha, hpb, hb, ewField_sub hfn]
    rfl
  case insPnot ln e p pa =>
    obtain ⟨hop, hd, ha, hlow⟩ := Iff.mp word_of_imm_iff h
    obtain ⟨hp, hd⟩ := ewPred_of_reg_field hd
    obtain ⟨hpa, ha⟩ := ewPred_of_reg_field ha
    refine ⟨ln, e, ?_⟩
    simp (disch := decide) only [decodeEngineWord, hop, decodeCompare, hp, hd, hpa, ha, ewField_sub hlow]
    rfl
  case insQmac ln e acc ra rb | insQmsu ln e acc ra rb | insAmul ln e acc ra rb | insAwr ln e acc ra rb =>
    have hflag := cond_le acc 64
    obtain ⟨hop, hd, ha, hb, hfn⟩ := Iff.mp (word_of_fn_iff (Nat.add_assoc (rb.val * 2048) _ _)) h
    refine ⟨ln, e, ?_⟩
    simp (disch := decide) only [decodeEngineWord, hop, decodeAccum, hd, ewReg_eq ha, ewReg_eq hb, ewField_sub hfn]
    cases acc <;> rfl
  case insAclr ln e acc =>
    have hflag := cond_le acc 64
    obtain ⟨hop, hd, ha, hlow⟩ := Iff.mp word_of_imm_iff h
    refine ⟨ln, e, ?_⟩
    simp (disch := decide) only [decodeEngineWord, hop, decodeAccum, hd, ha, ewField_sub hlow]
    cases acc <;> rfl
  case insAld ln e acc ra =>
    have hflag := cond_le acc 64
    obtain ⟨hop, hd, ha, hlow⟩ := Iff.mp word_of_imm_iff h
    refine ⟨ln, e, ?_⟩
    simp (disch := decide) only [decodeEngineWord, hop, decodeAccum, hd, ewReg_eq ha, ewField_sub hlow]
    cases acc <;> rfl
  case insArd ln e acc rd | insArh ln e acc rd | insArl ln e acc rd =>
    have hflag := cond_le acc 64
    obtain ⟨hop, hd, ha, hlow⟩ := Iff.mp word_of_imm_iff h
    refine ⟨ln, e, ?_⟩
    simp (disch := decide) only [decodeEngineWord, hop, decodeAccum, ewReg_eq hd, ha, ewField_sub hlow]
    cases acc <;> rfl
  case insCrot ln e rd ra rb =>
    obtain ⟨hop, hd, ha, hb, hfn⟩ := Iff.mp (word_of_fn_iff (Nat.add_zero (rb.val * 2048)).symm) h
    refine ⟨ln, e, ?_⟩
    simp only [decodeEngineWord, hop, decodeCordic, ewReg_eq hd, ewReg_eq ha, ewReg_eq hb, hfn]
    exact if_pos hok
  case insCatan ln e rd ra rb =>
    obtain ⟨hop, hd, ha, hb, hfn⟩ := Iff.mp (word_of_fn_iff rfl) h
    refine ⟨ln, e, ?_⟩
    simp only [decodeEngineWord, hop, decodeCordic, ewReg_eq hd, ewReg_eq ha, ewReg_eq hb, hfn]
    exact if_pos hok
  case insAddi ln e rd ra imm | insAndi ln e rd ra imm | insOri ln e rd ra imm | insXori ln e rd ra imm | insOrh ln e rd ra imm =>
    obtain ⟨hop, hd, ha, hlow⟩ := Iff.mp word_of_imm_iff h
    refine ⟨ln, e, ?_⟩
    simp only [decodeEngineWord, hop, ewReg_eq hd, ewReg_eq ha, setWidth_eq hlow]
  case insLdx ln e rd imm => exact ⟨ln, e, decode_insLdx h⟩
  case insCmpi ln e k p ra imm => exact ⟨ln, e, decode_insCmpi h⟩
  case insShi ln e rd ra k amount => exact ⟨ln, e, decode_insShi h⟩
  case insLd40 ln e rt ra disp | insSt40 ln e rt ra disp | insSt32 ln e rt ra disp =>
    obtain ⟨hop, hd, ha, hlow⟩ := Iff.mp word_of_imm_iff h
    obtain ⟨hzero, hdisp⟩ := flag_of_low_field (z := false) (hlow.trans (Nat.zero_add _).symm)
    refine ⟨ln, e, ?_⟩
    simp only [decodeEngineWord, hop, ewReg_eq hd, ewReg_eq ha, hzero, hdisp]
    rfl
  case insLd32 ln e z rt ra disp | insPin ln e z rt ra disp | insPout ln e z rt ra disp =>
    have hflag := cond_le z 4096
    obtain ⟨hop, hd, ha, hlow⟩ := Iff.mp word_of_imm_iff h
    obtain ⟨hz, hdisp⟩ := flag_of_low_field hlow
    refine ⟨ln, e, ?_⟩
    simp only [decodeEngineWord, hop, ewReg_eq hd, ewReg_eq ha, hz, hdisp]
    cases z <;> rfl
  case insBr ln e off =>
    obtain ⟨hop, hd, hlow⟩ := Iff.mp word_of_offset_iff h
    refine ⟨ln, e, ?_⟩
    simp only [decodeEngineWord, hop, hd, setWidth_eq hlow]
    rfl
  case insBp ln e p off | insBnp ln e p off =>
    obtain ⟨hop, hd, hlow⟩ := Iff.mp word_of_offset_iff h
    obtain ⟨hp, hd⟩ := ewPred_of_reg_field hd
    refine ⟨ln, e, ?_⟩
    simp only [decodeEngineWord, hop, hp, hd, setWidth_eq hlow]
    rfl
  case insJal ln e rd off =>
    obtain ⟨hop, hd, hlow⟩ := Iff.mp word_of_offset_iff h
    refine ⟨ln, e, ?_⟩
    simp only [decodeEngineWord, hop, ewReg_eq hd, setWidth_eq hlow]
  case insYield ln e | insDigest ln e | insCommit ln e | insSquash ln e =>
    obtain ⟨hop, hlow⟩ := Iff.mp word_of_arg_iff h
    refine ⟨ln, e, ?_⟩
    simp (disch := decide) only [decodeEngineWord, hop, decodeLeg, ewField_sub hlow]
    rfl
  case insHurdle ln e t => exact ⟨ln, e, decode_insHurdle h⟩
  case insSpawn ln e leg => exact ⟨ln, e, decode_insSpawn h⟩
  all_goals cases h

end

/-! ### From the word to its instruction and back (R172 to R187) -/

section
variable {w : Word} {ln : LaneId} {e : EngIx} {i : Instr} {op low fn : Nat}

/-- The word is that of the instruction, whose operands the encodings allow. -/
def Spells (w : Word) (i : Instr) : Prop := encodeEngineWord i = some w ∧ encodable i = true

/-- What a group decodes under a guard. -/
theorem spells_of_guard {p : Prop} [Decidable p] {j : Instr} (h : (if p then some j else none) = some i) (hj : p → Spells w j) :
    Spells w i := by
  obtain ⟨hp, ⟨⟩⟩ := Option.ite_none_right_eq_some.mp h
  exact hj hp

theorem word_of_regs_imm (hop : ewField w 31 26 = op) (hlow : ewField w 15 0 = low) :
    some (ewWord op (ewReg w 21).val (ewReg w 16).val low) = some w := by
  have hop64 : op < 64 := hop ▸ ewField_lt w 31 26
  have hlow16 : low < 2 ^ 16 := hlow ▸ ewField_lt w 15 0
  exact Iff.mpr word_of_imm_iff ⟨hop, (ewReg_val w 21).symm, (ewReg_val w 16).symm, hlow⟩

theorem word_of_regs_fn (hlow : low = (ewReg w 11).val * 2048 + fn) (hop : ewField w 31 26 = op) (hfn : ewField w 10 0 = fn) :
    some (ewWord op (ewReg w 21).val (ewReg w 16).val low) = some w := by
  refine word_of_regs_imm hop ?_
  rw [ewField_low_split, hlow, hfn, ewReg_val]

theorem spells_of_decodeInteger (hop : ewField w 31 26 = 0x01) (h : decodeInteger ln e w = some i) : Spells w i := by
  have hlow := ewField_low_split w
  have hfn : ewField w 10 0 = ewField w 10 6 * 64 + ewField w 5 0 := ewField_append w (by decide) (by decide)
  unfold decodeInteger at h
  dsimp only at h
  split at h
  case h_14 =>
    have hsel : ewField w 10 6 = ewField w 10 8 * 4 + ewField w (6 + 1) 6 := ewField_append w (by decide) (by decide)
    refine spells_of_guard h fun hzero => ⟨word_of_regs_fn (Nat.add_assoc _ _ _) hop ?_, rfl⟩
    rw [ewPred_val]
    omega
  case h_15 => exact spells_of_guard h fun ⟨hhi, hb⟩ => ⟨word_of_regs_imm hop (by omega), rfl⟩
  case h_16 =>
    exact spells_of_guard h fun ⟨hhi, hb, hd⟩ =>
      ⟨Iff.mpr word_of_imm_iff ⟨hop, hd, (ewReg_val w 16).symm, by omega⟩, rfl⟩
  case h_17 => cases h
  all_goals exact spells_of_guard h fun hhi => ⟨word_of_regs_fn rfl hop (by omega), rfl⟩

theorem spells_of_decodeFixed (hop : ewField w 31 26 = 0x02) (h : decodeFixed ln e w = some i) : Spells w i := by
  have hlow := ewField_low_split w
  have hfn : ewField w 10 0 = ewField w 10 6 * 64 + ewField w 5 0 := ewField_append w (by decide) (by decide)
  obtain ⟨hhi, h⟩ := Option.ite_none_left_eq_some.mp h
  split at h
  case h_6 | h_7 => exact spells_of_guard h fun hb => ⟨word_of_regs_imm hop (by omega), rfl⟩
  case h_10 => cases h
  all_goals
    obtain ⟨⟩ := h
    exact ⟨word_of_regs_fn rfl hop (by omega), rfl⟩

theorem spells_of_decodeCompare (hop : ewField w 31 26 = 0x03) (h : decodeCompare ln e w = some i) : Spells w i := by
  have hlow := ewField_low_split w
  have hfn : ewField w 10 0 = ewField w 10 4 * 16 + ewField w 3 0 := ewField_append w (by decide) (by decide)
  obtain ⟨hzero, h⟩ := Option.ite_none_left_eq_some.mp h
  obtain ⟨hd, hhi⟩ := not_or.mp hzero
  have hp := reg_field_of_ewPred (not_not.mp hd)
  simp only [Bool.and_eq_true, decide_eq_true_eq] at h
  split at h
  case h_9 | h_10 | h_11 =>
    exact spells_of_guard h fun ⟨ha, hb⟩ =>
      ⟨Iff.mpr (word_of_fn_iff rfl) ⟨hop, hp, reg_field_of_ewPred ha, reg_field_of_ewPred hb, by omega⟩, rfl⟩
  case h_12 =>
    exact spells_of_guard h fun ⟨⟨ha, _⟩, hb⟩ =>
      ⟨Iff.mpr word_of_imm_iff ⟨hop, hp, reg_field_of_ewPred ha, by omega⟩, rfl⟩
  case h_13 => cases h
  all_goals
    obtain ⟨⟩ := h
    exact ⟨Iff.mpr (word_of_fn_iff rfl) ⟨hop, hp, (ewReg_val w 16).symm, (ewReg_val w 11).symm, by omega⟩, rfl⟩

theorem spells_of_decodeAccum (hop : ewField w 31 26 = 0x04) (h : decodeAccum ln e w = some i) : Spells w i := by
  have hlow := ewField_low_split w
  have hfn : ewField w 10 0 = ewField w 10 7 * 128 + ewField w 6 0 := ewField_append w (by decide) (by decide)
  have hacc : ewField w 6 0 = ewField w 6 6 * 64 + ewField w 5 0 := ewField_append w (by decide) (by decide)
  have hflag := cond_decide_eq_one (Nat.le_of_lt_succ (ewField_lt w 6 6)) 64
  have hbit := ewField_lt w 6 6
  obtain ⟨hhi, h⟩ := Option.ite_none_left_eq_some.mp h
  simp only [Bool.and_eq_true, decide_eq_true_eq] at h
  split at h
  case h_4 => exact spells_of_guard h fun ⟨⟨hd, ha⟩, hb⟩ => ⟨Iff.mpr word_of_imm_iff ⟨hop, hd, ha, by omega⟩, rfl⟩
  case h_5 =>
    exact spells_of_guard h fun ⟨hd, hb⟩ => ⟨Iff.mpr word_of_imm_iff ⟨hop, hd, (ewReg_val w 16).symm, by omega⟩, rfl⟩
  case h_6 | h_7 | h_8 =>
    exact spells_of_guard h fun ⟨ha, hb⟩ => ⟨Iff.mpr word_of_imm_iff ⟨hop, (ewReg_val w 21).symm, ha, by omega⟩, rfl⟩
  case h_10 => cases h
  all_goals
    exact spells_of_guard h fun hd => ⟨Iff.mpr (word_of_fn_iff (Nat.add_assoc _ _ _))
      ⟨hop, hd, (ewReg_val w 16).symm, (ewReg_val w 11).symm, by omega⟩, rfl⟩

theorem spells_of_decodeCordic (hop : ewField w 31 26 = 0x05) (h : decodeCordic ln e w = some i) : Spells w i := by
  unfold decodeCordic at h
  dsimp only at h
  split at h
  case h_1 hfn => exact spells_of_guard h fun hpair => ⟨word_of_regs_fn (Nat.add_zero _).symm hop hfn, hpair⟩
  case h_2 hfn => exact spells_of_guard h fun hpair => ⟨word_of_regs_fn rfl hop hfn, hpair⟩
  case h_3 => cases h

theorem spells_of_decodeLeg (hop : ewField w 31 26 = 0x38) (h : decodeLeg ln e w = some i) : Spells w i := by
  have hlow : ewField w 25 0 = ewField w 25 22 * 0x400000 + ewField w 21 0 := ewField_append w (by decide) (by decide)
  unfold decodeLeg at h
  dsimp only at h
  split at h
  case h_1 hcode | h_4 hcode | h_5 hcode | h_6 hcode =>
    exact spells_of_guard h fun harg => ⟨Iff.mpr word_of_arg_iff ⟨hop, by rw [hlow, hcode, harg]⟩, rfl⟩
  case h_2 hcode | h_3 hcode =>
    refine spells_of_guard h fun hzero => ⟨Iff.mpr word_of_arg_iff ⟨hop, ?_⟩, rfl⟩
    rw [hlow, hcode, toNat_ofNat_ewField hzero (by decide)]
  case h_7 => cases h

theorem spells_insCmpi (hop : ewField w 31 26 = 0x16) :
    Spells w (.insCmpi ln e (Fin.ofNat 8 (ewField w 25 23)) (ewPred w 21) (ewReg w 16) (w.setWidth 16)) := by
  have hsplit : ewField w 25 21 = ewField w 25 23 * 4 + ewField w (21 + 1) 21 := ewField_append w (by decide) (by decide)
  have hcond : ewField w 25 23 % 8 = ewField w 25 23 := Nat.mod_eq_of_lt (ewField_lt w 25 23)
  refine ⟨Iff.mpr word_of_imm_iff ⟨hop, ?_, (ewReg_val w 16).symm, (toNat_setWidth_eq_ewField w 15).symm⟩, rfl⟩
  rw [Fin.val_ofNat, hcond, ewPred_val, hsplit]

theorem spells_insShi (hop : ewField w 31 26 = 0x17) (hzero : ewField w 15 8 = 0) (hkind : ewField w 7 6 ≠ 3) :
    Spells w (.insShi ln e (ewReg w 21) (ewReg w 16) (Fin.ofNat 3 (ewField w 7 6)) (w.setWidth 6)) := by
  have hlow : ewField w 7 0 = ewField w 7 6 * 64 + ewField w 5 0 := ewField_append w (by decide) (by decide)
  have hlt := ewField_lt w 7 6
  have hmod : ewField w 7 6 % 3 = ewField w 7 6 := Nat.mod_eq_of_lt (by omega)
  refine ⟨word_of_regs_imm hop ?_, rfl⟩
  rw [Fin.val_ofNat, hmod, toNat_setWidth_eq_ewField, ← hlow]
  exact ewField_of_upper_zero hzero (by decide) (by decide)

/-- A displacement below a flag (R181, R183). -/
theorem low_field_of_flag (h : ewField w 15 12 ≤ 1) :
    ewField w 15 0 = cond (decide (ewField w 15 12 = 1)) 4096 0 + (w.setWidth 12).toNat := by
  rw [cond_decide_eq_one h, toNat_setWidth_eq_ewField]
  exact ewField_append w (by decide) (by decide)

/-- A word that decodes has its fields from the operands that the decoder took. -/
theorem spells_of_decode (h : decodeEngineWord ln e w = some i) : Spells w i := by
  unfold decodeEngineWord at h
  dsimp only at h
  split at h
  case h_1 hop => exact spells_of_decodeInteger hop h
  case h_2 hop => exact spells_of_decodeFixed hop h
  case h_3 hop => exact spells_of_decodeCompare hop h
  case h_4 hop => exact spells_of_decodeAccum hop h
  case h_5 hop => exact spells_of_decodeCordic hop h
  case h_6 hop | h_7 hop | h_8 hop | h_9 hop | h_10 hop =>
    obtain ⟨⟩ := h
    exact ⟨word_of_regs_imm hop (toNat_setWidth_eq_ewField w 15).symm, rfl⟩
  case h_11 hop =>
    refine spells_of_guard h fun hzero => ⟨Iff.mpr word_of_offset_iff ⟨hop, (ewReg_val w 21).symm, ?_⟩, rfl⟩
    rw [toNat_setWidth_eq_ewField]
    exact ewField_of_upper_zero hzero (by decide) (by decide)
  case h_12 hop =>
    obtain ⟨⟩ := h
    exact spells_insCmpi hop
  case h_13 hop => exact spells_of_guard h fun ⟨hzero, hkind⟩ => spells_insShi hop hzero hkind
  case h_14 hop | h_15 hop | h_17 hop =>
    refine spells_of_guard h fun hzero => ⟨word_of_regs_imm hop ?_, rfl⟩
    rw [toNat_setWidth_eq_ewField]
    exact ewField_of_upper_zero hzero (by decide) (by decide)
  case h_16 hop | h_18 hop | h_19 hop =>
    exact spells_of_guard h fun hflag => ⟨word_of_regs_imm hop (low_field_of_flag hflag), rfl⟩
  case h_20 hop =>
    exact spells_of_guard h fun hd => ⟨Iff.mpr word_of_offset_iff ⟨hop, hd, (toNat_setWidth_eq_ewField w 20).symm⟩, rfl⟩
  case h_21 hop | h_22 hop =>
    exact spells_of_guard h fun hd =>
      ⟨Iff.mpr word_of_offset_iff ⟨hop, reg_field_of_ewPred hd, (toNat_setWidth_eq_ewField w 20).symm⟩, rfl⟩
  case h_23 hop =>
    obtain ⟨⟩ := h
    exact ⟨Iff.mpr word_of_offset_iff ⟨hop, (ewReg_val w 21).symm, (toNat_setWidth_eq_ewField w 20).symm⟩, rfl⟩
  case h_24 hop => exact spells_of_decodeLeg hop h
  case h_25 => cases h

end

/-- Settles O60: encoder and decoder agree on the fields of each form of a word. -/
theorem engineWordsRoundTrip : Obligations.EngineWordsRoundTrip :=
  ⟨fun _ _ hok h => decode_of_encode hok h, fun _ _ _ _ h => spells_of_decode h⟩

end Sys2Proof.Machine

/-! PROOFS. The engine instructions that work on the engine's own registers (R168, R174 to R180): what a write of a register
changes, saturated and counted results, and what each instruction gives. -/

namespace Sys2Proof.Machine

/-! ### Registers, predicates and accumulators (R168) -/

section
variable (x : Engine)

/-- A register write reaches the general registers alone. -/
theorem Engine.setReg_eq_words (r : Reg) (v : W40) : x.setReg r v = { x with w := (x.setReg r v).w } := by
  unfold Engine.setReg
  split <;> rfl

/-- The words of the general registers; 0 is held by the absence of a word. -/
theorem Engine.word_setReg {r : Reg} (hr : r.val ≠ 0) (v : W40) (k : Nat) :
    (tabGet (x.setReg r v).w k).getD 0 = if k = r.val then v else (tabGet x.w k).getD 0 := by
  rw [Engine.setReg, if_neg hr]
  split
  case isTrue hv =>
    rw [tabGet_tabDel, hv]
    split <;> rfl
  case isFalse =>
    rw [tabGet_tabPut]
    split <;> rfl

theorem Engine.reg_setReg_same (r : Reg) (v : W40) : (x.setReg r v).reg r = if r.val = 0 then 0 else v := by
  unfold Engine.reg
  split
  case isTrue => rfl
  case isFalse hr => rw [x.word_setReg hr, if_pos rfl]

theorem Engine.reg_setReg_ne {r q : Reg} (v : W40) (h : q ≠ r) : (x.setReg r v).reg q = x.reg q := by
  by_cases hr : r.val = 0
  · rw [Engine.setReg, if_pos hr]
  · rw [Engine.reg, Engine.reg, x.word_setReg hr, if_neg (Fin.val_ne_of_ne h)]

/-- A bit cleared and then set to a value. -/
theorem getLsbD_setBit (w : BitVec 4) (p q : Pred) (b : Bool) :
    ((w &&& ~~~(1#4 <<< p.val)) ||| (if b then 1#4 <<< p.val else 0)).getLsbD q.val = if q = p then b else w.getLsbD q.val := by
  have hbit : (1#4 <<< p.val).getLsbD q.val = decide (q = p) := by
    revert p q
    decide
  have hq : q.val < 4 := q.isLt
  cases b
  all_goals
    simp only [Bool.false_eq_true, if_false, if_true, BitVec.ofNat_eq_ofNat, BitVec.getLsbD_or, BitVec.getLsbD_and,
      BitVec.getLsbD_not, BitVec.getLsbD_zero, hbit, hq]
    by_cases h : q = p <;> simp [h]

theorem Engine.pred_setPred (p q : Pred) (b : Bool) : (x.setPred p b).pred q = if q = p then b else x.pred q :=
  getLsbD_setBit x.p p q b

end

/-- Settles O42: each write reaches one field of the engine, and in it one register. -/
theorem engineRegisterFrame : Obligations.EngineRegisterFrame := by
  refine ⟨?register, ?predicate, ?accumulator⟩
  case register =>
    intro x r v
    refine ⟨x.reg_setReg_same r v, fun q h => x.reg_setReg_ne v h, ?_⟩
    rw [x.setReg_eq_words r v]
    exact ⟨rfl, rfl, rfl, rfl, rfl, rfl, rfl⟩
  case predicate =>
    intro x p b
    refine ⟨(x.pred_setPred p p b).trans (if_pos rfl), fun q h => (x.pred_setPred p q b).trans (if_neg h), ?_⟩
    exact ⟨fun _ => rfl, rfl, rfl, rfl, rfl⟩
  case accumulator =>
    intro x k v
    cases k
    all_goals exact ⟨rfl, rfl, fun _ => rfl, rfl, rfl, rfl⟩

/-! ### Saturated and counted results (R176, R178) -/

theorem clampInt_eq_max_min {lo hi : Int} (h : lo ≤ hi) (v : Int) : clampInt lo hi v = max lo (min hi v) := by
  unfold clampInt
  split
  · omega
  · split <;> omega

/-- A saturation is counted where the value lies outside the two limits. -/
theorem Engine.count_eq (x : Engine) {p : Prop} [Decidable p] {hit : Bool} (h : hit = !decide p) :
    x.count hit = { x with sat := if p then x.sat else min (x.sat + 1) 0xFFFF } := by
  subst h
  by_cases hp : p <;> simp [Engine.count, hp]

theorem satQ_eq (v : Int) : satQ v = max (-2 ^ 39) (min (2 ^ 39 - 1) v) := clampInt_eq_max_min (by decide) v

theorem sat80_eq (v : Int) : sat80 v = max (-2 ^ 79) (min (2 ^ 79 - 1) v) := clampInt_eq_max_min (by decide) v

theorem satHit_eq (v : Int) : satHit v = !decide (-2 ^ 39 ≤ v ∧ v ≤ 2 ^ 39 - 1) := by
  simp only [satHit, qMin, qMax, Bool.decide_and, Bool.not_and, ← decide_not, Int.not_le]
  rfl

theorem sat80Hit_eq (v : Int) : sat80Hit v = !decide (-2 ^ 79 ≤ v ∧ v ≤ 2 ^ 79 - 1) := by
  simp only [sat80Hit, Bool.decide_and, Bool.not_and, ← decide_not, Int.not_le]

theorem Engine.setQ_eq (x : Engine) (rd : Reg) (v : Int) :
    x.setQ rd v = { x.setReg rd (qw (max (-2 ^ 39) (min (2 ^ 39 - 1) v))) with
      sat := if -2 ^ 39 ≤ v ∧ v ≤ 2 ^ 39 - 1 then x.sat else min (x.sat + 1) 0xFFFF } := by
  rw [Engine.setQ, Engine.count_eq _ (satHit_eq v), satQ_eq, Engine.setReg_eq_words]

theorem Engine.setSat80_eq (x : Engine) (k : Bool) (v : Int) :
    x.setSat80 k v = { x.setAcc k (BitVec.ofInt 80 (max (-2 ^ 79) (min (2 ^ 79 - 1) v))) with
      sat := if -2 ^ 79 ≤ v ∧ v ≤ 2 ^ 79 - 1 then x.sat else min (x.sat + 1) 0xFFFF } := by
  rw [Engine.setSat80, Engine.count_eq _ (sat80Hit_eq v), sat80_eq]
  cases k <;> rfl

/-! ### What each instruction gives (R174 to R180) -/

section
variable {i : Instr} {s : State} {ln : LaneId} {c : Ctx} {l : Lane} {e : EngIx} {d : LegDesc} {x : Engine}

/-- An instruction on the engine's own registers goes on to the next word. -/
theorem executed_of_regOp {f : Engine → Engine} {y : Engine} (h : Here s ln c l) (hx : Executes c l e d) (he : x = l.eng e.val)
    (hi : exec i s = regOp ln e f s) (hf : f x = y) : Executed i s ln l e y.next := by
  subst he hf
  exact gives_of_regOp f h hx hi

/-- An instruction that sets the program counter itself. -/
theorem executed_of_jumpOp {f : Engine → Engine} {y : Engine} (h : Here s ln c l) (hx : Executes c l e d) (he : x = l.eng e.val)
    (hi : exec i s = jumpOp ln e f s) (hf : f x = y) : Executed i s ln l e y := by
  subst he hf
  exact gives_of_onAlive_eq (fun c l => l.issue c e.val fun _ x => l.setEng e.val (f x)) h hi (Lane.issue_of_executes _ hx)

end

/-- Settles O43: the results that saturate and count are those of `Engine.setQ`. -/
theorem engineFixedPointResults : Obligations.EngineFixedPointResults := by
  refine ⟨?counted, ?uncounted⟩
  case counted =>
    intro s ln c l e d x rd ra rb k h hx he
    refine ⟨?qadd, ?qsub, ?qmul, ?qabs, ?qneg, ?qshl, ?ard⟩
    all_goals exact executed_of_regOp h hx he rfl (x.setQ_eq rd _)
  case uncounted =>
    intro s ln c l e d x rd ra rb h hx he
    refine ⟨?qsat, ?qsrr, ?qdiv⟩
    all_goals exact executed_of_regOp h hx he rfl rfl

/-- Settles O44: the two that saturate and count are those of `Engine.setSat80`. -/
theorem engineAccumulatorResults : Obligations.EngineAccumulatorResults := by
  intro s ln c l e d x rd ra rb k h hx he
  refine ⟨?qmac, ?qmsu, ?amul, ?aclr, ?ald, ?arh, ?arl, ?awr⟩
  case qmac | qmsu => exact executed_of_regOp h hx he rfl (x.setSat80_eq k _)
  all_goals exact executed_of_regOp h hx he rfl rfl

/-- Settles O41: each instruction is its function of the engine's registers, and JR sets the program counter. -/
theorem engineIntegerResults : Obligations.EngineIntegerResults := by
  refine ⟨?threeRegisters, ?selected, ?immediate, ?shifted⟩
  case threeRegisters =>
    intro s ln c l e d x rd ra rb h hx he
    refine ⟨?add, ?sub, ?and, ?or, ?xor, ?sll, ?srl, ?sra, ?min, ?max, ?minu, ?maxu, ?mul⟩
    all_goals exact executed_of_regOp h hx he rfl rfl
  case selected =>
    intro s ln c l e d x p rd ra rb h hx he
    exact ⟨executed_of_regOp h hx he rfl rfl, executed_of_regOp h hx he rfl rfl, executed_of_jumpOp h hx he rfl rfl⟩
  case immediate =>
    intro s ln c l e d x rd ra imm low h hx he
    refine ⟨?addi, ?andi, ?ori, ?xori, ?orh, ?ldx⟩
    all_goals exact executed_of_regOp h hx he rfl rfl
  case shifted =>
    intro s ln c l e d x rd ra amount h hx he
    refine ⟨?left, ?logical, ?arithmetic⟩
    all_goals exact executed_of_regOp h hx he rfl rfl

/-- Settles O45: a compare writes one predicate, a branch the program counter. -/
theorem engineCompareAndBranch : Obligations.EngineCompareAndBranch := by
  refine ⟨?compared, ?combined, ?branched⟩
  case compared =>
    intro s ln c l e d x p ra rb h hx he
    refine ⟨?eq, ?ne, ?lt, ?le, ?ltu, ?leu, ?ltw, ?lew⟩
    all_goals exact executed_of_regOp h hx he rfl rfl
  case combined =>
    intro s ln c l e d x k p pa pb ra imm h hx he
    refine ⟨?cmpi, ?pand, ?por, ?pxor, ?pnot⟩
    all_goals exact executed_of_regOp h hx he rfl rfl
  case branched =>
    intro s ln c l e d x p rd off h hx he
    refine ⟨?br, ?bp, ?bnp, ?jal⟩
    all_goals exact executed_of_jumpOp h hx he rfl rfl

end Sys2Proof.Machine

/-! PROOFS. A motor channel enabled while its gates still switch after a loss of synchronism (R220, R221, R226, R241), which refutes
the statement on motor channels and power stages. -/

namespace Sys2Proof.Machine

section
variable {c : Ctx} {l : Lane} {ch : Nat}

/-- A power stage in CATCH that no request asks to cut or disable switches its gates until the compare-load instant that a loss of
synchronism set for them (R226). -/
theorem Lane.sto_switches_before_gatesTil (hother : l.wantsOther c ch = false) (hcatch : l.mcState ch = mcCatch)
    (hgate : (l.mc ch).gateFrom = none) (htil : c.now < (l.mc ch).gatesTil) :
    (l.sto c ch).bit (R.PS_STATUS_switching ch) = true := by
  have hcut : l.wantsCut ch = false := (Bool.or_eq_false_iff.mp hother).1
  have hlogic : l.wantsLogic c ch = false := by
    simp [Lane.wantsLogic, hother, hcatch, htil, mcOff, mcCatch, mcPulse]
  simp [Lane.sto_of_not_cut hcut, Lane.stoPaths, hlogic, hcatch, hgate, Lane.bit_putB_true]

/-- The enable of a channel stands above the other fields of its status. -/
theorem Lane.get_put_enabled (v : Nat) (f : Fld) (hf : f.lo ≤ f.hi) (hbelow : f.hi < 11) :
    (l.put (R.MC_STATUS_enabled ch) v).get f = l.get f :=
  Lane.get_put_below _ _ _ _ (Nat.le_refl 11) (by decide : 11 < 32) hf hbelow

/-- The enable of a channel in OFF that has no lock leads to CATCH (R220). -/
theorem channelEnableL_of_off_unlocked {ch : Fin 2} (hmay : l.mayEnable c = true) (hdisabled : l.bit (R.MC_STATUS_enabled ch.val) = false)
    (hoff : l.mcState ch.val = mcOff) (hunlocked : l.bit (R.MC_STATUS_locked ch.val) = false) :
    channelEnableL c ch true l = (l.put (R.MC_STATUS_enabled ch.val) 1).toCatch c ch.val := by
  have hstate : (l.put (R.MC_STATUS_enabled ch.val) 1).mcState ch.val = mcOff :=
    (Lane.get_put_enabled 1 (R.MC_STATUS_state ch.val) (Nat.zero_le 2) (by decide : 2 < 11)).trans hoff
  have hlocked : (l.put (R.MC_STATUS_enabled ch.val) 1).bit (R.MC_STATUS_locked ch.val) = false := by
    rw [← hunlocked, Lane.bit, Lane.bit, Lane.get_put_enabled 1 (R.MC_STATUS_locked ch.val) (Nat.le_refl 7) (by decide : 7 < 11)]
  simp [channelEnableL, Lane.enable, Lane.lockLong, hmay, hdisabled, hstate, hlocked]

end

/-- Lane A after reset as the active lane with the drive permit, its motor channel 0 enabled and in RUN. -/
def runningLane : Lane :=
  (((State.reset.laneA.setRole roleActive).put R.BK_STATUS_permit 1).put (R.MC_STATUS_enabled 0) 1).mcSet 0 mcRun

/-- That channel after a loss of synchronism and the removal of its enable, both within the 450 ns to the compare load of the sample
that detected the loss. -/
def disabledAfterLoss : State :=
  State.reset.setLane .a ((runningLane.lossOfSync (State.reset.ctx .a) 0 1).disable (State.reset.ctx .a) 0)

theorem here_disabledAfterLoss_a : Here disabledAfterLoss .a (disabledAfterLoss.ctx .a) disabledAfterLoss.laneA :=
  ⟨rfl, rfl, by decide +kernel, rfl⟩

theorem disabledAfterLoss_mayEnable : disabledAfterLoss.laneA.mayEnable (disabledAfterLoss.ctx .a) = true := by decide +kernel

theorem disabledAfterLoss_disabled : disabledAfterLoss.laneA.bit (R.MC_STATUS_enabled 0) = false := by decide +kernel

theorem disabledAfterLoss_off : disabledAfterLoss.laneA.mcState 0 = mcOff := by decide +kernel

theorem disabledAfterLoss_unlocked : disabledAfterLoss.laneA.bit (R.MC_STATUS_locked 0) = false := by decide +kernel

/-- An enable that comes back before that instant lets the gates switch again. -/
theorem disabledAfterLoss_enabled_switches :
    (channelEnableL (disabledAfterLoss.ctx .a) 0 true disabledAfterLoss.laneA).bit (R.PS_STATUS_switching 0) = true := by
  rw [channelEnableL_of_off_unlocked (ch := 0) disabledAfterLoss_mayEnable disabledAfterLoss_disabled disabledAfterLoss_off
    disabledAfterLoss_unlocked]
  exact Lane.sto_switches_before_gatesTil (by decide +kernel) (by decide +kernel) (by decide +kernel) (by decide +kernel)

/-- Refutes O50: its fourth clause has a channel that CHANNEL_ENABLE leads from OFF to CATCH not switch, but until the compare-load
instant of a loss of synchronism CATCH does not assert the logic-disable path (R226, as the model's wantsLogic has it), so channel 0 of
lane A in `disabledAfterLoss` switches. -/
theorem not_motorAndStageCommandsComplete : ¬ Obligations.MotorAndStageCommandsComplete := by
  rintro ⟨-, -, -, henable, -⟩
  obtain ⟨m, hstated, -, -, -, hstill, -⟩ := henable disabledAfterLoss .a _ _ 0 here_disabledAfterLoss_a (by decide)
    disabledAfterLoss_mayEnable disabledAfterLoss_disabled disabledAfterLoss_off disabledAfterLoss_unlocked
  have hactual : Gives (.channelEnable .a 0 true) disabledAfterLoss .a
      (channelEnableL (disabledAfterLoss.ctx .a) 0 true disabledAfterLoss.laneA) :=
    gives_of_onAlive_eq (fun c l => if (0 : Fin 2).val < motorCount c.part.member then channelEnableL c 0 true l else l)
      here_disabledAfterLoss_a rfl (if_pos (by decide))
  have hswitch := disabledAfterLoss_enabled_switches
  rw [Gives.unique hactual hstated] at hswitch
  exact Bool.false_ne_true (hstill.symm.trans hswitch)

end Sys2Proof.Machine

/-! PROOFS. The test requests of a power stage (R241, R249, R250, R448): where PSn_CTRL takes a 1, and what the stage then leaves
alone. -/

namespace Sys2Proof.Machine

/-! ### A field put leaves the other bits of its register (R16) -/

/-- A bit of a word is the field of that bit alone. -/
theorem getLsbD_eq_fldOf (w : Word) (a i : Nat) : w.getLsbD i = decide (fldOf ⟨a, i, i⟩ w = 1) := by
  simp [fldOf, BitVec.getLsbD, Nat.testBit_eq_decide_div_mod_eq]

theorem getLsbD_fldPut_out (f : Fld) (w : Word) (v i : Nat) (h : f.lo ≤ f.hi) (h32 : f.hi < 32) (hi : i < f.lo ∨ f.hi < i) :
    (fldPut f w v).getLsbD i = w.getLsbD i := by
  rw [getLsbD_eq_fldOf _ 0, getLsbD_eq_fldOf _ 0]
  obtain hbelow | habove := hi
  · rw [fldOf_fldPut_below f ⟨0, i, i⟩ w v h h32 (Nat.le_refl i) hbelow]
  · rw [fldOf_fldPut_above f ⟨0, i, i⟩ w v h h32 habove]

theorem Lane.sameField_put (l : Lane) (f : Fld) (v : Nat) (h : f.lo ≤ f.hi) (h32 : f.hi < 32) : SameField l (l.put f v) f := by
  intro i _ hi
  rw [Lane.put, Lane.rd_wr_same, getLsbD_fldPut_out f _ v i h h32 hi]

/-- A lane whose register reads as after a one-bit field was set there has the bit set and the register's other bits as before. -/
theorem bit_and_sameField_of_rd_put {l m : Lane} {f : Fld} (h : f.lo = f.hi) (h32 : f.hi < 32)
    (hrd : m.rd f.addr = (l.put f 1).rd f.addr) : m.bit f = true ∧ SameField l m f := by
  constructor
  · rw [← Lane.bit_putB_true l f h h32, Lane.bit, Lane.bit, Lane.get, hrd]
    rfl
  · intro i hi hout
    rw [hrd]
    exact l.sameField_put f 1 h.le h32 i hi hout

/-! ### What the operations on a power stage leave alone (R239, R241) -/

/-- The registers in which a power stage and its motor channel show what they do. -/
def stageRegs (ch : Nat) : List Nat := [R.PS_STATUS ch, R.PS_FLAGS ch, R.PS_FAULT ch, R.MC_STATUS ch, R.MC_FLAGS ch]

/-- PSn_CTRL of no channel is among them. -/
theorem ctrl_not_mem_stageRegs (ch k : Nat) : R.PS_CTRL k ∉ stageRegs ch := by
  simp [stageRegs, R.PS_CTRL, R.PS_STATUS, R.PS_FLAGS, R.PS_FAULT, R.MC_STATUS, R.MC_FLAGS]
  omega

/-- Neither are the registers of FC, whose unit stands below every power stage. -/
theorem low_not_mem_stageRegs {a : Nat} (ch : Nat) (h : a < 0x40020000) : a ∉ stageRegs ch := by
  simp [stageRegs, R.PS_STATUS, R.PS_FLAGS, R.PS_FAULT, R.MC_STATUS, R.MC_FLAGS]
  omega

/-- Of what the requests of R241 rest on, an operation on the stage of channel `ch` has changed nothing. -/
structure StageOnly (ch : Nat) (l m : Lane) : Prop where
  regs : SameRegs l m (stageRegs ch)
  baton : m.baton = l.baton
  opens : ∀ k, (m.mc k).heldOpen = (l.mc k).heldOpen ∧ (m.mc k).testOpen = (l.mc k).testOpen

section
variable {c : Ctx} {ch : Nat} {l m n : Lane}

theorem StageOnly.refl (ch : Nat) (l : Lane) : StageOnly ch l l := ⟨fun _ _ => rfl, rfl, fun _ => ⟨rfl, rfl⟩⟩

theorem StageOnly.trans (hlm : StageOnly ch l m) (hmn : StageOnly ch m n) : StageOnly ch l n where
  regs a ha := (hmn.regs a ha).trans (hlm.regs a ha)
  baton := hmn.baton.trans hlm.baton
  opens k := ⟨(hmn.opens k).1.trans (hlm.opens k).1, (hmn.opens k).2.trans (hlm.opens k).2⟩

/-- A motor channel of a lane in which one was replaced. -/
theorem Lane.mc_setMc (l : Lane) (ch k : Nat) (x : Motor) : (l.setMc ch x).mc k = if k = 0 ↔ ch = 0 then x else l.mc k := by
  unfold Lane.mc Lane.setMc
  split <;> split <;> simp_all

theorem stageOnly_put {f : Fld} {v : Nat} (hf : f.addr ∈ stageRegs ch) : StageOnly ch l (l.put f v) where
  regs a ha := l.rd_put_ne f a v fun h => ha (h ▸ hf)
  baton := rfl
  opens _ := ⟨rfl, rfl⟩

theorem stageOnly_flag {f : Fld} (hf : f.addr ∈ stageRegs ch) : StageOnly ch l (l.flag f) where
  regs a ha := (l.rd_flag f a).trans ((stageOnly_put hf).regs a ha)
  baton := l.flag_baton f
  opens k := by simp [Lane.mc]

theorem stageOnly_setMc {x : Motor} (hheld : x.heldOpen = (l.mc ch).heldOpen) (htest : x.testOpen = (l.mc ch).testOpen) :
    StageOnly ch l (l.setMc ch x) where
  regs a _ := l.rd_setMc ch a x
  baton := l.setMc_baton ch x
  opens k := by
    rw [Lane.mc_setMc]
    split
    next hsame => simp [hheld, htest, Lane.mc, hsame]
    next => exact ⟨rfl, rfl⟩

theorem stageOnly_mcSet (l : Lane) (ch st : Nat) : StageOnly ch l (l.mcSet ch st) := by
  unfold Lane.mcSet
  split
  · exact .refl ch l
  · exact (stageOnly_put (by simp [stageRegs])).trans (stageOnly_flag (by simp [stageRegs]))

theorem stageOnly_ascOff (l : Lane) (ch : Nat) : StageOnly ch l (l.ascOff ch) :=
  (stageOnly_put (by simp [stageRegs])).trans (stageOnly_put (by simp [stageRegs]))

theorem stageOnly_noteBridge (c : Ctx) (l : Lane) (ch : Nat) : StageOnly ch l (l.noteBridge c ch) := stageOnly_setMc rfl rfl

theorem stageOnly_stoPaths (c : Ctx) (l : Lane) (ch : Nat) : StageOnly ch l (l.stoPaths c ch) := by
  have shown (y : Lane) (f : Fld) (b : Bool) (hf : f.addr = R.PS_STATUS ch) : StageOnly ch y (y.putB f b) :=
    stageOnly_put (by simp [stageRegs, hf])
  have cut (y : Lane) (b : Bool) : StageOnly ch y (if b then y.ascOff ch else y) := by
    cases b
    · exact .refl ch y
    · exact stageOnly_ascOff y ch
  unfold Lane.stoPaths
  dsimp only
  refine .trans (.trans (.trans (.trans (shown _ _ _ ?_) (shown _ _ _ ?_)) (cut _ _)) (shown _ _ _ ?_))
    (stageOnly_noteBridge c _ ch) <;> rfl

/-- A power stage that follows its requests changes none of them. -/
theorem stageOnly_sto (c : Ctx) (l : Lane) (ch : Nat) : StageOnly ch l (l.sto c ch) := by
  have hpaths := stageOnly_stoPaths c l ch
  unfold Lane.sto
  dsimp only
  split
  · refine .trans (.trans (.trans hpaths (stageOnly_setMc ?_ ?_)) (stageOnly_mcSet _ ch _)) (stageOnly_stoPaths c _ ch) <;> rfl
  · exact hpaths

/-- An active short circuit that has its supply and that no request cuts (R248). -/
theorem stageOnly_ascEnter {high : Bool} (hpowered : l.ascPowered ch high = true) (hcut : l.wantsCut ch = false) :
    StageOnly ch l (l.ascEnter c ch high) := by
  have keepsFault (y : Lane) : StageOnly ch y (if y.mcState ch = mcFault then y else y.mcSet ch mcAsc) := by
    split
    · exact .refl ch y
    · exact stageOnly_mcSet y ch mcAsc
  simp only [Lane.ascEnter, hpowered, hcut, Bool.not_false, Bool.and_self, if_true]
  refine .trans (.trans (.trans (.trans (stageOnly_setMc ?held ?test) (stageOnly_put ?status)) (stageOnly_flag ?flags)) (keepsFault _))
    (stageOnly_sto c _ ch)
  case held => rfl
  case test => rfl
  case status => simp [stageRegs]
  case flags => simp [stageRegs]

theorem StageOnly.rd_ctrl (h : StageOnly ch l m) (k : Nat) : m.rd (R.PS_CTRL k) = l.rd (R.PS_CTRL k) :=
  h.regs _ (ctrl_not_mem_stageRegs ch k)

/-- The requests that assert both paths of a channel are the same in lanes that agree on what they rest on (R241). -/
theorem Lane.wantsCut_congr {k : Nat} (hlow : ∀ f : Fld, f.addr < 0x40020000 → m.get f = l.get f) (hbaton : m.baton = l.baton)
    (hheld : (m.mc k).heldOpen = (l.mc k).heldOpen) (htest : (m.mc k).testOpen = (l.mc k).testOpen)
    (hreq : (m.bit (R.PS_CTRL_sto_req k) && !m.bit (R.PS_CTRL_asc_test k)) =
      (l.bit (R.PS_CTRL_sto_req k) && !l.bit (R.PS_CTRL_asc_test k))) : m.wantsCut k = l.wantsCut k := by
  have hinhibited : m.bit R.FC_STATUS_inhibited = l.bit R.FC_STATUS_inhibited := by
    rw [Lane.bit, Lane.bit, hlow _ (by decide)]
  have hsafe : m.safeOpen k = l.safeOpen k := by
    simp only [Lane.safeOpen, Lane.bit, hlow R.FC_MODE_mode (by decide), hlow R.FC_PROFILE_CFG_mc0_asc (by decide),
      hlow R.FC_PROFILE_CFG_mc1_asc (by decide)]
  simp only [Lane.wantsCut, hinhibited, hbaton, hsafe, hheld, htest, hreq]

theorem StageOnly.wantsCut (h : StageOnly ch l m) (k : Nat) : m.wantsCut k = l.wantsCut k := by
  have hreq (f : Fld) (hf : f.addr = R.PS_CTRL k) : m.bit f = l.bit f := by
    rw [Lane.bit, Lane.bit, Lane.get, Lane.get, hf, h.rd_ctrl]
  obtain ⟨hheld, htest⟩ := h.opens k
  refine Lane.wantsCut_congr (fun f hf => ?_) h.baton hheld htest ?_
  · exact congrArg (fldOf f) (h.regs f.addr (low_not_mem_stageRegs ch hf))
  · rw [hreq _ rfl, hreq _ rfl]

/-- While asc_test is 1, sto_req asks for nothing (R249). -/
theorem Lane.wantsCut_put_sto_req (htest : l.bit (R.PS_CTRL_asc_test ch) = true) (v k : Nat) :
    (l.put (R.PS_CTRL_sto_req ch) v).wantsCut k = l.wantsCut k := by
  have hother (f : Fld) (hf : f.addr ≠ R.PS_CTRL ch) : (l.put (R.PS_CTRL_sto_req ch) v).get f = l.get f :=
    l.get_put_addr _ f v hf
  refine Lane.wantsCut_congr (fun f hf => hother f (by unfold R.PS_CTRL; omega)) rfl rfl rfl ?_
  by_cases hk : k = ch
  · have htest' : (l.put (R.PS_CTRL_sto_req ch) v).bit (R.PS_CTRL_asc_test ch) = true := by
      rw [← htest, Lane.bit, Lane.bit, Lane.get_put_above _ _ _ _ (Nat.le_refl 0) (by decide : 0 < 32) (by decide : 0 < 1)]
    simp [hk, htest, htest']
  · have haddr : R.PS_CTRL k ≠ R.PS_CTRL ch := by unfold R.PS_CTRL; omega
    simp only [Lane.bit, hother (R.PS_CTRL_sto_req k) haddr, hother (R.PS_CTRL_asc_test k) haddr]

end

/-! ### Writes of a 1 to PSn_CTRL (R250) -/

/-- A register write at a motor channel or power stage that the member has is done. -/
theorem gives_of_writeMotor {i : Instr} {s : State} {ln : LaneId} {c : Ctx} {l m : Lane} {ch : Fin 2} (f : Ctx → Lane → Lane)
    (h : Here s ln c l) (hch : ch.val < motorCount c.part.member) (hi : exec i s = writeMotor ln ch f s) (hf : f c l = m) :
    Gives i s ln { m with bus := .done } :=
  gives_of_onAlive_eq
    (fun c l => if ch.val < motorCount c.part.member then { f c l with bus := .done } else { l with bus := .error })
    h hi ((if_pos hch).trans (hf ▸ rfl))

section
variable {c : Ctx} {l : Lane} {ch : Fin 2} {v : Word}

/-- A lane that is active, not parked or halted for a sleep vote does not take a test request. -/
theorem not_takes_request (h : l.active = true ∨ l.parked = false ∨ l.unitsHalt = true) :
    ¬(l.active = false ∧ l.parked = true ∧ l.unitsHalt = false) := by
  rintro ⟨hactive, hparked, hhalt⟩
  simp [hactive, hparked, hhalt] at h

theorem ascTestWriteL_of_refused (hv : v.getLsbD 1 = true) (h : l.active = true ∨ l.parked = false ∨ l.unitsHalt = true) :
    ascTestWriteL c ch v l = l := by
  rw [ascTestWriteL, if_pos hv, if_neg (not_takes_request h)]

theorem stoReqWriteL_of_refused (hv : v.getLsbD 0 = true) (h : l.active = true ∨ l.parked = false ∨ l.unitsHalt = true) :
    stoReqWriteL c ch v l = l := by
  rw [stoReqWriteL, if_pos hv, if_neg (not_takes_request h)]

theorem stoReqWriteL_of_taken (hv : v.getLsbD 0 = true) (hactive : l.active = false) (hparked : l.parked = true)
    (hhalt : l.unitsHalt = false) : stoReqWriteL c ch v l = (l.put (R.PS_CTRL_sto_req ch.val) 1).sto c ch.val := by
  rw [stoReqWriteL, if_pos hv, if_pos ⟨hactive, hparked, hhalt⟩]

/-- A test that is taken sets asc_test and no other bit of PSn_CTRL, where it is on already, where the set is shorted, and where it is
held open for want of its supply (R248). -/
theorem ascTestWriteL_taken_spec (hv : v.getLsbD 1 = true) (hactive : l.active = false) (hparked : l.parked = true)
    (hhalt : l.unitsHalt = false) :
    (ascTestWriteL c ch v l).bit (R.PS_CTRL_asc_test ch.val) = true ∧
      SameField l (ascTestWriteL c ch v l) (R.PS_CTRL_asc_test ch.val) := by
  rw [ascTestWriteL, if_pos hv, if_pos ⟨hactive, hparked, hhalt⟩]
  split
  next hon => exact ⟨hon, fun _ _ _ => rfl⟩
  next =>
    refine bit_and_sameField_of_rd_put rfl (by decide : 1 < 32) ?_
    dsimp only
    split
    next henter =>
      obtain ⟨hpowered, hcut⟩ := Bool.and_eq_true_iff.mp henter
      exact (stageOnly_ascEnter hpowered (by simpa using hcut)).rd_ctrl ch.val
    next =>
      rw [(stageOnly_sto c _ ch.val).rd_ctrl, Lane.rd_setMc, (stageOnly_flag (ch := ch.val) (by simp [stageRegs])).rd_ctrl]

end

/-- Settles O51: a write that is refused (R250; while the units halt, R448) leaves its lane, and one that is taken sets its bit, after
which the stage follows its requests and changes none of them (`StageOnly`). -/
theorem testRequestsNeedParkedStandby : Obligations.TestRequestsNeedParkedStandby := by
  refine ⟨?ascRefused, ?stoRefused, ?ascTaken, ?stoTaken⟩
  case ascRefused =>
    intro s ln c l ch v h hch hv hnot
    exact gives_of_writeMotor (fun c l => ascTestWriteL c ch v l) h hch rfl (ascTestWriteL_of_refused hv hnot)
  case stoRefused =>
    intro s ln c l ch v h hch hv hnot
    exact gives_of_writeMotor (fun c l => stoReqWriteL c ch v l) h hch rfl (stoReqWriteL_of_refused hv hnot)
  case ascTaken =>
    intro s ln c l ch v h hch hv hactive hparked hhalt
    exact ⟨_, gives_of_writeMotor (fun c l => ascTestWriteL c ch v l) h hch rfl rfl,
      ascTestWriteL_taken_spec hv hactive hparked hhalt⟩
  case stoTaken =>
    intro s ln c l ch v h hch hv hactive hparked hhalt
    have hsto := stageOnly_sto c (l.put (R.PS_CTRL_sto_req ch.val) 1) ch.val
    obtain ⟨hbit, hsame⟩ := bit_and_sameField_of_rd_put (f := R.PS_CTRL_sto_req ch.val) rfl (by decide : 0 < 32) (hsto.rd_ctrl ch.val)
    exact ⟨_, gives_of_writeMotor (fun c l => stoReqWriteL c ch v l) h hch rfl (stoReqWriteL_of_taken hv hactive hparked hhalt),
      hbit, hsame, fun htest k _ => (hsto.wantsCut k).trans (Lane.wantsCut_put_sto_req htest 1 k)⟩

end Sys2Proof.Machine

/-! PROOFS. The point of no return of a sleep vote, and the save of the retention store (R318, R426, R451). -/

namespace Sys2Proof.Machine

/-! ### What a field reads after an update (R16) -/

/-- A field reads the same in lanes with the same registers. -/
theorem Lane.get_of_regs_eq {l m : Lane} (h : m.regs = l.regs) (f : Fld) : m.get f = l.get f :=
  congrArg (fun b => fldOf f (bankGet b f.addr)) h

theorem Lane.get_wr_ne (l : Lane) (f : Fld) (a : Nat) (w : Word) (h : f.addr ≠ a) : (l.wr a w).get f = l.get f :=
  congrArg (fldOf f) (l.rd_wr_ne a f.addr w h)

/-- The registers after a flag was set and then a field are those after the two fields were put. -/
theorem Lane.rd_put_flag (l : Lane) (f g : Fld) (v a : Nat) : ((l.flag f).put g v).rd a = ((l.put f 1).put g v).rd a := by
  simp only [Lane.put, Lane.rd_wr, Lane.rd_flag]

theorem Lane.stagesOff_regs (l : Lane) (which : BitVec 32) : (l.stagesOff which).regs = l.regs := rfl

section
variable {c : Ctx} {l : Lane}

/-! ### Motor channels lose their enable (R220) -/

/-- A channel that loses its enable changes none of the requests on its power stage. -/
theorem stageOnly_disable (c : Ctx) (l : Lane) (ch : Nat) : StageOnly ch l (l.disable c ch) := by
  have toOff (y : Lane) : StageOnly ch y (if y.mcState ch = mcFault ∨ y.bit (R.PS_STATUS_asc ch) then y else y.mcSet ch mcOff) := by
    split
    · exact .refl ch y
    · exact stageOnly_mcSet y ch mcOff
  unfold Lane.disable
  dsimp only
  refine .trans (.trans (.trans (stageOnly_put ?enabled) (stageOnly_setMc ?held ?test)) (toOff _)) (stageOnly_sto c _ ch)
  case enabled => simp [stageRegs]
  case held => rfl
  case test => rfl

/-- The units above the power stages keep their registers. -/
theorem Lane.rd_disableAll (c : Ctx) (l : Lane) {a : Nat} (ha : 0x40030000 ≤ a) : (l.disableAll c).rd a = l.rd a := by
  have hout (ch : Nat) (hch : ch < 2) : a ∉ stageRegs ch := by
    simp [stageRegs, R.PS_STATUS, R.PS_FLAGS, R.PS_FAULT, R.MC_STATUS, R.MC_FLAGS]
    omega
  have hrd (y : Lane) (ch : Nat) (hch : ch < 2) : (y.disable c ch).rd a = y.rd a := (stageOnly_disable c y ch).regs a (hout ch hch)
  unfold Lane.disableAll
  split
  · rw [hrd _ 1 (by decide), hrd _ 0 (by decide)]
  · exact hrd l 0 (by decide)

/-! ### The node goes to OFF (R388) -/

/-- A node that leaves another state shows OFF, is no master and follows no pacer. -/
theorem Lane.rd_nxGo_off_of_on (hon : l.nxState ≠ nxOff) (a : Nat) :
    (l.nxGo c nxOff).rd a = ((((l.put R.NX_STATUS_state nxOff).put R.NX_STATUS_master 0).put R.NX_FLAGS_state_change 1).put
      R.NX_STATUS_followed 0).rd a := by
  have hactive : nxOff ≠ nxActive := by decide
  have hpassive : nxOff ≠ nxPassive := by decide
  rw [← Lane.rd_put_flag]
  simp only [Lane.nxGo, hon, hactive, hpassive, ne_eq, not_true_eq_false, and_false, or_true, if_true, if_false]
  rfl

theorem Lane.nxGo_off_of_off (hoff : l.nxState = nxOff) : l.nxGo c nxOff = l := by
  simp [Lane.nxGo, hoff]

theorem Lane.nxState_nxGo_off (c : Ctx) (l : Lane) : (l.nxGo c nxOff).nxState = nxOff := by
  by_cases hoff : l.nxState = nxOff
  · rw [Lane.nxGo_off_of_off hoff, hoff]
  · rw [Lane.nxState, Lane.get, Lane.rd_nxGo_off_of_on hoff]
    change Lane.get _ R.NX_STATUS_state = _
    rw [Lane.get_put_below _ _ _ _ (by decide) (by decide) (by decide) (by decide), Lane.get_put_addr _ _ _ _ (by decide),
      Lane.get_put_below _ _ _ _ (by decide) (by decide) (by decide) (by decide), Lane.get_put_same _ _ _ (by decide) (by decide)]
    rfl

theorem Lane.rd_nxGo_off (c : Ctx) (l : Lane) {a : Nat} (hstatus : a ≠ R.NX_STATUS) (hflags : a ≠ R.NX_FLAGS) :
    (l.nxGo c nxOff).rd a = l.rd a := by
  by_cases hoff : l.nxState = nxOff
  · rw [Lane.nxGo_off_of_off hoff]
  · rw [Lane.rd_nxGo_off_of_on hoff, Lane.rd_put_ne _ _ _ _ hstatus, Lane.rd_put_ne _ _ _ _ hflags, Lane.rd_put_ne _ _ _ _ hstatus,
      Lane.rd_put_ne _ _ _ _ hstatus]

/-! ### The action timers are disarmed (R426) -/

/-- The timers of a list disarmed. -/
def Lane.disarm (l : Lane) (ts : List Nat) : Lane := ts.foldl (fun y t => y.put (R.TMt_CFG_armed t) 0) l

theorem Lane.disarm_cons (l : Lane) (t : Nat) (ts : List Nat) : l.disarm (t :: ts) = (l.put (R.TMt_CFG_armed t) 0).disarm ts := by
  simp only [Lane.disarm, List.foldl_cons]

theorem Lane.get_armed_disarm (l : Lane) (ts : List Nat) (t : Nat) :
    (l.disarm ts).get (R.TMt_CFG_armed t) = if t ∈ ts then 0 else l.get (R.TMt_CFG_armed t) := by
  induction ts generalizing l with
  | nil => simp [Lane.disarm]
  | cons x ts ih =>
    have hput : (l.put (R.TMt_CFG_armed x) 0).get (R.TMt_CFG_armed t) = if t = x then 0 else l.get (R.TMt_CFG_armed t) := by
      split
      next heq => rw [heq, Lane.get_put_same _ _ _ (Nat.le_refl 31) (by decide : 31 < 32)]; rfl
      next hne => exact Lane.get_put_addr _ _ _ _ (by simp only [R.TMt_CFG]; omega)
    rw [Lane.disarm_cons, ih, hput]
    by_cases hx : t = x <;> simp [hx]

theorem Lane.rd_disarm (l : Lane) (ts : List Nat) {a : Nat} (ha : ∀ t, a ≠ R.TMt_CFG t) : (l.disarm ts).rd a = l.rd a := by
  induction ts generalizing l with
  | nil => rfl
  | cons x ts ih => rw [Lane.disarm_cons, ih, Lane.rd_put_ne _ _ _ _ (ha x)]

/-! ### The point of no return (R451) -/

/-- What the power unit notes at the point of no return: its state, the wake sources that are armed, and the entry that it counts. -/
def Lane.noteEntry (c : Ctx) (l : Lane) : Lane :=
  let en := (l.get R.PW_REQ_wake_en) % 16 / 2 * 2 + 17
  let delay := (l.rd R.PW_REQ_DELAY).toNat
  let l1 := (((l.setPw 4).flag R.PW_FLAGS_entered).wr R.PW_WAKE_EN (BitVec.ofNat 32 en)).putB R.PW_STATUS_listener l.active
  let l2 := (l1.put R.PW_RET_STAT_entries (l1.get R.PW_RET_STAT_entries + 1)).wr R.PW_WAKE_CAUSE 0
  if delay = 0 then l2 else l2.putU R.PW_WAKE_AT (l.aonNow c + delay * 32768)

/-- The sensor supplies and test pulses go off. -/
def Lane.sensorsOff (l : Lane) : Lane := ((l.put (R.SI_SUP_on 0) 0).put (R.SI_SUP_on 1) 0).put R.SI_TP_STAT_pulsing 0

/-- The entry is noted, and the node, the motor channels and the timers stop. -/
def Lane.unitsStopped (c : Ctx) (l : Lane) : Lane := (((l.noteEntry c).nxGo c nxOff).disableAll c).disarm (List.range 64)

/-- After that only the sensor supplies and test pulses go off among what registers show. -/
theorem Lane.regs_ponr (c : Ctx) (l : Lane) : (l.ponr c).regs = ((l.unitsStopped c).stagesOff 0xFFFFF0FF).sensorsOff.regs := by
  unfold Lane.ponr Lane.unitsStopped Lane.noteEntry Lane.disarm Lane.sensorsOff
  rfl

theorem Lane.stageOn_ponr (c : Ctx) (l : Lane) : (l.ponr c).stageOn = (l.unitsStopped c).stageOn &&& ~~~0xFFFFF0FF := by
  unfold Lane.ponr Lane.unitsStopped Lane.noteEntry Lane.disarm
  rfl

theorem Lane.pwState_setPw (l : Lane) (st : Nat) (h : st < 8) : (l.setPw st).pwState = st := by
  unfold Lane.setPw
  split
  next heq => exact heq
  next =>
    rw [Lane.pwState, Lane.get_flag, Lane.get_put_addr _ _ _ _ (by decide), Lane.get_put_same _ _ _ (by decide) (by decide)]
    exact Nat.mod_eq_of_lt h

theorem Lane.pwState_noteEntry (c : Ctx) (l : Lane) : (l.noteEntry c).pwState = 4 := by
  have hdelay (y : Lane) (v : Nat) : (y.putU R.PW_WAKE_AT v).pwState = y.pwState := by
    rw [Lane.pwState, Lane.putU, Lane.get_wr_ne _ _ _ _ (by decide), Lane.get_wr_ne _ _ _ _ (by decide), Lane.pwState]
  have hnoted (y : Lane) (en : Word) (b : Bool) (k : Nat) :
      (((((y.flag R.PW_FLAGS_entered).wr R.PW_WAKE_EN en).putB R.PW_STATUS_listener b).put R.PW_RET_STAT_entries k).wr
        R.PW_WAKE_CAUSE 0).pwState = y.pwState := by
    rw [Lane.pwState, Lane.get_wr_ne _ _ _ _ (by decide), Lane.get_put_addr _ _ _ _ (by decide), Lane.putB,
      Lane.get_put_below _ _ _ _ (by decide) (by decide) (by decide) (by decide), Lane.get_wr_ne _ _ _ _ (by decide), Lane.get_flag,
      Lane.get_put_addr _ _ _ _ (by decide), Lane.pwState]
  unfold Lane.noteEntry
  dsimp only
  split
  · rw [hnoted, Lane.pwState_setPw l 4 (by decide)]
  · rw [hdelay, hnoted, Lane.pwState_setPw l 4 (by decide)]

/-- A field of any other register stands as that stop left it. -/
theorem Lane.get_ponr {f : Fld} (h0 : f.addr ≠ R.SI_SUP 0) (h1 : f.addr ≠ R.SI_SUP 1) (htp : f.addr ≠ R.SI_TP_STAT) :
    (l.ponr c).get f = (l.unitsStopped c).get f := by
  rw [Lane.get_of_regs_eq (l.regs_ponr c), Lane.sensorsOff, Lane.get_put_addr _ _ _ _ htp, Lane.get_put_addr _ _ _ _ h1,
    Lane.get_put_addr _ _ _ _ h0]
  exact Lane.get_of_regs_eq (Lane.stagesOff_regs _ _) f

theorem Lane.pwState_ponr (c : Ctx) (l : Lane) : (l.ponr c).pwState = 4 := by
  have hstopped : (l.unitsStopped c).rd R.PW_STATUS = (l.noteEntry c).rd R.PW_STATUS := by
    rw [Lane.unitsStopped, Lane.rd_disarm _ _ (fun t => by unfold R.PW_STATUS R.TMt_CFG; omega), Lane.rd_disableAll _ _ (by decide),
      Lane.rd_nxGo_off _ _ (by decide) (by decide)]
  have hget : (l.unitsStopped c).get R.PW_STATUS_state = (l.noteEntry c).pwState := congrArg (fldOf R.PW_STATUS_state) hstopped
  rw [Lane.pwState, Lane.get_ponr (by decide) (by decide) (by decide), hget, Lane.pwState_noteEntry]

theorem Lane.nxState_ponr (c : Ctx) (l : Lane) : (l.ponr c).nxState = nxOff := by
  have hstopped : (l.unitsStopped c).rd R.NX_STATUS = ((l.noteEntry c).nxGo c nxOff).rd R.NX_STATUS := by
    rw [Lane.unitsStopped, Lane.rd_disarm _ _ (fun t => by unfold R.NX_STATUS R.TMt_CFG; omega), Lane.rd_disableAll _ _ (by decide)]
  have hget : (l.unitsStopped c).get R.NX_STATUS_state = ((l.noteEntry c).nxGo c nxOff).nxState :=
    congrArg (fldOf R.NX_STATUS_state) hstopped
  rw [Lane.nxState, Lane.get_ponr (by decide) (by decide) (by decide), hget, Lane.nxState_nxGo_off]

theorem Lane.bit_armed_ponr (c : Ctx) (l : Lane) (t : Fin 64) : (l.ponr c).bit (R.TMt_CFG_armed t.val) = false := by
  have hget : (l.ponr c).get (R.TMt_CFG_armed t.val) = 0 := by
    rw [Lane.get_ponr (by simp only [R.TMt_CFG, R.SI_SUP]; omega) (by simp only [R.TMt_CFG, R.SI_SUP]; omega)
        (by simp only [R.TMt_CFG, R.SI_TP_STAT]; omega),
      Lane.unitsStopped, Lane.get_armed_disarm, if_pos (List.mem_range.mpr t.isLt)]
  rw [Lane.bit, hget]
  rfl

theorem Lane.get_sup_on_ponr (c : Ctx) (l : Lane) : (l.ponr c).get (R.SI_SUP_on 0) = 0 ∧ (l.ponr c).get (R.SI_SUP_on 1) = 0 := by
  rw [Lane.get_of_regs_eq (l.regs_ponr c), Lane.get_of_regs_eq (l.regs_ponr c), Lane.sensorsOff]
  constructor
  · rw [Lane.get_put_addr _ _ _ _ (by decide), Lane.get_put_addr _ _ _ _ (by decide), Lane.get_put_same _ _ _ (by decide) (by decide)]
    rfl
  · rw [Lane.get_put_addr _ _ _ _ (by decide), Lane.get_put_same _ _ _ (by decide) (by decide)]
    rfl

/-- Of the stages only stepper drivers stay on (R318). -/
theorem Lane.stageOn_ponr_and (c : Ctx) (l : Lane) : (l.ponr c).stageOn &&& 0xFFFFF0FF = 0 := by
  have hmask : ~~~(0xFFFFF0FF : BitVec 32) &&& 0xFFFFF0FF = 0 := by decide
  rw [Lane.stageOn_ponr, BitVec.and_assoc, hmask]
  exact BitVec.and_zero

/-- A vote that no other fit lane takes part in passes at its first NIT (R450). -/
theorem powerVoteNitL_of_alone (others : List (LaneId × Word)) {v : Vote} (hvote : l.pw.vote = some v) (hready : v.refused = false)
    (hfit : l.get R.LM_ROLE_fit_lanes = v.fit) (hvoting : l.pwState = 2)
    (halone : (othersOf c).filter (fun x => maskHas v.fit x) = []) : powerVoteNitL c others l = l.ponr c := by
  simp [powerVoteNitL, hvote, hready, hfit, hvoting, halone]

/-! ### The save (R459) -/

/-- The save switches every stage off and keeps the banks, and touches neither registers nor memory. -/
theorem retentionSaveL_of_due {t : Nat} (hponr : l.pw.ponrAt = some t) (hentering : l.pwState = 4) (hunsaved : l.pw.saved = false)
    (hdue : t + 20000000 ≤ c.now) :
    retentionSaveL c l = { l.stagesOff 0xFFFFFFFF with pw := { l.pw with saved := true, banks := l.savedBanks c } } := by
  rw [retentionSaveL, hponr]
  exact if_pos ⟨hentering, hunsaved, hdue⟩

end

/-- Settles O33: each output of the point of no return from the lemma on it, above, and the save, which writes no register. -/
theorem sleepDrivesNothing : Obligations.SleepDrivesNothing := by
  refine ⟨?vote, ?save⟩
  case vote =>
    intro s ln c l others v h hvote hready hfit hvoting halone
    refine ⟨_, gives_of_onAlive_eq (fun c l => powerVoteNitL c others l) h rfl
      (powerVoteNitL_of_alone others hvote hready hfit hvoting halone), ?_⟩
    obtain ⟨hsup0, hsup1⟩ := l.get_sup_on_ponr c
    exact ⟨l.stageOn_ponr_and c, rfl, l.pwState_ponr c, l.nxState_ponr c, rfl, rfl, rfl, hsup0, hsup1, l.bit_armed_ponr c⟩
  case save =>
    intro s ln c l t h hpowered hponr hentering hunsaved hdue hlines
    refine ⟨_, gives_of_onLane_eq (fun c l => if l.powered then retentionSaveL c l else l) h rfl
      ((if_pos hpowered).trans (retentionSaveL_of_due hponr hentering hunsaved hdue)), ?quiet, rfl, rfl, fun _ _ => rfl, fun _ => rfl⟩
    case quiet => simp [Lane.quiet, Lane.stagesOff, hlines]

end Sys2Proof.Machine

/-! PROOFS. What the stepper channels do (R303, R310): a target that comes while a stop by dec is pending. -/

namespace Sys2Proof.Machine

/-! ### A pair of registers (R18) -/

/-- A 40-bit value is its upper byte and its lower word. -/
theorem upperByte_append_lowerWord (v : Nat) :
    (((BitVec.ofNat 40 v).extractLsb' 32 8).setWidth 32).setWidth 8 ++ BitVec.ofNat 32 v = BitVec.ofNat 40 v := by
  rw [BitVec.setWidth_setWidth_of_le _ (by decide), BitVec.setWidth_eq, ← BitVec.setWidth_ofNat_of_le (by decide : 32 ≤ 40),
    BitVec.setWidth_eq_extractLsb' (by decide), BitVec.extractLsb'_append_extractLsb'_eq_extractLsb' (by decide)]
  exact BitVec.extractLsb'_eq_self

theorem Lane.pair_putU_same (l : Lane) (a v : Nat) : (l.putU a v).pair a = BitVec.ofNat 40 v := by
  rw [Lane.pair, Lane.putU, Lane.rd_wr_same, Lane.rd_wr_ne _ _ _ _ (by omega), Lane.rd_wr_same, upperByte_append_lowerWord]

/-- A pair reads as before where both of its registers do. -/
theorem Lane.pair_congr {l m : Lane} {a : Nat} (hlo : m.rd a = l.rd a) (hhi : m.rd (a + 4) = l.rd (a + 4)) : m.pair a = l.pair a := by
  rw [Lane.pair, hlo, hhi, Lane.pair]

theorem Lane.pair_putU_ne (l : Lane) (a k v : Nat) (h : k + 4 < a ∨ a + 4 < k) : (l.putU a v).pair k = l.pair k := by
  have hrd (j : Nat) (hj : j < a ∨ a + 4 < j) : (l.putU a v).rd j = l.rd j := by
    rw [Lane.putU, Lane.rd_wr_ne _ _ _ _ (by omega), Lane.rd_wr_ne _ _ _ _ (by omega)]
  exact Lane.pair_congr (hrd k (by omega)) (hrd (k + 4) (by omega))

theorem Lane.pair_put_ne (l : Lane) (f : Fld) (k v : Nat) (hlo : k ≠ f.addr) (hhi : k + 4 ≠ f.addr) : (l.put f v).pair k = l.pair k :=
  Lane.pair_congr (l.rd_put_ne f k v hlo) (l.rd_put_ne f (k + 4) v hhi)

/-! ### A target at rest (R303) -/

section
variable {c : Ctx} {l : Lane} {n : Nat}

/-- The end of a stop by dec makes the position the target (R310). -/
theorem Lane.pair_stopped_target (l : Lane) (n : Nat) : (l.stopped n).pair (R.SPn_TARGET n) = l.pair (R.SPn_POS n) := by
  have hne : R.SPn_TARGET n ≠ R.SPn_STATUS n ∧ R.SPn_TARGET n + 4 ≠ R.SPn_STATUS n := by
    unfold R.SPn_TARGET R.SPn_STATUS
    omega
  rw [Lane.stopped, Lane.pair_put_ne _ _ _ _ hne.1 hne.2, Lane.pair_putU_same, BitVec.ofNat_toNat, BitVec.setWidth_eq]
  rfl

/-- A target written leaves the position. -/
theorem Lane.pair_pos_putU_target (l : Lane) (n v : Nat) : (l.putU (R.SPn_TARGET n) v).pair (R.SPn_POS n) = l.pair (R.SPn_POS n) := by
  refine l.pair_putU_ne _ _ v (.inl ?_)
  unfold R.SPn_TARGET R.SPn_POS
  omega

/-- At rest a target that is taken runs the generator; where a stop by dec is still marked as pending, the run ends it, and the
position stands as the target in the place of the one that was written. -/
theorem Lane.pair_target_takeTarget_of_stop_pending {target : W40} (hreq : l.bit (R.SPn_STATUS_homing_required n) = false)
    (hhoming : l.homing n = false) (hlimit : l.beyondLimit n target = false) (hhalt : l.unitsHalt = false)
    (hv : (l.stepper n).v = 0) (hat : (l.stepper n).stepAt = none) (hbraking : (l.stepper n).braking = true) :
    (l.takeTarget c n target).pair (R.SPn_TARGET n) = l.pair (R.SPn_POS n) := by
  have hrun : l.takeTarget c n target = (l.putU (R.SPn_TARGET n) target.toNat).runProfile c n := by
    rw [Lane.takeTarget, if_neg (by simp [hreq, hhoming, hlimit, hhalt])]
    exact if_pos ⟨hv, hat⟩
  have hstop : (l.putU (R.SPn_TARGET n) target.toNat).runProfile c n = (l.putU (R.SPn_TARGET n) target.toNat).stopped n :=
    if_pos ⟨hv, hbraking⟩
  rw [hrun, hstop, Lane.pair_stopped_target, Lane.pair_pos_putU_target]

/-- The same of TARGET_WRITE in the firmware role of the active lane, whatever target it writes. -/
theorem pair_target_targetWriteL_of_stop_pending {n : Fin 4} {v lo : Word} (hfitted : n.val < stepperCount c.part.member)
    (hlo : lo = (tabGet l.staging (R.SPn_TARGET n.val)).getD (l.rd (R.SPn_TARGET n.val))) (hactive : l.active = true)
    (hrole : l.spRole n.val = 3) (hreq : l.bit (R.SPn_STATUS_homing_required n.val) = false) (hhoming : l.homing n.val = false)
    (hlimit : l.beyondLimit n.val (v.setWidth 8 ++ lo) = false) (hhalt : l.unitsHalt = false)
    (hv : (l.stepper n.val).v = 0) (hat : (l.stepper n.val).stepAt = none) (hbraking : (l.stepper n.val).braking = true) :
    (targetWriteL c n v l).pair (R.SPn_TARGET n.val) = l.pair (R.SPn_POS n.val) := by
  have htaken : targetWriteL c n v l =
      { l with staging := tabDel l.staging (R.SPn_TARGET n.val), bus := .done }.takeTarget c n.val (v.setWidth 8 ++ lo) := by
    rw [targetWriteL, if_neg (by omega), hactive, hrole, ← hlo]
    exact if_pos rfl
  rw [htaken]
  exact Lane.pair_target_takeTarget_of_stop_pending hreq hhoming hlimit hhalt hv hat hbraking

end

/-- The module after reset with lane A active and its stepper channel 0 in the firmware role, with its homing not required and at rest
at position 0, where the stop by dec of a failed homing (R310) is still marked as pending. -/
def stopPending : State :=
  let l := ((State.reset.laneA.setRole roleActive).put (R.SPn_CFG_role 0) 3).put (R.SPn_STATUS_homing_required 0) 0
  State.reset.setLane .a (l.setStepper 0 { l.stepper 0 with braking := true })

theorem here_stopPending_a : Here stopPending .a (stopPending.ctx .a) stopPending.laneA :=
  ⟨rfl, rfl, by decide +kernel, rfl⟩

theorem stopPending_active : stopPending.laneA.active = true := by decide +kernel

theorem stopPending_firmware : stopPending.laneA.spRole (0 : Fin 4).val = 3 := by decide +kernel

theorem stopPending_homed : stopPending.laneA.bit (R.SPn_STATUS_homing_required (0 : Fin 4).val) = false := by decide +kernel

theorem stopPending_not_homing : stopPending.laneA.homing (0 : Fin 4).val = false := by decide +kernel

/-- No limit is in the way of the target that a write of 1 to SP0_TARGET_HI makes. -/
theorem stopPending_no_limit :
    stopPending.laneA.beyondLimit (0 : Fin 4).val ((1 : Word).setWidth 8 ++ (0 : Word)) = false := by decide +kernel

/-- Refutes O53: its fourth clause has TARGET_WRITE take the target that is written, but does not ask, as its first clause does, that no
stop by dec is pending; at rest the generator's run at that write ends such a stop with the position as the target (R310, as the model's
runProfile has it), so in `stopPending` a write of 1 to SP0_TARGET_HI leaves the target of channel 0 at 0. -/
theorem not_stepperCommandsComplete : ¬ Obligations.StepperCommandsComplete := by
  rintro ⟨-, -, -, htarget, -⟩
  have hfitted : (0 : Fin 4).val < stepperCount (stopPending.ctx .a).part.member := by decide
  have hlo : (0 : Word) = (tabGet stopPending.laneA.staging (R.SPn_TARGET (0 : Fin 4).val)).getD
    (stopPending.laneA.rd (R.SPn_TARGET (0 : Fin 4).val)) := by decide +kernel
  obtain ⟨m, hstated, hwritten, -⟩ := htarget stopPending .a _ _ 0 1 0 here_stopPending_a hfitted hlo stopPending_active
    stopPending_firmware stopPending_homed stopPending_not_homing stopPending_no_limit rfl
  have hactual : Gives (.targetWrite .a 0 1) stopPending .a (targetWriteL (stopPending.ctx .a) 0 1 stopPending.laneA) :=
    gives_of_onAlive (fun c l => targetWriteL c 0 1 l) here_stopPending_a rfl
  have hkept := pair_target_targetWriteL_of_stop_pending (c := stopPending.ctx .a) hfitted hlo stopPending_active stopPending_firmware
    stopPending_homed stopPending_not_homing stopPending_no_limit rfl (by decide +kernel) (by decide +kernel) (by decide +kernel)
  rw [← Gives.unique hstated hactual, hwritten] at hkept
  exact absurd hkept (by decide +kernel)

end Sys2Proof.Machine

/-! PROOFS. What an operation on the sensor and output units changes: the registers it may touch, and the fields and bits that it puts. -/

namespace Sys2Proof.Machine

/-! ### A bit of a mask -/

/-- A mask with a bit put is the part of it above that bit, the bit, and the part below. -/
theorem bitPut_eq (m i : Nat) (b : Bool) : bitPut m i b = 2 ^ i * (m / 2 ^ i / 2 * 2 + b.toNat) + m % 2 ^ i := by
  have hsplit := Nat.div_add_mod m (2 ^ i)
  have hhalf := Nat.div_add_mod (m / 2 ^ i) 2
  have hmul (x y : Nat) : 2 ^ i * (x * 2 + y) = 2 ^ i * (x * 2) + 2 ^ i * y := Nat.mul_add _ _ _
  unfold bitPut
  rw [Nat.testBit_eq_decide_div_mod_eq, hmul]
  obtain heven | hodd := Nat.mod_two_eq_zero_or_one (m / 2 ^ i)
  · rw [← hhalf, heven, Nat.add_zero, Nat.mul_comm 2] at hsplit
    cases b <;> simp [heven] <;> omega
  · rw [← hhalf, hodd, Nat.mul_comm 2, hmul] at hsplit
    cases b <;> simp [hodd] <;> omega

theorem testBit_bitPut (m i j : Nat) (b : Bool) : Nat.testBit (bitPut m i b) j = if j = i then b else Nat.testBit m j := by
  have hm : Nat.testBit m j = Nat.testBit (2 ^ i * (m / 2 ^ i) + m % 2 ^ i) j := by rw [Nat.div_add_mod]
  have hlow : m % 2 ^ i < 2 ^ i := Nat.mod_lt _ (Nat.two_pow_pos i)
  rw [hm, bitPut_eq, Nat.testBit_two_pow_mul_add _ hlow, Nat.testBit_two_pow_mul_add _ hlow]
  obtain hbelow | rfl | habove := Nat.lt_trichotomy j i
  · simp [hbelow, hbelow.ne]
  · cases b <;> simp [Nat.testBit_zero]
  · obtain ⟨k, hk⟩ : ∃ k, j - i = k + 1 := ⟨j - i - 1, by omega⟩
    have hhalf : (m / 2 ^ i / 2 * 2 + b.toNat) / 2 = m / 2 ^ i / 2 := by
      have := b.toNat_lt
      omega
    rw [if_neg (by omega), if_neg (by omega), if_neg (by omega), hk, Nat.testBit_add_one, Nat.testBit_add_one, hhalf]

/-! ### Fields read after an update (R16) -/

section
variable {l m : Lane}

theorem Lane.bit_of_get {f : Fld} (h : m.get f = l.get f) : m.bit f = l.bit f := by rw [Lane.bit, h, Lane.bit]

/-- A field that shares no bit with the one put reads as before. -/
theorem Lane.get_put_apart {f g : Fld} (v : Nat) (h : f.lo ≤ f.hi) (h32 : f.hi < 32)
    (hapart : g.addr ≠ f.addr ∨ f.hi < g.lo ∨ (g.lo ≤ g.hi ∧ g.hi < f.lo)) : (l.put f v).get g = l.get g := by
  obtain haddr | habove | ⟨hg, hbelow⟩ := hapart
  · exact l.get_put_addr f g v haddr
  · exact l.get_put_above f g v h h32 habove
  · exact l.get_put_below f g v h h32 hg hbelow

theorem Lane.bit_put_one (l : Lane) (f : Fld) (h : f.lo = f.hi) (h32 : f.hi < 32) : (l.put f 1).bit f = true :=
  l.bit_putB_true f h h32

theorem Lane.bit_put_zero (l : Lane) (f : Fld) (h : f.lo ≤ f.hi) (h32 : f.hi < 32) : (l.put f 0).bit f = false := by
  simp [Lane.bit, l.get_put_same f 0 h h32]

theorem Lane.bit_putB (l : Lane) (f : Fld) (b : Bool) (h : f.lo = f.hi) (h32 : f.hi < 32) : (l.putB f b).bit f = b := by
  cases b
  · exact l.bit_put_zero f h.le h32
  · exact l.bit_putB_true f h h32

/-- A bit put into a mask that a field holds. -/
theorem Lane.testBit_put_bitPut (l : Lane) {f : Fld} (h : f.lo ≤ f.hi) (h32 : f.hi < 32) {i : Nat} (hi : i < f.hi - f.lo + 1) (j : Nat)
    (b : Bool) : Nat.testBit ((l.put f (bitPut (l.get f) i b)).get f) j = if j = i then b else Nat.testBit (l.get f) j := by
  rw [l.get_put_same f _ h h32, Nat.testBit_mod_two_pow, testBit_bitPut]
  by_cases hj : j < f.hi - f.lo + 1
  · simp [hj]
  · have hout : Nat.testBit (l.get f) j = false :=
      Nat.testBit_lt_two_pow ((fldOf_lt f _).trans_le (Nat.pow_le_pow_right (by decide) (by omega)))
    have hne : j ≠ i := by omega
    simp [hj, hne, hout]

/-- A flag that is set stays set when hardware sets another one (R114). -/
theorem Lane.bit_flag_of_bit {f g : Fld} (hf : f.lo = f.hi) (h32 : f.hi < 32) (hg : g.lo = g.hi) (hset : l.bit g = true) :
    (l.flag f).bit g = true := by
  by_cases hsame : g.addr = f.addr ∧ g.lo = f.lo
  · have heq : g = f := by cases f; cases g; simp_all
    rw [heq]
    exact l.bit_flag_same f hf h32
  · have hapart : g.addr ≠ f.addr ∨ f.hi < g.lo ∨ (g.lo ≤ g.hi ∧ g.hi < f.lo) := by omega
    rw [← hset]
    exact Lane.bit_of_get ((l.get_flag f g).trans (Lane.get_put_apart 1 hf.le h32 hapart))

/-! ### What an operation may touch -/

/-- From `l` to `m` only registers of the list may have changed, and neither memory nor the time counter. -/
structure Touches (as : List Nat) (l m : Lane) : Prop where
  regs : SameRegs l m as
  mem : m.mem = l.mem
  tm : m.tm = l.tm

variable {as : List Nat}

theorem Touches.refl (as : List Nat) (l : Lane) : Touches as l l := ⟨fun _ _ => rfl, rfl, rfl⟩

theorem Touches.trans {n : Lane} (hlm : Touches as l m) (hmn : Touches as m n) : Touches as l n where
  regs a ha := (hmn.regs a ha).trans (hlm.regs a ha)
  mem := hmn.mem.trans hlm.mem
  tm := hmn.tm.trans hlm.tm

theorem Touches.mono {bs : List Nat} (h : Touches as l m) (hsub : as ⊆ bs) : Touches bs l m :=
  ⟨fun a ha => h.regs a fun hin => ha (hsub hin), h.mem, h.tm⟩

theorem Touches.sameMem (h : Touches as l m) : SameMem l m := SameMem.of_mem_eq h.mem

theorem Touches.stamp (h : Touches as l m) : m.stamp = l.stamp := by rw [Lane.stamp, h.tm, Lane.stamp]

theorem Touches.get (h : Touches as l m) (f : Fld) (hf : f.addr ∉ as) : m.get f = l.get f := congrArg (fldOf f) (h.regs _ hf)

theorem Touches.bit (h : Touches as l m) (f : Fld) (hf : f.addr ∉ as) : m.bit f = l.bit f := Lane.bit_of_get (h.get f hf)

/-- An update of something else than registers, memory and time. -/
theorem touches_of_eq (hregs : m.regs = l.regs) (hmem : m.mem = l.mem) (htm : m.tm = l.tm) : Touches as l m :=
  ⟨sameRegs_of_regs_eq hregs, hmem, htm⟩

theorem touches_wr {a : Nat} (w : Word) (ha : a ∈ as) : Touches as l (l.wr a w) :=
  ⟨fun k hk => l.rd_wr_ne a k w fun h => hk (h ▸ ha), rfl, rfl⟩

theorem touches_put {f : Fld} (v : Nat) (hf : f.addr ∈ as) : Touches as l (l.put f v) := touches_wr _ hf

theorem touches_flag {f : Fld} (hf : f.addr ∈ as) : Touches as l (l.flag f) where
  regs a ha := (l.rd_flag f a).trans ((touches_put 1 hf).regs a ha)
  mem := l.flag_mem f
  tm := l.flag_tm f

theorem touches_foldl {α : Type} {f : Lane → α → Lane} (xs : List α) (h : ∀ y x, x ∈ xs → Touches as y (f y x)) :
    Touches as l (xs.foldl f l) :=
  List.foldlRecOn (motive := Touches as l) xs f (.refl as l) fun y hy x hx => hy.trans (h y x hx)

/-- A fold over steps that each leave the lane as it is. -/
theorem foldl_eq_self {α : Type} {f : Lane → α → Lane} (xs : List α) (h : ∀ x ∈ xs, f l x = l) : xs.foldl f l = l :=
  List.foldlRecOn (motive := (· = l)) xs f rfl fun y hy x hx => by rw [hy, h x hx]

end

/-- A command with shared sensor faults that leaves its lane as it is leaves the module as it is. -/
theorem gives_self_of_shared {i : Instr} {s : State} {ln : LaneId} {c : Ctx} {l : Lane} (f : Ctx → Lane → Lane) (h : Here s ln c l)
    (hi : exec i s = sharingSensors ln s (onAlive ln f s)) (hf : f c l = l) : Gives i s ln l := by
  obtain ⟨-, hlane, -, -⟩ := id h
  exact (tells_of_onAlive_eq f h hi hf).gives (by rw [hlane])

end Sys2Proof.Machine

/-! PROOFS. The angle interfaces (R326 to R339): a valid sample of a started interface, and the timeouts. -/

namespace Sys2Proof.Machine

section
variable {c : Ctx} {l : Lane} {n : Nat}

/-! ### An angle interface replaced -/

@[simp] theorem Lane.setAf_regs (l : Lane) (n : Nat) (x : Angle) : (l.setAf n x).regs = l.regs := by
  unfold Lane.setAf
  split <;> rfl

@[simp] theorem Lane.setAf_si (l : Lane) (n : Nat) (x : Angle) : (l.setAf n x).si = l.si := by
  unfold Lane.setAf
  split <;> rfl

@[simp] theorem Lane.af_setAf_same (l : Lane) (n : Nat) (x : Angle) : (l.setAf n x).af n = x := by
  unfold Lane.af Lane.setAf
  split <;> rfl

theorem touches_setAf (as : List Nat) (l : Lane) (n : Nat) (x : Angle) : Touches as l (l.setAf n x) := by
  refine touches_of_eq (l.setAf_regs n x) ?_ ?_ <;> (unfold Lane.setAf; split <;> rfl)

@[simp] theorem Lane.rd_setAf (l : Lane) (n a : Nat) (x : Angle) : (l.setAf n x).rd a = l.rd a := by
  rw [Lane.rd, Lane.setAf_regs, Lane.rd]

@[simp] theorem Lane.get_setAf (l : Lane) (n : Nat) (x : Angle) (f : Fld) : (l.setAf n x).get f = l.get f :=
  Lane.get_of_regs_eq (l.setAf_regs n x) f

@[simp] theorem Lane.bit_setAf (l : Lane) (n : Nat) (x : Angle) (f : Fld) : (l.setAf n x).bit f = l.bit f :=
  Lane.bit_of_get (l.get_setAf n x f)

@[simp] theorem Lane.pair_setAf (l : Lane) (n a : Nat) (x : Angle) : (l.setAf n x).pair a = l.pair a :=
  Lane.pair_congr (l.rd_setAf n a x) (l.rd_setAf n (a + 4) x)

@[simp] theorem Lane.af_wr (l : Lane) (a n : Nat) (w : Word) : (l.wr a w).af n = l.af n := rfl

@[simp] theorem Lane.af_put (l : Lane) (f : Fld) (v n : Nat) : (l.put f v).af n = l.af n := rfl

@[simp] theorem Lane.af_putU (l : Lane) (a v n : Nat) : (l.putU a v).af n = l.af n := rfl

/-! ### A valid sample of a started interface (R329, R334) -/

theorem crossBin_invalidAt (x : Angle) (now : Nat) (up : Bool) (bin : Nat) : (crossBin x now up bin).invalidAt = x.invalidAt := by
  unfold crossBin
  split
  · split <;> rfl
  · rfl

/-- The position and no other register moves, whether a bin edge is crossed or not (R329, R338). -/
theorem Lane.movePos_spec (c : Ctx) (l : Lane) (n : Nat) (d : Int) :
    (l.movePos c n d).pair (R.AFn_POS n) = l.pair (R.AFn_POS n) + BitVec.ofInt 40 d ∧
      ((l.movePos c n d).af n).invalidAt = (l.af n).invalidAt ∧
      Touches [R.AFn_POS n, R.AFn_POS n + 4] l (l.movePos c n d) := by
  have hmoved (p : W40) : Touches [R.AFn_POS n, R.AFn_POS n + 4] l (l.putU (R.AFn_POS n) p.toNat) :=
    (touches_wr _ (by simp)).trans (touches_wr _ (by simp))
  have hpos (p : W40) : (l.putU (R.AFn_POS n) p.toNat).pair (R.AFn_POS n) = p := by
    rw [Lane.pair_putU_same, BitVec.ofNat_toNat, BitVec.setWidth_eq]
  unfold Lane.movePos
  dsimp only
  split
  · exact ⟨hpos _, rfl, hmoved _⟩
  · exact ⟨by rw [Lane.pair_setAf, hpos], by simp [crossBin_invalidAt], (hmoved _).trans (touches_setAf _ _ _ _)⟩

/-- In `m` interface `n` shows a valid sample that moved the position it had in `l` by `d` counts (R329, R336). -/
structure Lane.Followed (l m : Lane) (n : Nat) (d : Int) : Prop where
  pos : m.pair (R.AFn_POS n) = l.pair (R.AFn_POS n) + BitVec.ofInt 40 d
  valid : m.bit (R.AFn_STATUS_valid n) = true
  notCoasting : m.bit (R.AFn_STATUS_coasting n) = false
  notInvalid : (m.af n).invalidAt = none

/-- A valid sample not more than a quarter period away moves a started interface by that step. -/
theorem Lane.afValid_near_spec {phase rad : Nat} {d : Int} (hstarted : l.afStarted n = true)
    (hd : d = signed12 (l.fromZero n phase - (l.pair (R.AFn_POS n)).toNat % 4096)) (hnear : d.natAbs ≤ 1024) :
    l.Followed (l.afValid c n phase rad) n d ∧
      Touches [R.AFn_POS n, R.AFn_POS n + 4, R.AFn_STATUS n] l (l.afValid c n phase rad) := by
  obtain ⟨x, hx, hmove⟩ : ∃ x : Angle, x.invalidAt = none ∧ l.afValid c n phase rad =
      (((l.setAf n x).put (R.AFn_STATUS_valid n) 1).put (R.AFn_STATUS_coasting n) 0).movePos c n d := by
    rw [Lane.afValid, if_pos hstarted, ← hd]
    exact ⟨_, rfl, if_neg (by omega)⟩
  rw [hmove]
  generalize hy : ((l.setAf n x).put (R.AFn_STATUS_valid n) 1).put (R.AFn_STATUS_coasting n) 0 = y
  have hput : Touches [R.AFn_STATUS n] l y :=
    hy ▸ ((touches_setAf _ l n x).trans (touches_put 1 (by simp))).trans (touches_put 0 (by simp))
  have hpair : y.pair (R.AFn_POS n) = l.pair (R.AFn_POS n) :=
    Lane.pair_congr (hput.regs _ (by simp [R.AFn_POS, R.AFn_STATUS])) (hput.regs _ (by simp [R.AFn_POS, R.AFn_STATUS]; omega))
  have hvalid : y.bit (R.AFn_STATUS_valid n) = true := by
    rw [← hy, Lane.bit_of_get (Lane.get_put_apart 0 (by simp) (by simp) (by simp))]
    exact Lane.bit_put_one _ _ rfl (by simp)
  have hcoasting : y.bit (R.AFn_STATUS_coasting n) = false := hy ▸ Lane.bit_put_zero _ _ (by simp) (by simp)
  have hinvalid : (y.af n).invalidAt = none := by rw [← hy, Lane.af_put, Lane.af_put, Lane.af_setAf_same, hx]
  obtain ⟨hpos, hkept, htouch⟩ := y.movePos_spec c n d
  have hstatus : (R.AFn_STATUS n) ∉ [R.AFn_POS n, R.AFn_POS n + 4] := by simp [R.AFn_POS, R.AFn_STATUS]; omega
  exact ⟨⟨by rw [hpos, hpair], by rw [htouch.bit _ hstatus, hvalid], by rw [htouch.bit _ hstatus, hcoasting],
    by rw [hkept, hinvalid]⟩, (hput.mono (by simp)).trans (htouch.mono (by simp))⟩

theorem Lane.afSample_of_off (hoff : l.get (R.AFn_CFG_mode n) = 0) (x : SinCos) : l.afSample c n x = l := if_pos hoff

/-- The lane after a sample that no monitor objects to has shown its codes and its radius, before its validity shows (R326, R334). -/
def Lane.afSampled (c : Ctx) (l : Lane) (n : Nat) (x : SinCos) (rad : Nat) : Lane :=
  let y := ((l.setAf n { l.af n with seenAt := c.now }).wr (R.AFn_RAW n) (x.s ++ x.c)).put (R.AFn_AMP_r n)
    (min (nearest (mkRat (rad * 1024) (l.get (R.AFn_NOMINAL_a_nom n)))).toNat 4095)
  y.setAf n { y.af n with nLow := 0, nHigh := 0, nRange := 0 }

/-- A sample of an interface whose fault time has not ended, corrected to `sc`, lies within every limit (R334, R337). -/
structure Lane.SampleWithin (c : Ctx) (l : Lane) (n : Nat) (x : SinCos) (sc : Int × Int) : Prop where
  on : l.get (R.AFn_CFG_mode n) ≠ 0
  corrected : l.correctSample n x = sc
  notLow : l.get (R.AFn_MON_CFG_amp_lo n) * l.get (R.AFn_NOMINAL_a_nom n) ≤ radius sc.1 sc.2 * 256
  notHigh : radius sc.1 sc.2 * 256 ≤ l.get (R.AFn_MON_CFG_amp_hi n) * l.get (R.AFn_NOMINAL_a_nom n)
  sineIn : nearEnd x.s = false
  cosineIn : nearEnd x.c = false
  supplied : l.supplyOk c (l.get (R.AFn_CFG_supply n)) = true
  inTime : l.afExpired c n = false

/-- Such a sample is a valid one. -/
theorem Lane.afSample_of_within {x : SinCos} {sc : Int × Int} (h : l.SampleWithin c n x sc) :
    l.afSample c n x =
      (l.afSampled c n x (radius sc.1 sc.2)).afValid c n (phaseOf sc.1 sc.2) (radius sc.1 sc.2) := by
  obtain ⟨hon, hsc, hlow, hhigh, hs, hc, hsupply, hintime⟩ := h
  have hseen : l.afSeen c n = l.setAf n { l.af n with seenAt := c.now } := by simp [Lane.afSeen, hintime]
  have hcorrect (z : Angle) : (l.setAf n z).correctSample n x = sc := by rw [← hsc]; simp [Lane.correctSample]
  have hok (z : Angle) : (l.setAf n z).supplyOk c (l.get (R.AFn_CFG_supply n)) = true := by rw [← hsupply]; simp [Lane.supplyOk]
  have hnotlow : ¬radius sc.1 sc.2 * 256 < l.get (R.AFn_MON_CFG_amp_lo n) * l.get (R.AFn_NOMINAL_a_nom n) := by omega
  have hnothigh : ¬l.get (R.AFn_MON_CFG_amp_hi n) * l.get (R.AFn_NOMINAL_a_nom n) < radius sc.1 sc.2 * 256 := by omega
  simp [Lane.afSample, hon, hseen, hcorrect, hok, hnotlow, hnothigh, hs, hc, Lane.afMonitors, Lane.flagIf, Lane.afSampled]

theorem Lane.afSampled_spec (c : Ctx) (l : Lane) (n : Nat) (x : SinCos) (rad : Nat) :
    (l.afSampled c n x rad).rd (R.AFn_RAW n) = x.s ++ x.c ∧ Touches [R.AFn_RAW n, R.AFn_AMP n] l (l.afSampled c n x rad) := by
  refine ⟨?raw, (((touches_setAf _ l n _).trans (touches_wr _ (by simp))).trans (touches_put _ (by simp))).trans (touches_setAf _ _ n _)⟩
  case raw => rw [Lane.afSampled, Lane.rd_setAf, Lane.rd_put_ne _ _ _ _ (by simp [R.AFn_RAW, R.AFn_AMP]), Lane.rd_wr_same]

/-- What such a sample of a started interface changes: the position follows the phase by the nearest step (R329). -/
theorem Lane.afSample_near_spec {x : SinCos} {sc : Int × Int} {d : Int} (h : l.SampleWithin c n x sc) (hstarted : l.afStarted n = true)
    (hd : d = signed12 (l.fromZero n (phaseOf sc.1 sc.2) - (l.pair (R.AFn_POS n)).toNat % 4096)) (hnear : d.natAbs ≤ 1024) :
    l.Followed (l.afSample c n x) n d ∧ (l.afSample c n x).rd (R.AFn_RAW n) = x.s ++ x.c ∧
      Touches [R.AFn_POS n, R.AFn_POS n + 4, R.AFn_STATUS n, R.AFn_RAW n, R.AFn_AMP n] l (l.afSample c n x) := by
  rw [Lane.afSample_of_within h]
  obtain ⟨hraw, hshown⟩ := l.afSampled_spec c n x (radius sc.1 sc.2)
  generalize l.afSampled c n x (radius sc.1 sc.2) = y at hraw hshown ⊢
  have hstarted' : y.afStarted n = true := by
    rw [← hstarted]
    exact hshown.bit _ (by simp [R.AFn_STATUS, R.AFn_RAW, R.AFn_AMP])
  have hpair : y.pair (R.AFn_POS n) = l.pair (R.AFn_POS n) :=
    Lane.pair_congr (hshown.regs _ (by simp [R.AFn_POS, R.AFn_RAW, R.AFn_AMP]))
      (hshown.regs _ (by simp [R.AFn_POS, R.AFn_RAW, R.AFn_AMP]; omega))
  have hzero : y.fromZero n (phaseOf sc.1 sc.2) = l.fromZero n (phaseOf sc.1 sc.2) := by
    rw [Lane.fromZero, hshown.get _ (by simp [R.AFn_CAL_ZERO, R.AFn_RAW, R.AFn_AMP]), Lane.fromZero]
  obtain ⟨⟨hpos, hvalid, hcoasting, hinvalid⟩, htouch⟩ :=
    Lane.afValid_near_spec (c := c) (rad := radius sc.1 sc.2) hstarted' (by rw [hd, hzero, hpair]) hnear
  refine ⟨⟨by rw [hpos, hpair], hvalid, hcoasting, hinvalid⟩, ?_, (hshown.mono (by simp)).trans (htouch.mono (by simp))⟩
  rw [htouch.regs _ (by simp [R.AFn_RAW, R.AFn_POS, R.AFn_STATUS]; omega), hraw]

/-! ### The commands (R326, R333, R337, R338) -/

theorem angleSampleL_of_off {a b : SinCos} (h0 : l.get (R.AFn_CFG_mode 0) = 0) (h1 : l.get (R.AFn_CFG_mode 1) = 0) :
    angleSampleL c a b l = l := by
  rw [angleSampleL, Lane.afSample_of_off h0, Lane.afSample_of_off h1, ite_self]

/-- A fault time that has passed has expired whatever the last sample was. -/
theorem Lane.afExpired_of_past {t : Nat} (hinvalid : (l.af n).invalidAt = some t)
    (hpast : t + l.get (R.AFn_FAULT_CFG_fault_us n) * 1000 < c.now) : l.afExpired c n = true := by
  simp [Lane.afExpired, hinvalid, hpast]

theorem Lane.saFault_of_latched (kind : Nat) (hlatched : l.bit (R.AFn_STATUS_sa_fault n) = true) : l.saFault c n kind = l :=
  if_pos hlatched

/-- A first SA fault is latched, recorded and counted (R337); the mask it extends is that of the lane before it. -/
theorem Lane.saFault_of_first (kind : Nat) (hfirst : l.bit (R.AFn_STATUS_sa_fault n) = false) :
    l.saFault c n kind =
      (let l1 := (l.put (R.AFn_STATUS_sa_fault n) 1).wr (R.AFn_FAULT n) (BitVec.ofNat 32 (2 ^ 31 + kind))
       let l2 := ((l1.stampAt (R.AFn_FAULT_TIME n)).put R.FC_SENSOR_sa_fault (bitPut (l.get R.FC_SENSOR_sa_fault) n true)).flag
         (R.AF_FLAGS_sa_fault n)
       (l2.flag R.FC_FLAGS_sensor_fault).countNow c 9 (laneCode c.id) n) := by
  have hmask : ((l.put (R.AFn_STATUS_sa_fault n) 1).wr (R.AFn_FAULT n) (BitVec.ofNat 32 (2 ^ 31 + kind))).get R.FC_SENSOR_sa_fault =
      l.get R.FC_SENSOR_sa_fault := by
    rw [Lane.get_wr_ne _ _ _ _ (by simp only [R.FC_SENSOR, R.AFn_FAULT]; omega),
      Lane.get_put_addr _ _ _ _ (by simp only [R.FC_SENSOR, R.AFn_STATUS]; omega)]
  rw [Lane.saFault, if_neg (by simp [hfirst])]
  dsimp only
  rw [hmask]

theorem angleFaultTimeoutL_of_past {n : Fin 2} {t : Nat} (hinvalid : (l.af n.val).invalidAt = some t)
    (hpast : t + l.get (R.AFn_FAULT_CFG_fault_us n.val) * 1000 < c.now) :
    angleFaultTimeoutL c n l = l.saFault c n.val (l.af n.val).kind := if_pos (Lane.afExpired_of_past hinvalid hpast)

theorem angleFaultTimeoutL_of_none {n : Fin 2} (h : (l.af n.val).invalidAt = none ∨ l.bit (R.AFn_STATUS_sa_fault n.val) = true) :
    angleFaultTimeoutL c n l = l := by
  obtain hvalid | hlatched := h
  · have hintime : l.afExpired c n.val = false := by simp [Lane.afExpired, hvalid]
    exact if_neg (by simp [hintime])
  · rw [angleFaultTimeoutL, Lane.saFault_of_latched _ hlatched, ite_self]

theorem interfaceStartTimeoutL_of_late {n : Fin 2} {t : Nat} (hcheck : l.si.checkFrom = some t) (hlate : t + 20000000 ≤ c.now)
    (hon : l.get (R.AFn_CFG_mode n.val) ≠ 0) (hunstarted : l.afStarted n.val = false) :
    interfaceStartTimeoutL c n l = l.saFault c n.val 6 := by
  rw [interfaceStartTimeoutL, hcheck]
  exact if_pos ⟨hlate, hon, hunstarted⟩

theorem interfaceStartTimeoutL_of_not_late {n : Fin 2}
    (h : l.si.checkFrom = none ∨ l.get (R.AFn_CFG_mode n.val) = 0 ∨ l.afStarted n.val = true) : interfaceStartTimeoutL c n l = l := by
  unfold interfaceStartTimeoutL
  split
  next t hcheck => exact if_neg (by rintro ⟨-, hon, hunstarted⟩; simp [hcheck, hon, hunstarted] at h)
  next => rfl

theorem speedZeroTimeoutL_of_stopped {n : Fin 2} {t : Nat} {up : Bool} (hcross : (l.af n.val).cross = some (t, up))
    (hlong : t + (l.rd (R.AFn_ZERO_TIME n.val)).toNat ≤ c.now) (hcoasting : l.bit (R.AFn_STATUS_coasting n.val) = false) :
    speedZeroTimeoutL c n l = l.setAf n.val { l.af n.val with period := 0, gap := none } := by
  simp only [speedZeroTimeoutL, hcross]
  exact if_pos ⟨hlong, hcoasting⟩

theorem speedZeroTimeoutL_of_none {n : Fin 2} (h : (l.af n.val).cross = none ∨ l.bit (R.AFn_STATUS_coasting n.val) = true) :
    speedZeroTimeoutL c n l = l := by
  unfold speedZeroTimeoutL
  dsimp only
  split
  next t up hcross => exact if_neg (by rintro ⟨-, hcoasting⟩; simp [hcross, hcoasting] at h)
  next => rfl

end

end Sys2Proof.Machine

/-! PROOFS. The dual-contact inputs and their test pulses (R345 to R353): what a pair's state, its fault and the check of a pulse change. -/

namespace Sys2Proof.Machine

section
variable {c : Ctx} {l m : Lane} {n : Nat}

/-! ### The state of a pair (R347) -/

theorem touches_watchTakes (as : List Nat) (l : Lane) (src : Nat) (stamp : Word) (t : Nat) :
    Touches as l (l.watchTakes src stamp t) := by
  unfold Lane.watchTakes
  split
  · exact touches_of_eq rfl rfl rfl
  · exact .refl as l

/-- An arrival at a watch changes no register. -/
theorem touches_arrive (as : List Nat) (l : Lane) (cls i : Nat) (stamp : Word) : Touches as l (l.arrive cls i stamp) := by
  have hnoted : Touches as l { l with arrived := tabPut l.arrived (64 * cls + i) stamp } := touches_of_eq rfl rfl rfl
  exact hnoted.trans (touches_foldl _ fun y t _ => touches_watchTakes as y _ stamp t)

@[simp] theorem Lane.get_arrive (l : Lane) (cls i : Nat) (stamp : Word) (f : Fld) : (l.arrive cls i stamp).get f = l.get f :=
  (touches_arrive [] l cls i stamp).get f (by simp)

@[simp] theorem Lane.bit_arrive (l : Lane) (cls i : Nat) (stamp : Word) (f : Fld) : (l.arrive cls i stamp).bit f = l.bit f :=
  Lane.bit_of_get (l.get_arrive cls i stamp f)

theorem Lane.setPairState_of_same {st : Bool} (h : l.bit (R.SI_DIn_STAT_state n) = st) (stamp : Word) :
    l.setPairState n st stamp = l := if_pos h

theorem Lane.setPairState_of_change {st : Bool} (h : l.bit (R.SI_DIn_STAT_state n) ≠ st) (stamp : Word) :
    l.setPairState n st stamp =
      (((l.putB (R.SI_DIn_STAT_state n) st).wr (R.SI_DIn_TIME n) stamp).flag R.SI_FLAGS_di_change).arrive 2 n stamp := if_neg h

theorem touches_setPairState (l : Lane) (n : Nat) (st : Bool) (stamp : Word) :
    Touches [R.SI_DIn_STAT n, R.SI_DIn_TIME n, R.SI_FLAGS] l (l.setPairState n st stamp) := by
  by_cases h : l.bit (R.SI_DIn_STAT_state n) = st
  · rw [Lane.setPairState_of_same h]
    exact .refl _ l
  · rw [Lane.setPairState_of_change h]
    exact (((touches_put _ (by simp)).trans (touches_wr _ (by simp))).trans (touches_flag (by simp))).trans (touches_arrive _ _ _ _ _)

@[simp] theorem Lane.bit_state_setPairState (l : Lane) (n : Nat) (st : Bool) (stamp : Word) :
    (l.setPairState n st stamp).bit (R.SI_DIn_STAT_state n) = st := by
  by_cases h : l.bit (R.SI_DIn_STAT_state n) = st
  · rw [Lane.setPairState_of_same h, h]
  · rw [Lane.setPairState_of_change h, Lane.bit_arrive, Lane.bit, Lane.get_flag,
      Lane.get_put_addr _ _ _ _ (by simp only [R.SI_DIn_STAT, R.SI_FLAGS]; omega),
      Lane.get_wr_ne _ _ _ _ (by simp only [R.SI_DIn_STAT, R.SI_DIn_TIME]; omega)]
    exact Lane.bit_putB l _ st rfl (by simp)

/-- The state of a pair and its flag are the lowest bits of their registers, and a change of them keeps the other bits. -/
theorem Lane.get_setPairState (l : Lane) (n : Nat) (st : Bool) (stamp : Word) {f : Fld} (hlo : 0 < f.lo)
    (htime : f.addr ≠ R.SI_DIn_TIME n) : (l.setPairState n st stamp).get f = l.get f := by
  by_cases h : l.bit (R.SI_DIn_STAT_state n) = st
  · rw [Lane.setPairState_of_same h]
  · rw [Lane.setPairState_of_change h, Lane.get_arrive, Lane.get_flag, Lane.get_put_above _ _ _ _ (by simp) (by simp) hlo,
      Lane.get_wr_ne _ _ _ _ htime]
    exact Lane.get_put_above _ _ _ _ (by simp) (by simp) hlo

/-- A flag that is set stays set when a pair's state changes. -/
theorem Lane.bit_setPairState_of_bit (n : Nat) (st : Bool) (stamp : Word) {f : Fld} (haddr : f.addr = R.SI_FLAGS) (hf : f.lo = f.hi)
    (hset : l.bit f = true) : (l.setPairState n st stamp).bit f = true := by
  by_cases h : l.bit (R.SI_DIn_STAT_state n) = st
  · rwa [Lane.setPairState_of_same h]
  · rw [Lane.setPairState_of_change h, Lane.bit_arrive]
    refine Lane.bit_flag_of_bit rfl (by decide) hf ?_
    rw [← hset]
    refine Lane.bit_of_get ?_
    rw [Lane.get_wr_ne _ _ _ _ (by rw [haddr]; simp only [R.SI_FLAGS, R.SI_DIn_TIME]; omega)]
    exact Lane.get_put_addr _ _ _ _ (by rw [haddr]; simp only [R.SI_FLAGS, R.SI_DIn_STAT]; omega)

/-! ### A pair fault (R348, R351, R353) -/

/-- The registers in which a pair shows its state and its fault. -/
def pairRegs (n : Nat) : List Nat := [R.SI_DIn_STAT n, R.SI_DIn_TIME n, R.SI_DIn_FAULT_TIME n, R.SI_FLAGS]

/-- The flag of a pair fault. -/
def Lane.pairFlagged (l : Lane) : Nat → Lane
  | 1 => l.flag R.SI_FLAGS_discrepancy
  | 2 => l.flag R.SI_FLAGS_short_high
  | 3 => l.flag R.SI_FLAGS_cross_short
  | _ => l

/-- The fault of a pair recorded, before its state follows. -/
def Lane.faultNoted (l : Lane) (n kind : Nat) : Lane :=
  ((l.put (R.SI_DIn_STAT_fault n) kind).put (R.SI_DIn_STAT_wait_both n) 0).stampAt (R.SI_DIn_FAULT_TIME n)

theorem Lane.pairFault_of_new {kind : Nat} (hnew : l.get (R.SI_DIn_STAT_fault n) < kind) (hnone : l.get (R.SI_DIn_STAT_fault n) < 2) :
    l.pairFault n kind = ((l.faultNoted n kind).pairFlagged kind).setPairState n (l.bit (R.SI_DIn_CFG_fault_state n)) l.stamp := by
  rw [Lane.pairFault, if_neg (by omega)]
  rfl

theorem Lane.pairFault_of_old {kind : Nat} (h : kind ≤ l.get (R.SI_DIn_STAT_fault n) ∨ 2 ≤ l.get (R.SI_DIn_STAT_fault n)) :
    l.pairFault n kind = l := if_pos h

theorem touches_pairFlagged (l : Lane) (kind : Nat) : Touches [R.SI_FLAGS] l (l.pairFlagged kind) := by
  unfold Lane.pairFlagged
  split
  case h_4 => exact .refl _ l
  all_goals exact touches_flag (by simp)

theorem Lane.bit_pairFlagged_of_bit (kind : Nat) {f : Fld} (hf : f.lo = f.hi) (hset : l.bit f = true) :
    (l.pairFlagged kind).bit f = true := by
  unfold Lane.pairFlagged
  split
  case h_4 => exact hset
  all_goals exact Lane.bit_flag_of_bit rfl (by decide) hf hset

theorem touches_faultNoted (l : Lane) (n kind : Nat) : Touches [R.SI_DIn_STAT n, R.SI_DIn_FAULT_TIME n] l (l.faultNoted n kind) :=
  ((touches_put _ (by simp)).trans (touches_put _ (by simp))).trans (touches_wr _ (by simp))

theorem touches_pairFault (l : Lane) (n kind : Nat) : Touches (pairRegs n) l (l.pairFault n kind) := by
  by_cases h : kind ≤ l.get (R.SI_DIn_STAT_fault n) ∨ 2 ≤ l.get (R.SI_DIn_STAT_fault n)
  · rw [Lane.pairFault_of_old h]
    exact .refl _ l
  · rw [Lane.pairFault_of_new (by omega) (by omega)]
    exact (((touches_faultNoted l n kind).mono (by simp [pairRegs])).trans ((touches_pairFlagged _ kind).mono (by simp [pairRegs]))).trans
      ((touches_setPairState _ n _ _).mono (by simp [pairRegs]))

theorem Lane.bit_pairFault_of_bit (n kind : Nat) {f : Fld} (haddr : f.addr = R.SI_FLAGS) (hf : f.lo = f.hi) (hset : l.bit f = true) :
    (l.pairFault n kind).bit f = true := by
  by_cases h : kind ≤ l.get (R.SI_DIn_STAT_fault n) ∨ 2 ≤ l.get (R.SI_DIn_STAT_fault n)
  · rwa [Lane.pairFault_of_old h]
  · rw [Lane.pairFault_of_new (by omega) (by omega)]
    have hout : f.addr ∉ [R.SI_DIn_STAT n, R.SI_DIn_FAULT_TIME n] := by
      rw [haddr]
      simp [R.SI_FLAGS, R.SI_DIn_STAT, R.SI_DIn_FAULT_TIME]
      omega
    have hnoted := (touches_faultNoted l n kind).bit f hout
    exact Lane.bit_setPairState_of_bit n _ _ haddr hf (Lane.bit_pairFlagged_of_bit kind hf (hnoted.trans hset))

/-- A pair without a fault that takes one shows its kind, the time of its detection and fault_state. -/
theorem Lane.pairFault_new_spec {kind : Nat} (hnone : l.get (R.SI_DIn_STAT_fault n) = 0) (hkind : 0 < kind ∧ kind < 8) :
    (l.pairFault n kind).get (R.SI_DIn_STAT_fault n) = kind ∧ (l.pairFault n kind).rd (R.SI_DIn_FAULT_TIME n) = l.stamp ∧
      (l.pairFault n kind).bit (R.SI_DIn_STAT_state n) = l.bit (R.SI_DIn_CFG_fault_state n) := by
  have hflag := touches_pairFlagged (l.faultNoted n kind) kind
  rw [Lane.pairFault_of_new (by omega) (by omega)]
  refine ⟨?kind, ?time, Lane.bit_state_setPairState _ n _ _⟩
  case kind =>
    rw [Lane.get_setPairState _ n _ _ (by simp) (by simp [R.SI_DIn_STAT, R.SI_DIn_TIME]),
      hflag.get _ (by simp only [R.SI_DIn_STAT, R.SI_FLAGS, List.mem_singleton]; omega), Lane.faultNoted, Lane.stampAt,
      Lane.get_wr_ne _ _ _ _ (by simp [R.SI_DIn_STAT, R.SI_DIn_FAULT_TIME]),
      Lane.get_put_apart _ (by simp) (by simp) (by simp), Lane.get_put_same _ _ _ (by simp) (by simp)]
    exact Nat.mod_eq_of_lt hkind.2
  case time =>
    rw [(touches_setPairState _ n _ _).regs _ (by simp [R.SI_DIn_FAULT_TIME, R.SI_DIn_STAT, R.SI_DIn_TIME, R.SI_FLAGS]; omega),
      hflag.regs _ (by simp only [R.SI_DIn_FAULT_TIME, R.SI_FLAGS, List.mem_singleton]; omega), Lane.faultNoted, Lane.stampAt,
      Lane.rd_wr_same]
    rfl

/-- The flag of such a fault is set. -/
theorem Lane.bit_flag_pairFault_new {kind : Nat} {f : Fld} (hnone : l.get (R.SI_DIn_STAT_fault n) = 0) (hkind : 0 < kind)
    (haddr : f.addr = R.SI_FLAGS) (hf : f.lo = f.hi) (hset : ∀ y : Lane, (y.pairFlagged kind).bit f = true) :
    (l.pairFault n kind).bit f = true := by
  rw [Lane.pairFault_of_new (by omega) (by omega)]
  exact Lane.bit_setPairState_of_bit n _ _ haddr hf (hset _)

theorem discrepancyTimeoutL_of_past {n : Fin 12} {t : Nat} (hmixed : (l.contacts n.val).mixedAt = some t)
    (hpast : t + fldOf (R.SI_DIn_CFG_t_disc n.val) (l.pairCfg n.val) * 10000000 < c.now) :
    discrepancyTimeoutL c n l = l.pairFault n.val 1 := by
  simp only [discrepancyTimeoutL, hmixed]
  exact if_pos (.inl hpast)

theorem discrepancyTimeoutL_of_not_mixed {n : Fin 12} (hmixed : (l.contacts n.val).mixedAt = none) :
    discrepancyTimeoutL c n l = l := by
  simp only [discrepancyTimeoutL, hmixed]

/-! ### The check of a test pulse (R349 to R352) -/

theorem testPulseStartL_of_due {k : Fin 2} (hidle : Nat.testBit (l.get R.SI_TP_STAT_pulsing) k.val = false)
    (hdue : l.tpDue c k.val = true) :
    testPulseStartL c k l =
      (l.put R.SI_TP_STAT_pulsing (bitPut (l.get R.SI_TP_STAT_pulsing) k.val true)).setSource k.val
        ⟨some c.now, (l.source k.val).maskEnd, false, l.rawMask false, l.rawMask true⟩ := by
  simp only [testPulseStartL, hidle, hdue]
  rfl

theorem testPulseStartL_of_not_due {k : Fin 2}
    (h : Nat.testBit (l.get R.SI_TP_STAT_pulsing) k.val = true ∨ l.tpDue c k.val = false) : testPulseStartL c k l = l :=
  if_pos (by obtain h | h := h <;> simp [h])

theorem testPulseEndL_of_over {k : Fin 2} {t : Nat} (hstart : (l.source k.val).startAt = some t)
    (hpulsing : Nat.testBit (l.get R.SI_TP_STAT_pulsing) k.val = true) (hover : t + l.get R.SI_TP_CFG_pulse_us * 1000 ≤ c.now) :
    testPulseEndL c k l =
      (l.put R.SI_TP_STAT_pulsing (bitPut (l.get R.SI_TP_STAT_pulsing) k.val false)).setSource k.val
        { l.source k.val with maskEnd := c.now + 50000 } := by
  simp only [testPulseEndL, hstart]
  exact if_pos ⟨hpulsing, hover⟩

theorem testPulseEndL_of_idle {k : Fin 2} (hidle : Nat.testBit (l.get R.SI_TP_STAT_pulsing) k.val = false) :
    testPulseEndL c k l = l := by
  unfold testPulseEndL
  dsimp only
  split
  · exact if_neg (by simp [hidle])
  · rfl

theorem testPulseCheckL_of_due {k : Fin 2} {t : Nat} (a b : BitVec 12) (hstart : (l.source k.val).startAt = some t)
    (hpulsing : Nat.testBit (l.get R.SI_TP_STAT_pulsing) k.val = true) (hunchecked : (l.source k.val).checked = false)
    (hdue : t + 50000 ≤ c.now) :
    testPulseCheckL c k a b l = (List.range 12).foldl (fun y n => y.checkPair k.val n (l.source k.val) a b)
      (l.setSource k.val { l.source k.val with checked := true }) := by
  simp only [testPulseCheckL, hstart]
  exact if_pos ⟨hpulsing, hunchecked, hdue⟩

theorem Lane.checkPair_of_unchecked (s : Nat) (x : PulseSource) (a b : BitVec 12) (h : l.bit (R.SI_DIn_CFG_tp_check n) = false) :
    l.checkPair s n x a b = l := if_neg (by simp [h])

/-- Where no pair is checked a pulse ends its check without a finding. -/
theorem testPulseCheckL_of_none_checked {k : Fin 2} {t : Nat} (a b : BitVec 12) (hstart : (l.source k.val).startAt = some t)
    (hpulsing : Nat.testBit (l.get R.SI_TP_STAT_pulsing) k.val = true) (hunchecked : (l.source k.val).checked = false)
    (hdue : t + 50000 ≤ c.now) (hnone : ∀ n, n < 12 → l.bit (R.SI_DIn_CFG_tp_check n) = false) :
    testPulseCheckL c k a b l = l.setSource k.val { l.source k.val with checked := true } := by
  rw [testPulseCheckL_of_due a b hstart hpulsing hunchecked hdue]
  exact foldl_eq_self _ fun n hn => Lane.checkPair_of_unchecked _ _ a b (hnone n (List.mem_range.mp hn))

/-- A checked contact of TP0 that was on before the pulse and did not follow it has a short to high. -/
theorem Lane.checkPair_of_high {x : PulseSource} {a b : BitVec 12} (hcheck : l.bit (R.SI_DIn_CFG_tp_check n) = true)
    (hmode : l.get (R.SI_DIn_CFG_mode n) ≠ 0) (hpre : x.pre1.getLsbD n = true) (hhigh : a.getLsbD n = true) :
    l.checkPair 0 n x a b = l.pairFault n 2 := by
  simp [Lane.checkPair, hcheck, hmode, hpre, hhigh]

/-- What the check of other pairs leaves of pair `k`, and of the flags. -/
structure PairKept (k : Nat) (l m : Lane) : Prop where
  cfg : m.rd (R.SI_DIn_CFG k) = l.rd (R.SI_DIn_CFG k)
  stat : m.rd (R.SI_DIn_STAT k) = l.rd (R.SI_DIn_STAT k)
  time : m.rd (R.SI_DIn_FAULT_TIME k) = l.rd (R.SI_DIn_FAULT_TIME k)
  flags : ∀ f : Fld, f.addr = R.SI_FLAGS → f.lo = f.hi → l.bit f = true → m.bit f = true
  mem : m.mem = l.mem
  tm : m.tm = l.tm

theorem PairKept.refl (k : Nat) (l : Lane) : PairKept k l l := ⟨rfl, rfl, rfl, fun _ _ _ h => h, rfl, rfl⟩

theorem PairKept.trans {k : Nat} {o : Lane} (hlm : PairKept k l m) (hmo : PairKept k m o) : PairKept k l o where
  cfg := hmo.cfg.trans hlm.cfg
  stat := hmo.stat.trans hlm.stat
  time := hmo.time.trans hlm.time
  flags f ha hf h := hmo.flags f ha hf (hlm.flags f ha hf h)
  mem := hmo.mem.trans hlm.mem
  tm := hmo.tm.trans hlm.tm

theorem pairKept_pairFault {k : Nat} (l : Lane) (hne : n ≠ k) (kind : Nat) : PairKept k l (l.pairFault n kind) := by
  have htouch := touches_pairFault l n kind
  have hcfg : R.SI_DIn_CFG k ∉ pairRegs n := by
    simp [pairRegs, R.SI_DIn_CFG, R.SI_DIn_STAT, R.SI_DIn_TIME, R.SI_DIn_FAULT_TIME, R.SI_FLAGS]
    omega
  have hstat : R.SI_DIn_STAT k ∉ pairRegs n := by
    simp [pairRegs, R.SI_DIn_STAT, R.SI_DIn_TIME, R.SI_DIn_FAULT_TIME, R.SI_FLAGS]
    omega
  have htime : R.SI_DIn_FAULT_TIME k ∉ pairRegs n := by
    simp [pairRegs, R.SI_DIn_STAT, R.SI_DIn_TIME, R.SI_DIn_FAULT_TIME, R.SI_FLAGS]
    omega
  exact ⟨htouch.regs _ hcfg, htouch.regs _ hstat, htouch.regs _ htime, fun f ha hf h => Lane.bit_pairFault_of_bit n kind ha hf h,
    htouch.mem, htouch.tm⟩

theorem pairKept_checkPair {k : Nat} (l : Lane) (hne : n ≠ k) (s : Nat) (x : PulseSource) (a b : BitVec 12) :
    PairKept k l (l.checkPair s n x a b) := by
  have hfound (p q : Bool) : PairKept k l (if p then l.pairFault n 2 else if q then l.pairFault n 3 else l) := by
    cases p
    · cases q
      · exact .refl k l
      · exact pairKept_pairFault l hne 3
    · exact pairKept_pairFault l hne 2
  unfold Lane.checkPair
  dsimp only
  split
  · exact hfound _ _
  · exact .refl k l

theorem pairKept_foldl_checkPair {k : Nat} (l : Lane) (ns : List Nat) (hns : k ∉ ns) (s : Nat) (x : PulseSource) (a b : BitVec 12) :
    PairKept k l (ns.foldl (fun y n => y.checkPair s n x a b) l) :=
  List.foldlRecOn (motive := PairKept k l) ns _ (.refl k l) fun y hy _ hn =>
    hy.trans (pairKept_checkPair y (ne_of_mem_of_not_mem hn hns) s x a b)

/-- What a pulse of TP0 finds at contact 1 of pair 3, which was on before it and did not follow it (R351): the checks of the other pairs
leave its fault as it is. -/
theorem foldl_checkPair_short_high_spec {x : PulseSource} {a b : BitVec 12} (hcheck : l.bit (R.SI_DIn_CFG_tp_check 3) = true)
    (hmode : l.get (R.SI_DIn_CFG_mode 3) ≠ 0) (hpre : x.pre1.getLsbD 3 = true) (hhigh : a.getLsbD 3 = true)
    (hnone : l.get (R.SI_DIn_STAT_fault 3) = 0) (hm : (List.range 12).foldl (fun y n => y.checkPair 0 n x a b) l = m) :
    m.get (R.SI_DIn_STAT_fault 3) = 2 ∧ m.rd (R.SI_DIn_FAULT_TIME 3) = l.stamp ∧ m.bit R.SI_FLAGS_short_high = true ∧
      m.bit (R.SI_DIn_STAT_state 3) = l.bit (R.SI_DIn_CFG_fault_state 3) ∧ m.mem = l.mem := by
  have hrange : List.range 12 = [0, 1, 2] ++ 3 :: [4, 5, 6, 7, 8, 9, 10, 11] := rfl
  rw [hrange, List.foldl_append, List.foldl_cons] at hm
  have hbefore := pairKept_foldl_checkPair (k := 3) l [0, 1, 2] (by decide) 0 x a b
  generalize List.foldl (fun y n => y.checkPair 0 n x a b) l [0, 1, 2] = y at hm hbefore
  have hcfg (f : Fld) (hf : f.addr = R.SI_DIn_CFG 3) : y.get f = l.get f := by rw [Lane.get, hf, hbefore.cfg, ← hf, Lane.get]
  have hnone' : y.get (R.SI_DIn_STAT_fault 3) = 0 := (congrArg (fldOf _) hbefore.stat).trans hnone
  rw [Lane.checkPair_of_high ((Lane.bit_of_get (hcfg _ rfl)).trans hcheck) (by rw [hcfg _ rfl]; exact hmode) hpre hhigh] at hm
  have hafter := pairKept_foldl_checkPair (k := 3) (y.pairFault 3 2) [4, 5, 6, 7, 8, 9, 10, 11] (by decide) 0 x a b
  rw [hm] at hafter
  obtain ⟨hkind, htime, hstate⟩ := Lane.pairFault_new_spec (kind := 2) hnone' (by decide)
  have hflag := Lane.bit_flag_pairFault_new (kind := 2) (f := R.SI_FLAGS_short_high) hnone' (by decide) rfl rfl
    fun z => z.bit_flag_same _ rfl (by decide)
  have hstat (f : Fld) (hf : f.addr = R.SI_DIn_STAT 3) : m.get f = (y.pairFault 3 2).get f := by
    rw [Lane.get, hf, hafter.stat, ← hf, Lane.get]
  refine ⟨(hstat _ rfl).trans hkind, ?_, hafter.flags _ rfl rfl hflag, ?_, ?_⟩
  · rw [hafter.time, htime, Lane.stamp, hbefore.tm, Lane.stamp]
  · rw [Lane.bit_of_get (hstat _ rfl), hstate, Lane.bit_of_get (hcfg _ rfl)]
  · rw [hafter.mem, (touches_pairFault y 3 2).mem, hbefore.mem]

/-- A source fault with no pair checked is recorded and flagged (R352). -/
theorem tpSourceFaultL_of_none_checked {k : Fin 2} (hnone : ∀ n, n < 12 → l.bit (R.SI_DIn_CFG_tp_check n) = false) :
    tpSourceFaultL k l =
      (l.put R.SI_TP_STAT_fault (bitPut (l.get R.SI_TP_STAT_fault) k.val true)).flag R.SI_FLAGS_tp_fault := by
  unfold tpSourceFaultL
  dsimp only
  refine foldl_eq_self _ fun n hn => if_neg ?_
  have hnoted : Touches [R.SI_TP_STAT, R.SI_FLAGS] l
      ((l.put R.SI_TP_STAT_fault (bitPut (l.get R.SI_TP_STAT_fault) k.val true)).flag R.SI_FLAGS_tp_fault) :=
    (touches_put _ (by simp)).trans (touches_flag (by simp))
  have hcheck := (hnoted.bit (R.SI_DIn_CFG_tp_check n) (by simp [R.SI_DIn_CFG, R.SI_TP_STAT, R.SI_FLAGS]; omega)).trans
    (hnone n (List.mem_range.mp hn))
  simp [hcheck]

/-! ### A sample of both contacts (R345 to R347) -/

theorem contactSampleL_of_off {n : Fin 12} {a b : ContactRead} (hoff : fldOf (R.SI_DIn_CFG_mode n.val) (l.pairCfg n.val) = 0) :
    contactSampleL c n a b l = l := if_pos hoff

/-- Without a filter time a level that shows for the first time is taken at once, with its edge (R345). -/
theorem filterContact_new_unfiltered (edge new : Word) (gap : Nat) :
    filterContact false true false none gap 0 edge new = (true, none, new) := by
  simp [filterContact]

@[simp] theorem Lane.contacts_setContacts_same (l : Lane) (n : Nat) (x : Contacts) : (l.setContacts n x).contacts n = x := by
  simp [Lane.contacts, Lane.setContacts]

theorem touches_setContacts (as : List Nat) (l : Lane) (n : Nat) (x : Contacts) : Touches as l (l.setContacts n x) :=
  touches_of_eq rfl rfl rfl

@[simp] theorem Lane.get_setContacts (l : Lane) (n : Nat) (x : Contacts) (f : Fld) : (l.setContacts n x).get f = l.get f := rfl

@[simp] theorem Lane.bit_setContacts (l : Lane) (n : Nat) (x : Contacts) (f : Fld) : (l.setContacts n x).bit f = l.bit f := rfl

/-- Both contacts of pair `n` shown as active. -/
def Lane.bothShown (l : Lane) (n : Nat) : Lane :=
  (l.put R.SI_DI_RAW_contact1 (bitPut (l.get R.SI_DI_RAW_contact1) n true)).put R.SI_DI_RAW_contact2
    (bitPut (l.get R.SI_DI_RAW_contact2) n true)

theorem touches_bothShown (l : Lane) (n : Nat) : Touches [R.SI_DI_RAW] l (l.bothShown n) :=
  (touches_put _ (by simp)).trans (touches_put _ (by simp))

theorem Lane.contacts_bothShown (l : Lane) (n k : Nat) : (l.bothShown n).contacts k = l.contacts k := by
  rw [Lane.contacts, Lane.bothShown, Lane.put_si, Lane.put_si, Lane.contacts]

theorem Lane.contact_bothShown (l : Lane) (hn : n < 12) (second : Bool) : (l.bothShown n).contact n second = true := by
  have hshown (y : Lane) (f : Fld) (hf : f.lo ≤ f.hi) (h32 : f.hi < 32) (hwide : f.hi - f.lo + 1 = 12) :
      Nat.testBit ((y.put f (bitPut (y.get f) n true)).get f) n = true := by
    rw [y.testBit_put_bitPut hf h32 (by omega), if_pos rfl]
  cases second
  · rw [Lane.contact, Lane.bothShown, if_neg Bool.false_ne_true, Lane.get_put_apart _ (by decide) (by decide) (by simp)]
    exact hshown l _ (by decide) (by decide) rfl
  · have hkept : l.get R.SI_DI_RAW_contact2 =
        (l.put R.SI_DI_RAW_contact1 (bitPut (l.get R.SI_DI_RAW_contact1) n true)).get R.SI_DI_RAW_contact2 :=
      (Lane.get_put_apart _ (by decide) (by decide) (by simp)).symm
    rw [Lane.contact, Lane.bothShown, if_pos rfl, hkept]
    exact hshown _ R.SI_DI_RAW_contact2 (by decide) (by decide) rfl

/-- A pair has its settings, and its contacts their levels, where the registers for them are not touched. -/
theorem Touches.pairCfg {as : List Nat} (h : Touches as l m) (hcfg : R.SI_DIn_CFG n ∉ as) (hstatus : R.CF_STATUS ∉ as)
    (hpair : R.CF_SVC_CFG ∉ as) : m.pairCfg n = l.pairCfg n := by
  rw [Lane.pairCfg, h.bit _ hstatus, h.get _ hpair, h.regs _ hcfg, Lane.pairCfg]

theorem Touches.contact {as : List Nat} (h : Touches as l m) (hraw : R.SI_DI_RAW ∉ as) (second : Bool) :
    m.contact n second = l.contact n second := by
  cases second
  · exact congrArg (Nat.testBit · n) (h.get R.SI_DI_RAW_contact1 hraw)
  · exact congrArg (Nat.testBit · n) (h.get R.SI_DI_RAW_contact2 hraw)

/-- A pair without a fault that is 0 and whose contacts have been inactive together becomes 1 when both are active, with the stamp of
their edges. -/
theorem Lane.evalPair_of_both_on {e : Word} (hon : l.actives n = (true, true)) (hnone : l.get (R.SI_DIn_STAT_fault n) = 0)
    (hstate : l.get (R.SI_DIn_STAT_state n) = 0) (hoff : (l.contacts n).bothOff = true) (h1 : (l.contacts n).e1 = e)
    (h2 : (l.contacts n).e2 = e) :
    l.evalPair c n =
      ((((l.setContacts n { l.contacts n with mixedAt := none }).put (R.SI_DIn_STAT_mixed n) 0).setContacts n
        { l.contacts n with mixedAt := none, bothOff := true }).setPairState n true e).put (R.SI_DIn_STAT_wait_both n) 0 := by
  have hkept (f : Fld) (x : Contacts) (hf : 2 < f.lo ∨ f.lo ≤ f.hi ∧ f.hi < 2) :
      ((l.setContacts n x).put (R.SI_DIn_STAT_mixed n) 0).get f = l.get f :=
    Lane.get_put_apart 0 (by simp) (by simp) (.inr hf)
  simp [Lane.evalPair, hon, Lane.putB, h1, h2, hoff, Lane.bit, hkept, hnone, hstate]

/-- What that changes. -/
theorem Lane.evalPair_both_on_spec {e : Word} (hon : l.actives n = (true, true)) (hnone : l.get (R.SI_DIn_STAT_fault n) = 0)
    (hstate : l.get (R.SI_DIn_STAT_state n) = 0) (hoff : (l.contacts n).bothOff = true) (h1 : (l.contacts n).e1 = e)
    (h2 : (l.contacts n).e2 = e) (hm : l.evalPair c n = m) :
    m.bit (R.SI_DIn_STAT_state n) = true ∧ m.rd (R.SI_DIn_TIME n) = e ∧ m.bit (R.SI_DIn_STAT_mixed n) = false ∧
      m.bit R.SI_FLAGS_di_change = true ∧ Touches [R.SI_DIn_STAT n, R.SI_DIn_TIME n, R.SI_FLAGS] l m := by
  rw [Lane.evalPair_of_both_on hon hnone hstate hoff h1 h2] at hm
  generalize hy : ((l.setContacts n { l.contacts n with mixedAt := none }).put (R.SI_DIn_STAT_mixed n) 0).setContacts n
    { l.contacts n with mixedAt := none, bothOff := true } = y at hm
  have hyl : Touches [R.SI_DIn_STAT n] l y := by
    rw [← hy]
    exact ((touches_setContacts _ l n _).trans (touches_put 0 (by simp))).trans (touches_setContacts _ _ n _)
  have hmixed : y.bit (R.SI_DIn_STAT_mixed n) = false := by
    rw [← hy, Lane.bit_setContacts, Lane.bit_put_zero _ _ (by simp) (by simp)]
  have hwas : y.bit (R.SI_DIn_STAT_state n) ≠ true := by
    rw [← hy, Lane.bit_setContacts, Lane.bit, Lane.get_put_apart 0 (by simp) (by simp) (by simp), Lane.get_setContacts, hstate]
    simp
  have hput (f : Fld) (hf : f.addr ≠ R.SI_DIn_STAT n ∨ 3 < f.lo ∨ f.lo ≤ f.hi ∧ f.hi < 3) : m.bit f = (y.setPairState n true e).bit f :=
    hm ▸ Lane.bit_of_get (Lane.get_put_apart 0 (by simp) (by simp) hf)
  have hflags : R.SI_FLAGS ≠ R.SI_DIn_STAT n := by simp only [R.SI_FLAGS, R.SI_DIn_STAT]; omega
  refine ⟨?state, ?time, ?mixed, ?flag, ?touch⟩
  case state => rw [hput _ (by simp), Lane.bit_state_setPairState]
  case time =>
    rw [← hm, Lane.rd_put_ne _ _ _ _ (by simp [R.SI_DIn_STAT, R.SI_DIn_TIME]), Lane.setPairState_of_change hwas,
      (touches_arrive [] _ _ _ _).regs _ (by simp), Lane.rd_flag,
      Lane.rd_put_ne _ _ _ _ (by simp only [R.SI_FLAGS, R.SI_DIn_TIME]; omega), Lane.rd_wr_same]
  case mixed =>
    rw [hput _ (by simp),
      Lane.bit_of_get (Lane.get_setPairState y n true e (by simp) (by simp [R.SI_DIn_STAT, R.SI_DIn_TIME])), hmixed]
  case flag =>
    rw [hput _ (.inl hflags), Lane.setPairState_of_change hwas, Lane.bit_arrive]
    exact Lane.bit_flag_same _ _ rfl (by decide)
  case touch =>
    exact hm ▸ ((hyl.mono (by simp)).trans (touches_setPairState y n true e)).trans (touches_put 0 (by simp))

/-- A sample in which both contacts of an inactive equivalent pair without a filter time come on (R345 to R347). -/
theorem contactSampleL_of_both_on {n : Fin 12} {e : Word} (hmode : fldOf (R.SI_DIn_CFG_mode n.val) (l.pairCfg n.val) = 1)
    (hfilt : fldOf (R.SI_DIn_CFG_t_filt n.val) (l.pairCfg n.val) = 0) (hmask0 : l.masked c 0 = false) (hmask1 : l.masked c 1 = false)
    (hc1 : l.contact n.val false = false) (hc2 : l.contact n.val true = false) (hn1 : (l.contacts n.val).n1 = none)
    (hn2 : (l.contacts n.val).n2 = none) :
    contactSampleL c n ⟨true, e⟩ ⟨true, e⟩ l =
      (let r := l.rawEdge (c.now - (l.contacts n.val).sampleAt) e
       ((l.setContacts n.val { l.contacts n.val with e1 := r, e2 := r, raw1 := true, raw2 := true, sampleAt := c.now }).bothShown
         n.val).evalPair c n.val) := by
  simp [contactSampleL, hmode, hfilt, hmask0, hmask1, hc1, hc2, hn1, hn2, filterContact_new_unfiltered, Lane.bothShown]

/-- What such a sample changes in a pair without a fault that is 0 and whose contacts have been inactive together. -/
theorem contactSampleL_both_on_spec {n : Fin 12} {e : Word} (hmode : fldOf (R.SI_DIn_CFG_mode n.val) (l.pairCfg n.val) = 1)
    (hfilt : fldOf (R.SI_DIn_CFG_t_filt n.val) (l.pairCfg n.val) = 0) (hmask0 : l.masked c 0 = false) (hmask1 : l.masked c 1 = false)
    (hc1 : l.contact n.val false = false) (hc2 : l.contact n.val true = false) (hn1 : (l.contacts n.val).n1 = none)
    (hn2 : (l.contacts n.val).n2 = none) (hnone : l.get (R.SI_DIn_STAT_fault n.val) = 0)
    (hstate : l.get (R.SI_DIn_STAT_state n.val) = 0) (hoff : (l.contacts n.val).bothOff = true)
    (hm : contactSampleL c n ⟨true, e⟩ ⟨true, e⟩ l = m) :
    m.bit (R.SI_DIn_STAT_state n.val) = true ∧ m.contact n.val false = true ∧ m.contact n.val true = true ∧
      m.rd (R.SI_DIn_TIME n.val) = l.rawEdge (c.now - (l.contacts n.val).sampleAt) e ∧ m.bit (R.SI_DIn_STAT_mixed n.val) = false ∧
      m.bit R.SI_FLAGS_di_change = true ∧
      Touches [R.SI_DIn_STAT n.val, R.SI_DIn_TIME n.val, R.SI_DI_RAW, R.SI_FLAGS] l m := by
  rw [contactSampleL_of_both_on hmode hfilt hmask0 hmask1 hc1 hc2 hn1 hn2] at hm
  dsimp only at hm
  generalize hr : l.rawEdge (c.now - (l.contacts n.val).sampleAt) e = r at hm ⊢
  generalize hx : ({ l.contacts n.val with e1 := r, e2 := r, raw1 := true, raw2 := true, sampleAt := c.now } : Contacts) = x at hm
  generalize hy : (l.setContacts n.val x).bothShown n.val = y at hm
  have hyl : Touches [R.SI_DI_RAW] l y := by
    rw [← hy]
    exact (touches_setContacts _ l n.val x).trans (touches_bothShown _ n.val)
  have hcontact (b : Bool) : y.contact n.val b = true := by rw [← hy, Lane.contact_bothShown _ n.isLt]
  have hxy : y.contacts n.val = x := by rw [← hy, Lane.contacts_bothShown, Lane.contacts_setContacts_same]
  have hon : y.actives n.val = (true, true) := by
    have hcfg : y.pairCfg n.val = l.pairCfg n.val := hyl.pairCfg (by simp [R.SI_DIn_CFG, R.SI_DI_RAW]; omega) (by decide) (by decide)
    simp [Lane.actives, hcontact, hcfg, hmode]
  have hraw : R.SI_DIn_STAT n.val ∉ [R.SI_DI_RAW] := by simp [R.SI_DIn_STAT, R.SI_DI_RAW]; omega
  obtain ⟨hnow, htime, hmixed, hflag, htouch⟩ := Lane.evalPair_both_on_spec (e := r) hon ((hyl.get _ hraw).trans hnone)
    ((hyl.get _ hraw).trans hstate) (by rw [hxy, ← hx]; exact hoff) (by rw [hxy, ← hx]) (by rw [hxy, ← hx]) hm
  have hlevel (b : Bool) : m.contact n.val b = true := by
    rw [htouch.contact (by simp [R.SI_DI_RAW, R.SI_DIn_STAT, R.SI_DIn_TIME, R.SI_FLAGS]; omega) b, hcontact b]
  exact ⟨hnow, hlevel false, hlevel true, htime, hmixed, hflag, (hyl.mono (by simp)).trans (htouch.mono (by simp))⟩

end

end Sys2Proof.Machine

/-! PROOFS. The safety outputs (R356 to R360): what follows SI_DO_SET, and what a first fault of an output records. -/

namespace Sys2Proof.Machine

section
variable {c : Ctx} {l m : Lane} {k : Nat}

/-! ### Output stages -/

theorem touches_stagesOff (as : List Nat) (l : Lane) (which : BitVec 32) : Touches as l (l.stagesOff which) := touches_of_eq rfl rfl rfl

theorem getLsbD_two_pow {i j : Nat} (hi : i < 32) : (BitVec.ofNat 32 (2 ^ j)).getLsbD i = decide (j = i) := by
  rw [BitVec.getLsbD_ofNat, Nat.testBit_two_pow, decide_eq_true hi, Bool.true_and]

/-! ### Commanded outputs (R356) -/

theorem doSetWriteL_of_ignored (v : Word) (h : l.active = false ∨ l.unitsHalt = true) : doSetWriteL c v l = { l with bus := .done } :=
  if_neg (by obtain h | h := h <;> simp [h])

theorem doSetWriteL_of_acted (v : Word) (hactive : l.active = true) (hhalt : l.unitsHalt = false) :
    doSetWriteL c v l = { (l.put R.SI_DO_SET_out v.toNat).setRole2 c (v.toNat % 256) with bus := .done } :=
  if_pos (by simp [hactive, hhalt])

/-- Outputs of other roles do not follow SI_DO_SET. -/
theorem Lane.setRole2_of_none (w : Nat) (h : ∀ k, k < 8 → l.get (R.SI_DOk_CFG_role k) ≠ 2) : l.setRole2 c w = l :=
  foldl_eq_self _ fun k hk => if_neg (h k (List.mem_range.mp hk))

theorem Lane.driveOutput_frame (c : Ctx) (as : List Nat) (l : Lane) (k : Nat) (on : Bool) :
    Touches as l (l.driveOutput c k on) ∧ (l.driveOutput c k on).latchHold = l.latchHold := by
  unfold Lane.driveOutput
  split
  · exact ⟨touches_of_eq rfl rfl rfl, rfl⟩
  · exact ⟨.refl as l, rfl⟩

/-- An output that no latch holds takes its commanded state, and the others keep theirs. -/
theorem Lane.setOutput_spec (c : Ctx) (l : Lane) (on : Bool) (hk : k < 8) (hfree : l.latchHold.getLsbD (16 + k) = false) :
    (∀ j, Nat.testBit ((l.setOutput c k on).get R.SI_DO_STATE_cmd) j = if j = k then on else Nat.testBit (l.get R.SI_DO_STATE_cmd) j) ∧
      Touches [R.SI_DO_STATE] l (l.setOutput c k on) ∧ (l.setOutput c k on).latchHold = l.latchHold := by
  have hdriven (y : Lane) : (y.driveOutput c k on).get R.SI_DO_STATE_cmd = y.get R.SI_DO_STATE_cmd :=
    (y.driveOutput_frame c [] k on).1.get _ (by simp)
  unfold Lane.setOutput
  rw [if_neg (by simp [hfree])]
  split
  next hsame =>
    obtain ⟨htouch, hlatch⟩ := l.driveOutput_frame c [R.SI_DO_STATE] k on
    refine ⟨fun j => ?_, htouch, hlatch⟩
    rw [hdriven]
    split
    next hj => rw [hj, hsame]
    next => rfl
  next =>
    dsimp only
    generalize hy : l.put R.SI_DO_STATE_cmd (bitPut (l.get R.SI_DO_STATE_cmd) k on) = y
    generalize hz : ({ y with si := { y.si with outAt := tabPut y.si.outAt k c.now } } : Lane) = z
    have hyz : Touches [R.SI_DO_STATE] y z := hz ▸ touches_of_eq rfl rfl rfl
    obtain ⟨htouch, hlatch⟩ := z.driveOutput_frame c [R.SI_DO_STATE] k on
    refine ⟨fun j => ?_, ((hy ▸ touches_put _ (by simp)).trans hyz).trans htouch, hlatch.trans (by rw [← hz, ← hy]; rfl)⟩
    have hcmd : z.get R.SI_DO_STATE_cmd = y.get R.SI_DO_STATE_cmd := by rw [← hz]; rfl
    rw [hdriven, hcmd, ← hy]
    exact l.testBit_put_bitPut (f := R.SI_DO_STATE_cmd) (by decide) (by decide) (by simpa using hk) j on

/-- The first `i` outputs of role 2 have followed the word `w`. -/
structure Followed2 (w i : Nat) (l m : Lane) : Prop where
  cmd : ∀ j, Nat.testBit (m.get R.SI_DO_STATE_cmd) j = if j < i then Nat.testBit w j else Nat.testBit (l.get R.SI_DO_STATE_cmd) j
  touches : Touches [R.SI_DO_STATE] l m
  latchHold : m.latchHold = l.latchHold

theorem followed2_foldl (w i : Nat) (hi : i ≤ 8) (hrole : ∀ k, k < 8 → l.get (R.SI_DOk_CFG_role k) = 2)
    (hfree : ∀ k, k < 8 → l.latchHold.getLsbD (16 + k) = false) :
    Followed2 w i l ((List.range i).foldl
      (fun y k => if y.get (R.SI_DOk_CFG_role k) = 2 then y.setOutput c k (Nat.testBit w k) else y) l) := by
  induction i with
  | zero => exact ⟨fun j => by simp, .refl _ l, rfl⟩
  | succ i ih =>
    obtain ⟨hcmd, htouch, hlatch⟩ := ih (by omega)
    rw [List.range_succ, List.foldl_append]
    generalize (List.range i).foldl _ l = y at hcmd htouch hlatch
    have hrole' : y.get (R.SI_DOk_CFG_role i) = 2 := by
      rw [htouch.get _ (by simp only [R.SI_DOk_CFG, R.SI_DO_STATE, List.mem_singleton]; omega), hrole i (by omega)]
    obtain ⟨hset, hmore, hkept⟩ := y.setOutput_spec (k := i) c (Nat.testBit w i) (by omega) (by rw [hlatch, hfree i (by omega)])
    simp only [List.foldl_cons, List.foldl_nil, if_pos hrole']
    refine ⟨fun j => ?_, htouch.trans hmore, hkept.trans hlatch⟩
    rw [hset, hcmd]
    obtain hlt | heq | hgt := Nat.lt_trichotomy j i
    · simp [hlt, hlt.ne, Nat.lt_succ_of_lt hlt]
    · simp [heq]
    · have h1 : ¬j < i := by omega
      have h2 : ¬j < i + 1 := by omega
      simp [h1, h2, hgt.ne']

/-- Where every output has role 2 and none is held, they take the bits of the word (R356). -/
theorem Lane.setRole2_all_spec {w : Nat} (hw : w < 256) (hrole : ∀ k, k < 8 → l.get (R.SI_DOk_CFG_role k) = 2)
    (hfree : ∀ k, k < 8 → l.latchHold.getLsbD (16 + k) = false) :
    (l.setRole2 c w).get R.SI_DO_STATE_cmd = w ∧ Touches [R.SI_DO_STATE] l (l.setRole2 c w) := by
  obtain ⟨hcmd, htouch, -⟩ := followed2_foldl (c := c) w 8 (Nat.le_refl 8) hrole hfree
  refine ⟨Nat.eq_of_testBit_eq fun j => (hcmd j).trans ?_, htouch⟩
  split
  next => rfl
  next hj =>
    have hpow : (256 : Nat) ≤ 2 ^ j := Nat.pow_le_pow_right (n := 2) (i := 8) (by decide) (by omega)
    have hcmd8 : l.get R.SI_DO_STATE_cmd < 256 := fldOf_lt R.SI_DO_STATE_cmd _
    rw [Nat.testBit_lt_two_pow (hcmd8.trans_le hpow), Nat.testBit_lt_two_pow (hw.trans_le hpow)]

theorem doSetWriteL_all_spec {v : Word} (hactive : l.active = true) (hhalt : l.unitsHalt = false)
    (hrole : ∀ k, k < 8 → l.get (R.SI_DOk_CFG_role k) = 2) (hfree : ∀ k, k < 8 → l.latchHold.getLsbD (16 + k) = false)
    (hm : doSetWriteL c v l = m) :
    m.get R.SI_DO_STATE_cmd = v.toNat % 256 ∧ m.get R.SI_DO_SET_out = v.toNat % 256 ∧ m.bus = .done ∧
      Touches [R.SI_DO_SET, R.SI_DO_STATE] l m := by
  have hput : Touches [R.SI_DO_SET] l (l.put R.SI_DO_SET_out v.toNat) := touches_put _ (by simp)
  obtain ⟨hcmd, htouch⟩ := Lane.setRole2_all_spec (c := c) (l := l.put R.SI_DO_SET_out v.toNat) (w := v.toNat % 256)
    (Nat.mod_lt _ (by decide))
    (fun k hk => (hput.get _ (by simp only [R.SI_DOk_CFG, R.SI_DO_SET, List.mem_singleton]; omega)).trans (hrole k hk)) hfree
  rw [doSetWriteL_of_acted v hactive hhalt] at hm
  subst hm
  have hall := (hput.mono (by simp)).trans (htouch.mono (bs := [R.SI_DO_SET, R.SI_DO_STATE]) (by simp))
  refine ⟨hcmd, ?_, rfl, hall.regs, hall.mem, hall.tm⟩
  exact (htouch.get _ (by decide)).trans (l.get_put_same R.SI_DO_SET_out _ (by decide) (by decide))

/-! ### Output faults (R358, R360) -/

theorem Lane.outputFault_of_recorded (kind : Nat) (h : l.bit (R.SI_DOk_STAT_valid k) = true) : l.outputFault k kind = l := if_pos h

theorem outFlag_spec (kind : Nat) : (outFlag kind).addr = R.SI_FLAGS ∧ (outFlag kind).lo = (outFlag kind).hi ∧ (outFlag kind).hi < 32 := by
  unfold outFlag
  split <;> exact ⟨rfl, rfl, by decide⟩

/-- The first fault of an output is recorded and flagged, and its stage goes off. -/
theorem Lane.outputFault_first_spec {kind : Nat} (hkind : kind < 8) (hfirst : l.bit (R.SI_DOk_STAT_valid k) = false)
    (hm : l.outputFault k kind = m) :
    m.bit (R.SI_DOk_STAT_valid k) = true ∧ m.get (R.SI_DOk_STAT_kind k) = kind ∧ m.rd (R.SI_DOk_FAULT_TIME k) = l.stamp ∧
      m.stageOn = l.stageOn &&& ~~~BitVec.ofNat 32 (2 ^ (16 + k)) ∧ m.bit (outFlag kind) = true ∧
      Touches [R.SI_DOk_STAT k, R.SI_DOk_FAULT_TIME k, R.SI_FLAGS] l m := by
  obtain ⟨hflags, hbit, h32⟩ := outFlag_spec kind
  rw [Lane.outputFault, if_neg (by simp [hfirst])] at hm
  dsimp only at hm
  generalize hx : l.stagesOff (BitVec.ofNat 32 (2 ^ (16 + k))) = x at hm
  generalize hy : (x.put (R.SI_DOk_STAT_valid k) 1).put (R.SI_DOk_STAT_kind k) kind = y at hm
  have hget (f : Fld) (hf : f.addr = R.SI_DOk_STAT k) : m.get f = y.get f := by
    rw [← hm, Lane.get_flag, Lane.get_put_addr _ _ _ _ (by rw [hf, hflags]; simp only [R.SI_DOk_STAT, R.SI_FLAGS]; omega), Lane.stampAt,
      Lane.get_wr_ne _ _ _ _ (by rw [hf]; simp [R.SI_DOk_STAT, R.SI_DOk_FAULT_TIME])]
  have hyl : Touches [R.SI_DOk_STAT k, R.SI_DOk_FAULT_TIME k, R.SI_FLAGS] l y := by
    rw [← hy, ← hx]
    exact ((touches_stagesOff _ l _).trans (touches_put _ (by simp))).trans (touches_put _ (by simp))
  have hstage : y.stageOn = l.stageOn &&& ~~~BitVec.ofNat 32 (2 ^ (16 + k)) := by rw [← hy, ← hx]; rfl
  refine ⟨?valid, ?shown, ?time, ?stage, ?flag, ?touch⟩
  case valid =>
    rw [Lane.bit_of_get (hget _ rfl), ← hy, Lane.bit_of_get (Lane.get_put_apart kind (by simp) (by simp) (by simp)),
      Lane.bit_put_one _ _ rfl (by simp)]
  case shown =>
    rw [hget _ rfl, ← hy, Lane.get_put_same _ _ _ (by simp) (by simp)]
    exact Nat.mod_eq_of_lt hkind
  case time =>
    rw [← hm, Lane.rd_flag, Lane.rd_put_ne _ _ _ _ (by rw [hflags]; simp only [R.SI_DOk_FAULT_TIME, R.SI_FLAGS]; omega), Lane.stampAt,
      Lane.rd_wr_same, hyl.stamp]
  case stage => rw [← hm, Lane.flag_stageOn, Lane.stampAt_stageOn, hstage]
  case flag => rw [← hm, Lane.bit_flag_same _ _ hbit h32]
  case touch =>
    rw [← hm]
    exact (hyl.trans (touches_wr _ (by simp))).trans (touches_flag (by simp [hflags]))

theorem Lane.outputDriven_of_stageOff (h : m.stageOn = l.stageOn &&& ~~~BitVec.ofNat 32 (2 ^ (16 + k))) (hk : k < 8) :
    m.outputDriven k = false := by
  have hbit : (BitVec.ofNat 32 (2 ^ (16 + k))).getLsbD (16 + k) = true := by
    rw [getLsbD_two_pow (by omega), decide_eq_true rfl]
  have hoff : m.stageOn.getLsbD (16 + k) = false := by
    rw [h, BitVec.getLsbD_and, BitVec.getLsbD_not, hbit, Bool.not_true, Bool.and_false, Bool.and_false]
  rw [Lane.outputDriven, hoff, Bool.false_and]

theorem outputOffPulseL_of_failed {k : Fin 8} {a b d : Bool} (hslot : l.pulseSlot c k.val = true)
    (hfails : l.pulseFails k.val a b d = true) : outputOffPulseL c k a b d l = l.outputFault k.val 4 := if_pos (by simp [hslot, hfails])

theorem outputOffPulseL_of_met {k : Fin 8} {a b d : Bool} (h : l.pulseSlot c k.val = false ∨ l.pulseFails k.val a b d = false) :
    outputOffPulseL c k a b d l = l := if_neg (by obtain h | h := h <;> simp [h])

/-- A kind that its conditions allow, in a lane to which row 3 of R112 does not apply where it is kind 2, acts as an output fault. -/
theorem outputFaultL_of_shown {k : Fin 8} {f : Fin 7} (hshow : l.mayShow c k.val f.val = true)
    (hrow : f.val = 2 → l.rowApplies c 3 = false) : outputFaultL c k f l = l.outputFault k.val f.val := by
  have hnorow : ¬(f.val = 2 ∧ l.rowApplies c 3 = true) := fun h => by simp [hrow h.1] at h
  rw [outputFaultL, if_pos hshow]
  exact if_neg hnorow

theorem outputFaultL_of_not_shown {k : Fin 8} {f : Fin 7} (hshow : l.mayShow c k.val f.val = false) : outputFaultL c k f l = l :=
  if_neg (by simp [hshow])

theorem outputFaultL_of_recorded {k : Fin 8} {f : Fin 7} (hkind : f.val ≠ 2) (h : l.bit (R.SI_DOk_STAT_valid k.val) = true) :
    outputFaultL c k f l = l := by
  rw [outputFaultL, Lane.outputFault_of_recorded _ h]
  simp [hkind]

/-- The conditions of R360 under which an output shows a fault of each kind, in a lane where kind 2 is no fault of its role. -/
theorem mayShow_of_conditions {k : Fin 8} {f : Fin 7}
    (h : f.val = 1 ∨ f.val = 6 ∨
      (f.val = 2 ∧ l.outputDriven k.val = false ∧ l.outputStood c k.val 50000 = true ∧ l.rowApplies c 3 = false) ∨
      (f.val = 3 ∧ l.active = true ∧ Nat.testBit (l.get R.SI_DO_STATE_cmd) k.val = false ∧ l.bit R.LM_ROLE_in_zone = false ∧
        l.outputStood c k.val 10000000 = true) ∨
      (f.val = 4 ∧ l.pulseSlot c k.val = true ∧ 20000 ≤ l.pulsePhase k.val) ∨
      (f.val = 5 ∧ l.bit (R.SI_DOk_CFG_open_chk k.val) = true ∧ l.outputDriven k.val = true ∧
        l.outputStood c k.val 100000000 = true)) :
    l.mayShow c k.val f.val = true ∧ (f.val = 2 → l.rowApplies c 3 = false) := by
  obtain hf | hf | ⟨hf, hdriven, hstood, hrow⟩ | ⟨hf, hactive, hcmd, hzone, hstood⟩ | ⟨hf, hslot, hphase⟩ |
    ⟨hf, hcheck, hdriven, hstood⟩ := h
  · simp [hf, Lane.mayShow]
  · simp [hf, Lane.mayShow]
  · simp [hf, Lane.mayShow, hdriven, hstood, hrow]
  · simp [hf, Lane.mayShow, hactive, hcmd, hzone, hstood]
  · simp [hf, Lane.mayShow, hslot, hphase]
  · simp [hf, Lane.mayShow, hcheck, hdriven, hstood]

/-- Where one of those conditions fails, or a first fault has been recorded, nothing happens. -/
theorem outputFaultL_of_conditions_fail {k : Fin 8} {f : Fin 7}
    (h : f.val = 0 ∨ (f.val ≠ 2 ∧ l.bit (R.SI_DOk_STAT_valid k.val) = true) ∨
      (f.val = 2 ∧ (l.outputDriven k.val = true ∨ l.outputStood c k.val 50000 = false)) ∨
      (f.val = 3 ∧ (l.active = false ∨ Nat.testBit (l.get R.SI_DO_STATE_cmd) k.val = true ∨ l.bit R.LM_ROLE_in_zone = true ∨
        l.outputStood c k.val 10000000 = false)) ∨
      (f.val = 4 ∧ (l.pulseSlot c k.val = false ∨ l.pulsePhase k.val < 20000)) ∨
      (f.val = 5 ∧ (l.bit (R.SI_DOk_CFG_open_chk k.val) = false ∨ l.outputDriven k.val = false ∨
        l.outputStood c k.val 100000000 = false))) :
    outputFaultL c k f l = l := by
  obtain hf | ⟨hf, hrecorded⟩ | ⟨hf, hnot⟩ | ⟨hf, hnot⟩ | ⟨hf, hnot⟩ | ⟨hf, hnot⟩ := h
  · exact outputFaultL_of_not_shown (by rw [hf]; rfl)
  · exact outputFaultL_of_recorded hf hrecorded
  · refine outputFaultL_of_not_shown ?_
    obtain h | h := hnot <;> simp [hf, Lane.mayShow, h]
  · refine outputFaultL_of_not_shown ?_
    obtain h | h | h | h := hnot <;> simp [hf, Lane.mayShow, h]
  · refine outputFaultL_of_not_shown ?_
    obtain h | h := hnot <;> simp [hf, Lane.mayShow, h]
  · refine outputFaultL_of_not_shown ?_
    obtain h | h | h := hnot <;> simp [hf, Lane.mayShow, h]

end

end Sys2Proof.Machine

/-! PROOFS. The analog inputs and the sensor supplies (R362 to R368), and the statement on the sensors and outputs. -/

namespace Sys2Proof.Machine

section
variable {c : Ctx} {l m : Lane} {n k : Nat}

/-! ### Analog inputs (R363 to R365) -/

theorem touches_showSupply (c : Ctx) (l : Lane) (s : Nat) (mv : BitVec 16) : Touches [R.SI_SUP s] l (l.showSupply c s mv) := by
  have hput : Touches [R.SI_SUP s] l (l.put (R.SI_SUP_mv s) mv.toNat) := touches_put _ (by simp)
  unfold Lane.showSupply
  dsimp only
  split
  · split
    · exact hput.trans (touches_of_eq rfl rfl rfl)
    · exact hput
  · exact hput

theorem touches_showSupplies (c : Ctx) (l : Lane) (supply : List (BitVec 16)) :
    Touches [R.SI_SUP 0, R.SI_SUP 1] l (l.showSupplies c supply) :=
  ((touches_showSupply c l 0 _).mono (by simp)).trans ((touches_showSupply c _ 1 _).mono (by simp))

/-- Where every input is off a sample shows the supplies only. -/
theorem analogSampleL_of_off {a b : List (BitVec 16)} (hoff : ∀ n, n < 8 → l.get (R.SI_AIm_CFG_mode n) = 0) :
    analogSampleL c a b l = l.showSupplies c b := by
  have hstep : (List.range 8).foldl (fun y n => y.analogStep c n ((a[n]?).getD 0) b) (l.showSupplies c b) = l.showSupplies c b := by
    refine foldl_eq_self _ fun n hn => if_pos ?_
    rw [(touches_showSupplies c l b).get _ (by simp [R.SI_AIm_CFG, R.SI_SUP]; omega)]
    exact hoff n (List.mem_range.mp hn)
  rw [analogSampleL, hstep, ite_self]

@[simp] theorem Lane.analog_setAnalog_same (l : Lane) (n : Nat) (x : Analog) : (l.setAnalog n x).analog n = x := by
  simp [Lane.analog, Lane.setAnalog]

@[simp] theorem Lane.get_setAnalog (l : Lane) (n : Nat) (x : Analog) (f : Fld) : (l.setAnalog n x).get f = l.get f := rfl

@[simp] theorem Lane.bit_setAnalog (l : Lane) (n : Nat) (x : Analog) (f : Fld) : (l.setAnalog n x).bit f = l.bit f := rfl

/-- A first SP fault is latched, recorded and counted (R365); the mask it extends is that of the lane before it. -/
theorem Lane.spFault_of_first (kind : Nat) (hfirst : l.bit (R.SI_AIm_STAT_sp_fault n) = false) :
    l.spFault c n kind =
      (let l1 := ((l.put (R.SI_AIm_STAT_sp_fault n) 1).put (R.SI_AIm_STAT_kind n) kind).stampAt (R.SI_AIm_FAULT_TIME n)
       (((l1.put R.FC_SENSOR_sp_fault (bitPut (l.get R.FC_SENSOR_sp_fault) n true)).flag R.SI_FLAGS_sp_fault).flag
         R.FC_FLAGS_sensor_fault).countNow c 0xA (laneCode c.id) n) := by
  have hnoted : Touches [R.SI_AIm_STAT n, R.SI_AIm_FAULT_TIME n] l
      (((l.put (R.SI_AIm_STAT_sp_fault n) 1).put (R.SI_AIm_STAT_kind n) kind).stampAt (R.SI_AIm_FAULT_TIME n)) :=
    ((touches_put _ (by simp)).trans (touches_put _ (by simp))).trans (touches_wr _ (by simp))
  have hmask := hnoted.get R.FC_SENSOR_sp_fault (by simp [R.FC_SENSOR, R.SI_AIm_STAT, R.SI_AIm_FAULT_TIME]; omega)
  rw [Lane.spFault, if_neg (by simp [hfirst])]
  dsimp only
  rw [hmask]

/-- Once its fault time has passed an input's fault is judged. -/
theorem analogFaultTimeoutL_of_past {n : Fin 8} {t : Nat} (hinvalid : (l.analog n.val).invalidAt = some t)
    (hpast : t + l.get (R.SI_AIm_FAULT_CFG_fault_us n.val) * 1000 < c.now) :
    analogFaultTimeoutL c n l = l.analogFault c n.val := if_pos (by simp [Lane.analogExpired, hinvalid, hpast])

theorem Lane.analogFault_of_untold (huntold : (l.analog n).told = false) :
    l.analogFault c n =
      (let y := l.setAnalog n { l.analog n with told := true }
       if 2 ≤ l.get (R.SI_AIm_CFG_role n) ∧ l.get (R.SI_AIm_CFG_role n) ≤ 4 then y.spFault c n (l.analog n).kind
       else if l.get (R.SI_AIm_CFG_role n) = 1 then y.flag R.SI_FLAGS_ai_invalid else y) := by
  rw [Lane.analogFault, if_neg (by simp [huntold])]
  simp

theorem analogFaultTimeoutL_of_sensor {n : Fin 8} {t : Nat} (hinvalid : (l.analog n.val).invalidAt = some t)
    (hpast : t + l.get (R.SI_AIm_FAULT_CFG_fault_us n.val) * 1000 < c.now) (hlo : 2 ≤ l.get (R.SI_AIm_CFG_role n.val))
    (hhi : l.get (R.SI_AIm_CFG_role n.val) ≤ 4) (huntold : (l.analog n.val).told = false) :
    analogFaultTimeoutL c n l = (l.setAnalog n.val { l.analog n.val with told := true }).spFault c n.val (l.analog n.val).kind := by
  rw [analogFaultTimeoutL_of_past hinvalid hpast, Lane.analogFault_of_untold huntold]
  exact if_pos ⟨hlo, hhi⟩

theorem analogFaultTimeoutL_of_plain {n : Fin 8} {t : Nat} (hinvalid : (l.analog n.val).invalidAt = some t)
    (hpast : t + l.get (R.SI_AIm_FAULT_CFG_fault_us n.val) * 1000 < c.now) (hrole : l.get (R.SI_AIm_CFG_role n.val) = 1)
    (huntold : (l.analog n.val).told = false) :
    analogFaultTimeoutL c n l = (l.setAnalog n.val { l.analog n.val with told := true }).flag R.SI_FLAGS_ai_invalid := by
  rw [analogFaultTimeoutL_of_past hinvalid hpast, Lane.analogFault_of_untold huntold]
  simp [hrole]

theorem analogFaultTimeoutL_of_none {n : Fin 8} (h : (l.analog n.val).invalidAt = none ∨ (l.analog n.val).told = true) :
    analogFaultTimeoutL c n l = l := by
  obtain hvalid | htold := h
  · exact if_neg (by simp [Lane.analogExpired, hvalid])
  · rw [analogFaultTimeoutL, Lane.analogFault, if_pos htold, ite_self]

/-! ### Sensor supplies (R367) -/

/-- The register of a supply that is switched off with the `faults`-th fault of its power cycle. -/
def Lane.supplyShown (l : Lane) (k : Nat) (mv : BitVec 16) (faults : Nat) : Lane :=
  ((((l.put (R.SI_SUP_mv k) mv.toNat).put (R.SI_SUP_limit k) 0).put (R.SI_SUP_on k) 0).put (R.SI_SUP_faults k) faults).put
    (R.SI_SUP_fault k) 1

theorem Lane.supplyShown_stageOn (l : Lane) (k : Nat) (mv : BitVec 16) (faults : Nat) :
    (l.supplyShown k mv faults).stageOn = l.stageOn := by
  rw [Lane.supplyShown, Lane.put_stageOn, Lane.put_stageOn, Lane.put_stageOn, Lane.put_stageOn, Lane.put_stageOn]

/-- The stage of a supply off from now on. -/
def Lane.supplyCut (c : Ctx) (l : Lane) (k : Nat) : Lane :=
  let y := l.stagesOff (BitVec.ofNat 32 (2 ^ (24 + k)))
  { y with si := { y.si with supOffAt := tabPut y.si.supOffAt k c.now } }

theorem Lane.supplyCut_regs (c : Ctx) (l : Lane) (k : Nat) : (l.supplyCut c k).regs = l.regs := rfl

theorem touches_supplyCut (as : List Nat) (c : Ctx) (l : Lane) (k : Nat) : Touches as l (l.supplyCut c k) := touches_of_eq rfl rfl rfl

theorem Lane.supplyCut_stageOn (c : Ctx) (l : Lane) (k : Nat) :
    (l.supplyCut c k).stageOn = l.stageOn &&& ~~~BitVec.ofNat 32 (2 ^ (24 + k)) := rfl

theorem Lane.supOffAt_supplyCut (c : Ctx) (l : Lane) (k : Nat) : tabGet (l.supplyCut c k).si.supOffAt k = some c.now :=
  tabGet_tabPut_same _ k c.now

/-- A supply switched off and flagged. -/
def Lane.supplyOff (c : Ctx) (l : Lane) (k : Nat) (mv : BitVec 16) (faults : Nat) : Lane :=
  ((l.supplyShown k mv faults).flag R.SI_FLAGS_sup_fault).supplyCut c k

theorem Lane.supplyOff_stageOn (c : Ctx) (l : Lane) (k : Nat) (mv : BitVec 16) (faults : Nat) :
    (l.supplyOff c k mv faults).stageOn = l.stageOn &&& ~~~BitVec.ofNat 32 (2 ^ (24 + k)) := by
  rw [Lane.supplyOff, Lane.supplyCut_stageOn, Lane.flag_stageOn, Lane.supplyShown_stageOn]

/-- What shows of a supply in `m` that has been switched off so. -/
structure ShownOff (m : Lane) (k : Nat) (mv : BitVec 16) (faults : Nat) : Prop where
  off : m.bit (R.SI_SUP_on k) = false
  fault : m.bit (R.SI_SUP_fault k) = true
  faults : m.get (R.SI_SUP_faults k) = faults
  mv : m.get (R.SI_SUP_mv k) = mv.toNat
  unlimited : m.bit (R.SI_SUP_limit k) = false
  flag : m.bit R.SI_FLAGS_sup_fault = true

theorem touches_supplyOff (c : Ctx) (l : Lane) (k : Nat) (mv : BitVec 16) (faults : Nat) :
    Touches [R.SI_SUP k, R.SI_FLAGS] l (l.supplyOff c k mv faults) := by
  have hshown : Touches [R.SI_SUP k, R.SI_FLAGS] l (l.supplyShown k mv faults) :=
    ((((touches_put _ (by simp)).trans (touches_put _ (by simp))).trans (touches_put _ (by simp))).trans
      (touches_put _ (by simp))).trans (touches_put _ (by simp))
  exact (hshown.trans (touches_flag (by simp))).trans (touches_supplyCut _ c _ k)

theorem shownOff_supplyOff (c : Ctx) (l : Lane) (mv : BitVec 16) {faults : Nat} (hfaults : faults < 4) :
    ShownOff (l.supplyOff c k mv faults) k mv faults := by
  have hget (f : Fld) (hf : f.addr = R.SI_SUP k) : (l.supplyOff c k mv faults).get f = (l.supplyShown k mv faults).get f := by
    rw [Lane.supplyOff, Lane.get_of_regs_eq (Lane.supplyCut_regs c _ k), Lane.get_flag,
      Lane.get_put_addr _ _ _ _ (by rw [hf]; simp only [R.SI_SUP, R.SI_FLAGS]; omega)]
  have hflag : (l.supplyOff c k mv faults).bit R.SI_FLAGS_sup_fault = true := by
    rw [Lane.supplyOff, Lane.bit_of_get (Lane.get_of_regs_eq (Lane.supplyCut_regs c _ k) _)]
    exact Lane.bit_flag_same _ _ rfl (by decide)
  have hmv : mv.toNat % 65536 = mv.toNat := Nat.mod_eq_of_lt mv.isLt
  refine ⟨?off, ?faulted, ?count, ?voltage, ?unlimited, hflag⟩
  case off => simp [Lane.bit, hget, Lane.supplyShown, Lane.get_put_apart, Lane.get_put_same]
  case faulted => simp [Lane.bit, hget, Lane.supplyShown, Lane.get_put_same]
  case count => simp [hget, Lane.supplyShown, Lane.get_put_apart, Lane.get_put_same, Nat.mod_eq_of_lt hfaults]
  case voltage => simp [hget, Lane.supplyShown, Lane.get_put_apart, Lane.get_put_same, hmv]
  case unlimited => simp [Lane.bit, hget, Lane.supplyShown, Lane.get_put_apart, Lane.get_put_same]

theorem supplyFaultL_of_none {k : Fin 2} {mv : BitVec 16} {limit : Bool}
    (h : l.bit (R.SI_SUP_on k.val) = false ∨ (limit = false ∧ offWindow mv = false)) : supplyFaultL c k mv limit l = l :=
  if_neg (by obtain h | ⟨hlimit, hmv⟩ := h <;> simp [*])

theorem supplyFaultL_of_fault {k : Fin 2} {mv : BitVec 16} {limit : Bool} (hon : l.bit (R.SI_SUP_on k.val) = true)
    (h : limit = true ∨ offWindow mv = true) :
    supplyFaultL c k mv limit l =
      (let y := l.supplyOff c k.val mv (min (l.get (R.SI_SUP_faults k.val) + 1) 3)
       if min (l.get (R.SI_SUP_faults k.val) + 1) 3 = 3 then (y.put (R.SI_SUP_latched k.val) 1).flag R.SI_FLAGS_sup_latched else y) :=
  if_pos (by obtain h | h := h <;> simp [hon, h])

theorem supplyFaultL_of_retried {k : Fin 2} {mv : BitVec 16} {limit : Bool} (hon : l.bit (R.SI_SUP_on k.val) = true)
    (h : limit = true ∨ offWindow mv = true) (hfew : l.get (R.SI_SUP_faults k.val) < 2) :
    supplyFaultL c k mv limit l = l.supplyOff c k.val mv (l.get (R.SI_SUP_faults k.val) + 1) := by
  have hmin : min (l.get (R.SI_SUP_faults k.val) + 1) 3 = l.get (R.SI_SUP_faults k.val) + 1 := by omega
  rw [supplyFaultL_of_fault hon h, hmin]
  exact if_neg (by omega)

theorem supplyFaultL_of_third {k : Fin 2} {mv : BitVec 16} {limit : Bool} (hon : l.bit (R.SI_SUP_on k.val) = true)
    (h : limit = true ∨ offWindow mv = true) (hmany : 2 ≤ l.get (R.SI_SUP_faults k.val)) :
    supplyFaultL c k mv limit l =
      ((l.supplyOff c k.val mv 3).put (R.SI_SUP_latched k.val) 1).flag R.SI_FLAGS_sup_latched := by
  have hmin : min (l.get (R.SI_SUP_faults k.val) + 1) 3 = 3 := by omega
  rw [supplyFaultL_of_fault hon h, hmin]
  exact if_pos rfl

/-- The third fault of a power cycle latches the supply. -/
theorem supplyLatched_spec (hm : ((l.supplyOff c k mv 3).put (R.SI_SUP_latched k) 1).flag R.SI_FLAGS_sup_latched = m) :
    m.bit (R.SI_SUP_on k) = false ∧ m.get (R.SI_SUP_faults k) = 3 ∧ m.bit (R.SI_SUP_latched k) = true ∧
      m.bit R.SI_FLAGS_sup_latched = true ∧ Touches [R.SI_SUP k, R.SI_FLAGS] l m := by
  have hshown := shownOff_supplyOff (k := k) c l mv (faults := 3) (by decide)
  have hget (f : Fld) (hf : f.addr = R.SI_SUP k) : m.get f = ((l.supplyOff c k mv 3).put (R.SI_SUP_latched k) 1).get f := by
    rw [← hm, Lane.get_flag, Lane.get_put_addr _ _ _ _ (by rw [hf]; simp only [R.SI_SUP, R.SI_FLAGS]; omega)]
  refine ⟨?off, ?faults, ?latched, ?flag, ?touch⟩
  case off => rw [Lane.bit_of_get (hget _ rfl), Lane.bit_of_get (Lane.get_put_apart _ (by simp) (by simp) (by simp)), hshown.off]
  case faults => rw [hget _ rfl, Lane.get_put_apart _ (by simp) (by simp) (by simp), hshown.faults]
  case latched => rw [Lane.bit_of_get (hget _ rfl), Lane.bit_put_one _ _ rfl (by simp)]
  case flag => rw [← hm, Lane.bit_flag_same _ _ rfl (by decide)]
  case touch =>
    rw [← hm]
    exact ((touches_supplyOff c l k mv 3).trans (touches_put _ (by simp))).trans (touches_flag (by simp))

theorem supplyRetryL_of_due {k : Fin 2} {t : Nat} (hoff : tabGet l.si.supOffAt k.val = some t)
    (hfault : l.bit (R.SI_SUP_fault k.val) = true) (hlatched : l.bit (R.SI_SUP_latched k.val) = false) (hdue : t + 100000000 ≤ c.now) :
    supplyRetryL c k l = l.supplyOn k.val (c.now + 1000000) := by
  simp only [supplyRetryL, hoff]
  exact if_pos ⟨hfault, hlatched, hdue⟩

theorem supplyRetryL_of_none {k : Fin 2}
    (h : l.bit (R.SI_SUP_fault k.val) = false ∨ l.bit (R.SI_SUP_latched k.val) = true ∨ tabGet l.si.supOffAt k.val = none) :
    supplyRetryL c k l = l := by
  unfold supplyRetryL
  dsimp only
  split
  next t hoff => exact if_neg (by rintro ⟨hfault, hlatched, -⟩; simp [hfault, hlatched, hoff] at h)
  next => rfl

theorem getLsbD_foldl_or (xs : List Nat) (f : Nat → BitVec 32) (z : BitVec 32) (i : Nat) :
    (xs.foldl (fun m n => m ||| f n) z).getLsbD i = (z.getLsbD i || xs.any fun n => (f n).getLsbD i) := by
  induction xs generalizing z with
  | nil => simp
  | cons x xs ih => rw [List.foldl_cons, ih, BitVec.getLsbD_or, List.any_cons, Bool.or_assoc]

/-- Of the stages whose numbers are `base + n`, with a fault or without a role where `b n` holds, none is that of another number. -/
theorem getLsbD_stages_eq_false (N base i : Nat) (b : Nat → Bool) (hi : i < 32) (h : ∀ n, n < N → base + n = i → b n = false) :
    ((List.range N).foldl (fun m n => m ||| if b n then BitVec.ofNat 32 (2 ^ (base + n)) else 0) 0).getLsbD i = false := by
  have hzero : (0 : BitVec 32).getLsbD i = false := BitVec.getLsbD_zero
  rw [getLsbD_foldl_or, hzero, Bool.false_or, List.any_eq_false]
  intro n hn
  by_cases hb : b n
  · have hne : base + n ≠ i := fun heq => by simp [h n (List.mem_range.mp hn) heq] at hb
    rw [if_pos hb, getLsbD_two_pow hi, decide_eq_false hne]
    exact Bool.false_ne_true
  · rw [if_neg hb, hzero]
    exact Bool.false_ne_true

/-- No fault keeps a supply off but its own latch. -/
theorem Lane.badStages_supply (hk : k < 2) (hlatched : l.bit (R.SI_SUP_latched k) = false) : l.badStages.getLsbD (24 + k) = false := by
  have hsolenoids := getLsbD_stages_eq_false 6 0 (24 + k) (fun n => l.bit (R.BKn_STATUS_fault n)) (by omega) (by omega)
  have hsteppers := getLsbD_stages_eq_false 4 8 (24 + k) (fun n => l.bit (R.SPn_STATUS_fault n)) (by omega) (by omega)
  have houtputs := getLsbD_stages_eq_false 8 16 (24 + k) (fun n => l.bit (R.SI_DOk_STAT_valid n)) (by omega) (by omega)
  have hsupplies := getLsbD_stages_eq_false 2 24 (24 + k) (fun n => l.bit (R.SI_SUP_latched n)) (by omega)
    fun n _ hn => by rw [show n = k by omega, hlatched]
  simp only [Nat.zero_add] at hsolenoids
  rw [Lane.badStages, BitVec.getLsbD_or, BitVec.getLsbD_or, BitVec.getLsbD_or, hsolenoids, hsteppers, houtputs, hsupplies]
  rfl

/-- Nor does a stepper channel without a role. -/
theorem Lane.unusedStages_supply (l : Lane) (hk : k < 2) : l.unusedStages.getLsbD (24 + k) = false := by
  have hsteppers := getLsbD_stages_eq_false 4 8 (24 + k) (fun n => decide (l.get (R.SPn_CFG_role n) = 0)) (by omega) (by omega)
  simpa only [Lane.unusedStages, decide_eq_true_eq] using hsteppers

theorem Lane.stageOn_stagesOn_supply (hk : k < 2) (hlatched : l.bit (R.SI_SUP_latched k) = false) :
    (l.stagesOn (BitVec.ofNat 32 (2 ^ (24 + k)))).stageOn.getLsbD (24 + k) = true := by
  have h32 : 24 + k < 32 := by omega
  have hbit : (BitVec.ofNat 32 (2 ^ (24 + k))).getLsbD (24 + k) = true := by rw [getLsbD_two_pow h32, decide_eq_true rfl]
  rw [Lane.stagesOn, BitVec.getLsbD_or, BitVec.getLsbD_and, BitVec.getLsbD_and, BitVec.getLsbD_not, BitVec.getLsbD_not,
    Lane.badStages_supply hk hlatched, l.unusedStages_supply hk, hbit, decide_eq_true h32]
  simp

/-- A supply that no fault has latched comes on again (R367). -/
theorem Lane.supplyOn_spec {okAt : Nat} (hk : k < 2) (hlatched : l.bit (R.SI_SUP_latched k) = false) (hm : l.supplyOn k okAt = m) :
    m.bit (R.SI_SUP_on k) = true ∧ m.bit (R.SI_SUP_fault k) = false ∧ m.bit (R.SI_SUP_limit k) = false ∧
      tabGet m.si.supOkAt k = some okAt ∧ m.stageOn.getLsbD (24 + k) = true ∧ Touches [R.SI_SUP k] l m := by
  rw [Lane.supplyOn] at hm
  dsimp only at hm
  generalize hy : ((l.put (R.SI_SUP_on k) 1).put (R.SI_SUP_fault k) 0).put (R.SI_SUP_limit k) 0 = y at hm
  have hget (f : Fld) : m.get f = y.get f := by rw [← hm]; rfl
  have hyl : Touches [R.SI_SUP k] l y := by
    rw [← hy]
    exact ((touches_put _ (by simp)).trans (touches_put _ (by simp))).trans (touches_put _ (by simp))
  have hlatched' : y.bit (R.SI_SUP_latched k) = false := by
    rw [← hlatched, ← hy]
    simp [Lane.bit, Lane.get_put_apart]
  refine ⟨?on, ?faulted, ?unlimited, ?since, ?stage, ?touch⟩
  case on => simp [Lane.bit, hget, ← hy, Lane.get_put_apart, Lane.get_put_same]
  case faulted => simp [Lane.bit, hget, ← hy, Lane.get_put_apart, Lane.get_put_same]
  case unlimited => simp [Lane.bit, hget, ← hy, Lane.get_put_same]
  case since => rw [← hm]; exact tabGet_tabPut_same _ k okAt
  case stage => rw [← hm]; exact Lane.stageOn_stagesOn_supply hk hlatched'
  case touch => rw [← hm]; exact hyl.trans (touches_of_eq rfl rfl rfl)

end

/-- Settles O54: each clause is the equation of its command, or what is proved above of what the command changes. -/
theorem sensorsAndOutputsCommandsComplete : Obligations.SensorsAndOutputsCommandsComplete := by
  refine ⟨?sampled, ?sampleHeld, ?sampleOff, ?sampleValid, ?angleFault, ?angleNoFault, ?startFault, ?startNoFault, ?speedZero, ?speedKept,
    ?contactOff, ?contactsOn, ?discrepancy, ?agreeing, ?pulseStart, ?pulseNotDue, ?checkNone, ?checkShort, ?pulseEnd, ?pulseIdle,
    ?sourceFault, ?doSetNone, ?doSetAll, ?doSetIgnored, ?offPulseFailed, ?offPulseMet, ?outputFault, ?outputNoFault,
    ?analogSampled, ?analogHeld, ?analogOff, ?analogFault, ?analogPlain, ?analogNoFault, ?supplyFault, ?supplyLatched, ?supplyFine,
    ?supplyRetry, ?supplyNoRetry⟩
  case sampled =>
    intro s ln c l a b h hreleased
    exact tells_of_onAlive_eq (angleSampleL · a b) h rfl (if_neg (by simp [hreleased]))
  case sampleHeld =>
    intro s ln c l a b h hheld
    exact gives_self_of_shared (angleSampleL · a b) h rfl (if_pos hheld)
  case sampleOff =>
    intro s ln c l a b h hoff0 hoff1
    exact gives_self_of_shared (angleSampleL · a b) h rfl (angleSampleL_of_off hoff0 hoff1)
  case sampleValid =>
    intro s ln c l a b sc d h hreleased hon hoff1 hsc hlow hhigh hsin hcos hsupply hstarted hintime hd hnear
    obtain ⟨⟨hpos, hvalid, hcoasting, hinvalid⟩, hraw, htouch⟩ :=
      Lane.afSample_near_spec ⟨hon, hsc, hlow, hhigh, hsin, hcos, hsupply, hintime⟩ hstarted hd hnear
    have hother : (l.afSample c 0 a).afSample c 1 b = l.afSample c 0 a :=
      Lane.afSample_of_off ((htouch.get _ (by decide)).trans hoff1) b
    refine ⟨_, tells_of_onAlive_eq (angleSampleL · a b) h rfl ((if_neg (by simp [hreleased])).trans hother), ?_⟩
    exact ⟨hpos, hvalid, hcoasting, hraw, hinvalid, htouch.regs, htouch.sameMem⟩
  case angleFault =>
    intro s ln c l n t h hinvalid hpast hfirst
    exact tells_of_onAlive_eq (angleFaultTimeoutL · n) h rfl
      ((angleFaultTimeoutL_of_past hinvalid hpast).trans (Lane.saFault_of_first _ hfirst))
  case angleNoFault =>
    intro s ln c l n h hnone
    exact gives_self_of_shared (angleFaultTimeoutL · n) h rfl (angleFaultTimeoutL_of_none hnone)
  case startFault =>
    intro s ln c l n t h hcheck hlate hon hunstarted
    exact tells_of_onAlive_eq (interfaceStartTimeoutL · n) h rfl (interfaceStartTimeoutL_of_late hcheck hlate hon hunstarted)
  case startNoFault =>
    intro s ln c l n h hnone
    exact gives_self_of_shared (interfaceStartTimeoutL · n) h rfl (interfaceStartTimeoutL_of_not_late hnone)
  case speedZero =>
    intro s ln c l n t up h hcross hlong hcoasting
    exact gives_of_onAlive_eq (speedZeroTimeoutL · n) h rfl (speedZeroTimeoutL_of_stopped hcross hlong hcoasting)
  case speedKept =>
    intro s ln c l n h hnone
    exact gives_of_onAlive_eq (speedZeroTimeoutL · n) h rfl (speedZeroTimeoutL_of_none hnone)
  case contactOff =>
    intro s ln c l n a b e1 e2 h hoff
    exact gives_of_onAlive_eq (contactSampleL · n ⟨a, e1⟩ ⟨b, e2⟩) h rfl (contactSampleL_of_off hoff)
  case contactsOn =>
    intro s ln c l n e h hmode hfilt hmask0 hmask1 hc1 hc2 hn1 hn2 hnone hstate hoff
    obtain ⟨hon, h1, h2, htime, hmixed, hflag, htouch⟩ := contactSampleL_both_on_spec (c := c) (e := e) hmode hfilt hmask0 hmask1 hc1 hc2
      hn1 hn2 hnone (by simpa [Lane.bit] using hstate) hoff rfl
    exact ⟨_, gives_of_onAlive (contactSampleL · n ⟨true, e⟩ ⟨true, e⟩) h rfl, hon, h1, h2, htime, hmixed, hflag, htouch.regs,
      htouch.sameMem⟩
  case discrepancy =>
    intro s ln c l n t h hmixed hpast hnone
    obtain ⟨hkind, htime, hstate⟩ := Lane.pairFault_new_spec (kind := 1) hnone (by decide)
    have hflag := Lane.bit_flag_pairFault_new (kind := 1) (f := R.SI_FLAGS_discrepancy) hnone (by decide) rfl rfl
      fun y => y.bit_flag_same _ rfl (by decide)
    have htouch := touches_pairFault l n.val 1
    exact ⟨_, gives_of_onAlive_eq (discrepancyTimeoutL · n) h rfl (discrepancyTimeoutL_of_past hmixed hpast), hkind, htime, hflag, hstate,
      htouch.regs, htouch.sameMem⟩
  case agreeing =>
    intro s ln c l n h hmixed
    exact gives_of_onAlive_eq (discrepancyTimeoutL · n) h rfl (discrepancyTimeoutL_of_not_mixed hmixed)
  case pulseStart =>
    intro s ln c l k h hidle hdue
    exact gives_of_onAlive_eq (testPulseStartL · k) h rfl (testPulseStartL_of_due hidle hdue)
  case pulseNotDue =>
    intro s ln c l k h hnot
    exact gives_of_onAlive_eq (testPulseStartL · k) h rfl (testPulseStartL_of_not_due hnot)
  case checkNone =>
    intro s ln c l k a b t h hstart hpulsing hunchecked hdue hnone
    exact gives_of_onAlive_eq (testPulseCheckL · k a b) h rfl
      (testPulseCheckL_of_none_checked a b hstart hpulsing hunchecked hdue hnone)
  case checkShort =>
    intro s ln c l k a b t h hstart hdue hk hpulsing hunchecked hcheck hmode hpre hhigh hnone
    have hmarked := testPulseCheckL_of_due a b hstart hpulsing hunchecked hdue
    rw [hk] at hmarked hpre
    obtain ⟨hkind, htime, hflag, hstate, hmem⟩ := foldl_checkPair_short_high_spec (b := b)
      (l := l.setSource 0 { l.source 0 with checked := true }) hcheck hmode hpre hhigh hnone rfl
    exact ⟨_, gives_of_onAlive_eq (testPulseCheckL · k a b) h rfl hmarked, hkind, htime, hflag, hstate, SameMem.of_mem_eq hmem⟩
  case pulseEnd =>
    intro s ln c l k t h hstart hpulsing hover
    exact gives_of_onAlive_eq (testPulseEndL · k) h rfl (testPulseEndL_of_over hstart hpulsing hover)
  case pulseIdle =>
    intro s ln c l k h hidle
    exact gives_of_onAlive_eq (testPulseEndL · k) h rfl (testPulseEndL_of_idle hidle)
  case sourceFault =>
    intro s ln c l k h hnone
    exact gives_of_onAlive_eq (fun _ l => tpSourceFaultL k l) h rfl (tpSourceFaultL_of_none_checked hnone)
  case doSetNone =>
    intro s ln c l v h hactive hhalt hrole
    have hrole' (k : Nat) (hk : k < 8) : (l.put R.SI_DO_SET_out v.toNat).get (R.SI_DOk_CFG_role k) ≠ 2 := by
      rw [Lane.get_put_addr _ _ _ _ (by simp only [R.SI_DOk_CFG, R.SI_DO_SET]; omega)]
      exact hrole k hk
    refine gives_of_onAlive_eq (doSetWriteL · v) h rfl ?_
    rw [doSetWriteL_of_acted v hactive hhalt, Lane.setRole2_of_none _ hrole']
  case doSetAll =>
    intro s ln c l v h hactive hhalt hrole hfree
    obtain ⟨hcmd, hout, hbus, htouch⟩ := doSetWriteL_all_spec (c := c) (v := v) hactive hhalt hrole hfree rfl
    exact ⟨_, gives_of_onAlive (doSetWriteL · v) h rfl, hcmd, hout, hbus, htouch.regs, htouch.sameMem⟩
  case doSetIgnored =>
    intro s ln c l v h hnot
    exact gives_of_onAlive_eq (doSetWriteL · v) h rfl (doSetWriteL_of_ignored v hnot)
  case offPulseFailed =>
    intro s ln c l k a b d h hslot hfails hfirst
    obtain ⟨hvalid, hkind, htime, hstage, hflag, htouch⟩ := Lane.outputFault_first_spec (kind := 4) (by decide) hfirst rfl
    exact ⟨_, gives_of_onAlive_eq (outputOffPulseL · k a b d) h rfl (outputOffPulseL_of_failed hslot hfails), hvalid, hkind, htime,
      Lane.outputDriven_of_stageOff hstage k.isLt, hflag, htouch.regs, htouch.sameMem⟩
  case offPulseMet =>
    intro s ln c l k a b d h hmet
    exact gives_of_onAlive_eq (outputOffPulseL · k a b d) h rfl (outputOffPulseL_of_met hmet)
  case outputFault =>
    intro s ln c l k f h hshown hfirst
    obtain ⟨hvalid, hkind, htime, hstage, -, htouch⟩ := Lane.outputFault_first_spec (kind := f.val) (by omega) hfirst rfl
    obtain ⟨hshow, hrow⟩ := mayShow_of_conditions hshown
    exact ⟨_, gives_of_onAlive_eq (outputFaultL · k f) h rfl (outputFaultL_of_shown hshow hrow), hvalid, hkind, htime, hstage,
      htouch.regs, htouch.sameMem⟩
  case outputNoFault =>
    intro s ln c l k f h hnot
    exact gives_of_onAlive_eq (outputFaultL · k f) h rfl (outputFaultL_of_conditions_fail hnot)
  case analogSampled =>
    intro s ln c l a b h hreleased
    exact tells_of_onAlive_eq (analogSampleL · a b) h rfl (if_neg (by simp [hreleased]))
  case analogHeld =>
    intro s ln c l a b h hheld
    exact tells_of_onAlive_eq (analogSampleL · a b) h rfl (if_pos hheld)
  case analogOff =>
    intro s ln c l a b h hoff
    exact tells_of_onAlive_eq (analogSampleL · a b) h rfl (analogSampleL_of_off hoff)
  case analogFault =>
    intro s ln c l n t h hinvalid hpast hlo hhi huntold hfirst
    exact tells_of_onAlive_eq (analogFaultTimeoutL · n) h rfl
      ((analogFaultTimeoutL_of_sensor hinvalid hpast hlo hhi huntold).trans (Lane.spFault_of_first _ hfirst))
  case analogPlain =>
    intro s ln c l n t h hinvalid hpast hrole huntold
    exact tells_of_onAlive_eq (analogFaultTimeoutL · n) h rfl (analogFaultTimeoutL_of_plain hinvalid hpast hrole huntold)
  case analogNoFault =>
    intro s ln c l n h hnone
    exact gives_self_of_shared (analogFaultTimeoutL · n) h rfl (analogFaultTimeoutL_of_none hnone)
  case supplyFault =>
    intro s ln c l k mv lim h hon hbad hfew
    obtain ⟨hoff, hfault, hfaults, hmv, hlimit, hflag⟩ := shownOff_supplyOff (k := k.val) c l mv
      (faults := l.get (R.SI_SUP_faults k.val) + 1) (by omega)
    have htouch := touches_supplyOff c l k.val mv (l.get (R.SI_SUP_faults k.val) + 1)
    exact ⟨_, gives_of_onAlive_eq (supplyFaultL · k mv lim) h rfl (supplyFaultL_of_retried hon hbad hfew), hoff, hfault, hfaults, hmv,
      hlimit, hflag, Lane.supOffAt_supplyCut c _ k.val, Lane.supplyOff_stageOn c l k.val mv _, htouch.regs, htouch.sameMem⟩
  case supplyLatched =>
    intro s ln c l k mv lim h hon hbad hmany
    obtain ⟨hoff, hfaults, hlatched, hflag, htouch⟩ := supplyLatched_spec (c := c) (l := l) (k := k.val) (mv := mv) rfl
    exact ⟨_, gives_of_onAlive_eq (supplyFaultL · k mv lim) h rfl (supplyFaultL_of_third hon hbad hmany), hoff, hfaults, hlatched, hflag,
      htouch.regs, htouch.sameMem⟩
  case supplyFine =>
    intro s ln c l k mv lim h hfine
    exact gives_of_onAlive_eq (supplyFaultL · k mv lim) h rfl (supplyFaultL_of_none hfine)
  case supplyRetry =>
    intro s ln c l k t h hoffAt hfault hlatched hdue
    obtain ⟨hon, hcleared, hlimit, hok, hstage, htouch⟩ := Lane.supplyOn_spec (okAt := c.now + 1000000) k.isLt hlatched rfl
    exact ⟨_, gives_of_onAlive_eq (supplyRetryL · k) h rfl (supplyRetryL_of_due hoffAt hfault hlatched hdue), hon, hcleared, hlimit, hok,
      hstage, htouch.regs, htouch.sameMem⟩
  case supplyNoRetry =>
    intro s ln c l k h hnone
    exact gives_of_onAlive_eq (supplyRetryL · k) h rfl (supplyRetryL_of_none hnone)

end Sys2Proof.Machine

/-! PROOFS. The marshal's registers and flags (R399, R404, R405, R409), and the statements on violations and on branches admitted again. -/

namespace Sys2Proof.Machine

/-! ### The marshal's registers read after an update (R409) -/

section
variable {f g : Fld}

theorem Marshal.get_put_same (m : Marshal) (v : Nat) (h : f.lo ≤ f.hi) (h32 : f.hi < 32) :
    (m.put f v).get f = v % 2 ^ (f.hi - f.lo + 1) := by
  rw [Marshal.get, Marshal.put, bankGet_bankSet_same, fldOf_fldPut_same f _ v h h32]

theorem Marshal.get_put_addr (m : Marshal) (v : Nat) (haddr : g.addr ≠ f.addr) : (m.put f v).get g = m.get g := by
  rw [Marshal.get, Marshal.put, bankGet_bankSet, if_neg haddr, Marshal.get]

theorem Marshal.get_inc_addr (m : Marshal) (haddr : g.addr ≠ f.addr) : (m.inc f).get g = m.get g := m.get_put_addr _ haddr

/-- A field of the marshal that shares no bit with the one put in its register reads as before. -/
theorem Marshal.get_put_apart (m : Marshal) (v : Nat) (h : f.lo ≤ f.hi) (h32 : f.hi < 32) (hg : g.lo ≤ g.hi)
    (hapart : f.hi < g.lo ∨ g.hi < f.lo) : (m.put f v).get g = m.get g := by
  by_cases haddr : g.addr = f.addr
  · rw [Marshal.get, Marshal.put, haddr, bankGet_bankSet_same, Marshal.get, haddr]
    obtain habove | hbelow := hapart
    · exact fldOf_fldPut_above f g _ v h h32 habove
    · exact fldOf_fldPut_below f g _ v h h32 hg hbelow
  · exact m.get_put_addr v haddr

@[simp] theorem Marshal.get_setBranch (m : Marshal) (b : Nat) (x : Branch) : (m.setBranch b x).get f = m.get f := rfl

-- The updates are rewritten one at a time: the kernel is not to compare two marshals whose registers differ.

@[simp] theorem Marshal.put_forwarding (m : Marshal) (v : Nat) : (m.put f v).forwarding = m.forwarding := by
  rw [Marshal.put]

@[simp] theorem Marshal.inc_forwarding (m : Marshal) : (m.inc f).forwarding = m.forwarding := by
  rw [Marshal.inc, Marshal.put_forwarding]

@[simp] theorem Marshal.setBranch_forwarding (m : Marshal) (b : Nat) (x : Branch) : (m.setBranch b x).forwarding = m.forwarding := by
  rw [Marshal.setBranch]

@[simp] theorem Marshal.summary_forwarding (m : Marshal) (b : Nat) : (m.summary b).forwarding = m.forwarding := by
  rw [Marshal.summary, Marshal.put_forwarding, Marshal.put_forwarding]

/-- The summary bits of the branches stand in a register of their own. -/
theorem Marshal.get_summary (m : Marshal) (b : Nat) (hf : f.addr ≠ R.MS_BR_DISQ) : (m.summary b).get f = m.get f :=
  (Marshal.get_put_addr _ _ hf).trans (m.get_put_addr _ hf)

end

/-! ### What the marshal does shows in the lanes in MS_FLAGS alone (R409) -/

/-- From `s` to `t`, of the registers, memory, time and bus outcome of the lanes only MS_FLAGS may have changed. -/
structure ShowsFlagsOnly (s t : State) : Prop where
  touches : ∀ ln, Touches [R.MS_FLAGS] (s.lane ln) (t.lane ln)
  bus : ∀ ln, (t.lane ln).bus = (s.lane ln).bus

section
variable {s t : State} {f g : Fld}

theorem ShowsFlagsOnly.refl (s : State) : ShowsFlagsOnly s s := ⟨fun _ => .refl _ _, fun _ => rfl⟩

theorem ShowsFlagsOnly.trans {u : State} (hst : ShowsFlagsOnly s t) (htu : ShowsFlagsOnly t u) : ShowsFlagsOnly s u where
  touches ln := (hst.touches ln).trans (htu.touches ln)
  bus ln := (htu.bus ln).trans (hst.bus ln)

/-- A change of the marshal itself. -/
theorem showsFlagsOnly_marshal (s : State) (m : Marshal) : ShowsFlagsOnly s { s with marshal := m } where
  touches ln := by cases ln <;> exact .refl _ _
  bus ln := by cases ln <;> rfl

theorem showsFlagsOnly_setLane {ln : LaneId} {l : Lane} (htouch : Touches [R.MS_FLAGS] (s.lane ln) l) (hbus : l.bus = (s.lane ln).bus) :
    ShowsFlagsOnly s (s.setLane ln l) where
  touches y := by
    by_cases hy : y = ln
    · rw [hy, State.lane_setLane_same]
      exact htouch
    · rw [State.lane_setLane_ne _ _ _ _ hy]
      exact .refl _ _
  bus y := by
    by_cases hy : y = ln
    · rw [hy, State.lane_setLane_same, hbus]
    · rw [State.lane_setLane_ne _ _ _ _ hy]

theorem showsFlagsOnly_msFlagIn (ln : LaneId) (hf : f.addr = R.MS_FLAGS) : ShowsFlagsOnly s (s.msFlagIn f ln) := by
  unfold State.msFlagIn
  split
  · exact showsFlagsOnly_setLane (touches_flag (by simp [hf])) (Lane.flag_bus _ f)
  · exact .refl s

theorem showsFlagsOnly_msFlag (s : State) (hf : f.addr = R.MS_FLAGS) : ShowsFlagsOnly s (s.msFlag f) :=
  (((showsFlagsOnly_marshal s _).trans (showsFlagsOnly_msFlagIn .a hf)).trans (showsFlagsOnly_msFlagIn .b hf)).trans
    (showsFlagsOnly_msFlagIn .c hf)

/-! ### A flag of the marshal set (R409) -/

@[simp] theorem State.msFlagIn_marshal (s : State) (f : Fld) (ln : LaneId) : (s.msFlagIn f ln).marshal = s.marshal := by
  unfold State.msFlagIn
  split
  · exact s.setLane_marshal ln _
  · rfl

theorem State.msFlag_marshal (s : State) (f : Fld) :
    (s.msFlag f).marshal = { s.marshal.put f 1 with
      evt := tabPut s.marshal.evt f.lo (min ((tabGet s.marshal.evt f.lo).getD 0 + 1) 0xFFFFFFFF) } := by
  simp [State.msFlag, Marshal.put]

@[simp] theorem State.msFlag_forwarding (s : State) (f : Fld) : (s.msFlag f).marshal.forwarding = s.marshal.forwarding := by
  rw [State.msFlag_marshal, Marshal.put]

theorem State.get_msFlag (s : State) (hg : g.addr ≠ f.addr) : (s.msFlag f).marshal.get g = s.marshal.get g := by
  rw [State.msFlag_marshal]
  exact s.marshal.get_put_addr 1 hg

/-! ### What the marshal does of itself (R386, R389, R398) -/

theorem showsFlagsOnly_msGo (s : State) (st : Nat) : ShowsFlagsOnly s (s.msGo st) := by
  unfold State.msGo
  split
  · exact .refl s
  · exact (showsFlagsOnly_marshal s _).trans (showsFlagsOnly_msFlag _ rfl)

theorem showsFlagsOnly_settleClock (s : State) : ShowsFlagsOnly s s.settleClock := by
  unfold State.settleClock
  split
  · split
    · exact showsFlagsOnly_marshal s _
    · exact .refl s
  · exact .refl s

theorem showsFlagsOnly_settleSync (s : State) : ShowsFlagsOnly s s.settleSync := by
  unfold State.settleSync
  split
  · split
    · exact ((showsFlagsOnly_marshal s _).trans (showsFlagsOnly_msGo _ msSynced)).trans (showsFlagsOnly_marshal _ _)
    · exact .refl s
  · exact .refl s

theorem showsFlagsOnly_settleMarshal (s : State) : ShowsFlagsOnly s s.settleMarshal := by
  have hclock := (showsFlagsOnly_settleClock s).trans (showsFlagsOnly_settleSync s.settleClock)
  unfold State.settleMarshal State.refuseTables
  dsimp only
  split
  · exact hclock.trans ((showsFlagsOnly_marshal _ _).trans (showsFlagsOnly_msFlag _ rfl))
  · exact hclock

/-- A command of a supplied marshal follows what the marshal has done by now of itself. -/
theorem onMarshal_of_powered (k : State → State) (hpart : s.part.marshal = true) (hon : s.marshal.powered = true) :
    onMarshal k s = .next (k s.settleMarshal) := if_pos (by simp [hpart, hon])

/-! ### The registers of a branch (R405, R409) -/

/-- The status of a branch stands in a register apart from the marshal's flags, the summary bits and what else is recorded of a branch. -/
theorem msBranchStat_ne (b : Nat) : R.MS_BRb_STAT b ≠ R.MS_FLAGS ∧ R.MS_BRb_STAT b ≠ R.MS_BR_DISQ ∧
    R.MS_BRb_STAT b ≠ R.MS_BRb_VIOL b ∧ R.MS_BRb_STAT b ≠ R.MS_BRb_TIME b := by
  simp only [R.MS_BRb_STAT, R.MS_FLAGS, R.MS_BR_DISQ, R.MS_BRb_VIOL, R.MS_BRb_TIME]
  omega

theorem msBranchStat_inj {b x : Nat} (h : x ≠ b) : R.MS_BRb_STAT x ≠ R.MS_BRb_STAT b := by
  simp only [R.MS_BRb_STAT]
  omega

end

/-! ### A branch admitted again (R405) -/

/-- A branch that is admitted again: it has level 0, and every other branch keeps its status. -/
theorem State.requalify_spec {s t : State} {b : Nat} (ht : s.requalify b = t) :
    t.marshal.disq b = false ∧ t.marshal.perm b = false ∧ t.marshal.get (R.MS_BRb_STAT_level b) = 0 ∧
      ∀ x, x ≠ b → t.marshal.disq x = s.marshal.disq x := by
  have hget {f : Fld} (x : Nat) (hf : f.addr = R.MS_BRb_STAT x) : t.marshal.get f =
      (((s.marshal.put (R.MS_BRb_STAT_disqualified b) 0).put (R.MS_BRb_STAT_permanent b) 0).put (R.MS_BRb_STAT_level b) 0).get f := by
    obtain ⟨hflags, hsummary, -, -⟩ := msBranchStat_ne x
    rw [← ht, State.requalify, State.get_msFlag _ (by rwa [hf]), Marshal.get_summary _ _ (by rwa [hf])]
  refine ⟨?disq, ?perm, ?level, fun x hx => ?other⟩
  case disq =>
    rw [Marshal.disq, hget b rfl]
    simp (disch := simp) [Marshal.get_put_apart, Marshal.get_put_same]
  case perm =>
    rw [Marshal.perm, hget b rfl]
    simp (disch := simp) [Marshal.get_put_apart, Marshal.get_put_same]
  case level =>
    rw [hget b rfl]
    simp (disch := simp) [Marshal.get_put_same]
  case other =>
    have hne := msBranchStat_inj hx
    rw [Marshal.disq, hget x rfl, Marshal.get_put_addr _ _ hne, Marshal.get_put_addr _ _ hne, Marshal.get_put_addr _ _ hne,
      Marshal.disq]

theorem showsFlagsOnly_requalify (s : State) (b : Nat) : ShowsFlagsOnly s (s.requalify b) :=
  (showsFlagsOnly_marshal s _).trans (showsFlagsOnly_msFlag _ rfl)

/-! ### Branches named by MS_REQUAL (R405) -/

/-- MS_REQUAL at one branch: it is admitted again where the value names it and it is disqualified. -/
def State.requalNamed (v : Word) (s : State) (b : Nat) : State :=
  if v.getLsbD b && s.marshal.disq b then s.requalify b else s

theorem State.disq_requalNamed (v : Word) (s : State) (b x : Nat) :
    (s.requalNamed v b).marshal.disq x = if x = b then s.marshal.disq b && !v.getLsbD b else s.marshal.disq x := by
  unfold State.requalNamed
  split
  case isTrue hnamed =>
    obtain ⟨hdisq, -, -, hother⟩ := State.requalify_spec (s := s) (b := b) rfl
    split
    case isTrue hx =>
      rw [hx, hdisq]
      simp_all
    case isFalse hx => exact hother x hx
  case isFalse hnamed =>
    split
    case isTrue hx =>
      rw [hx]
      cases hv : v.getLsbD b with
      | false => simp
      | true => simpa [hv] using hnamed
    case isFalse => rfl

theorem showsFlagsOnly_requalNamed (v : Word) (s : State) (b : Nat) : ShowsFlagsOnly s (s.requalNamed v b) := by
  unfold State.requalNamed
  split
  · exact showsFlagsOnly_requalify s b
  · exact .refl s

/-- MS_REQUAL at the branches of a list, none of which stands in it twice. -/
theorem State.disq_foldl_requalNamed (v : Word) (bs : List Nat) (hbs : bs.Nodup) (s : State) (x : Nat) :
    (bs.foldl (State.requalNamed v) s).marshal.disq x = if x ∈ bs then s.marshal.disq x && !v.getLsbD x else s.marshal.disq x := by
  induction bs generalizing s with
  | nil => rfl
  | cons b t ih =>
    obtain ⟨hb, ht⟩ := List.nodup_cons.mp hbs
    rw [List.foldl_cons, ih ht, State.disq_requalNamed]
    by_cases hx : x = b
    · subst hx
      simp [hb]
    · simp [hx]

theorem showsFlagsOnly_foldl_requalNamed (v : Word) (bs : List Nat) (s : State) : ShowsFlagsOnly s (bs.foldl (State.requalNamed v) s) :=
  List.foldlRecOn (motive := ShowsFlagsOnly s) bs _ (.refl s) fun y hy b _ => hy.trans (showsFlagsOnly_requalNamed v y b)

/-- MS_REQUAL_WRITE in a lane of a part with a marshal. -/
theorem msRequalWrite_eq {s : State} {ln : LaneId} (v : Word) (hpart : s.part.marshal = true) (hhas : s.has ln = true)
    (halive : (s.lane ln).alive = true) :
    exec (.msRequalWrite ln v) s =
      .next (if s.reaches ln && (s.lane ln).parked then
          (List.range 16).foldl (State.requalNamed v) (s.setLane ln { s.lane ln with bus := .done })
        else s.setLane ln { s.lane ln with bus := .done }) := by
  refine (if_pos (by simp [hhas, halive])).trans ?_
  simp only [hpart, if_true]
  split <;> rfl

theorem marshalRequalify_of_over {s : State} {b : Fin 16} (hpart : s.part.marshal = true) (hon : s.marshal.powered = true)
    (hover : s.settleMarshal.disqOver b.val = true) : exec (.marshalRequalify b) s = .next (s.settleMarshal.requalify b.val) :=
  (onMarshal_of_powered (fun s => if s.disqOver b.val then s.requalify b.val else s) hpart hon).trans (congrArg _ (if_pos hover))

/-- Settles O17: the branch admitted again, and MS_REQUAL at each of the 16 branches. -/
theorem marshalReadmitsBranches : Obligations.MarshalReadmitsBranches := by
  refine ⟨?ended, ?write, ?refused⟩
  case ended =>
    rintro s _ b hpart hon rfl hover
    obtain ⟨hdisq, hperm, hlevel, hother⟩ := State.requalify_spec (rfl : s.settleMarshal.requalify b.val = _)
    exact ⟨_, marshalRequalify_of_over hpart hon hover, hdisq, hperm, hlevel, fun x hx => hother x.val (Fin.val_ne_of_ne hx)⟩
  case write =>
    intro s ln v hpart hon hhas halive hlink hparked
    have hreach : s.reaches ln = true := by simp [State.reaches, hpart, hon, hlink]
    refine ⟨_, (msRequalWrite_eq v hpart hhas halive).trans (by rw [if_pos (by simp [hreach, hparked])]), fun b => ?_, ?_⟩
    · rw [State.disq_foldl_requalNamed v _ List.nodup_range, if_pos (List.mem_range.mpr b.isLt), State.setLane_marshal]
    · rw [(showsFlagsOnly_foldl_requalNamed v _ _).bus, State.lane_setLane_same]
  case refused =>
    intro s ln v hpart hhas halive hparked
    rw [msRequalWrite_eq v hpart hhas halive, if_neg (by simp [hparked])]

/-! ### A violation (R404, R405) -/

/-- The record of a violation of a branch at an instant, and at a time of the marshal. -/
def Marshal.countViolation (m : Marshal) (b kind level now : Nat) (time : Word) : Marshal :=
  let m1 := ((m.inc (R.MS_BRb_VIOL_count b)).put (R.MS_BRb_STAT_last_kind b) kind).put (R.MS_BRb_STAT_level b) level
  let m2 := { m1 with regs := bankSet m1.regs (R.MS_BRb_TIME b) time }
  m2.setBranch b { m2.branch b with violAt := now }

/-- A violation of a branch counted and recorded, with what the lanes see of it. -/
def State.countViolation (s : State) (b kind : Nat) : State :=
  { s with marshal := s.marshal.countViolation b kind (min (s.levelNow b + 1) 255) s.now s.clusterTime }.msFlag R.MS_FLAGS_violation

/-- The status of a branch disqualified for the `n`-th time, the third time for good. -/
def Marshal.disqualify (m : Marshal) (b n : Nat) : Marshal :=
  let m1 := (m.put (R.MS_BRb_STAT_disqualified b) 1).put (R.MS_BRb_STAT_disq_count b) (min n 255)
  if 3 ≤ n then m1.put (R.MS_BRb_STAT_permanent b) 1 else m1

/-- A branch disqualified for the `n`-th time, at an instant, with what the lanes see of it. -/
def State.disqualify (s : State) (b n now : Nat) : State :=
  let m := s.marshal.disqualify b n
  let t := { s with marshal := (m.setBranch b { m.branch b with disqAt := now }).summary b }.msFlag R.MS_FLAGS_disqualified
  if 3 ≤ n then t.msFlag R.MS_FLAGS_perm_disq else t

section
variable {s t : State} {b kind n now : Nat}

theorem State.violation_eq (s : State) (b kind : Nat) :
    s.violation b kind =
      if s.marshal.disq b = true ∨ min (s.levelNow b + 1) 255 < s.marshal.get R.MS_CFG_disq_limit then s.countViolation b kind
      else (s.countViolation b kind).disqualify b (s.marshal.get (R.MS_BRb_STAT_disq_count b) + 1) s.now := rfl

theorem showsFlagsOnly_countViolation (s : State) (b kind : Nat) : ShowsFlagsOnly s (s.countViolation b kind) :=
  (showsFlagsOnly_marshal s _).trans (showsFlagsOnly_msFlag _ rfl)

theorem showsFlagsOnly_disqualify (s : State) (b n now : Nat) : ShowsFlagsOnly s (s.disqualify b n now) := by
  unfold State.disqualify
  dsimp only
  split
  · exact ((showsFlagsOnly_marshal s _).trans (showsFlagsOnly_msFlag _ rfl)).trans (showsFlagsOnly_msFlag _ rfl)
  · exact (showsFlagsOnly_marshal s _).trans (showsFlagsOnly_msFlag _ rfl)

/-- What is shown of a counted violation; that the branch is admitted or disqualified is as before. -/
theorem Marshal.countViolation_spec {m x : Marshal} {level : Nat} {time : Word} (hkind : kind < 8) (hlevel : level < 256)
    (hx : m.countViolation b kind level now time = x) :
    x.get (R.MS_BRb_STAT_last_kind b) = kind ∧ x.get (R.MS_BRb_STAT_level b) = level ∧ x.disq b = m.disq b ∧
      x.forwarding = m.forwarding := by
  obtain ⟨-, -, hviol, htime⟩ := msBranchStat_ne b
  have hget {f : Fld} (hf : f.addr = R.MS_BRb_STAT b) : x.get f =
      (((m.inc (R.MS_BRb_VIOL_count b)).put (R.MS_BRb_STAT_last_kind b) kind).put (R.MS_BRb_STAT_level b) level).get f := by
    rw [← hx, Marshal.countViolation, Marshal.get_setBranch, Marshal.get, bankGet_bankSet, if_neg (by rwa [hf]), Marshal.get]
  refine ⟨?lastKind, ?levelShown, ?disq, ?forwarding⟩
  case lastKind =>
    rw [hget rfl, Marshal.get_put_apart _ _ (by simp) (by simp) (by simp) (by simp), Marshal.get_put_same _ _ (by simp) (by simp)]
    exact Nat.mod_eq_of_lt hkind
  case levelShown =>
    rw [hget rfl, Marshal.get_put_same _ _ (by simp) (by simp)]
    exact Nat.mod_eq_of_lt hlevel
  case disq =>
    rw [Marshal.disq, hget rfl, Marshal.get_put_apart _ _ (by simp) (by simp) (by simp) (by simp),
      Marshal.get_put_apart _ _ (by simp) (by simp) (by simp) (by simp), Marshal.get_inc_addr _ hviol, Marshal.disq]
  case forwarding =>
    rw [← hx]
    simp [Marshal.countViolation]

/-- The same of the module. -/
theorem State.countViolation_spec (hkind : kind < 8) (ht : s.countViolation b kind = t) :
    t.marshal.get (R.MS_BRb_STAT_last_kind b) = kind ∧ t.marshal.get (R.MS_BRb_STAT_level b) = min (s.levelNow b + 1) 255 ∧
      t.marshal.disq b = s.marshal.disq b ∧ t.marshal.forwarding = s.marshal.forwarding := by
  have hflags := (msBranchStat_ne b).1
  have hrecord := Marshal.countViolation_spec (b := b) hkind (show min (s.levelNow b + 1) 255 < 256 by omega)
    (rfl : s.marshal.countViolation b kind _ s.now s.clusterTime = _)
  rw [← ht, State.countViolation, State.msFlag_forwarding, State.get_msFlag _ hflags, State.get_msFlag _ hflags, Marshal.disq,
    State.get_msFlag _ hflags, ← Marshal.disq]
  exact hrecord

/-- A branch disqualified shows it, and what was recorded of its violation stays. -/
theorem Marshal.disqualify_spec {m x : Marshal} (hx : m.disqualify b n = x) :
    x.disq b = true ∧ (3 ≤ n → x.perm b = true) ∧ x.get (R.MS_BRb_STAT_last_kind b) = m.get (R.MS_BRb_STAT_last_kind b) ∧
      x.get (R.MS_BRb_STAT_level b) = m.get (R.MS_BRb_STAT_level b) ∧ x.forwarding = m.forwarding := by
  subst hx
  unfold Marshal.disqualify Marshal.disq Marshal.perm
  by_cases hn : 3 ≤ n <;> simp (disch := simp) [hn, Marshal.get_put_apart, Marshal.get_put_same]

/-- The same of the module. -/
theorem State.disqualify_spec (ht : s.disqualify b n now = t) :
    t.marshal.disq b = true ∧ (3 ≤ n → t.marshal.perm b = true) ∧
      t.marshal.get (R.MS_BRb_STAT_last_kind b) = s.marshal.get (R.MS_BRb_STAT_last_kind b) ∧
      t.marshal.get (R.MS_BRb_STAT_level b) = s.marshal.get (R.MS_BRb_STAT_level b) ∧
      t.marshal.forwarding = s.marshal.forwarding := by
  obtain ⟨hdisq, hperm, hlast, hlevel, hforwarding⟩ := Marshal.disqualify_spec (m := s.marshal) (b := b) (n := n) rfl
  obtain ⟨hflags, hsummary, -, -⟩ := msBranchStat_ne b
  have hget {f : Fld} (hf : f.addr = R.MS_BRb_STAT b) : t.marshal.get f = (s.marshal.disqualify b n).get f := by
    rw [← hf] at hflags hsummary
    rw [← ht, State.disqualify]
    dsimp only
    split
    · rw [State.get_msFlag _ hflags, State.get_msFlag _ hflags, Marshal.get_summary _ _ hsummary, Marshal.get_setBranch]
    · rw [State.get_msFlag _ hflags, Marshal.get_summary _ _ hsummary, Marshal.get_setBranch]
  refine ⟨?disq, fun hn => ?perm, (hget rfl).trans hlast, (hget rfl).trans hlevel, ?forwarding⟩
  case disq => rw [Marshal.disq, hget rfl, ← Marshal.disq, hdisq]
  case perm => rw [Marshal.perm, hget rfl, ← Marshal.perm, hperm hn]
  case forwarding =>
    rw [← ht, State.disqualify, ← hforwarding]
    dsimp only
    split <;> simp

/-- What a violation records of its branch; at disq_limit the branch is disqualified. -/
theorem State.violation_spec (hkind : kind < 8) (ht : s.violation b kind = t) :
    t.marshal.get (R.MS_BRb_STAT_last_kind b) = kind ∧ t.marshal.get (R.MS_BRb_STAT_level b) = min (s.levelNow b + 1) 255 ∧
      (s.marshal.disq b = false → s.marshal.get R.MS_CFG_disq_limit ≤ min (s.levelNow b + 1) 255 →
        t.marshal.disq b = true ∧ (2 ≤ s.marshal.get (R.MS_BRb_STAT_disq_count b) → t.marshal.perm b = true)) ∧
      (s.marshal.disq b = false → min (s.levelNow b + 1) 255 < s.marshal.get R.MS_CFG_disq_limit → t.marshal.disq b = false) ∧
      t.marshal.forwarding = s.marshal.forwarding ∧ ShowsFlagsOnly s t := by
  have hshows := showsFlagsOnly_countViolation s b kind
  obtain ⟨hlast, hlevel, hdisq, hforwarding⟩ := State.countViolation_spec hkind (rfl : s.countViolation b kind = _)
  rw [State.violation_eq] at ht
  split at ht
  case isTrue hbelow =>
    subst ht
    refine ⟨hlast, hlevel, fun hadmitted hlimit => ?_, fun hadmitted _ => hdisq.trans hadmitted, hforwarding, hshows⟩
    have : ¬ min (s.levelNow b + 1) 255 < s.marshal.get R.MS_CFG_disq_limit := by omega
    simp [hadmitted, this] at hbelow
  case isFalse hlimit =>
    obtain ⟨hdisq', hperm, hlast', hlevel', hforwarding'⟩ := State.disqualify_spec ht
    refine ⟨hlast'.trans hlast, hlevel'.trans hlevel, fun _ _ => ⟨hdisq', fun htwice => hperm (by omega)⟩,
      fun _ hbelow => absurd (.inr hbelow) hlimit, hforwarding'.trans hforwarding, ?_⟩
    exact hshows.trans (ht ▸ showsFlagsOnly_disqualify _ b _ _)

end

/-! ### A transmission cut off (R401 to R403) -/

/-- The kind of violation that a branch commits whose transmission is cut off (R404). -/
def truncKind : TruncKind → Nat
  | .overrun => 3
  | .header => 4
  | .unsynced => 7

theorem truncKind_lt (k : TruncKind) : truncKind k < 8 := by cases k <;> decide

/-- Nothing is forwarded of a branch that is cut. -/
theorem Marshal.sending_of_forwarding_cutBranch {m x : Marshal} {b : Nat} (hx : x.forwarding = (m.cutBranch b).forwarding) :
    x.sending b = none := by
  rw [Marshal.sending, hx, Marshal.cutBranch, List.find?_eq_none]
  intro y hy
  obtain ⟨z, -, rfl⟩ := List.mem_map.mp hy
  split <;> simp_all

theorem State.truncate_of_cut {s : State} {b : Nat} {k : TruncKind} {x : Forwarded} (hsending : s.marshal.sending b = some x)
    (hcut : s.cutsOff x k = true) :
    s.truncate b k = { s with marshal := s.marshal.cutBranch b }.violation b (truncKind k) := by
  unfold State.truncate
  rw [hsending]
  exact if_pos hcut

theorem State.truncate_of_silent {s : State} {b : Nat} (k : TruncKind) (hsending : s.marshal.sending b = none) :
    s.truncate b k = s := by
  unfold State.truncate
  rw [hsending]

theorem marshalTruncate_eq {s : State} (b : Fin 16) (k : TruncKind) (hpart : s.part.marshal = true) (hon : s.marshal.powered = true) :
    exec (.marshalTruncate b k) s = .next (s.settleMarshal.truncate b.val k) :=
  onMarshal_of_powered (fun s => s.truncate b.val k) hpart hon

/-- Settles O16: the branch is cut, which changes neither its status nor its level, and commits the violation. -/
theorem marshalViolationCounts : Obligations.MarshalViolationCounts := by
  refine ⟨?cut, ?silent⟩
  case cut =>
    rintro s _ b k x kind hpart hon rfl hsending hcut hkind
    have hk : kind = truncKind k := hkind
    obtain ⟨hlast, hlevel, hlimit, hbelow, hforwarding, hshows⟩ :=
      State.violation_spec (s := { s.settleMarshal with marshal := s.settleMarshal.marshal.cutBranch b.val }) (truncKind_lt k) rfl
    have hall := ((showsFlagsOnly_settleMarshal s).trans (showsFlagsOnly_marshal _ _)).trans hshows
    exact ⟨_, (marshalTruncate_eq b k hpart hon).trans (by rw [State.truncate_of_cut hsending hcut]),
      Marshal.sending_of_forwarding_cutBranch hforwarding, hlast.trans hk.symm, hlevel, hlimit, hbelow,
      fun ln => ⟨(hall.touches ln).regs, (hall.touches ln).sameMem⟩⟩
  case silent =>
    rintro s _ b k hpart hon rfl hsending
    rw [marshalTruncate_eq b k hpart hon, State.truncate_of_silent k hsending]

end Sys2Proof.Machine

/-! PROOFS. What the marshal forwards, blocks and cuts off (R371, R399, R400, R402, R403): one equation for each case of a command that is
stated. -/

namespace Sys2Proof.Machine

section
variable {s : State} {t : BranchTable} {ts : MarshalTables} {b : Nat} {p : TxPlace} {f : Option NxFrame}

/-! ### Admission by the state of the marshal (R399, R405) -/

theorem State.admitFrame_of_synced (htable : s.marshal.table b = some t) (htables : s.marshal.tables = some ts)
    (hover : s.disqOver b = false) (hstate : s.marshal.get R.MS_STATUS_state = msSynced) :
    s.admitFrame b p f = s.admitSynced t ts b (s.placeOf ts p) f := by
  simp [State.admitFrame, htable, htables, hover, hstate]

theorem State.admitFrame_of_unsynced (htable : s.marshal.table b = some t) (htables : s.marshal.tables = some ts)
    (hover : s.disqOver b = false) (hstate : s.marshal.get R.MS_STATUS_state = msUnsynced) :
    s.admitFrame b p f = s.admitCold t ts b (s.placeOf ts p) f := by
  have hne : msUnsynced ≠ msSynced := by decide
  simp [State.admitFrame, htable, htables, hover, hstate, hne]

/-! ### In SYNCED (R400, R402) -/

theorem State.admitSynced_of_kept (hkept : s.breach t ts.precision.toNat b p = none) (hdisq : s.marshal.disq b = false) :
    s.admitSynced t ts b p f =
      if inPlace p f = true then (s.forward ts b p f).readFrame t ts b p f else s.forward ts b p f := by
  rw [State.admitSynced, hkept]
  exact if_neg (by simp [hdisq])

theorem State.admitSynced_of_breach {k : Nat} (hbreach : s.breach t ts.precision.toNat b p = some k) :
    s.admitSynced t ts b p f = s.block b p f k := by
  rw [State.admitSynced, hbreach]

/-! ### In UNSYNCED (R403) -/

theorem State.admitCold_of_plain (hplain : t.coldstart = false) : s.admitCold t ts b p f = s.block b p f 7 :=
  if_pos (by simp [hplain])

/-- The branch has started a transmission in this half cycle. -/
def State.coldBegun (s : State) (b : Nat) : State :=
  { s with marshal := s.marshal.setBranch b { s.marshal.branch b with halfAt := some s.now } }

/-- A coldstart branch that has sent nothing before is forwarded, and its frame is read where none overlaps. -/
theorem State.admitCold_of_first (hcold : t.coldstart = true) (hdisq : s.marshal.disq b = false)
    (hfirst : (s.marshal.branch b).halfAt = none) :
    s.admitCold t ts b p f =
      if ((s.coldBegun b).forwardCold b p f).marshal.collided then (s.coldBegun b).forwardCold b p f
      else ((s.coldBegun b).forwardCold b p f).readFrame t ts b p f := by
  rw [State.admitCold, hfirst, if_neg (by simp [hcold]), if_neg (by simp [hdisq])]
  rfl

theorem State.forwardCold_of_alone (halone : s.marshal.forwarding.any (fun y => decide (y.branch ≠ b) && y.runs s.now) = false) :
    s.forwardCold b p f = s.signal b p f (s.marshal.others b) := 
  if_neg (Bool.eq_false_iff.mp halone)

theorem State.forwardCold_of_overlap (hoverlap : s.marshal.forwarding.any (fun y => decide (y.branch ≠ b) && y.runs s.now) = true) :
    s.forwardCold b p f = { s with marshal := { s.marshal.stopAll with collided := true } }.signal b p f [] := if_pos hoverlap

end

theorem marshalAdmit_eq {s : State} (b : Fin 16) (p : TxPlace) (f : Option NxFrame) (hpart : s.part.marshal = true)
    (hon : s.marshal.powered = true) : exec (.marshalAdmit b ⟨p, f⟩) s = .next (s.settleMarshal.admitFrame b.val p f) :=
  onMarshal_of_powered (fun s => s.admitFrame b.val p f) hpart hon

/-- Settles O15: each clause is the equation of its command, in the state after what the marshal has done of itself. -/
theorem marshalForwardsByTable : Obligations.MarshalForwardsByTable := by
  refine ⟨?kept, ?breach, ?plain, ?alone, ?overlap, ?collision, ?noCollision, ?unsync⟩
  case kept =>
    rintro s _ b p _ f t ts hpart hon rfl htable htables rfl hover hstate hkept hdisq
    rw [marshalAdmit_eq b p f hpart hon, State.admitFrame_of_synced htable htables hover hstate, State.admitSynced_of_kept hkept hdisq]
  case breach =>
    rintro s _ b p _ f t ts k hpart hon rfl htable htables rfl hover hstate hbreach
    rw [marshalAdmit_eq b p f hpart hon, State.admitFrame_of_synced htable htables hover hstate, State.admitSynced_of_breach hbreach]
  case plain =>
    rintro s _ b p _ f t ts hpart hon rfl htable htables rfl hover hstate hplain
    rw [marshalAdmit_eq b p f hpart hon, State.admitFrame_of_unsynced htable htables hover hstate, State.admitCold_of_plain hplain]
  case alone =>
    rintro s _ b p _ f t ts hpart hon rfl htable htables rfl hover hstate hcold hdisq hfirst hcollided halone
    have hforward := State.forwardCold_of_alone (s := s.settleMarshal.coldBegun b.val) (p := s.settleMarshal.placeOf ts p) (f := f) halone
    rw [marshalAdmit_eq b p f hpart hon, State.admitFrame_of_unsynced htable htables hover hstate,
      State.admitCold_of_first hcold hdisq hfirst, hforward]
    exact congrArg _ (if_neg (Bool.eq_false_iff.mp hcollided))
  case overlap =>
    rintro s _ b p _ f t ts hpart hon rfl htable htables rfl hover hstate hcold hdisq hfirst hoverlap
    have hforward :=
      State.forwardCold_of_overlap (s := s.settleMarshal.coldBegun b.val) (p := s.settleMarshal.placeOf ts p) (f := f) hoverlap
    rw [marshalAdmit_eq b p f hpart hon, State.admitFrame_of_unsynced htable htables hover hstate,
      State.admitCold_of_first hcold hdisq hfirst, hforward]
    exact congrArg _ (if_pos rfl)
  case collision =>
    rintro s _ hpart hon rfl hstate hcollided hended
    exact (onMarshal_of_powered _ hpart hon).trans (congrArg _ (if_pos ⟨hstate, hcollided, hended⟩))
  case noCollision =>
    rintro s _ hpart hon rfl hcollided
    exact (onMarshal_of_powered _ hpart hon).trans (congrArg _ (if_neg (by simp [hcollided])))
  case unsync =>
    rintro s _ ts hpart hon rfl hstate htables hsilent
    change execMarshalUnsync s = _
    rw [execMarshalUnsync, onMarshal_of_powered _ hpart hon]
    simp only [htables, hstate, hsilent, true_and, if_true]

end Sys2Proof.Machine

/-! PROOFS. The states of the Nolxis node (R385 to R393): one equation for each case of a command that is stated, and what the node shows
when it goes to OFF or LISTEN. -/

namespace Sys2Proof.Machine

section
variable {c : Ctx} {l : Lane}

/-! ### Enable and request (R389, R393) -/

theorem nxEnableL_of_enable {v : Word} (hv : v.getLsbD 0 = true)
    (hoff : ({ l.putB R.NX_CTRL_enable true with bus := .done }).nxState = nxOff) :
    nxEnableL c v l = ({ l.putB R.NX_CTRL_enable true with bus := .done }).nxGo c nxListen := by
  rw [nxEnableL, hv]
  exact if_pos hoff

theorem nxEnableL_of_disable {v : Word} (hv : v.getLsbD 0 = false) :
    nxEnableL c v l = ({ l.putB R.NX_CTRL_enable false with bus := .done }).nxGo c nxOff := by
  rw [nxEnableL, hv]
  rfl

theorem passiveReqL_of_request {v : Word} (hv : v.getLsbD 1 = true) (hrole : l.active = false) (hactive : l.nxState = nxActive) :
    passiveReqL c v l = ({ l with bus := .done }).nxGo c nxPassive :=
  if_pos (by simp [hv, hrole, hactive])

theorem passiveReqL_of_active {v : Word} (hrole : l.active = true) : passiveReqL c v l = { l with bus := .done } :=
  if_neg (by simp [hrole])

/-! ### Cold start and integration (R389, R390) -/

theorem listenTimeoutL_of_due (hlisten : l.nxState = nxListen) (hcold : l.bit R.NX_NODE_coldstart = true)
    (hdue : l.nx.listenAt + 2 * l.cycleLen + l.nodeId * 1000 ≤ c.now) : listenTimeoutL c l = l.coldStart c :=
  if_pos ⟨hlisten, hcold, hdue⟩

theorem backoffExpiryL_of_due (hbackoff : l.nxState = nxBackoff) (hdue : l.nx.backoffAt ≤ c.now) : backoffExpiryL c l = l.coldStart c :=
  if_pos ⟨hbackoff, hdue⟩

theorem coldCycleDoneL_of_fourth (hcold : l.nxState = nxCold) (hcycles : 4 ≤ l.nx.coldCycles) :
    coldCycleDoneL c l = ((l.nxGo c nxActive).put R.NX_STATUS_master 1).put R.NX_STATUS_followed 0 := if_pos ⟨hcold, hcycles⟩

theorem cycleVerifyL_of_small {d : Int} {k : Bool} (hstate : l.nxState = nxIntegrate) (hverified : l.nx.verified = false)
    (hadopted : (l.nx.adopted || l.nx.adoptedCold) = false) (hdev : combineDev l.precision l.nx.devX l.nx.devY = some (d, k))
    (hsmall : |d| ≤ 2 * l.precision) :
    cycleVerifyL c l = { l with nx := { l.nx with verify := l.nx.verify + 1, verified := true } } := by
  rw [cycleVerifyL, if_pos ⟨hstate, hverified, hadopted⟩, hdev]
  exact if_pos (decide_eq_true hsmall)

theorem cycleVerifyL_of_missing (hstate : l.nxState = nxIntegrate) (hverified : l.nx.verified = false)
    (hadopted : (l.nx.adopted || l.nx.adoptedCold) = false) (hx : l.nx.devX = none) (hy : l.nx.devY = none)
    (hnit : l.nitStart ≤ l.cycleOff) : cycleVerifyL c l = l.nxGo c nxListen := by
  rw [cycleVerifyL, if_pos ⟨hstate, hverified, hadopted⟩, hx, hy]
  exact if_pos hnit

/-! ### Collisions (R391, R407) -/

/-- A collision counted on its channel; the listening time starts again (R390). -/
def Lane.collisionCounted (c : Ctx) (l : Lane) (ch : Chan) : Lane :=
  { l.inc (match ch with
      | .x => R.NX_COLL_coll_x
      | .y => R.NX_COLL_coll_y) with nx := { l.nx with listenAt := c.now } }

theorem collisionReceiveL_eq (ch : Chan) (hon : l.nxState ≠ nxOff) :
    collisionReceiveL c ch l =
      if (l.collisionCounted c ch).nxState = nxCold then (l.collisionCounted c ch).backOff c
      else if (l.collisionCounted c ch).nxState = nxIntegrate ∧ l.nx.adoptedCold = true then
        (let l3 := ((l.collisionCounted c ch).backOff c).nxGo c nxIntegrate
         { l3 with nx := { l3.nx with adopted := true, adoptedCold := false } })
      else l.collisionCounted c ch := by
  cases ch with
  | x => exact if_neg hon
  | y => exact if_neg hon

/-! ### Loss of synchronisation (R387, R389) -/

theorem syncLostL_of_silence (hactive : l.nxState = nxActive) (hrate : l.nx.rateRun < 2) (hsilent : 4 ≤ l.nx.noSync)
    (hmaster : l.bit R.NX_STATUS_master = false) : syncLostL c l = l.nxGo c nxPassive := by
  rw [syncLostL, if_pos hactive, if_neg (by omega)]
  exact if_pos ⟨hsilent, hmaster⟩

theorem syncLostL_of_rate (hactive : l.nxState = nxActive) (hrate : 2 ≤ l.nx.rateRun) :
    syncLostL c l = (l.flag R.NX_FLAGS_rate_fault).nxGo c nxPassive := (if_pos hactive).trans (if_pos hrate)

theorem passiveTimeoutL_of_silence (hpassive : l.nxState = nxPassive) (hsilent : 8 ≤ l.nx.noSync) :
    passiveTimeoutL c l = l.nxGo c nxListen := if_pos ⟨hpassive, hsilent⟩

/-! ### The pacer followed (R385) -/

theorem pacerSwitchL_of_other {r : Nat} (hactive : l.nxState = nxActive) (hwanted : l.wantedRank = some r)
    (hother : l.followedRank ≠ some r) : pacerSwitchL l = l.follow r := by
  rw [pacerSwitchL, if_pos (.inl hactive), hwanted]
  exact if_neg hother

theorem pacerSwitchL_of_alone (hactive : l.nxState = nxActive) (hwanted : l.wantedRank = none) (hpacer : l.bit R.NX_NODE_pacer = true)
    (hmaster : l.bit R.NX_STATUS_master = false) :
    pacerSwitchL l =
      (let l1 := ((l.put R.NX_STATUS_followed 0).put R.NX_STATUS_master 1).flag R.NX_FLAGS_pacer_switch
       { l1 with nx := { l1.nx with tookOver := true, claims := [] } }) := by
  rw [pacerSwitchL, if_pos (.inl hactive), hwanted]
  exact if_pos (by simp [hpacer, hmaster])

end

/-- Settles O19: each clause is the equation of its command. -/
theorem nolxisStatesComplete : Obligations.NolxisStatesComplete := by
  refine ⟨?enable, ?disable, ?request, ?requestActive, ?listenTimeout, ?verified, ?notVerified, ?coldDone, ?collision, ?collisionCold,
    ?collisionAdopted, ?backoffExpiry, ?silence, ?rate, ?passiveTimeout, ?pacer, ?master⟩
  case enable =>
    intro s ln c l v h hv _ hoff
    exact gives_of_onAlive_eq (nxEnableL · v) h rfl (nxEnableL_of_enable hv hoff)
  case disable =>
    intro s ln c l v h hv
    exact gives_of_onAlive_eq (nxEnableL · v) h rfl (nxEnableL_of_disable hv)
  case request =>
    intro s ln c l v h hv hrole hactive
    exact gives_of_onAlive_eq (passiveReqL · v) h rfl (passiveReqL_of_request hv hrole hactive)
  case requestActive =>
    intro s ln c l v h hrole
    exact gives_of_onAlive_eq (passiveReqL · v) h rfl (passiveReqL_of_active hrole)
  case listenTimeout =>
    intro s ln c l h hlisten hcold hdue
    exact gives_of_onAlive_eq listenTimeoutL h rfl (listenTimeoutL_of_due hlisten hcold hdue)
  case verified =>
    intro s ln c l d k h hstate hverified hadopted hdev hsmall
    exact gives_of_onAlive_eq cycleVerifyL h rfl (cycleVerifyL_of_small hstate hverified hadopted hdev hsmall)
  case notVerified =>
    intro s ln c l h hstate hverified hadopted hx hy hnit
    exact gives_of_onAlive_eq cycleVerifyL h rfl (cycleVerifyL_of_missing hstate hverified hadopted hx hy hnit)
  case coldDone =>
    intro s ln c l h hcold hcycles
    exact gives_of_onAlive_eq coldCycleDoneL h rfl (coldCycleDoneL_of_fourth hcold hcycles)
  case collision =>
    intro s ln c l h hon hcold hadopted
    refine gives_of_onAlive_eq (collisionReceiveL · .x) h rfl ?_
    rw [collisionReceiveL_eq .x hon, hadopted]
    exact (if_neg hcold).trans (if_neg (by simp))
  case collisionCold =>
    intro s ln c l h hon hcold
    exact gives_of_onAlive_eq (collisionReceiveL · .y) h rfl ((collisionReceiveL_eq .y hon).trans (if_pos hcold))
  case collisionAdopted =>
    intro s ln c l h hstate hcounted hadopted
    have hon : l.nxState ≠ nxOff := by rw [hstate]; decide
    refine gives_of_onAlive_eq (collisionReceiveL · .x) h rfl ?_
    have hnotCold : (l.collisionCounted c .x).nxState ≠ nxCold := hcounted.trans_ne (by decide)
    exact (collisionReceiveL_eq .x hon).trans ((if_neg hnotCold).trans (if_pos ⟨hcounted, hadopted⟩))
  case backoffExpiry =>
    intro s ln c l h hbackoff hdue
    exact gives_of_onAlive_eq backoffExpiryL h rfl (backoffExpiryL_of_due hbackoff hdue)
  case silence =>
    intro s ln c l h hactive hrate hsilent hmaster
    exact gives_of_onAlive_eq syncLostL h rfl (syncLostL_of_silence hactive hrate hsilent hmaster)
  case rate =>
    intro s ln c l h hactive hrate
    exact gives_of_onAlive_eq syncLostL h rfl (syncLostL_of_rate hactive hrate)
  case passiveTimeout =>
    intro s ln c l h hpassive hsilent
    exact gives_of_onAlive_eq passiveTimeoutL h rfl (passiveTimeoutL_of_silence hpassive hsilent)
  case pacer =>
    intro s ln c l r h hactive hwanted hother
    exact gives_of_onAlive_eq (fun _ l => pacerSwitchL l) h rfl (pacerSwitchL_of_other hactive hwanted hother)
  case master =>
    intro s ln c l h hactive hwanted hpacer hmaster
    exact gives_of_onAlive_eq (fun _ l => pacerSwitchL l) h rfl (pacerSwitchL_of_alone hactive hwanted hpacer hmaster)

/-! ### What the node shows in OFF and LISTEN (R388, R389) -/

section
variable {c : Ctx} {l m : Lane} {want : Nat}

/-- The fields of NX_STATUS that a node keeps when it goes to OFF or LISTEN. -/
def nxStatusKept : List Fld := [R.NX_STATUS_followed_rank, R.NX_STATUS_port_y_ok, R.NX_STATUS_port_x_ok, R.NX_STATUS_granted]

/-- A node that leaves another state for OFF or LISTEN: the registers that it sets, and its listening time begins. -/
theorem Lane.nxGo_rest (hm : l.nxGo c want = m) (hwant : want = nxOff ∨ want = nxListen ∧ l.role ≠ roleUnfit)
    (hne : l.nxState ≠ want) :
    m.regs = ((((l.put R.NX_STATUS_state want).put R.NX_STATUS_master 0).put R.NX_FLAGS_state_change 1).put R.NX_STATUS_followed 0).regs ∧
      m.mem = l.mem ∧ m.tm = l.tm ∧ m.bus = l.bus ∧ m.nx.listenAt = c.now := by
  have hstate : (if l.role = roleUnfit ∧ want ≠ nxOff then nxPassive else want) = want := if_neg (by tauto)
  have hrest : want = nxListen ∨ want = nxOff := by tauto
  have hactive : want ≠ nxActive := by rcases hrest with rfl | rfl <;> decide
  have hpassive : want ≠ nxPassive := by rcases hrest with rfl | rfl <;> decide
  rw [Lane.nxGo] at hm
  simp only [hstate, hne, hactive, hpassive, hrest, if_true, if_false] at hm
  subst hm
  by_cases hoff : l.nxState = nxOff <;> simp [hoff, Lane.put, Lane.wr, Lane.rd]

/-- What a node shows that leaves another state for OFF or LISTEN. -/
theorem Lane.nxGo_rest_shown (hm : l.nxGo c want = m) (hwant : want = nxOff ∨ want = nxListen ∧ l.role ≠ roleUnfit)
    (hne : l.nxState ≠ want) :
    m.nxState = want ∧ m.bit R.NX_STATUS_master = false ∧ m.get R.NX_STATUS_followed = 0 ∧ m.bit R.NX_FLAGS_state_change = true ∧
      (∀ f ∈ nxStatusKept, m.get f = l.get f) ∧ Touches [R.NX_STATUS, R.NX_FLAGS] l m := by
  obtain ⟨hregs, hmem, htm, -, -⟩ := Lane.nxGo_rest hm hwant hne
  have hlt : want < 2 ^ 3 := by rcases hwant with rfl | ⟨rfl, -⟩ <;> decide
  have hget (f : Fld) : m.get f =
      ((((l.put R.NX_STATUS_state want).put R.NX_STATUS_master 0).put R.NX_FLAGS_state_change 1).put R.NX_STATUS_followed 0).get f := by
    rw [Lane.get, Lane.rd, hregs, Lane.get, Lane.rd]
  refine ⟨?state, ?master, ?followed, ?change, ?kept, ⟨?regs, hmem, htm⟩⟩
  case state =>
    rw [Lane.nxState, hget]
    simp (disch := decide) only [Lane.get_put_apart, Lane.get_put_same]
    exact Nat.mod_eq_of_lt hlt
  case master =>
    rw [Lane.bit, hget]
    simp (disch := decide) [Lane.get_put_apart, Lane.get_put_same]
  case followed =>
    rw [hget]
    simp (disch := decide) [Lane.get_put_same]
  case change =>
    rw [Lane.bit, hget]
    simp (disch := decide) [Lane.get_put_apart, Lane.get_put_same]
  case kept =>
    simp (disch := decide) [nxStatusKept, hget, Lane.get_put_apart]
  case regs =>
    intro a ha
    rw [Lane.rd, hregs]
    exact ((((touches_put _ (by simp)).trans (touches_put _ (by simp))).trans (touches_put _ (by simp))).trans
      (touches_put _ (by simp))).regs a ha

end

/-- Settles O20: both commands take the node from another state to OFF or LISTEN. -/
theorem nolxisStateShown : Obligations.NolxisStateShown := by
  refine ⟨?disable, ?timeout⟩
  case disable =>
    intro s ln c l v h hv hon
    have hl : Touches [R.NX_CTRL] l { l.putB R.NX_CTRL_enable false with bus := .done } :=
      (touches_put (f := R.NX_CTRL_enable) _ (by simp)).trans (touches_of_eq rfl rfl rfl)
    have hne : ({ l.putB R.NX_CTRL_enable false with bus := .done } : Lane).nxState ≠ nxOff :=
      (hl.get R.NX_STATUS_state (by simp)).trans_ne hon
    obtain ⟨-, -, -, hbus, -⟩ := Lane.nxGo_rest (c := c) rfl (.inl rfl) hne
    obtain ⟨hstate, hmaster, hfollowed, hchange, hkept, htouch⟩ := Lane.nxGo_rest_shown (c := c) rfl (.inl rfl) hne
    have hboth := (hl.mono (by simp)).trans (htouch.mono (bs := [R.NX_CTRL, R.NX_STATUS, R.NX_FLAGS]) (by simp))
    refine ⟨_, gives_of_onAlive_eq (nxEnableL · v) h rfl (nxEnableL_of_disable hv), hstate, hmaster, hfollowed, hchange, fun f hf => ?_,
      hboth.regs, hboth.sameMem, hbus⟩
    exact (hkept f hf).trans (hl.get f (by revert f; decide))
  case timeout =>
    intro s ln c l h hfit hpassive hsilent
    have hne : l.nxState ≠ nxListen := by rw [hpassive]; decide
    obtain ⟨-, -, -, -, hlisten⟩ := Lane.nxGo_rest (c := c) rfl (.inr ⟨rfl, hfit⟩) hne
    obtain ⟨hstate, hmaster, hfollowed, hchange, hkept, htouch⟩ := Lane.nxGo_rest_shown (c := c) rfl (.inr ⟨rfl, hfit⟩) hne
    exact ⟨_, gives_of_onAlive_eq passiveTimeoutL h rfl (passiveTimeoutL_of_silence hpassive hsilent), hstate, hmaster, hfollowed, hlisten,
      hchange, hkept, htouch.regs, htouch.sameMem⟩

end Sys2Proof.Machine

/-! PROOFS. A port lost while the marshal has something to do of itself (R394, R399, R526), which refutes a statement on frames. -/

namespace Sys2Proof.Machine

/-- PORT_LOST leaves a supplied marshal as it is after what it has done by then of itself. -/
theorem portLost_marshal {s : State} (ln : LaneId) (ch : Chan) (hpart : s.part.marshal = true) (hon : s.marshal.powered = true) :
    ∃ t, exec (.portLost ln ch) s = .next t ∧ t.marshal = s.settleMarshal.marshal := by
  have hruns : (s.part.marshal && s.marshal.powered) = true := by simp [hpart, hon]
  change ∃ t, execPortLost ln ch s = .next t ∧ _
  simp only [execPortLost, hruns, if_true]
  split
  · obtain ⟨t, hnext, -, -, hmarshal, -, -⟩ := onLane_next ln _ s.settleMarshal
    exact ⟨t, hnext, hmarshal⟩
  · exact ⟨_, rfl, rfl⟩

/-- The module after reset, with lane A awarded and silent on channel X for 2 cycles, and with the marshal about to enter SYNCED. -/
def silentBeforeSync : State :=
  let l := State.reset.laneA
  { State.reset.setLane .a { l with st := { l.st with awardAt := some 0 }, nx := { l.nx with silentX := 2 } } with
    marshal := { Marshal.fresh with powered := true, syncAt := some 0 } }

/-- Refutes O21: its clause on PORT_LOST names the lane alone, but with the command the marshal does what is due of it (R399), as it
enters SYNCED in `silentBeforeSync`. -/
theorem not_nolxisFramesComplete : ¬ Obligations.NolxisFramesComplete := by
  rintro ⟨-, -, -, -, -, -, -, -, hlost⟩
  have hstated := hlost silentBeforeSync .a rfl (by decide +kernel) (by decide +kernel) (by decide +kernel)
  obtain ⟨t, hactual, hmarshal⟩ := portLost_marshal (s := silentBeforeSync) .a .x rfl rfl
  have ht := Host.Outcome.next.inj (hactual.symm.trans hstated)
  rw [ht, State.setLane_marshal] at hmarshal
  exact absurd (congrArg Marshal.syncAt hmarshal) (by decide +kernel)

end Sys2Proof.Machine

/-! PROOFS. Spare slots of the Nolxis network (R395 to R397), and the claims that the master grants. -/

namespace Sys2Proof.Machine

section
variable {l : Lane}

/-! ### One equation for each case of a command that is stated -/

theorem claimSendL_of_first {slot id : Nat} (hspare : l.ownSpare = some (slot, id)) (hactive : l.nxState = nxActive)
    (honly : l.bit R.NX_NODE_claim_only = true) (hturn : (l.claimTurn .x id || l.claimTurn .y id) = true)
    (hfree : l.get R.NX_CLAIM_state = 0) :
    claimSendL l =
      (let l1 := (l.claimOut slot id).put R.NX_CLAIM_state 1
       ({ l1 with nx := { l1.nx with claimCycle := some (l.get R.NX_CYCLE_count) } } : Lane).flag R.NX_FLAGS_claim_sent) := by
  simp only [claimSendL, hspare, hactive, honly, hturn, hfree, ne_eq, not_true_eq_false, Bool.true_eq_false, or_self, true_or, if_true,
    if_false]

theorem claimGrantL_of_master (hmaster : l.bit R.NX_STATUS_master = true) :
    claimGrantL l =
      { l with nx := { l.nx with grants := (l.nx.claims.foldr insertClaim []).foldl grantOne l.heldGrants, claims := [] } } :=
  if_pos hmaster

theorem claimGrantL_of_other (hother : l.bit R.NX_STATUS_master = false) : claimGrantL l = l := if_neg (by simp [hother])

theorem grantCheckL_of_listed (hclaimed : l.get R.NX_CLAIM_state = 1) (hlater : l.nx.claimCycle ≠ some (l.get R.NX_CYCLE_count))
    (hlisted : l.nx.grants.any (fun g => decide (g.slot = l.get R.NX_CLAIM_slot) && decide (g.node = l.nodeId)) = true) :
    grantCheckL l =
      { ((l.put R.NX_CLAIM_state 2).put R.NX_STATUS_granted 1).flag R.NX_FLAGS_granted with nx := { l.nx with grantNew := true } } :=
  (if_pos ⟨hclaimed, hlater⟩).trans (if_pos hlisted)

theorem grantReleaseL_of_master (slot : BitVec 11) (hmaster : l.bit R.NX_STATUS_master = true) :
    grantReleaseL slot l =
      { l with nx := { l.nx with grants := l.nx.grants.filter (fun g =>
          decide (g.slot ≠ slot.toNat) || decide (g.silent < l.get R.NX_RELEASE_cycles)) } } := if_pos hmaster

end

/-- Settles O22: each clause is the equation of its command. -/
theorem spareSlotsComplete : Obligations.SpareSlotsComplete := by
  refine ⟨?claim, ?grant, ?noGrant, ?check, ?release⟩
  case claim =>
    intro s ln c l slot id h hspare hactive honly hturn hfree
    exact gives_of_onAlive_eq (fun _ l => claimSendL l) h rfl (claimSendL_of_first hspare hactive honly hturn hfree)
  case grant =>
    intro s ln c l h hmaster
    exact gives_of_onAlive_eq (fun _ l => claimGrantL l) h rfl (claimGrantL_of_master hmaster)
  case noGrant =>
    intro s ln c l h hother
    exact gives_of_onAlive_eq (fun _ l => claimGrantL l) h rfl (claimGrantL_of_other hother)
  case check =>
    intro s ln c l h hclaimed hlater hlisted
    exact gives_of_onAlive_eq (fun _ l => grantCheckL l) h rfl (grantCheckL_of_listed hclaimed hlater hlisted)
  case release =>
    intro s ln c l slot h hmaster
    exact gives_of_onAlive_eq (fun _ l => grantReleaseL slot l) h rfl (grantReleaseL_of_master slot hmaster)

/-! ### Claims in the order of their nodes (R396) -/

theorem insertClaim_perm (x : Nat × Nat) (cs : List (Nat × Nat)) : (insertClaim x cs).Perm (x :: cs) := by
  induction cs with
  | nil => exact .refl _
  | cons d t ih =>
    unfold insertClaim
    split
    · exact .refl _
    · exact (ih.cons d).trans (.swap x d t)

theorem foldr_insertClaim_perm (cs : List (Nat × Nat)) : (cs.foldr insertClaim []).Perm cs := by
  induction cs with
  | nil => exact .refl _
  | cons x t ih => exact (insertClaim_perm x _).trans (ih.cons x)

/-! ### The grant list (R396, R397) -/

/-- A claim is refused, or it adds one grant to a list that names neither its slot nor its node. -/
theorem grantOne_cases (gs : List Grant) (x : Nat × Nat) :
    grantOne gs x = gs ∨
      ((∀ g ∈ gs, g.slot ≠ x.1 ∧ g.node ≠ x.2) ∧ (grantOne gs x).Perm (⟨x.1, x.2, 0⟩ :: gs)) := by
  unfold grantOne
  split
  case isTrue => exact .inl rfl
  case isFalse hfree =>
    have hnew : ∀ g ∈ gs, g.slot ≠ x.1 ∧ g.node ≠ x.2 := by simpa using hfree
    have habove : gs.filter (fun g => decide (x.1 < g.slot)) = gs.filter (fun g => !decide (g.slot < x.1)) :=
      List.filter_congr fun g hg => by
        have := (hnew g hg).1
        rw [← decide_not, decide_eq_decide]
        omega
    refine .inr ⟨hnew, ?_⟩
    rw [habove, List.append_assoc]
    exact List.perm_middle.trans ((List.filter_append_perm _ gs).cons _)

/-- A list in which no slot and no node stands twice, which keeps the grants that are held and adds none but for a claim. -/
structure GrantedFrom (held : List Grant) (cs : List (Nat × Nat)) (gs : List Grant) : Prop where
  slots : (gs.map (fun g => g.slot)).Nodup
  nodes : (gs.map (fun g => g.node)).Nodup
  kept : ∀ g ∈ held, g ∈ gs
  claimed : ∀ g ∈ gs, g ∈ held ∨ (g.slot, g.node) ∈ cs

theorem GrantedFrom.grantOne {held gs : List Grant} {cs : List (Nat × Nat)} (h : GrantedFrom held cs gs) {x : Nat × Nat}
    (hx : x ∈ cs) : GrantedFrom held cs (grantOne gs x) := by
  obtain hrefused | ⟨hnew, hperm⟩ := grantOne_cases gs x
  · rwa [hrefused]
  · refine ⟨?slots, ?nodes, fun g hg => hperm.mem_iff.mpr (.tail _ (h.kept g hg)), fun g hg => ?claimed⟩
    case slots =>
      rw [(hperm.map _).nodup_iff, List.map_cons, List.nodup_cons]
      exact ⟨by simpa using fun g hg => (hnew g hg).1, h.slots⟩
    case nodes =>
      rw [(hperm.map _).nodup_iff, List.map_cons, List.nodup_cons]
      exact ⟨by simpa using fun g hg => (hnew g hg).2, h.nodes⟩
    case claimed =>
      obtain rfl | hold := List.mem_cons.mp (hperm.mem_iff.mp hg)
      · exact .inr hx
      · exact h.claimed g hold

/-- Settles O23: what is held has no slot and no node twice, and each claim granted keeps it so. -/
theorem grantsStayUnique : Obligations.GrantsStayUnique := by
  intro s ln c l h hslots hnodes hmaster
  refine ⟨_, gives_of_onAlive_eq (fun _ l => claimGrantL l) h rfl (claimGrantL_of_master hmaster), ?_⟩
  have hsub : l.heldGrants.Sublist l.nx.grants := List.filter_sublist
  have hheld : GrantedFrom l.heldGrants l.nx.claims l.heldGrants :=
    ⟨hslots.sublist (hsub.map _), hnodes.sublist (hsub.map _), fun _ hg => hg, fun _ hg => .inl hg⟩
  have hall := List.foldlRecOn (motive := GrantedFrom l.heldGrants l.nx.claims) (l.nx.claims.foldr insertClaim []) grantOne hheld
    fun _ hgs _ hx => hgs.grantOne ((foldr_insertClaim_perm _).mem_iff.mp hx)
  refine ⟨hall.slots, hall.nodes, fun g hg hshort => hall.kept g ?_, fun g hg => (hall.claimed g hg).imp_left (hsub.subset ·), rfl,
    sameRegs_of_regs_eq rfl, .of_mem_eq rfl⟩
  exact List.mem_filter.mpr ⟨hg, decide_eq_true hshort⟩

end Sys2Proof.Machine

/-! PROOFS. A nanosecond of the model's clock (R410, R426): what it leaves alone, and the step that takes a command from the queue. -/

namespace Sys2Proof.Machine

section
variable (l : Lane)

/-! ### A cycle start (R372, R389) -/

/-- What the start of a cycle leaves alone. -/
def Lane.held (l : Lane) : List Host.Cell × Phase × Nat := (l.mem, l.phase, l.tm)

theorem Lane.held_flag (f : Fld) : (l.flag f).held = l.held := by simp [Lane.held]

theorem Lane.held_nxEnterActive : l.nxEnterActive.held = l.held :=
  List.foldlRecOn (motive := fun y : Lane => y.held = l.held) _ _ ((l.put R.NX_STATUS_state nxActive).held_flag _) fun _ hy _ _ => hy

theorem Lane.held_nxActivate : l.nxActivate.held = l.held := by
  unfold Lane.nxActivate
  split
  · exact l.held_nxEnterActive
  · rfl

theorem Lane.held_cycleStart : l.cycleStart.held = l.held :=
  (Lane.held_nxActivate _).trans (Lane.held_flag _ _)

/-! ### A nanosecond of a lane (R410) -/

/-- The counters of the timebase after a nanosecond, before a cycle that is due starts. -/
def Lane.counted (l : Lane) : Lane :=
  { l with tm := l.tmNext, drift := l.drift + ((l.tmNext : Int) - l.tm - tmOne), nx := { l.nx with slewLeft := l.nx.slewLeft - 1 } }

/-- A cycle starts only where the cycle timer runs. -/
theorem Lane.tick_cases : l.tick = l.counted ∨ l.cycleRuns = true ∧ l.tick = l.counted.cycleStart := by
  unfold Lane.tick
  dsimp only
  split
  next hstart =>
    simp only [Bool.and_eq_true] at hstart
    obtain ⟨⟨hruns, -⟩, -⟩ := hstart
    exact .inr ⟨hruns, rfl⟩
  next => exact .inl rfl

theorem Lane.held_tick : l.tick.held = (l.mem, l.phase, l.tmNext) := by
  obtain hidle | ⟨-, hstart⟩ := l.tick_cases
  · rw [hidle]
    rfl
  · rw [hstart, Lane.held_cycleStart]
    rfl

theorem Lane.regs_tick (h : l.cycleRuns = false) : l.tick.regs = l.regs := by
  obtain hidle | ⟨hruns, -⟩ := l.tick_cases
  · rw [hidle]
    rfl
  · exact absurd hruns (by simp [h])

variable (now : Nat)

theorem Lane.tickOne_of_unpowered (h : l.powered = false) : l.tickOne now = l := if_neg (by simp [h])

/-- The operating time that a nanosecond adds (R497) shows in no register. -/
theorem Lane.tickOne_of_powered (h : l.powered = true) :
    (l.tickOne now).held = l.tick.held ∧ (l.tickOne now).regs = l.tick.regs := by
  rw [Lane.tickOne, if_pos h]
  dsimp only
  split
  · exact ⟨rfl, rfl⟩
  · exact ⟨rfl, rfl⟩

theorem Lane.tm_tickOne (h : l.powered = true) : (l.tickOne now).tm = l.tmNext :=
  congrArg (fun x => x.2.2) ((l.tickOne_of_powered now h).1.trans l.held_tick)

theorem Lane.mem_phase_tickOne : (l.tickOne now).mem = l.mem ∧ (l.tickOne now).phase = l.phase := by
  cases h : l.powered with
  | false =>
    rw [l.tickOne_of_unpowered now h]
    exact ⟨rfl, rfl⟩
  | true =>
    have hheld := (l.tickOne_of_powered now h).1.trans l.held_tick
    exact ⟨congrArg Prod.fst hheld, congrArg (fun x => x.2.1) hheld⟩

theorem Lane.regs_tickOne (hidle : l.cycleRuns = false) : (l.tickOne now).regs = l.regs := by
  cases h : l.powered with
  | false => rw [l.tickOne_of_unpowered now h]
  | true => exact (l.tickOne_of_powered now h).2.trans (l.regs_tick hidle)

end

theorem State.lane_tick (s : State) (ln : LaneId) : s.tick.lane ln = if s.has ln then (s.lane ln).tickOne s.now else s.lane ln := by
  cases ln with
  | a => simp [State.has, State.tick, State.lane]
  | b => simp [State.has, State.tick, State.lane]
  | c => rfl

/-- Settles O56: a step is the front command's by definition, and of a nanosecond each part holds lane by lane, or the member does not
have the lane. -/
theorem stepTakesTheFrontCommand : Obligations.StepTakesTheFrontCommand := by
  refine ⟨fun s i rest hqueue => by rw [step, hqueue], fun s hqueue => ?_⟩
  refine ⟨s.tick, by rw [step, hqueue], rfl, hqueue, rfl, rfl, fun ln => ?_⟩
  rw [State.lane_tick]
  cases hhas : s.has ln with
  | false => exact ⟨rfl, rfl, fun _ => rfl, fun _ => rfl, by simp⟩
  | true =>
    obtain ⟨hmem, hphase⟩ := (s.lane ln).mem_phase_tickOne s.now
    exact ⟨hmem, hphase, Lane.regs_tickOne _ s.now, Lane.tickOne_of_unpowered _ s.now, fun _ => Lane.tm_tickOne _ s.now⟩

end Sys2Proof.Machine

/-! PROOFS. Corrections, laps, interrupts and action timers (R412 to R425): one equation for each case of a command that is stated, and
what a one-shot timer leaves when it fires. -/

namespace Sys2Proof.Machine

section
variable {c : Ctx} {l : Lane} {t : Nat}

/-! ### Corrections and laps (R412, R416) -/

theorem correctionWindowL_of_step {rc d : Int} (hwaiting : l.nx.correction = some (rc, some d)) (hnit : l.nitStart + 1000 ≤ l.cycleOff) :
    correctionWindowL l =
      (let l2 := ((l.wr R.NX_RATE (BitVec.ofInt 32 rc)).wr R.TM_STEP_LAST (BitVec.ofInt 32 d)).put R.TM_STATUS_corrected 1
       { l2 with nx := { l2.nx with correction := none, slewLeft := 8000, slewStep := d } }) := by
  rw [correctionWindowL, hwaiting]
  exact if_neg (by omega)

theorem correctionWindowL_of_none {rc : Int} (hwaiting : l.nx.correction = some (rc, none)) (hnit : l.nitStart + 1000 ≤ l.cycleOff) :
    correctionWindowL l =
      (let l1 := (l.wr R.NX_RATE (BitVec.ofInt 32 rc)).put R.TM_STATUS_corrected 0
       { l1 with nx := { l1.nx with correction := none, slewLeft := 8000, slewStep := 0 } }) := by
  rw [correctionWindowL, hwaiting]
  exact if_neg (by omega)

theorem lapL_of_passed (hpassed : 2 ^ 64 ≤ l.tm) :
    lapL l = ({ l with tm := l.tm - 2 ^ 64, arrived := [] } : Lane).flag R.TM_FLAGS_lap :=
  if_pos (Nat.div_pos hpassed (by decide))

/-! ### Interrupt entry (R419) -/

/-- A mask from which one of its bits is taken. -/
theorem testBit_sub_two_pow_same {m k : Nat} (h : Nat.testBit m k = true) : Nat.testBit (m - 2 ^ k) k = false := by
  have hadd := Nat.testBit_two_pow_add_eq (m - 2 ^ k) k
  rw [Nat.add_sub_cancel' (Nat.ge_two_pow_of_testBit h), h] at hadd
  simpa using hadd.symm

theorem testBit_irqWait_interruptEntryL (line : Fin 20) (l : Lane) : Nat.testBit (interruptEntryL line l).irqWait line.val = false := by
  change Nat.testBit (if Nat.testBit l.irqWait line.val then l.irqWait - 2 ^ line.val else l.irqWait) line.val = false
  split
  next hset => exact testBit_sub_two_pow_same hset
  next hclear => exact Bool.eq_false_iff.mpr hclear

/-- The line and its two stamps in their registers. -/
theorem rd_interruptEntryL (line : Fin 20) (l : Lane) (a : Nat) :
    (interruptEntryL line l).rd a =
      if a = R.TM_IRQ_LAST_ENTRY then l.stamp
      else if a = R.TM_IRQ_LAST_RAISE then bankGet l.irqRaise line.val
      else if a = R.TM_IRQ_LAST then BitVec.ofNat 32 line.val else l.rd a := by
  simp only [interruptEntryL, Lane.stampAt, Lane.rd_wr]
  rfl

theorem sameRegs_interruptEntryL (line : Fin 20) (l : Lane) :
    SameRegs l (interruptEntryL line l) [R.TM_IRQ_LAST, R.TM_IRQ_LAST_RAISE, R.TM_IRQ_LAST_ENTRY] := by
  intro a ha
  simp only [List.mem_cons, List.not_mem_nil, or_false, not_or] at ha
  obtain ⟨hline, hraise, hentry⟩ := ha
  rw [rd_interruptEntryL, if_neg hentry, if_neg hraise, if_neg hline]

/-! ### Which timers fire (R421, R423, R425) -/

theorem Lane.fireDue_of_not (h : l.mayFire t = false) : l.fireDue c t = l := if_neg (by simp [h])

/-- Of several timers whose time has come the lowest fires first. -/
theorem Lane.fireUpTo_of_first (h : ∀ k, k < t → l.mayFire k = false) : l.fireUpTo c t = l.fireDue c t := by
  rw [Lane.fireUpTo, List.range_succ, List.foldl_append,
    foldl_eq_self _ fun k hk => Lane.fireDue_of_not (h k (List.mem_range.mp hk))]
  rfl

theorem Lane.fireUpTo_of_none (h : ∀ k, k ≤ t → l.mayFire k = false) : l.fireUpTo c t = l :=
  (Lane.fireUpTo_of_first fun k hk => h k hk.le).trans (Lane.fireDue_of_not (h t le_rfl))

/-- An armed timer without a watch whose due time has come. -/
theorem Lane.fireDue_of_due (harmed : l.bit (R.TMt_CFG_armed t) = true) (hplain : l.bit (R.TMt_CFG_watch_en t) = false)
    (hdue : 0 ≤ sdiff l.stamp (l.rd (R.TMt_DUE t))) : l.fireDue c t = l.fireTimer c t false := by
  have hwatch : l.watching t = false := by simp [Lane.watching, hplain]
  have hfires : l.mayFire t = true := by simp [Lane.mayFire, hwatch, harmed, hdue]
  rw [Lane.fireDue, if_pos hfires, hwatch]
  rfl

/-- An armed watch past its margin that has noted no arrival. -/
theorem Lane.fireDue_of_timeout (hwatch : l.watching t = true) (hgot : tabGet l.watchGot t = none)
    (hpast : (l.watchMargin t : Int) ≤ sdiff l.stamp (l.rd (R.TMt_DUE t))) :
    l.fireDue c t = (l.flag R.TM_FLAGS_watch_timeout).fireTimer c t false := by
  have hfires : l.mayFire t = true := by simp [Lane.mayFire, hwatch, hgot, hpast]
  rw [Lane.fireDue, if_pos hfires, hwatch]
  rfl

theorem timerFireL_of_due {t : Fin 64} (hfirst : ∀ k, k < t.val → l.mayFire k = false) (harmed : l.bit (R.TMt_CFG_armed t.val) = true)
    (hplain : l.bit (R.TMt_CFG_watch_en t.val) = false) (hdue : 0 ≤ sdiff l.stamp (l.rd (R.TMt_DUE t.val))) :
    timerFireL c t l = l.fireTimer c t.val false :=
  (Lane.fireUpTo_of_first hfirst).trans (Lane.fireDue_of_due harmed hplain hdue)

theorem watchMetL_of_noted {t : Fin 64} {stamp : Word} (hwatch : l.watching t.val = true) (hgot : tabGet l.watchGot t.val = some stamp) :
    watchMetL t stamp l =
      (((l.put (R.TMt_CFG_armed t.val) 0).put (R.TMt_CFG_met t.val) 1).wr (R.TMt_STAMP t.val) stamp).flag R.TM_FLAGS_watch_met :=
  if_pos ⟨hwatch, hgot⟩

theorem watchTimeoutL_of_past {t : Fin 64} (hfirst : ∀ k, k < t.val → l.mayFire k = false) (hwatch : l.watching t.val = true)
    (hgot : tabGet l.watchGot t.val = none) (hpast : (l.watchMargin t.val : Int) ≤ sdiff l.stamp (l.rd (R.TMt_DUE t.val))) :
    watchTimeoutL c t l = (l.flag R.TM_FLAGS_watch_timeout).fireTimer c t.val false :=
  (if_pos hwatch).trans ((Lane.fireUpTo_of_first hfirst).trans (Lane.fireDue_of_timeout hwatch hgot hpast))

/-! ### A write of TMt_DUE (R420, R423) -/

theorem timerDueWriteL_of_undefined {t : Fin 64} (v : Word) (hkind : 4 ≤ (l.fireUpTo c t.val).get (R.TMt_CFG_kind t.val)) :
    timerDueWriteL c t v l = ({ l.fireUpTo c t.val with bus := .done } : Lane).flag R.TM_FLAGS_act_ignored := if_pos hkind

/-- A timer armed by a write of its due time. -/
def Lane.dueSet (l : Lane) (t : Nat) (v : Word) : Lane := (l.wr (R.TMt_DUE t) v).put (R.TMt_CFG_armed t) 1

/-- The same, with its watch armed where it has one. -/
def Lane.timerArmed (l : Lane) (t : Nat) (v : Word) : Lane :=
  if l.bit (R.TMt_CFG_watch_en t) then ((l.dueSet t v).put (R.TMt_CFG_met t) 0).armWatch t else l.dueSet t v

theorem touches_armWatch (as : List Nat) (l : Lane) (t : Nat) : Touches as l (l.armWatch t) := touches_of_eq rfl rfl rfl

theorem Lane.armedAt_armWatch (l : Lane) (t : Nat) : tabGet (l.armWatch t).armedAt t = some l.stamp := tabGet_tabPut_same _ _ _

theorem Lane.bus_armWatch (l : Lane) (t : Nat) : (l.armWatch t).bus = l.bus := rfl

theorem Lane.bus_dueSet (l : Lane) (t : Nat) (v : Word) : (l.dueSet t v).bus = l.bus := by
  rw [Lane.dueSet, Lane.put_bus, Lane.wr_bus]

theorem Lane.rd_due_dueSet (l : Lane) (t : Nat) (v : Word) : (l.dueSet t v).rd (R.TMt_DUE t) = v := by
  rw [Lane.dueSet, Lane.rd_put_ne _ _ _ _ (by simp), Lane.rd_wr_same]

theorem Lane.bit_armed_dueSet (l : Lane) (t : Nat) (v : Word) : (l.dueSet t v).bit (R.TMt_CFG_armed t) = true :=
  Lane.bit_put_one _ _ rfl (by simp)

theorem touches_dueSet (l : Lane) (t : Nat) (v : Word) : Touches [R.TMt_DUE t, R.TMt_CFG t] l (l.dueSet t v) :=
  (touches_wr v (by simp)).trans (touches_put 1 (by simp))

/-- In `m` timer `t` of `l` is armed for `v`, and its watch with it. -/
structure TimerArmed (t : Nat) (v : Word) (l m : Lane) : Prop where
  due : m.rd (R.TMt_DUE t) = v
  armed : m.bit (R.TMt_CFG_armed t) = true
  watch : l.bit (R.TMt_CFG_watch_en t) = true → m.bit (R.TMt_CFG_met t) = false ∧ tabGet m.armedAt t = some l.stamp
  touches : Touches [R.TMt_DUE t, R.TMt_CFG t] l m
  bus : m.bus = l.bus

theorem timerArmed_timerArmed (l : Lane) (t : Nat) (v : Word) : TimerArmed t v l (l.timerArmed t v) := by
  have hset := touches_dueSet l t v
  unfold Lane.timerArmed
  split
  case isTrue hwatch =>
    have hmet : Touches [R.TMt_DUE t, R.TMt_CFG t] l ((l.dueSet t v).put (R.TMt_CFG_met t) 0) := hset.trans (touches_put 0 (by simp))
    have hwatched := touches_armWatch [] ((l.dueSet t v).put (R.TMt_CFG_met t) 0) t
    refine ⟨?due, ?armed, fun _ => ⟨?met, ?stamped⟩, ?touches, ?bus⟩
    case due => rw [hwatched.regs _ (by simp), Lane.rd_put_ne _ _ _ _ (by simp), Lane.rd_due_dueSet]
    case armed =>
      rw [hwatched.bit _ (by simp), Lane.bit_of_get (Lane.get_put_apart 0 (by simp) (by simp) (by simp)), Lane.bit_armed_dueSet]
    case met => rw [hwatched.bit _ (by simp), Lane.bit_put_zero _ _ (by simp) (by simp)]
    case stamped => rw [Lane.armedAt_armWatch, hmet.stamp]
    case touches => exact hmet.trans (hwatched.mono (by simp))
    case bus => rw [Lane.bus_armWatch, Lane.put_bus, Lane.bus_dueSet]
  case isFalse hplain =>
    exact ⟨l.rd_due_dueSet t v, l.bit_armed_dueSet t v, fun hwatch => absurd hwatch hplain, hset, l.bus_dueSet t v⟩

/-- A timer whose due time lies ahead does not fire at its arming. -/
theorem Lane.judgeTimer_of_ahead (h : 0 < sdiff (l.rd (R.TMt_DUE t)) l.stamp) : l.judgeTimer c t = l := if_pos h

theorem timerDueWriteL_of_ahead {t : Fin 64} {v : Word} (hnone : ∀ k, k ≤ t.val → l.mayFire k = false)
    (hkind : l.get (R.TMt_CFG_kind t.val) < 4) (hahead : 0 < sdiff v l.stamp) :
    timerDueWriteL c t v l = ({ l with bus := .done } : Lane).timerArmed t.val v := by
  have harmed := timerArmed_timerArmed { l with bus := .done } t.val v
  have hstill : (({ l with bus := .done } : Lane).timerArmed t.val v).judgeTimer c t.val =
      ({ l with bus := .done } : Lane).timerArmed t.val v :=
    Lane.judgeTimer_of_ahead (by rw [harmed.due, harmed.touches.stamp]; exact hahead)
  simp only [timerDueWriteL, Lane.fireUpTo_of_none hnone]
  exact (if_neg (by omega)).trans hstill

end

/-- Settles O24: each clause is the equation of its command, or what is proved above of what the command leaves. -/
theorem timeCommandsComplete : Obligations.TimeCommandsComplete := by
  refine ⟨?step, ?noStep, ?lap, ?interrupt, ?undefinedKind, ?ahead, ?disarm, ?fire, ?met, ?timeout⟩
  case step =>
    intro s ln c l rc d h hwaiting hnit
    exact gives_of_onAlive_eq (fun _ l => correctionWindowL l) h rfl (correctionWindowL_of_step hwaiting hnit)
  case noStep =>
    intro s ln c l rc h hwaiting hnit
    exact gives_of_onAlive_eq (fun _ l => correctionWindowL l) h rfl (correctionWindowL_of_none hwaiting hnit)
  case lap =>
    intro s ln c l h hpassed
    exact gives_of_onAlive_eq (fun _ l => lapL l) h rfl (lapL_of_passed hpassed)
  case interrupt =>
    intro s ln c l line h
    refine ⟨_, gives_of_onAlive (fun _ l => interruptEntryL line l) h rfl, bankGet_bankSet_same _ _ _,
      testBit_irqWait_interruptEntryL line l, ?line, ?raise, ?entry, sameRegs_interruptEntryL line l, .of_mem_eq rfl⟩
    case line => simp [rd_interruptEntryL]
    case raise => simp [rd_interruptEntryL]
    case entry => simp [rd_interruptEntryL]
  case undefinedKind =>
    intro s ln c l t v h hkind
    exact gives_of_onAlive_eq (timerDueWriteL · t v) h rfl (timerDueWriteL_of_undefined v hkind)
  case ahead =>
    intro s ln c l t v h hnone hkind hahead
    obtain ⟨hdue, harmed, hwatch, htouches, hbus⟩ := timerArmed_timerArmed { l with bus := .done } t.val v
    exact ⟨_, gives_of_onAlive_eq (timerDueWriteL · t v) h rfl (timerDueWriteL_of_ahead hnone hkind hahead), hdue, harmed, hwatch,
      htouches.tm, htouches.regs, htouches.sameMem, hbus⟩
  case disarm =>
    intro s ln c l t h
    exact gives_of_onAlive (timerDisarmL · t) h rfl
  case fire =>
    intro s ln c l t h hfirst harmed hplain hdue
    exact gives_of_onAlive_eq (timerFireL · t) h rfl (timerFireL_of_due hfirst harmed hplain hdue)
  case met =>
    intro s ln c l t stamp h hwatch hgot
    exact gives_of_onAlive_eq (fun _ l => watchMetL t stamp l) h rfl (watchMetL_of_noted hwatch hgot)
  case timeout =>
    intro s ln c l t h hfirst hwatch hgot hpast
    exact gives_of_onAlive_eq (watchTimeoutL · t) h rfl (watchTimeoutL_of_past hfirst hwatch hgot hpast)

/-! ### What a one-shot timer leaves when it fires (R421, R422) -/

section
variable {c : Ctx} {l : Lane} {t : Nat}

/-- The pending bits stand between the flags and the registers of the timers. -/
theorem pendFld_addr_bounds (t : Nat) : 0x40050004 < (pendFld t).addr ∧ (pendFld t).addr < 0x40050100 := by
  unfold pendFld
  split
  · exact ⟨(by decide : R.TM_FLAGS < R.TM_ACT_PEND0), (by decide : R.TM_ACT_PEND0 < R.TMt_DUE 0)⟩
  · exact ⟨(by decide : R.TM_FLAGS < R.TM_ACT_PEND1), (by decide : R.TM_ACT_PEND1 < R.TMt_DUE 0)⟩

theorem pendFld_one_bit (t : Nat) : (pendFld t).lo = (pendFld t).hi := by
  unfold pendFld
  split <;> rfl

theorem pendFld_hi_lt (ht : t < 64) : (pendFld t).hi < 32 := by
  unfold pendFld
  split
  · assumption
  · change t - 32 < 32
    omega

/-- The registers in which a firing shows. -/
def firingRegs (t : Nat) : List Nat := [R.TMt_STAMP t, R.TMt_COUNT t, (pendFld t).addr, R.TMt_CFG t, R.TM_FLAGS]

theorem period_not_mem_firingRegs (t : Nat) : R.TMt_PERIOD t ∉ firingRegs t := by
  obtain ⟨-, hhigh⟩ := pendFld_addr_bounds t
  simp [firingRegs, R.TMt_STAMP, R.TMt_COUNT, R.TMt_CFG, R.TMt_PERIOD, R.TM_FLAGS]
  omega

/-- What the firing of timer `t` records, where it is not late. -/
def Lane.fired (l : Lane) (t : Nat) : Lane :=
  (((l.stampAt (R.TMt_STAMP t)).inc (R.TMt_COUNT_count t)).put (pendFld t) 1).put (R.TMt_CFG_late t) 0

/-- The same of a one-shot timer of kind 0, with its action and its disarming. -/
def Lane.oneShotFired (l : Lane) (t : Nat) : Lane := ((l.fired t).flag R.TM_FLAGS_act_due).put (R.TMt_CFG_armed t) 0

theorem touches_fired_flag (l : Lane) (t : Nat) : Touches (firingRegs t) l ((l.fired t).flag R.TM_FLAGS_act_due) :=
  ((((touches_wr _ (by simp [firingRegs])).trans (touches_put _ (by simp [firingRegs]))).trans
    (touches_put _ (by simp [firingRegs]))).trans (touches_put _ (by simp [firingRegs]))).trans (touches_flag (by simp [firingRegs]))

theorem touches_oneShotFired (l : Lane) (t : Nat) : Touches (firingRegs t) l (l.oneShotFired t) :=
  (touches_fired_flag l t).trans (touches_put 0 (by simp [firingRegs]))

/-- The registers of a firing are five different ones, so that each reads as it was written there. -/
theorem Lane.rd_oneShotFired (l : Lane) (t : Nat) :
    (l.oneShotFired t).rd (R.TMt_STAMP t) = l.stamp ∧
      (l.oneShotFired t).rd (R.TMt_COUNT t) = (l.inc (R.TMt_COUNT_count t)).rd (R.TMt_COUNT t) ∧
      (l.oneShotFired t).rd (pendFld t).addr = (l.put (pendFld t) 1).rd (pendFld t).addr ∧
      (l.oneShotFired t).rd (R.TMt_CFG t) = ((l.put (R.TMt_CFG_late t) 0).put (R.TMt_CFG_armed t) 0).rd (R.TMt_CFG t) ∧
      (l.oneShotFired t).rd R.TM_FLAGS = (l.put R.TM_FLAGS_act_due 1).rd R.TM_FLAGS := by
  obtain ⟨hlow, hhigh⟩ := pendFld_addr_bounds t
  refine ⟨?_, ?_, ?_, ?_, ?_⟩
  all_goals
    simp (disch := (dsimp only [R.TMt_CFG, R.TMt_STAMP, R.TMt_COUNT, R.TM_FLAGS]; omega)) only
      [Lane.oneShotFired, Lane.fired, Lane.stampAt, Lane.inc, Lane.put, Lane.get, Lane.rd_flag, Lane.rd_wr_ne, Lane.rd_wr_same]

theorem Lane.get_kind_fired (l : Lane) (t : Nat) : (l.fired t).get (R.TMt_CFG_kind t) = l.get (R.TMt_CFG_kind t) := by
  obtain ⟨hlow, hhigh⟩ := pendFld_addr_bounds t
  simp (disch := (dsimp only [R.TMt_CFG, R.TMt_STAMP, R.TMt_COUNT]; omega)) only
    [Lane.fired, Lane.stampAt, Lane.inc, Lane.get_put_below, Lane.get_put_addr, Lane.get_wr_ne]

theorem Lane.timerFired_in_time (l : Lane) (t : Nat) : l.timerFired t false = l.fired t := rfl

theorem Lane.timerAction_of_event (hkind : l.get (R.TMt_CFG_kind t) = 0) : l.timerAction c t = l.flag R.TM_FLAGS_act_due := by
  unfold Lane.timerAction
  rw [hkind]
  rfl

theorem Lane.timerNext_of_oneShot (hperiod : l.rd (R.TMt_PERIOD t) = 0) : l.timerNext t = l.put (R.TMt_CFG_armed t) 0 := by
  have hnone : (l.rd (R.TMt_PERIOD t)).toNat = 0 := by rw [hperiod]; rfl
  exact if_pos (.inl hnone)

theorem Lane.fireTimer_of_oneShot (hkind : l.get (R.TMt_CFG_kind t) = 0) (hperiod : l.rd (R.TMt_PERIOD t) = 0) :
    l.fireTimer c t false = l.oneShotFired t := by
  have hstill : ((l.fired t).flag R.TM_FLAGS_act_due).rd (R.TMt_PERIOD t) = 0 :=
    ((touches_fired_flag l t).regs _ (period_not_mem_firingRegs t)).trans hperiod
  rw [Lane.fireTimer, Lane.timerFired_in_time, Lane.timerAction_of_event ((l.get_kind_fired t).trans hkind),
    Lane.timerNext_of_oneShot hstill, Lane.oneShotFired]

end

/-- Settles O25: the firing leaves `oneShotFired`, whose registers are read one by one. -/
theorem timerFiringRecords : Obligations.TimerFiringRecords := by
  intro s ln c l t h hfirst harmed hplain hdue hkind hperiod
  obtain ⟨hstamp, hcount, hpend, hcfg, hflags⟩ := l.rd_oneShotFired t.val
  obtain ⟨hpending, hothers⟩ := bit_and_sameField_of_rd_put (pendFld_one_bit t.val) (pendFld_hi_lt t.isLt) hpend
  have htouches := touches_oneShotFired l t.val
  refine ⟨_, gives_of_onAlive_eq (timerFireL · t) h rfl
    ((timerFireL_of_due hfirst harmed hplain hdue).trans (Lane.fireTimer_of_oneShot hkind hperiod)), hstamp, ?count, hpending, ?armed,
    ?late, ?due, hothers, htouches.regs, htouches.sameMem⟩
  case count =>
    refine (congrArg (fldOf (R.TMt_COUNT_count t.val)) hcount).trans ((Lane.get_put_same _ _ _ (by simp) (by simp)).trans ?_)
    exact Nat.mod_eq_of_lt (by simp)
  case armed => exact Lane.bit_put_zero _ _ (by simp) (by simp)
  case late =>
    have hget : (l.oneShotFired t.val).get (R.TMt_CFG_late t.val) = 0 :=
      (congrArg (fldOf (R.TMt_CFG_late t.val)) hcfg).trans ((Lane.get_put_below _ _ _ _ (by simp) (by simp) (by simp) (by simp)).trans
        (Lane.get_put_same _ _ _ (by simp) (by simp)))
    rw [Lane.bit, hget]
    rfl
  case due => exact (bit_and_sameField_of_rd_put (f := R.TM_FLAGS_act_due) rfl (by decide) hflags).1

end Sys2Proof.Machine

/-! PROOFS. The safety envelope unit (R432 to R438): copies that are accepted, rejected and discarded, and the charge of a rejection. -/

namespace Sys2Proof.Machine

section
variable {c : Ctx} {l m : Lane} {k : Nat} {pathB : Bool} {words : List Word} {arrival : Word}

/-! ### Connections and flags of the unit (R442) -/

theorem Lane.conn_setConn (l : Lane) (k j : Nat) (x : SeConn) : (l.setConn k x).conn j = if j = k then x else l.conn j := by
  unfold Lane.conn Lane.setConn
  rw [tabGet_tabPut]
  split <;> rfl

@[simp] theorem Lane.conn_setConn_same (l : Lane) (k : Nat) (x : SeConn) : (l.setConn k x).conn k = x := by simp [Lane.conn_setConn]

theorem Lane.conn_setConn_ne (l : Lane) {k j : Nat} (x : SeConn) (h : j ≠ k) : (l.setConn k x).conn j = l.conn j := by
  simp [Lane.conn_setConn, h]

@[simp] theorem Lane.conn_put (l : Lane) (f : Fld) (v j : Nat) : (l.put f v).conn j = l.conn j := rfl

@[simp] theorem Lane.conn_seFlag (l : Lane) (k : Nat) (f : Fld) (j : Nat) : (l.seFlag k f).conn j = l.conn j := by
  simp [Lane.seFlag, Lane.conn]

@[simp] theorem Lane.bk_seFlag (l : Lane) (k : Nat) (f : Fld) : (l.seFlag k f).bk = l.bk := by simp [Lane.seFlag]

theorem touches_setConn (as : List Nat) (l : Lane) (k : Nat) (x : SeConn) : Touches as l (l.setConn k x) := touches_of_eq rfl rfl rfl

/-- A flag of the unit shows in its flag register and in SE_LAST. -/
theorem touches_seFlag {as : List Nat} (l : Lane) (k : Nat) {f : Fld} (hf : f.addr = R.SE_FLAGS) (hflags : R.SE_FLAGS ∈ as)
    (hlast : R.SE_LAST ∈ as) : Touches as l (l.seFlag k f) :=
  ((touches_flag (hf ▸ hflags)).trans (touches_put k hlast)).trans (touches_put f.lo hlast)

theorem Lane.bit_seFlag_same (l : Lane) (k : Nat) {f : Fld} (hf : f.addr = R.SE_FLAGS) (hbit : f.lo = f.hi) (h32 : f.hi < 32) :
    (l.seFlag k f).bit f = true := by
  have hlast : f.addr ≠ R.SE_LAST := by rw [hf]; decide
  rw [← l.bit_flag_same f hbit h32]
  exact Lane.bit_of_get ((Lane.get_put_addr _ _ _ _ hlast).trans (Lane.get_put_addr _ _ _ _ hlast))

theorem Lane.get_last_conn_seFlag (l : Lane) (hk : k < 64) (f : Fld) : (l.seFlag k f).get R.SE_LAST_conn = k := by
  rw [Lane.seFlag, Lane.get_put_above _ _ _ _ (by decide) (by decide) (by decide), Lane.get_put_same _ _ _ (by decide) (by decide)]
  exact Nat.mod_eq_of_lt hk

/-! ### Copies that deliver nothing (R435) -/

/-- From `l` to `m` connection `k` delivers nothing: its payload and arrival stay, no demand is queued, and no register changes but the
unit's flags and SE_LAST. -/
structure Undelivered (k : Nat) (l m : Lane) : Prop where
  payload : (m.conn k).payload = (l.conn k).payload
  arrival : (m.conn k).arrival = (l.conn k).arrival
  queue : m.bk.queue = l.bk.queue
  touches : Touches [R.SE_FLAGS, R.SE_LAST] l m

theorem Undelivered.refl (k : Nat) (l : Lane) : Undelivered k l l := ⟨rfl, rfl, rfl, .refl _ l⟩

theorem Undelivered.trans {n : Lane} (hlm : Undelivered k l m) (hmn : Undelivered k m n) : Undelivered k l n where
  payload := hmn.payload.trans hlm.payload
  arrival := hmn.arrival.trans hlm.arrival
  queue := hmn.queue.trans hlm.queue
  touches := hlm.touches.trans hmn.touches

theorem Undelivered.ite {p : Prop} [Decidable p] {n : Lane} (hm : p → Undelivered k l m) (hn : ¬p → Undelivered k l n) :
    Undelivered k l (if p then m else n) := by
  split
  next hp => exact hm hp
  next hp => exact hn hp

theorem undelivered_seFlag (l : Lane) (k : Nat) {f : Fld} (hf : f.addr = R.SE_FLAGS) : Undelivered k l (l.seFlag k f) where
  payload := by rw [Lane.conn_seFlag]
  arrival := by rw [Lane.conn_seFlag]
  queue := by rw [Lane.bk_seFlag]
  touches := touches_seFlag l k hf (by simp) (by simp)

/-- A rejection joins the charges of its connection. -/
theorem Lane.conn_reject_same (c : Ctx) (l : Lane) (k : Nat) (pathB : Bool) (arrival : Word) (f : Fld) (byTime : Bool) :
    ∃ ch, (l.reject c k pathB arrival f byTime).conn k = { l.conn k with charges := (l.conn k).charges ++ [ch] } :=
  ⟨_, by rw [Lane.reject, Lane.conn_seFlag, Lane.conn_setConn_same]⟩

theorem Lane.conn_reject_ne (c : Ctx) (l : Lane) {k j : Nat} (h : j ≠ k) (pathB : Bool) (arrival : Word) (f : Fld) (byTime : Bool) :
    (l.reject c k pathB arrival f byTime).conn j = l.conn j := by
  rw [Lane.reject, Lane.conn_seFlag, Lane.conn_setConn_ne _ _ h]

theorem undelivered_reject (c : Ctx) (l : Lane) (k : Nat) (pathB : Bool) (arrival : Word) {f : Fld} (hf : f.addr = R.SE_FLAGS)
    (byTime : Bool) : Undelivered k l (l.reject c k pathB arrival f byTime) := by
  obtain ⟨ch, hconn⟩ := l.conn_reject_same c k pathB arrival f byTime
  refine ⟨by rw [hconn], by rw [hconn], ?queue, (touches_setConn _ _ _ _).trans (touches_seFlag _ k hf (by simp) (by simp))⟩
  case queue => rw [Lane.reject, Lane.bk_seFlag]; rfl

/-- A copy delivers nothing in RUN unless its number is ahead of the last delivered one and its stamp is later (R435). -/
theorem undelivered_judgeCopy_of_replay (c : Ctx) (pathB : Bool) (arrival : Word) (hrun : l.get (R.SE_Cc_STAT_state k) = seRun)
    (hreplay : (BitVec.ofNat 16 ((wordAt words 0).toNat / 65536 + 65536 - l.get (R.SE_Cc_STAT_seq k))).toInt ≤ 0 ∨
      sdiff (wordAt words 1) (l.rd (R.SE_Cc_STAMP k)) ≤ 0) : Undelivered k l (l.judgeCopy c k pathB words arrival) := by
  have hrejected {f : Fld} (hf : f.addr = R.SE_FLAGS) (byTime : Bool) := undelivered_reject c l k pathB arrival hf byTime
  unfold Lane.judgeCopy
  dsimp only
  refine .ite (fun _ => .refl k l) fun _ => .ite (fun _ => hrejected rfl false) fun _ => .ite (fun _ => hrejected rfl false) fun _ =>
    .ite (fun _ => hrejected rfl true) fun _ => .ite (fun _ => hrejected rfl true) fun _ => .ite (fun hstart => ?first) fun _ =>
    .ite (fun _ => undelivered_seFlag l k rfl) fun _ => .ite (fun _ => hrejected rfl false) fun hsame =>
    .ite (fun _ => hrejected rfl false) fun hahead => ?ahead
  case first => exact absurd (hrun.symm.trans hstart) (by decide)
  case ahead => omega

/-! ### Which row of R435 judges a copy -/

section
variable (hopen : ¬(l.get (R.SE_Cc_STAT_state k) = seBlocked ∨ l.get (R.SE_Cc_STAT_state k) = sePerm))
  (hmedium : l.get (R.SE_Cc_CFG_medium k) = 0)

include hopen hmedium

theorem Lane.judgeCopy_of_bad_format (hbad : (wordAt words 0).toNat % 65536 ≠ l.get (R.SE_Cc_CFG_length k) ∨
    words.length ≠ 3 + l.get (R.SE_Cc_CFG_length k)) :
    l.judgeCopy c k pathB words arrival = l.reject c k pathB arrival R.SE_FLAGS_format false := by
  simp only [Lane.judgeCopy, hopen, hmedium, if_false, zero_ne_one]
  exact if_pos hbad

variable (hlength : (wordAt words 0).toNat % 65536 = l.get (R.SE_Cc_CFG_length k))
  (hsize : words.length = 3 + l.get (R.SE_Cc_CFG_length k))

include hlength hsize

theorem Lane.judgeCopy_of_bad_check (hbad : wordAt words (2 + l.get (R.SE_Cc_CFG_length k)) ≠
    envCheck (l.rd (R.SE_Cc_ID k)) (words.take (2 + l.get (R.SE_Cc_CFG_length k)))) :
    l.judgeCopy c k pathB words arrival = l.reject c k pathB arrival R.SE_FLAGS_check_fail false := by
  simp only [Lane.judgeCopy, hopen, hmedium, hlength, hsize, if_false, zero_ne_one, ne_eq, not_true_eq_false, or_self]
  exact if_pos hbad

variable (hcheck : wordAt words (2 + l.get (R.SE_Cc_CFG_length k)) =
  envCheck (l.rd (R.SE_Cc_ID k)) (words.take (2 + l.get (R.SE_Cc_CFG_length k))))

include hcheck

theorem Lane.judgeCopy_of_old (hold : ((l.rd (R.SE_Cc_MAX_AGE k)).toNat : Int) < sdiff arrival (wordAt words 1)) :
    l.judgeCopy c k pathB words arrival = l.reject c k pathB arrival R.SE_FLAGS_delay true := by
  simp only [Lane.judgeCopy, hopen, hmedium, hlength, hsize, hcheck, if_false, zero_ne_one, ne_eq, not_true_eq_false, or_self]
  exact if_pos hold

theorem Lane.judgeCopy_of_first (hstart : l.get (R.SE_Cc_STAT_state k) = seStart)
    (hyoung : sdiff arrival (wordAt words 1) ≤ ((l.rd (R.SE_Cc_MAX_AGE k)).toNat : Int))
    (hpast : -(2 * (l.precision : Int)) ≤ sdiff arrival (wordAt words 1)) :
    l.judgeCopy c k pathB words arrival = l.accept k pathB arrival ((wordAt words 0).toNat / 65536) (wordAt words 1)
      ((words.drop 2).take (l.get (R.SE_Cc_CFG_length k))) := by
  simp only [Lane.judgeCopy, hopen, hmedium, hlength, hsize, hcheck, if_false, zero_ne_one, ne_eq, not_true_eq_false, or_self]
  rw [if_neg (by omega), if_neg (by omega), if_pos hstart]

end

/-! ### The judgement of a copy (R434) -/

/-- Connection `k` notes the copy that it judges now. -/
def Lane.judging (c : Ctx) (l : Lane) (k : Nat) (pathB : Bool) (arrival : Word) : Lane :=
  l.setConn k { l.conn k with judged := some (arrival, pathB, c.now) }

theorem undelivered_judging (c : Ctx) (l : Lane) (k : Nat) (pathB : Bool) (arrival : Word) :
    Undelivered k l (l.judging c k pathB arrival) := by
  refine ⟨?_, ?_, rfl, touches_setConn _ _ _ _⟩ <;> rw [Lane.judging, Lane.conn_setConn_same]

theorem Lane.blockOver_judging (n : Int) : (l.judging c k pathB arrival).blockOver k n = l.blockOver k n := by
  rw [Lane.blockOver, Lane.judging, Lane.conn_setConn_same]
  rfl

theorem Lane.blockOver_of_not_blocked (h : l.get (R.SE_Cc_STAT_state k) ≠ seBlocked) (n : Int) : l.blockOver k n = false := by
  simp [Lane.blockOver, h]

/-- A block that is not over stays at the judgement. -/
theorem Lane.judging_kept {n : Int} (h : l.blockOver k n = false) :
    (if (l.judging c k pathB arrival).blockOver k n then (l.judging c k pathB arrival).unblock k else l.judging c k pathB arrival) =
      l.judging c k pathB arrival := by rw [Lane.blockOver_judging, h]; rfl

/-- A copy in its turn on path A is judged. -/
theorem envelopeCopyJudgeL_of_taken {k : Fin 64} (hdefined : l.bit (R.SE_Cc_CFG_defined k.val) = true)
    (hrole : l.bit (R.SE_Cc_CFG_role k.val) = false) (hpath : l.bit (R.SE_Cc_CFG_path_a k.val) = true)
    (hset : l.bit R.TM_STATUS_set = true) (hcame : l.copyCame k.val false words arrival = true)
    (hturn : l.inTurnOf c k.val false arrival = true) (hstays : l.get (R.SE_Cc_STAT_state k.val) ≠ seBlocked) :
    envelopeCopyJudgeL c k false words arrival l = (l.judging c k.val false arrival).judgeCopy c k.val false words arrival := by
  rw [← Lane.judging_kept (c := c) (pathB := false) (arrival := arrival) (Lane.blockOver_of_not_blocked hstays _)]
  exact if_pos (by simp [hdefined, hrole, hpath, hset, hcame, hturn])

/-- A copy of a connection whose block is not over is discarded, or it is judged as the connection stands. -/
theorem envelopeCopyJudgeL_cases {k : Fin 64} (hstays : l.blockOver k.val ((c.now : Int) - sdiff l.stamp arrival) = false) :
    envelopeCopyJudgeL c k pathB words arrival l = l ∨
      envelopeCopyJudgeL c k pathB words arrival l = (l.judging c k.val pathB arrival).judgeCopy c k.val pathB words arrival := by
  rw [← Lane.judging_kept (c := c) (pathB := pathB) (arrival := arrival) hstays]
  exact (ite_eq_or_eq _ _ l).symm

/-- A blocked connection judges no copy. -/
theorem Lane.judgeCopy_of_blocked (h : l.get (R.SE_Cc_STAT_state k) = seBlocked ∨ l.get (R.SE_Cc_STAT_state k) = sePerm) :
    l.judgeCopy c k pathB words arrival = l := if_pos h

end

/-- Settles O27: each row of R435 rejects the copy, which a rejection leaves undelivered; a blocked connection judges none. -/
theorem envelopeFaultsRejected : Obligations.EnvelopeFaultsRejected := by
  refine ⟨?rejected, ?blocked⟩
  case rejected =>
    intro s ln c l k words arrival f h hdefined hrole hpath hset hcame hturn hblocked hperm hmedium hrow
    have hopen : ¬(l.get (R.SE_Cc_STAT_state k.val) = seBlocked ∨ l.get (R.SE_Cc_STAT_state k.val) = sePerm) := by tauto
    have hflag : f.addr = R.SE_FLAGS ∧ f.lo = f.hi ∧ f.hi < 32 := by
      obtain ⟨-, rfl⟩ | ⟨-, rfl⟩ | ⟨-, rfl⟩ := hrow <;> decide
    obtain ⟨byTime, hjudged⟩ : ∃ byTime, (l.judging c k.val false arrival).judgeCopy c k.val false words arrival =
        (l.judging c k.val false arrival).reject c k.val false arrival f byTime := by
      obtain ⟨hbad, rfl⟩ | ⟨⟨hlength, hsize, hbad⟩, rfl⟩ | ⟨⟨hlength, hsize, hcheck, hold⟩, rfl⟩ := hrow
      · exact ⟨_, Lane.judgeCopy_of_bad_format hopen hmedium hbad⟩
      · exact ⟨_, Lane.judgeCopy_of_bad_check hopen hmedium hlength hsize hbad⟩
      · exact ⟨_, Lane.judgeCopy_of_old hopen hmedium hlength hsize hcheck hold⟩
    obtain ⟨haddr, hbit, h32⟩ := hflag
    obtain ⟨ch, hconn⟩ := (l.judging c k.val false arrival).conn_reject_same c k.val false arrival f byTime
    rw [Lane.judging, Lane.conn_setConn_same, ← Lane.judging] at hconn
    have hnone := (undelivered_judging c l k.val false arrival).trans (undelivered_reject c _ k.val false arrival haddr byTime)
    refine ⟨_, gives_of_onAlive_eq (envelopeCopyJudgeL · k false words arrival) h rfl
      ((envelopeCopyJudgeL_of_taken hdefined hrole hpath hset hcame hturn hblocked).trans hjudged), Lane.bit_seFlag_same _ _ haddr hbit h32,
      hnone.payload, hnone.arrival, by rw [hconn], by rw [hconn, List.length_append]; rfl, Lane.get_last_conn_seFlag _ k.isLt f, ?others,
      hnone.touches.regs, hnone.touches.sameMem⟩
    case others =>
      intro j hj
      have hne : j.val ≠ k.val := fun heq => hj (Fin.ext heq)
      rw [Lane.conn_reject_ne _ _ hne, Lane.judging, Lane.conn_setConn_ne _ _ hne]
  case blocked =>
    intro s ln c l k pathB words arrival h hblocked
    refine ⟨_, gives_of_onAlive (envelopeCopyJudgeL · k pathB words arrival) h rfl, ?_⟩
    have hstays : l.blockOver k.val ((c.now : Int) - sdiff l.stamp arrival) = false := by
      obtain ⟨-, hcame, hlong⟩ | hperm := hblocked
      · simp only [Lane.blockOver, Bool.and_eq_false_iff, decide_eq_false_iff_not]
        omega
      · exact Lane.blockOver_of_not_blocked (by rw [hperm]; decide) _
    have hstate : l.get (R.SE_Cc_STAT_state k.val) = seBlocked ∨ l.get (R.SE_Cc_STAT_state k.val) = sePerm := by tauto
    obtain hsame | hjudged := envelopeCopyJudgeL_cases (pathB := pathB) (words := words) hstays
    · exact .inl hsame
    · exact .inr ⟨_, hjudged.trans (Lane.judgeCopy_of_blocked hstate)⟩

/-- Settles O28: the note of the judged copy delivers nothing, and neither does a judgement of a copy that is not ahead. -/
theorem envelopeReplayRejected : Obligations.EnvelopeReplayRejected := by
  intro s ln c l k pathB words arrival h hrun hreplay
  have hstays := Lane.blockOver_of_not_blocked (l := l) (k := k.val) (by rw [hrun]; decide) ((c.now : Int) - sdiff l.stamp arrival)
  have hnone : Undelivered k.val l (envelopeCopyJudgeL c k pathB words arrival l) := by
    obtain hsame | hjudged := envelopeCopyJudgeL_cases (pathB := pathB) (words := words) hstays
    · rw [hsame]
      exact .refl _ l
    · rw [hjudged]
      exact (undelivered_judging c l k.val pathB arrival).trans (undelivered_judgeCopy_of_replay c pathB arrival hrun hreplay)
  exact ⟨_, gives_of_onAlive (envelopeCopyJudgeL · k pathB words arrival) h rfl, hnone.payload, hnone.arrival, hnone.queue,
    hnone.touches.regs, hnone.touches.sameMem⟩

end Sys2Proof.Machine

/-! PROOFS. The charge of a rejection and the block of a connection (R436, R437), and the commands of the safety envelope unit. -/

namespace Sys2Proof.Machine

section
variable {c : Ctx} {l m : Lane} {k : Nat}

/-! ### The registers of a connection beside the unit's flags (R442) -/

theorem stat_not_mem_flagRegs (k : Nat) : R.SE_Cc_STAT k ∉ [R.SE_FLAGS, R.SE_LAST] := by
  simp only [R.SE_Cc_STAT, R.SE_FLAGS, R.SE_LAST, List.mem_cons, List.not_mem_nil, or_false]
  omega

/-- The status of a connection stays when a flag of the unit is set. -/
theorem Lane.get_stat_seFlag (l : Lane) (k : Nat) {f g : Fld} (hf : f.addr = R.SE_FLAGS) (hg : g.addr = R.SE_Cc_STAT k) :
    (l.seFlag k f).get g = l.get g :=
  (touches_seFlag l k hf (List.mem_cons_self ..) (by simp)).get g (hg ▸ stat_not_mem_flagRegs k)

/-- A flag of the unit that is set stays set when another one is. -/
theorem Lane.bit_seFlag_of_bit (k : Nat) {f g : Fld} (hbit : f.lo = f.hi) (h32 : f.hi < 32) (hg : g.addr = R.SE_FLAGS)
    (hgbit : g.lo = g.hi) (hset : l.bit g = true) : (l.seFlag k f).bit g = true := by
  have hlast : g.addr ≠ R.SE_LAST := by rw [hg]; decide
  rw [← Lane.bit_flag_of_bit hbit h32 hgbit hset]
  exact Lane.bit_of_get ((Lane.get_put_addr _ _ _ _ hlast).trans (Lane.get_put_addr _ _ _ _ hlast))

/-! ### A charge (R437) -/

/-- The registers of the unit in which a charge of connection `k` shows. -/
def chargeRegs (k : Nat) : List Nat := [R.SE_FLAGS, R.SE_LAST, R.SE_Cc_REJ k, R.SE_Cc_STAT k]

/-- A charged rejection as it is counted, before it blocks. -/
def Lane.chargeCounted (l : Lane) (k : Nat) : Lane :=
  ((l.setConn k { l.conn k with okRun := 0 }).inc (R.SE_Cc_REJ_charged k)).put (R.SE_Cc_STAT_level k)
    (min (l.get (R.SE_Cc_STAT_level k) + 1) 255)

/-- A connection blocked now, before its state shows it. -/
def Lane.blockNoted (c : Ctx) (l : Lane) (k : Nat) : Lane :=
  ((l.setConn k { l.conn k with blockAt := c.now }).put (R.SE_Cc_STAT_blocks k) (l.get (R.SE_Cc_STAT_blocks k) + 1)).seFlag k
    R.SE_FLAGS_blocked

theorem touches_chargeCounted (l : Lane) (k : Nat) : Touches (chargeRegs k) l (l.chargeCounted k) :=
  ((touches_setConn _ l k _).trans (touches_put _ (by simp [chargeRegs]))).trans (touches_put _ (by simp [chargeRegs]))

/-- The count of a charge leaves the blocks and the state of the connection. -/
theorem Lane.get_stat_chargeCounted (l : Lane) (k : Nat) {f : Fld} (haddr : f.addr = R.SE_Cc_STAT k) (hf : f.lo ≤ f.hi)
    (hbelow : f.hi < 8) : (l.chargeCounted k).get f = l.get f := by
  have hrej : f.addr ≠ R.SE_Cc_REJ k := by rw [haddr]; simp
  rw [Lane.chargeCounted, Lane.get_put_below _ _ _ _ (by simp) (by simp) hf hbelow, Lane.inc, Lane.get_put_addr _ _ _ _ hrej]
  rfl

theorem touches_blockNoted (c : Ctx) (l : Lane) (k : Nat) : Touches (chargeRegs k) l (l.blockNoted c k) :=
  ((touches_setConn _ l k _).trans (touches_put _ (by simp [chargeRegs]))).trans
    (touches_seFlag _ k rfl (by simp [chargeRegs]) (by simp [chargeRegs]))

theorem Lane.get_blocks_blockNoted (hblocks : l.get (R.SE_Cc_STAT_blocks k) < 15) :
    (l.blockNoted c k).get (R.SE_Cc_STAT_blocks k) = l.get (R.SE_Cc_STAT_blocks k) + 1 := by
  rw [Lane.blockNoted, Lane.get_stat_seFlag _ k rfl rfl, Lane.get_put_same _ _ _ (by simp) (by simp)]
  exact Nat.mod_eq_of_lt (by simp; omega)

theorem Lane.bit_blocked_blockNoted (c : Ctx) (l : Lane) (k : Nat) : (l.blockNoted c k).bit R.SE_FLAGS_blocked = true :=
  Lane.bit_seFlag_same _ k rfl rfl (by decide)

theorem Lane.blockAt_blockNoted (c : Ctx) (l : Lane) (k : Nat) : ((l.blockNoted c k).conn k).blockAt = c.now := by
  rw [Lane.blockNoted, Lane.conn_seFlag, Lane.conn_put, Lane.conn_setConn_same]

/-- A charge that takes an open connection to err_limit blocks it. -/
theorem Lane.charge_of_limit (hopen : ¬(l.get (R.SE_Cc_STAT_state k) = seBlocked ∨ l.get (R.SE_Cc_STAT_state k) = sePerm))
    (hlimit : l.get R.SE_LIMITS_err_limit ≤ min (l.get (R.SE_Cc_STAT_level k) + 1) 255) :
    l.charge c k =
      if 3 ≤ l.get (R.SE_Cc_STAT_blocks k) + 1 then
        (((l.chargeCounted k).blockNoted c k).put (R.SE_Cc_STAT_state k) sePerm).seFlag k R.SE_FLAGS_perm_blocked
      else ((l.chargeCounted k).blockNoted c k).put (R.SE_Cc_STAT_state k) seBlocked := by
  have hstate : (l.chargeCounted k).get (R.SE_Cc_STAT_state k) = l.get (R.SE_Cc_STAT_state k) :=
    l.get_stat_chargeCounted k rfl (by simp) (by simp)
  have hblocks : (l.chargeCounted k).get (R.SE_Cc_STAT_blocks k) = l.get (R.SE_Cc_STAT_blocks k) :=
    l.get_stat_chargeCounted k rfl (by simp) (by simp)
  rw [← hblocks]
  exact if_neg (by rw [← Lane.chargeCounted, hstate]; omega)

/-- From `l` to `m` connection `k` is blocked once more, the third time until the power cycle. -/
structure BlockedAgain (c : Ctx) (k : Nat) (l m : Lane) : Prop where
  blocks : m.get (R.SE_Cc_STAT_blocks k) = l.get (R.SE_Cc_STAT_blocks k) + 1
  flag : m.bit R.SE_FLAGS_blocked = true
  state : m.get (R.SE_Cc_STAT_state k) = if l.get (R.SE_Cc_STAT_blocks k) = 2 then sePerm else seBlocked
  blockAt : (m.conn k).blockAt = c.now
  touches : Touches (chargeRegs k) l m

theorem blockedAgain_charge (hopen : ¬(l.get (R.SE_Cc_STAT_state k) = seBlocked ∨ l.get (R.SE_Cc_STAT_state k) = sePerm))
    (hlimit : l.get R.SE_LIMITS_err_limit ≤ min (l.get (R.SE_Cc_STAT_level k) + 1) 255) (hthird : l.get (R.SE_Cc_STAT_blocks k) < 3) :
    BlockedAgain c k l (l.charge c k) := by
  have hcounted : (l.chargeCounted k).get (R.SE_Cc_STAT_blocks k) = l.get (R.SE_Cc_STAT_blocks k) :=
    l.get_stat_chargeCounted k rfl (by simp) (by simp)
  have hblocks (st : Nat) : (((l.chargeCounted k).blockNoted c k).put (R.SE_Cc_STAT_state k) st).get (R.SE_Cc_STAT_blocks k) =
      l.get (R.SE_Cc_STAT_blocks k) + 1 := by
    rw [Lane.get_put_above _ _ _ _ (by simp) (by simp) (by simp), Lane.get_blocks_blockNoted (by rw [hcounted]; omega), hcounted]
  have hflag (st : Nat) : (((l.chargeCounted k).blockNoted c k).put (R.SE_Cc_STAT_state k) st).bit R.SE_FLAGS_blocked = true := by
    rw [← (l.chargeCounted k).bit_blocked_blockNoted c k]
    exact Lane.bit_of_get (Lane.get_put_addr _ _ _ _ (by simp only [R.SE_FLAGS, R.SE_Cc_STAT]; omega))
  have hstate (st : Nat) (hst : st < 4) :
      (((l.chargeCounted k).blockNoted c k).put (R.SE_Cc_STAT_state k) st).get (R.SE_Cc_STAT_state k) = st :=
    (Lane.get_put_same _ _ _ (by simp) (by simp)).trans (Nat.mod_eq_of_lt hst)
  have htouches (st : Nat) : Touches (chargeRegs k) l (((l.chargeCounted k).blockNoted c k).put (R.SE_Cc_STAT_state k) st) :=
    ((touches_chargeCounted l k).trans (touches_blockNoted c _ k)).trans (touches_put _ (by simp [chargeRegs]))
  rw [Lane.charge_of_limit hopen hlimit]
  split
  case isTrue hlast =>
    refine ⟨?_, Lane.bit_seFlag_of_bit k rfl (by decide) rfl rfl (hflag sePerm), ?_, ?_,
      (htouches sePerm).trans (touches_seFlag _ k rfl (by simp [chargeRegs]) (by simp [chargeRegs]))⟩
    · rw [Lane.get_stat_seFlag _ k rfl rfl, hblocks]
    · rw [Lane.get_stat_seFlag _ k rfl rfl, hstate _ (by decide), if_pos (by omega)]
    · rw [Lane.conn_seFlag, Lane.conn_put, Lane.blockAt_blockNoted]
  case isFalse hearlier =>
    refine ⟨hblocks seBlocked, hflag seBlocked, ?_, ?_, htouches seBlocked⟩
    · rw [hstate _ (by decide), if_neg (by omega)]
    · rw [Lane.conn_put, Lane.blockAt_blockNoted]

/-! ### The decision on waiting rejections (R436) -/

/-- Connection `k` with no rejection waiting. -/
def Lane.chargesTaken (l : Lane) (k : Nat) : Lane := l.setConn k { l.conn k with charges := [] }

theorem envelopeChargeDecisionL_of_none {k : Fin 64} (hcharges : (l.conn k.val).charges = []) :
    envelopeChargeDecisionL c k l = l.chargesTaken k.val := by
  simp only [envelopeChargeDecisionL, hcharges]
  rfl

variable {k : Fin 64} {ch : Charge}

section
variable (hcharges : (l.conn k.val).charges = [ch]) (hmedium : l.get (R.SE_Cc_CFG_medium k.val) = 0)

include hcharges hmedium

/-- On Nolxis a rejection is decided at the end of the slot. -/
theorem envelopeChargeDecisionL_of_one :
    envelopeChargeDecisionL c k l = (l.chargesTaken k.val).decideCharges c k.val [ch] := by
  simp [envelopeChargeDecisionL, hcharges, hmedium, Lane.chargesTaken]

theorem envelopeChargeDecisionL_of_charged (huncovered : (l.chargesTaken k.val).covers k.val ch = false) (hplain : ch.excused = false) :
    envelopeChargeDecisionL c k l = (l.chargesTaken k.val).charge c k.val := by
  rw [envelopeChargeDecisionL_of_one hcharges hmedium]
  simp [Lane.decideCharges, huncovered, hplain]

theorem envelopeChargeDecisionL_of_covered (hcovered : (l.chargesTaken k.val).covers k.val ch = true) :
    envelopeChargeDecisionL c k l = ((l.chargesTaken k.val).countPath k.val ch.pathB).seFlag k.val R.SE_FLAGS_path_fail := by
  rw [envelopeChargeDecisionL_of_one hcharges hmedium]
  simp [Lane.decideCharges, hcovered]

end

/-! ### Producing and unblocking (R432, R437) -/

theorem connectionUnblockL_of_over (hblocked : l.get (R.SE_Cc_STAT_state k.val) = seBlocked)
    (hover : (l.conn k.val).blockAt + l.get R.SE_LIMITS_block_ms * 1000000 ≤ c.now) : connectionUnblockL c k l = l.unblock k.val :=
  if_pos (by simp only [Lane.blockOver, Bool.and_eq_true, decide_eq_true_eq]; omega)

theorem connectionUnblockL_of_not_blocked (h : l.get (R.SE_Cc_STAT_state k.val) ≠ seBlocked) : connectionUnblockL c k l = l :=
  if_neg (by rw [Lane.blockOver_of_not_blocked h]; decide)

theorem envelopeProduceL_of_leg (hsource : l.bit (R.SE_Cc_CFG_source k.val) = false) (payload : List Word) :
    envelopeProduceL k payload l = l.produce k.val payload := if_neg (by rw [hsource]; decide)

theorem seTxCommitL_of_firmware {v : Word} {j : Nat} (hcommit : v.getLsbD 0 = true) (hsel : l.get R.SE_TX_SEL_conn = j)
    (hdefined : l.bit (R.SE_Cc_CFG_defined j) = true) (hrole : l.bit (R.SE_Cc_CFG_role j) = true)
    (hsource : l.bit (R.SE_Cc_CFG_source j) = true) :
    seTxCommitL v l = ({ l with bus := .done } : Lane).produce j ((List.range 61).map fun w => (tabGet (l.conn j).tx w).getD 0) := by
  subst hsel
  exact (if_pos hcommit).trans (if_pos (Bool.and_eq_true_iff.mpr ⟨Bool.and_eq_true_iff.mpr ⟨hdefined, hrole⟩, hsource⟩))

end

/-- Settles O29: a charge that reaches the limit blocks, as above, and only a connection in BLOCKED is unblocked. -/
theorem thirdBlockIsPermanent : Obligations.ThirdBlockIsPermanent := by
  refine ⟨?charge, ?unblock⟩
  case charge =>
    intro s ln c l k ch h hcharges hmedium huncovered hplain hblocked hperm hlimit hthird
    obtain ⟨hblocks, hflag, hstate, hat, htouches⟩ :=
      blockedAgain_charge (c := c) (l := l.chargesTaken k.val) (k := k.val) (not_or_intro hblocked hperm) hlimit hthird
    have hall := (touches_setConn (chargeRegs k.val) l k.val _).trans htouches
    exact ⟨_, gives_of_onAlive_eq (envelopeChargeDecisionL · k) h rfl
      (envelopeChargeDecisionL_of_charged hcharges hmedium huncovered hplain),
      hblocks, hflag, hstate, hat, hall.regs, hall.sameMem⟩
  case unblock =>
    intro s ln c l k h hperm
    exact gives_of_onAlive_eq (connectionUnblockL · k) h rfl (connectionUnblockL_of_not_blocked (by rw [hperm]; decide))

/-- Settles O26: each clause is the equation of its command. -/
theorem envelopeCommandsComplete : Obligations.EnvelopeCommandsComplete := by
  refine ⟨?produce, ?commit, ?judge, ?none, ?charged, ?covered, ?unblock⟩
  case produce =>
    intro s ln c l k ws h hsource
    exact gives_of_onAlive_eq (fun _ l => envelopeProduceL k ws l) h rfl (envelopeProduceL_of_leg hsource ws)
  case commit =>
    intro s ln c l v k h hcommit hsel hdefined hrole hsource
    exact gives_of_onAlive_eq (fun _ l => seTxCommitL v l) h rfl (seTxCommitL_of_firmware hcommit hsel hdefined hrole hsource)
  case judge =>
    intro s ln c l k words arrival h hdefined hrole hpath hset hcame hturn hstart hmedium hsize hlength hcheck hyoung hpast
    have hblocked : l.get (R.SE_Cc_STAT_state k.val) ≠ seBlocked := by rw [hstart]; decide
    have hperm : l.get (R.SE_Cc_STAT_state k.val) ≠ sePerm := by rw [hstart]; decide
    exact gives_of_onAlive_eq (envelopeCopyJudgeL · k false words arrival) h rfl
      ((envelopeCopyJudgeL_of_taken hdefined hrole hpath hset hcame hturn hblocked).trans
        (Lane.judgeCopy_of_first (not_or_intro hblocked hperm) hmedium hlength hsize hcheck hstart hyoung hpast))
  case none =>
    intro s ln c l k h hcharges
    exact gives_of_onAlive_eq (envelopeChargeDecisionL · k) h rfl (envelopeChargeDecisionL_of_none hcharges)
  case charged =>
    intro s ln c l k ch h hcharges hmedium huncovered hplain
    exact gives_of_onAlive_eq (envelopeChargeDecisionL · k) h rfl (envelopeChargeDecisionL_of_charged hcharges hmedium huncovered hplain)
  case covered =>
    intro s ln c l k ch h hcharges hmedium hcovered
    exact gives_of_onAlive_eq (envelopeChargeDecisionL · k) h rfl (envelopeChargeDecisionL_of_covered hcharges hmedium hcovered)
  case unblock =>
    intro s ln c l k h hblocked hover
    exact gives_of_onAlive_eq (connectionUnblockL · k) h rfl (connectionUnblockL_of_over hblocked hover)

end Sys2Proof.Machine

/-! PROOFS. Power requests, the sleep vote and its end (R445 to R451, R460 to R463): one equation for each case of a command that is
stated. -/

namespace Sys2Proof.Machine

section
variable {c : Ctx} {l m : Lane}

/-! ### Requests (R445, R446) -/

section
variable {w0 w1 : Word}

theorem powerRequestL_of_number_in_force (h : w0.toNat / 65536 = l.get R.PW_REQ_number) : powerRequestL c w0 w1 l = l := if_pos h

variable (hnew : w0.toNat / 65536 ≠ l.get R.PW_REQ_number)

include hnew

theorem powerRequestL_of_undefined (h : 4 ≤ w0.toNat % 8 ∨ w0.toNat / 8 % 32 ≠ 0) :
    powerRequestL c w0 w1 l = l.flag R.PW_FLAGS_request_refused := (if_neg hnew).trans (if_pos h)

/-- A request for STILL in RUN, `m` being the lane with the request recorded. -/
theorem powerRequestL_of_still (htarget : w0.toNat % 8 = 1) (hreserved : w0.toNat / 8 % 32 = 0)
    (hm : m = ((((((l.rollBack c []).put R.PW_REQ_number (w0.toNat / 65536)).put R.PW_REQ_wake_en (w0.toNat / 256 % 256)).put
      R.PW_REQ_target 1).wr R.PW_REQ_DELAY w1).put R.PW_STATUS_req (w0.toNat / 65536)).put R.PW_STATUS_target 1)
    (hrun : m.pwState = 0) (hrest : m.mayRest c = true) : powerRequestL c w0 w1 l = m.enterStill c := by
  simp only [powerRequestL, if_neg hnew, htarget, hreserved, ← hm, hrun, hrest]
  rfl

end

/-! ### The vote (R447, R449) -/

variable {v : Vote}

theorem voteWindowExpiryL_of_expired (unit : Fin 22) (hvote : l.pw.vote = some v) (hvoting : l.pwState = 2) (hready : v.refused = false)
    (hexpired : v.startedAt + l.voteWindow ≤ c.now) :
    voteWindowExpiryL c unit l =
      (let l1 := (l.recordRefusal c v.number unit.val 14).flag R.PW_FLAGS_vote_refused;
        ({ l1 with pw := { l1.pw with vote := some { v with refused := true, sent := 2 } } }).sendVote v.number v.target 2) := by
  simp only [voteWindowExpiryL, hvote]
  exact if_pos ⟨hvoting, hready, hexpired⟩

/-- A refused vote rolls back, and the lanes that had sent COMMIT are to be pulsed. -/
theorem powerVoteNitL_of_refused (others : List (LaneId × Word)) (hvote : l.pw.vote = some v) (hrefused : v.refused = true) :
    powerVoteNitL c others l = l.rollBack c (((othersOf c).filter fun x => maskHas v.fit x).filter fun x =>
      decide (voteFrom others v.number v.target x = 3)) := by
  simp [powerVoteNitL, hvote, hrefused]

/-! ### The end of the entry (R451, R460, R462, R463) -/

section
variable {t : Nat} (hponr : l.pw.ponrAt = some t) (hentering : l.pwState = 4) (hsaved : l.pw.saved = true)
  (hdue : t + 20200000 ≤ c.now) (hnowake : l.get R.PW_WAKE_CAUSE_sources = 0)

include hponr hentering hsaved hdue hnowake

/-- The lane as it enters its sleep: in DORMANT the pads are held. -/
theorem sleepEntryCompleteL_of_due :
    sleepEntryCompleteL c l =
      if l.get R.PW_STATUS_target = 3 then
        { ((l.stampAt R.PW_SLEEP_STAMP).putU R.PW_SLEEP_AON (l.aonNow c)).put R.PW_STATUS_pads_held 1 with phase := .asleepDormant }
      else { (l.stampAt R.PW_SLEEP_STAMP).putU R.PW_SLEEP_AON (l.aonNow c) with phase := .asleepNap } := by
  simp only [sleepEntryCompleteL, hponr, hentering, hsaved, hnowake, hdue, and_self, if_true]

end

end

/-- The command ends the entry of its lane; then the marshal follows its supply, and in DORMANT the lane's votes end. -/
theorem sleepEntryComplete_next {s : State} {ln : LaneId} {l : Lane} (hhas : s.has ln = true) (hpowered : (s.lane ln).powered = true)
    (hl : sleepEntryCompleteL (s.ctx ln) (s.lane ln) = l) :
    exec (.sleepEntryComplete ln) s = votesEndAfter ln (.next (s.setLane ln l).supplyMarshal) := by
  change votesEndAfter ln (supplyAfter (onLane ln (fun c l => if l.powered then sleepEntryCompleteL c l else l) s)) = _
  rw [onLane_of_has ln _ s hhas, if_pos hpowered, hl, supplyAfter]

theorem votesEndAfter_next_of_asleepDormant {s : State} {ln : LaneId} {l : Lane} (h : l.phase = .asleepDormant) :
    votesEndAfter ln (.next (s.setLane ln l).supplyMarshal) = .next ((s.setLane ln l).supplyMarshal.votesEnd ln) :=
  if_pos (.inr (by rw [State.supplyMarshal_phase, State.lane_setLane_same, h]))

theorem votesEndAfter_next_of_asleepNap {s : State} {ln : LaneId} {l : Lane} (h : l.phase = .asleepNap) :
    votesEndAfter ln (.next (s.setLane ln l).supplyMarshal) = .next (s.setLane ln l).supplyMarshal :=
  if_neg (by rw [State.supplyMarshal_phase, State.lane_setLane_same, h]; decide)

/-- Settles O30: each clause is the equation of its command, and the phase of the lane tells whether its votes end. -/
theorem powerRequestsComplete : Obligations.PowerRequestsComplete := by
  refine ⟨?inForce, ?undefined, ?still, ?expiry, ?alone, ?refused, ?save, ?dormant, ?nap⟩
  case inForce =>
    intro s ln c l w0 w1 h hsame
    exact gives_of_onAlive_eq (powerRequestL · w0 w1) h rfl (powerRequestL_of_number_in_force hsame)
  case undefined =>
    intro s ln c l w0 w1 h hnew hbad
    exact gives_of_onAlive_eq (powerRequestL · w0 w1) h rfl (powerRequestL_of_undefined hnew hbad)
  case still =>
    intro s ln c l w0 w1 l2 h hnew htarget hreserved hl2 hrun hrest
    exact gives_of_onAlive_eq (powerRequestL · w0 w1) h rfl (powerRequestL_of_still hnew htarget hreserved hl2 hrun hrest)
  case expiry =>
    intro s ln c l unit v h hvote hvoting hready hexpired
    exact gives_of_onAlive_eq (voteWindowExpiryL · unit) h rfl (voteWindowExpiryL_of_expired unit hvote hvoting hready hexpired)
  case alone =>
    intro s ln c l others v h hvote hready hfit hvoting halone
    exact gives_of_onAlive_eq (powerVoteNitL · others) h rfl (powerVoteNitL_of_alone others hvote hready hfit hvoting halone)
  case refused =>
    intro s ln c l others v h hvote hrefused
    exact gives_of_onAlive_eq (powerVoteNitL · others) h rfl (powerVoteNitL_of_refused others hvote hrefused)
  case save =>
    intro s ln c l t h hpowered hponr hentering hunsaved hdue
    exact gives_of_onLane_eq (fun c l => if l.powered then retentionSaveL c l else l) h rfl
      ((if_pos hpowered).trans (retentionSaveL_of_due hponr hentering hunsaved hdue))
  case dormant =>
    intro s ln t hhas hpowered hponr hentering hsaved hdue hnowake htarget
    have hend := (sleepEntryCompleteL_of_due hponr hentering hsaved hdue hnowake).trans (if_pos htarget)
    exact (sleepEntryComplete_next hhas hpowered hend).trans (votesEndAfter_next_of_asleepDormant rfl)
  case nap =>
    intro s ln t hhas hpowered hponr hentering hsaved hdue hnowake htarget
    have hend := (sleepEntryCompleteL_of_due hponr hentering hsaved hdue hnowake).trans (if_neg (by rw [htarget]; decide))
    exact (sleepEntryComplete_next hhas hpowered hend).trans (votesEndAfter_next_of_asleepNap rfl)

end Sys2Proof.Machine

/-! PROOFS. The presence contact of a lane without supply (R465 to R467), which refutes the statement on the start. -/

namespace Sys2Proof.Machine

/-- At the closing of its contact a lane without supply shows the level of the contact, and takes no stamp or flag. -/
theorem presenceClose_gives_contactSeen {s : State} {ln : LaneId} {c : Ctx} {l : Lane} (h : There s ln c l) (hoff : l.powered = false) :
    Gives (.presenceClose ln) s ln (l.contactSeen c true) :=
  gives_of_onLane_eq (fun c l => if l.powered then presenceCloseL c l else l.contactSeen c true) h rfl
    (if_neg (by rw [hoff]; decide))

theorem Lane.bit_contactSeen (c : Ctx) (l : Lane) (closed : Bool) {f : Fld} (hf : f.addr ≠ R.PW_STATUS) :
    (l.contactSeen c closed).bit f = l.bit f := Lane.bit_of_get (l.get_put_addr R.PW_STATUS_presence f (cond closed 1 0) hf)

/-- What presenceClose makes of a powered lane is what it makes of one without supply only where the flag of the closing stood before. -/
theorem bit_presence_close_of_unpowered {s : State} {ln : LaneId} {c : Ctx} {l : Lane} (h : There s ln c l) (hoff : l.powered = false)
    (hgives : Gives (.presenceClose ln) s ln (presenceCloseL c l)) : l.bit R.PW_FLAGS_presence_close = true := by
  have hset : (presenceCloseL c l).bit R.PW_FLAGS_presence_close = true := Lane.bit_flag_same _ _ rfl (by decide)
  rw [Gives.unique hgives (presenceClose_gives_contactSeen h hoff), Lane.bit_contactSeen _ _ _ (by decide)] at hset
  exact hset

/-- Lane A of a module whose lanes are off. -/
theorem there_marshalOnVaux_a : There marshalOnVaux .a (marshalOnVaux.ctx .a) marshalOnVaux.laneA := ⟨rfl, rfl, rfl⟩

/-- Refutes O55: its clause on PRESENCE_CLOSE does not ask that the lane is powered, and so it has the flag of the closing set in lane A
of `marshalOnVaux` too, a lane that is off: there only the level of the contact shows (R465, R467; the model's contactSeen, log 52). -/
theorem not_startCommandsComplete : ¬ Obligations.StartCommandsComplete := by
  rintro ⟨-, -, -, -, -, -, -, -, hclose, -⟩
  have hset := bit_presence_close_of_unpowered there_marshalOnVaux_a (by decide +kernel) (hclose marshalOnVaux .a _ _ there_marshalOnVaux_a)
  have hclear : marshalOnVaux.laneA.bit R.PW_FLAGS_presence_close = false := by decide +kernel
  exact Bool.false_ne_true (hclear.symm.trans hset)

end Sys2Proof.Machine

/-! PROOFS. Flash, the journal, and what a refused write request changes (R482, R487 to R489). -/

namespace Sys2Proof.Machine

/-! ### Erased flash (R486, R488, R510) -/

/-- A table without the entries of some keys. -/
theorem tabGet_filter_key {α : Type} (t : Tab α) (p : Nat → Bool) (i : Nat) :
    tabGet (t.filter fun e => p e.1) i = if p i then tabGet t i else none := by
  induction t with
  | nil => simp
  | cons e t ih =>
    obtain ⟨k, v⟩ := e
    by_cases hik : i = k
    · subst hik
      cases hp : p i <;> simp [hp, tabGet, ih]
    · cases hp : p k <;> simp [hp, tabGet, hik, ih]

/-- A byte outside the erased range reads as before. -/
theorem Lane.byte_erase_out (l : Lane) (base len a : Nat) (h : a < base ∨ base + len ≤ a) : (l.erase base len).byte a = l.byte a := by
  have hkept : (!decide (base ≤ a ∧ a < base + len)) = true := by
    rw [Bool.not_eq_true', decide_eq_false_iff_not]
    omega
  unfold Lane.byte Lane.erase memGet
  rw [tabGet_filter_key l.mem (fun k => !decide (base ≤ k ∧ k < base + len)) a, hkept]
  rfl

theorem Lane.erase_regs (l : Lane) (base len : Nat) : (l.erase base len).regs = l.regs := rfl

theorem Lane.erase_cf (l : Lane) (base len : Nat) : (l.erase base len).cf = l.cf := rfl

/-! ### The bytes of an entry (R488) -/

@[simp] theorem length_bytesMsb {w : Nat} (n : Nat) (v : BitVec w) : (bytesMsb n v).length = n := by simp [bytesMsb]

@[simp] theorem length_digestBytes32 (d : BitVec 256) : (digestBytes32 d).length = 32 := length_bytesMsb 32 d

theorem length_journalBytes (k : Nat) (now : Word) (lane : Nat) (gap : Bool) (prev : List Byte) (r : JournalRec) :
    (journalBytes k now lane gap prev r).length = 64 + prev.length := by
  simp only [journalBytes, List.length_append, List.length_flatMap, List.map_append, List.map_cons, List.map_nil, length_wordBytes,
    length_digestBytes32]
  rfl

/-- The journal stands in its own part of flash. -/
theorem journalAt_bounds (k : Nat) : 0x31800000 ≤ journalAt k ∧ journalAt k + 128 ≤ 0x31C00000 := by
  unfold journalAt
  omega

/-- So does the sector that an entry starts. -/
theorem journalAt_sector_le {k : Nat} (h : k % 512 = 0) : journalAt k + 65536 ≤ 0x31C00000 := by
  unfold journalAt
  omega

/-! ### What keeps images, calibration and session (R482) -/

section
variable {c : Ctx} {l m : Lane} {q : SvcReq}

/-- From `l` to `m` no byte outside the journal changes, no open transaction and no running image, and no register but the indices of
the journal and the flags of the service port. -/
structure KeepsImages (l m : Lane) : Prop where
  bytes : ∀ a, a < 0x31800000 ∨ 0x31C00000 ≤ a → m.byte a = l.byte a
  txn : m.cf.txn = l.cf.txn
  running : m.cf.running = l.cf.running
  regs : SameRegs l m [R.CF_FLAGS, R.CF_JNL_HEAD, R.CF_JNL_OLDEST, R.ET_FLAGS]

theorem KeepsImages.trans {n : Lane} (hlm : KeepsImages l m) (hmn : KeepsImages m n) : KeepsImages l n where
  bytes a ha := (hmn.bytes a ha).trans (hlm.bytes a ha)
  txn := hmn.txn.trans hlm.txn
  running := hmn.running.trans hlm.running
  regs a ha := (hmn.regs a ha).trans (hlm.regs a ha)

/-- An update of neither memory nor registers that keeps transaction and image. -/
theorem keepsImages_of_eq (hmem : m.mem = l.mem) (hregs : m.regs = l.regs) (htxn : m.cf.txn = l.cf.txn)
    (hrunning : m.cf.running = l.cf.running) : KeepsImages l m :=
  ⟨fun a _ => SameMem.of_mem_eq hmem a, htxn, hrunning, sameRegs_of_regs_eq hregs⟩

theorem keepsImages_wr {a : Nat} (w : Word) (ha : a ∈ [R.CF_FLAGS, R.CF_JNL_HEAD, R.CF_JNL_OLDEST, R.ET_FLAGS]) :
    KeepsImages l (l.wr a w) := ⟨fun _ _ => rfl, rfl, rfl, (touches_wr w ha).regs⟩

theorem keepsImages_flag {f : Fld} (hf : f.addr ∈ [R.CF_FLAGS, R.CF_JNL_HEAD, R.CF_JNL_OLDEST, R.ET_FLAGS]) :
    KeepsImages l (l.flag f) :=
  ⟨fun a _ => SameMem.of_mem_eq (l.flag_mem f) a, by rw [Lane.flag_cf], by rw [Lane.flag_cf], (touches_flag hf).regs⟩

theorem keepsImages_mail (l : Lane) (ip : Word) (port : Nat) (ws : List Word) : KeepsImages l (l.mail ip port ws) := by
  unfold Lane.mail
  split
  · exact keepsImages_of_eq rfl rfl rfl rfl
  · exact keepsImages_flag (by simp)

theorem keepsImages_answer (l : Lane) (q : SvcReq) (op status : Nat) (payload : List Word) :
    KeepsImages l (l.answer q op status payload) := by
  unfold Lane.answer
  refine .trans ?_ (keepsImages_mail _ _ _ _)
  exact keepsImages_of_eq rfl rfl rfl rfl

theorem keepsImages_setBytes {a : Nat} {bs : List Byte} (hlo : 0x31800000 ≤ a) (hhi : a + bs.length ≤ 0x31C00000) :
    KeepsImages l (l.setBytes a bs) where
  bytes k hk := l.byte_setBytes_out a k bs (by omega)
  txn := by rw [Lane.setBytes_cf]
  running := by rw [Lane.setBytes_cf]
  regs k _ := l.rd_setBytes a k bs

theorem keepsImages_erase {a n : Nat} (hlo : 0x31800000 ≤ a) (hhi : a + n ≤ 0x31C00000) : KeepsImages l (l.erase a n) :=
  ⟨fun k hk => l.byte_erase_out a n k (by omega), rfl, rfl, fun _ _ => rfl⟩

/-- The hash of the entry before the next one, to which that one is chained. -/
def Lane.journalPrev (l : Lane) : List Byte :=
  if (l.rd R.CF_JNL_HEAD).toNat = 0 then List.replicate 32 0 else l.bytes (journalAt ((l.rd R.CF_JNL_HEAD).toNat - 1) + 96) 32

theorem Lane.length_journalPrev (l : Lane) : l.journalPrev.length = 32 := by
  unfold Lane.journalPrev
  split <;> simp

/-- The journal with the sector erased that its next entry starts. -/
def Lane.journalSector (l : Lane) : Lane :=
  if (l.rd R.CF_JNL_HEAD).toNat % 512 = 0 then
    (l.erase (journalAt (l.rd R.CF_JNL_HEAD).toNat) 65536).wr R.CF_JNL_OLDEST (BitVec.ofNat 32 ((l.rd R.CF_JNL_HEAD).toNat - 32256))
  else l

theorem keepsImages_journalSector (l : Lane) : KeepsImages l l.journalSector := by
  unfold Lane.journalSector
  split
  case isTrue hstart => exact (keepsImages_erase (journalAt_bounds _).1 (journalAt_sector_le hstart)).trans (keepsImages_wr _ (by simp))
  case isFalse => exact keepsImages_of_eq rfl rfl rfl rfl

/-- The next entry's bytes before its hash. -/
def Lane.journalBody (c : Ctx) (l : Lane) (r : JournalRec) : List Byte :=
  journalBytes (l.rd R.CF_JNL_HEAD).toNat l.stamp (laneCode c.id) l.cf.gap l.journalPrev r

theorem Lane.length_journalBody (c : Ctx) (l : Lane) (r : JournalRec) : (l.journalBody c r).length = 96 := by
  rw [Lane.journalBody, length_journalBytes, Lane.length_journalPrev]

/-- The journal with the next entry stored. -/
def Lane.journalStored (c : Ctx) (l : Lane) (r : JournalRec) : Lane :=
  l.journalSector.setBytes (journalAt (l.rd R.CF_JNL_HEAD).toNat) (l.journalBody c r ++ digestBytes32 (sha256 (l.journalBody c r)))

theorem keepsImages_journalStored (c : Ctx) (l : Lane) (r : JournalRec) : KeepsImages l (l.journalStored c r) := by
  obtain ⟨hlo, hhi⟩ := journalAt_bounds (l.rd R.CF_JNL_HEAD).toNat
  refine (keepsImages_journalSector l).trans (keepsImages_setBytes hlo ?_)
  rw [List.length_append, Lane.length_journalBody, length_digestBytes32]
  exact hhi

/-- A gap has been recorded and stands in no further entry. -/
def Lane.gapNoted (l : Lane) : Lane := { l with cf := { l.cf with gap := false } }

theorem keepsImages_gapNoted (l : Lane) : KeepsImages l l.gapNoted := keepsImages_of_eq rfl rfl rfl rfl

/-- An entry is stored, and the head moves on. -/
theorem Lane.journal_eq (c : Ctx) (l : Lane) (r : JournalRec) :
    l.journal c r = ((l.journalStored c r).wr R.CF_JNL_HEAD (BitVec.ofNat 32 ((l.rd R.CF_JNL_HEAD).toNat + 1))).gapNoted := rfl

theorem keepsImages_journal (c : Ctx) (l : Lane) (r : JournalRec) : KeepsImages l (l.journal c r) := by
  rw [Lane.journal_eq]
  exact ((keepsImages_journalStored c l r).trans (keepsImages_wr _ (by simp))).trans (keepsImages_gapNoted _)

/-! ### Refused requests (R487, R489) -/

/-- A refusal flags, journals at most once a second for each peer, and answers. -/
theorem keepsImages_refuseAt (c : Ctx) (l : Lane) (q : SvcReq) (op status : Nat) (addr len : Word) :
    KeepsImages l (l.refuseAt c q op status addr len) := by
  have hflag : KeepsImages l (l.flag R.CF_FLAGS_write_refused) := keepsImages_flag (by simp)
  have hwaiting {y : Lane} (rs : List (Word × Nat × Nat)) : KeepsImages y { y with cf := { y.cf with refusals := rs } } :=
    keepsImages_of_eq rfl rfl rfl rfl
  unfold Lane.refuseAt
  dsimp only
  refine .trans ?_ (keepsImages_answer _ _ _ _ _)
  split
  case isTrue => exact hflag.trans (hwaiting _)
  case isFalse => exact (hflag.trans (keepsImages_journal c _ _)).trans (hwaiting _)

theorem Lane.onceSvc_of_new (hnew : l.cf.lastTxn ≠ some q.txn) (f : Lane → Lane) : l.onceSvc q f = f l := if_neg hnew

theorem Lane.onceSvc_of_repeat (hrepeat : l.cf.lastTxn = some q.txn) (f : Lane → Lane) :
    l.onceSvc q f = l.mail q.ip q.port.toNat l.cf.lastReply := if_pos hrepeat

theorem keepsImages_onceSvc {f : Lane → Lane} (hf : KeepsImages l (f l)) : KeepsImages l (l.onceSvc q f) := by
  by_cases hrepeat : l.cf.lastTxn = some q.txn
  · rw [Lane.onceSvc_of_repeat hrepeat]
    exact keepsImages_mail _ _ _ _
  · rw [Lane.onceSvc_of_new hrepeat]
    exact hf

section
variable (hgate : l.writeGate c ≠ 0)

include hgate

/-- Outside the conditions of R482 a request of the session is refused. -/
theorem keepsImages_inSessionAt (op : Nat) (addr len : Word) (f : Lane → Lane) :
    KeepsImages l (l.inSessionAt c q op addr len f) :=
  keepsImages_onceSvc (by rw [if_pos hgate]; exact keepsImages_refuseAt _ _ _ _ _ _ _)

theorem keepsImages_svcOpenL : KeepsImages l (svcOpenL c q l) :=
  keepsImages_onceSvc (by rw [if_pos hgate]; exact keepsImages_refuseAt _ _ _ _ _ _ _)

/-- So are the requests of a session. -/
theorem keepsImages_svcWriteBeginL (target : Word) (offset len : Nat) (sha : BitVec 256) :
    KeepsImages l (svcWriteBeginL c q target offset len sha l) := by
  unfold svcWriteBeginL
  exact keepsImages_inSessionAt hgate _ _ _ _

theorem keepsImages_svcWriteDataL (offset : Nat) (data : List Byte) : KeepsImages l (svcWriteDataL c q offset data l) := by
  unfold svcWriteDataL
  exact keepsImages_inSessionAt hgate _ _ _ _

theorem keepsImages_svcWriteEndL : KeepsImages l (svcWriteEndL c q l) := by
  unfold svcWriteEndL
  exact keepsImages_inSessionAt hgate _ _ _ _

theorem keepsImages_svcPromoteL : KeepsImages l (svcPromoteL c q l) := by
  unfold svcPromoteL
  exact keepsImages_inSessionAt hgate _ _ _ _

theorem keepsImages_svcAbortL : KeepsImages l (svcAbortL c q l) := by
  unfold svcAbortL
  exact keepsImages_inSessionAt hgate _ _ _ _

end

/-- A command that keeps the images of its lane. -/
theorem yields_of_keepsImages {i : Instr} {s : State} {ln : LaneId} (f : Ctx → Lane → Lane) (h : Here s ln c l)
    (hi : exec i s = onAlive ln f s) (hf : KeepsImages l (f c l)) :
    Yields i s ln (fun m => (∀ a, a < 0x31800000 ∨ 0x31C00000 ≤ a → m.byte a = l.byte a) ∧ m.cf.txn = l.cf.txn ∧
      m.cf.running = l.cf.running ∧ SameRegs l m [R.CF_FLAGS, R.CF_JNL_HEAD, R.CF_JNL_OLDEST, R.ET_FLAGS]) :=
  ⟨_, gives_of_onAlive f h hi, hf.bytes, hf.txn, hf.running, hf.regs⟩

end

/-- Settles O36: each of the six requests is refused, and a refusal keeps images, calibration and session. -/
theorem refusedWritesKeepImages : Obligations.RefusedWritesKeepImages := by
  intro s ln c l q target offset len sha data i h hgate hi
  simp only [List.mem_cons, List.not_mem_nil, or_false] at hi
  obtain rfl | rfl | rfl | rfl | rfl | rfl := hi
  · exact yields_of_keepsImages (svcOpenL · q) h rfl (keepsImages_svcOpenL hgate)
  · exact yields_of_keepsImages (svcWriteBeginL · q target offset len sha) h rfl (keepsImages_svcWriteBeginL hgate target offset len sha)
  · exact yields_of_keepsImages (svcWriteDataL · q offset data) h rfl (keepsImages_svcWriteDataL hgate offset data)
  · exact yields_of_keepsImages (svcWriteEndL · q) h rfl (keepsImages_svcWriteEndL hgate)
  · exact yields_of_keepsImages (svcPromoteL · q) h rfl (keepsImages_svcPromoteL hgate)
  · exact yields_of_keepsImages (svcAbortL · q) h rfl (keepsImages_svcAbortL hgate)

end Sys2Proof.Machine

/-! PROOFS. The service port's requests and messages, and the scan of the journal (R474, R482 to R490): one equation for each case of a
command that is stated. -/

namespace Sys2Proof.Machine

section
variable {c : Ctx} {l m : Lane} {q : SvcReq}

/-! ### Requests that do not write (R486) -/

section
variable (hnew : l.cf.lastTxn ≠ some q.txn)

include hnew

theorem svcInfoL_of_new :
    svcInfoL c q l = (l.touch c).answer q 0x01 0 ([l.rd R.LM_ID, l.cfStatus c] ++ l.recordWords 0 ++ l.recordWords 1 ++
      [0, 1].flatMap fun k => [(imageId (l.slotDigest k)).setWidth 32, (imageId (l.slotDigest k)).extractLsb' 32 32]) :=
  Lane.onceSvc_of_new hnew _

theorem svcReadL_of_bad_length {s : State} {len : Nat} (addr : Word) (hbad : 1024 < len ∨ len % 4 ≠ 0) :
    svcReadL s c q addr len l = (l.touch c).answer q 0x02 7 [] := (Lane.onceSvc_of_new hnew _).trans (if_pos hbad)

theorem svcReadL_of_words {s : State} {addr : Word} {len : Nat} {ws : List Word} (hlen : len ≤ 1024) (hwhole : len % 4 = 0)
    (hws : s.svcFetch c.id addr.toNat len = some ws) :
    svcReadL s c q addr len l = { (l.touch c).answer q 0x02 0 ws with free := l.free + len / 4 } := by
  rw [svcReadL, Lane.onceSvc_of_new hnew, if_neg (by omega), hws]

theorem svcReadJournalL_of_many {count : Nat} (first : Word) (hmany : 7 < count) :
    svcReadJournalL c q first count l = l.answer q 0x0A 7 [] := (Lane.onceSvc_of_new hnew _).trans (if_pos hmany)

theorem svcReadJournalL_of_not_held {first : Word} {count : Nat} (hfew : count ≤ 7)
    (hout : first.toNat < (l.rd R.CF_JNL_OLDEST).toNat ∨ (l.rd R.CF_JNL_HEAD).toNat < first.toNat + count) :
    svcReadJournalL c q first count l = l.answer q 0x0A 6 [] :=
  (Lane.onceSvc_of_new hnew _).trans ((if_neg (by omega)).trans (if_pos hout))

theorem svcReadJournalL_of_held {first : Word} {count : Nat} (hfew : count ≤ 7) (holdest : (l.rd R.CF_JNL_OLDEST).toNat ≤ first.toNat)
    (hhead : first.toNat + count ≤ (l.rd R.CF_JNL_HEAD).toNat) :
    svcReadJournalL c q first count l = (l.touch c).draw.answer q 0x0A 0
      ((List.range (32 * count)).map fun i => l.journalGranule (journalAt (first.toNat + i / 32) + 4 * (i % 32))) :=
  (Lane.onceSvc_of_new hnew _).trans ((if_neg (by omega)).trans (if_neg (by omega)))

theorem svcCloseL_of_open (hsession : l.bit R.CF_STATUS_session = true) (hid : l.get R.CF_SESSION_id = q.session.toNat) :
    svcCloseL c q l = ((l.answer q 0x04 0 []).abortTxn c true).closeSession :=
  (Lane.onceSvc_of_new hnew _).trans (if_neg (by simp [hsession, hid]))

end

theorem svcInfoL_of_repeat (hrepeat : l.cf.lastTxn = some q.txn) : svcInfoL c q l = l.mail q.ip q.port.toNat l.cf.lastReply :=
  Lane.onceSvc_of_repeat hrepeat _

/-- A read in the flash window finds the words there. -/
theorem State.svcFetch_of_flash {s : State} {ln : LaneId} {a len : Nat} (hlo : 0x30000000 ≤ a) (hhi : a + len ≤ 0x32000000) :
    s.svcFetch ln a len = some ((List.range (len / 4)).map fun i => (s.lane ln).granule (a + 4 * i)) := if_pos ⟨hlo, hhi⟩

/-! ### The end of a session (R483, R486) -/

theorem sessionTimeoutL_of_idle (hsession : l.bit R.CF_STATUS_session = true) (hidle : l.cf.reqAt + l.idleTime * 1000000000 ≤ c.now) :
    sessionTimeoutL c l = (((l.abortTxn c true).flag R.CF_FLAGS_session_timeout).peerEntry c
      (((l.abortTxn c true).flag R.CF_FLAGS_session_timeout).sessionRec 0x82 0)).closeSession := if_pos ⟨hsession, hidle⟩

theorem serviceConditionDropL_of_disabled (hsession : l.bit R.CF_STATUS_session = true) (hoff : l.enableOk = false) :
    serviceConditionDropL c l = (l.abortTxn c true).closeSession := if_pos (by simp [hsession, hoff])

/-! ### Messages (R484, R485) -/

section
variable {s : State} {fate : EthFate} {peer : UdpPeer} {target : BitVec 16} {data : UdpData} (hlink : l.bit R.ET_STATUS_link_up = true)

/-- The request that a message carries. -/
def messageRequest (data : UdpData) (peer : UdpPeer) : SvcReq :=
  ⟨BitVec.ofNat 16 (wordAt data.words 0).toNat, (wordAt data.words 1).extractLsb' 16 16, peer.ip, peer.port⟩

/-- Its opcode. -/
def messageOpcode (data : UdpData) : Nat := (wordAt data.words 0).toNat / 65536 % 256

include hlink

theorem serviceMessageReceiveL_of_lost (hlost : fate ≠ .good) : serviceMessageReceiveL s c fate peer target data l = l.frameLost fate :=
  (if_neg (by rw [hlink]; decide)).trans (if_pos hlost)

theorem serviceMessageReceiveL_of_other_port (hport : target.toNat ≠ l.get R.ET_PORTS_service) :
    serviceMessageReceiveL s c .good peer target data l = l :=
  (if_neg (by rw [hlink]; decide)).trans ((if_neg (fun h => h rfl)).trans (if_pos (.inr hport)))

variable (hbytes : 16 ≤ data.bytes) (hport : target.toNat = l.get R.ET_PORTS_service)

include hbytes hport

theorem serviceMessageReceiveL_of_malformed (hbad : svcWellFormed data.words data.bytes = false) :
    serviceMessageReceiveL s c .good peer target data l =
      (l.flag R.ET_FLAGS_svc_rx).badFormat (messageRequest data peer) (messageOpcode data) :=
  (if_neg (by rw [hlink]; decide)).trans ((if_neg (fun h => h rfl)).trans ((if_neg (by omega)).trans (if_neg (by rw [hbad]; decide))))

theorem serviceMessageReceiveL_of_new (hgood : svcWellFormed data.words data.bytes = true)
    (hnew : (l.flag R.ET_FLAGS_svc_rx).cf.lastTxn ≠ some (messageRequest data peer).txn) :
    serviceMessageReceiveL s c .good peer target data l =
      (svcDispatch s c (messageRequest data peer) (messageOpcode data) ((data.words.drop 3).dropLast) (l.flag R.ET_FLAGS_svc_rx)).getD
        ((l.flag R.ET_FLAGS_svc_rx).badFormat (messageRequest data peer) (messageOpcode data)) :=
  (if_neg (by rw [hlink]; decide)).trans ((if_neg (fun h => h rfl)).trans ((if_neg (by omega)).trans
    ((if_pos hgood).trans (if_neg hnew))))

end

/-! ### Write requests in the open session (R474, R482, R486) -/

/-- The conditions of R482 hold in `l`, and `q` is a new request of the session that is open there. -/
structure InSession (c : Ctx) (l : Lane) (q : SvcReq) : Prop where
  new : l.cf.lastTxn ≠ some q.txn
  gate : l.writeGate c = 0
  session : l.bit R.CF_STATUS_session = true
  id : l.get R.CF_SESSION_id = q.session.toNat

/-- Such a request is executed, and counts for the session's idle time. -/
theorem InSession.eq (h : InSession c l q) (op : Nat) (addr len : Word) (f : Lane → Lane) :
    l.inSessionAt c q op addr len f = f (l.touch c) := by
  obtain ⟨hnew, hgate, hsession, hid⟩ := h
  exact (Lane.onceSvc_of_new hnew _).trans ((if_neg (not_not_intro hgate)).trans (if_neg (by simp [hsession, hid])))

theorem svcOpenL_of_new (hnew : l.cf.lastTxn ≠ some q.txn) (hgate : l.writeGate c = 0) (hnone : l.bit R.CF_STATUS_session = false) :
    svcOpenL c q l =
      (let id := l.cf.nextId % 65535 + 1;
        let y1 := (((l.put R.CF_STATUS_session 1).put R.CF_SESSION_id id).put R.CF_SESSION_port q.port.toNat).wr R.CF_SESSION_IP q.ip;
        let y2 := ({ y1 with cf := { y1.cf with nextId := id, reqAt := c.now } }).flag R.CF_FLAGS_session_open;
        (y2.peerEntry c (svcRec q 0x03 0 0 0 0 0)).answer q 0x03 0 [BitVec.ofNat 32 id]) :=
  (Lane.onceSvc_of_new hnew _).trans ((if_neg (not_not_intro hgate)).trans (if_neg (by rw [hnone]; decide)))

theorem Lane.bytes_touch (c : Ctx) (l : Lane) (a n : Nat) : (l.touch c).bytes a n = l.bytes a n :=
  Lane.bytes_of_mem_eq (l := l) (m := l.touch c) rfl a n

/-- What verifies in a lane does so however long ago its last request came. -/
theorem Lane.verifies_touch (c : Ctx) (l : Lane) (t : WriteTxn) : (l.touch c).verifies c t = l.verifies c t := by
  rw [Lane.verifies, Lane.bytes_touch, Lane.verifies]
  rfl

variable {t : WriteTxn}

theorem svcWriteBeginL_of_calibration (h : InSession c l q) (hnone : l.cf.txn = none) {offset len base : Nat} {sha : BitVec 256}
    (hplace : l.writePlace 1 offset len = .inl base) :
    svcWriteBeginL c q 1 offset len sha l =
      (let y1 := (l.touch c).erase base len;
        ({ y1 with cf := { y1.cf with txn := some ⟨false, base, len, 0, sha⟩ } }).doneWrite c q 0x05 0 (BitVec.ofNat 32 base)
          (BitVec.ofNat 32 len) 0) := by
  have hfree : (l.touch c).cf.txn.isSome = false := by rw [Lane.touch, hnone]; rfl
  have hwhere : (l.touch c).writePlace 1 offset len = .inl base := hplace
  rw [svcWriteBeginL, h.eq, hfree, hwhere]
  rfl

theorem svcWriteBeginL_of_slot (h : InSession c l q) (hnone : l.cf.txn = none) {offset len base : Nat} {sha : BitVec 256}
    (hplace : l.writePlace 0 offset len = .inl base) :
    svcWriteBeginL c q 0 offset len sha l =
      (let y1 := (l.touch c).erase base 0xC00000;
        let y2 := y1.showSlot y1.writeSlot;
        ({ y2 with cf := { y2.cf with txn := some ⟨true, base, len, 0, sha⟩ } }).doneWrite c q 0x05 0 (BitVec.ofNat 32 base)
          (BitVec.ofNat 32 len) 0) := by
  have hfree : (l.touch c).cf.txn.isSome = false := by rw [Lane.touch, hnone]; rfl
  have hwhere : (l.touch c).writePlace 0 offset len = .inl base := hplace
  rw [svcWriteBeginL, h.eq, hfree, hwhere]
  simp only [decide_true, if_true, Bool.false_eq_true, if_false]

section
variable (h : InSession c l q) (htxn : l.cf.txn = some t)

include h htxn

theorem svcWriteDataL_of_next {offset : Nat} {data : List Byte} (hnext : offset = t.next) (hfits : offset + data.length ≤ t.len) :
    svcWriteDataL c q offset data l =
      (let y1 := (l.touch c).setBytes (t.base + offset) data;
        ({ y1 with cf := { y1.cf with txn := some { t with next := offset + data.length } } }).answer q 0x06 0 []) := by
  have hopen : (l.touch c).cf.txn = some t := htxn
  rw [svcWriteDataL, Lane.inSession, h.eq]
  simp only [hopen]
  exact if_neg (by omega)

theorem svcWriteEndL_of_missing (hmissing : t.next ≠ t.len) :
    svcWriteEndL c q l =
      (let y0 := { l with cf := { l.cf with reqAt := c.now, txn := none } };
        (y0.flag R.CF_FLAGS_verify_fail).doneWrite c q 0x07 8 (BitVec.ofNat 32 t.base) (BitVec.ofNat 32 t.len)
          (sha256 (l.bytes t.base t.next))) := by
  have hopen : (l.touch c).cf.txn = some t := htxn
  have hfails : (l.touch c).verifies c t = false := by simp [Lane.verifies, hmissing]
  rw [svcWriteEndL, Lane.inSession, h.eq]
  simp only [hopen, hfails, Lane.bytes_touch]
  rfl

variable (hverifies : l.verifies c t = true)

include hverifies

theorem svcWriteEndL_of_calibration (hslot : t.slot = false) :
    svcWriteEndL c q l =
      (let y0 := { l with cf := { l.cf with reqAt := c.now, txn := none } };
        (y0.flag R.CF_FLAGS_write_done).doneWrite c q 0x07 0 (BitVec.ofNat 32 t.base) (BitVec.ofNat 32 t.len) t.sha) := by
  have hopen : (l.touch c).cf.txn = some t := htxn
  rw [← Lane.verifies_touch] at hverifies
  rw [svcWriteEndL, Lane.inSession, h.eq]
  simp only [hopen, hverifies, hslot, if_true, Bool.false_eq_true, if_false]
  rfl

theorem svcWriteEndL_of_slot (hslot : t.slot = true) :
    svcWriteEndL c q l =
      (let y0 := { l with cf := { l.cf with reqAt := c.now, txn := none } };
        let y1 := ((y0.setGranule (slotRec l.writeSlot + 8) (BitVec.ofNat 32 t.len)).setBytes (slotRec l.writeSlot + 12)
          (digestBytes32 t.sha)).moveSlot l.writeSlot 1;
        (y1.flag R.CF_FLAGS_write_done).doneWrite c q 0x07 0 (BitVec.ofNat 32 t.base) (BitVec.ofNat 32 t.len) t.sha) := by
  have hopen : (l.touch c).cf.txn = some t := htxn
  rw [← Lane.verifies_touch] at hverifies
  rw [svcWriteEndL, Lane.inSession, h.eq]
  simp only [hopen, hverifies, hslot, if_true]
  rfl

end

theorem svcAbortL_of_open (h : InSession c l q) (htxn : l.cf.txn = some t) :
    svcAbortL c q l = ((l.touch c).abortTxn c false).doneWrite c q 0x09 9 0 0 0 := by
  have hopen : (l.touch c).cf.txn = some t := htxn
  rw [svcAbortL, Lane.inSession, h.eq]
  simp only [hopen]

theorem svcPromoteL_of_staged (h : InSession c l q) (hstaged : l.slotState l.writeSlot = 1) :
    svcPromoteL c q l =
      (let y1 := (l.touch c).setGranule (slotRec l.writeSlot + 4) (BitVec.ofNat 32 (l.slotGen (1 - l.writeSlot) + 1));
        ((y1.moveSlot l.writeSlot 2).flag R.CF_FLAGS_write_done).doneWrite c q 0x08 0 0 0 0) := by
  rw [svcPromoteL, Lane.inSession, h.eq]
  exact if_neg (not_not_intro hstaged)

/-! ### The scan of the journal (R490) -/

theorem journalScanL_of_scanned (h : l.cf.scanned = true) : journalScanL l = l := if_pos h

section
variable (hfirst : l.cf.scanned = false)

include hfirst

theorem journalScanL_of_clean (hclean : l.tailWritten l.nextEntry = false) (hkept : l.cf.lost = false) :
    journalScanL l =
      (let l0 := { l with cf := { l.cf with scanned := true, lost := false } };
        (l0.wr R.CF_JNL_HEAD (BitVec.ofNat 32 l.nextEntry)).wr R.CF_JNL_OLDEST
          (BitVec.ofNat 32 ((l.nextEntry - 1) / 512 * 512 - 32256))) :=
  (if_neg (by rw [hfirst]; decide)).trans (if_neg (by simp [hclean, hkept]))

theorem journalScanL_of_tail (htail : l.tailWritten l.nextEntry = true) :
    journalScanL l =
      (let l0 := { l with cf := { l.cf with scanned := true, lost := false } };
        let l1 := (l0.wr R.CF_JNL_HEAD (BitVec.ofNat 32 l.nextEntry)).wr R.CF_JNL_OLDEST
          (BitVec.ofNat 32 ((l.nextEntry - 1) / 512 * 512 - 32256));
        let l2 := l1.erase (journalAt l.nextEntry) (65536 - 128 * (l.nextEntry % 512));
        ({ l2 with cf := { l2.cf with gap := true } }).flag R.CF_FLAGS_journal_gap) := by
  refine (if_neg (by rw [hfirst]; decide)).trans ((if_pos (.inl htail)).trans ?_)
  rw [if_pos htail]

end

end

/-- Settles O34: each clause is the equation of its command. -/
theorem serviceRequestsComplete : Obligations.ServiceRequestsComplete := by
  refine ⟨?info, ?infoAgain, ?read, ?readBad, ?journal, ?journalMany, ?journalOut, ?close, ?idle, ?drop, ?message,
    ?malformed, ?lost, ?otherPort⟩
  case info =>
    intro s ln c l q h hnew
    exact gives_of_onAlive_eq (svcInfoL · q) h rfl (svcInfoL_of_new hnew)
  case infoAgain =>
    intro s ln c l q h hrepeat
    exact gives_of_onAlive_eq (svcInfoL · q) h rfl (svcInfoL_of_repeat hrepeat)
  case read =>
    intro s ln c l q addr len h hnew hlen hwhole hlo hhi
    obtain ⟨hhas, rfl, halive, rfl⟩ := h
    exact gives_of_onAlive_eq (svcReadL s · q addr len) ⟨hhas, rfl, halive, rfl⟩ rfl
      (svcReadL_of_words hnew hlen hwhole (State.svcFetch_of_flash hlo hhi))
  case readBad =>
    intro s ln c l q addr len h hnew hbad
    exact gives_of_onAlive_eq (svcReadL s · q addr len) h rfl (svcReadL_of_bad_length hnew addr hbad)
  case journal =>
    intro s ln c l q first count h hnew hfew holdest hhead
    exact gives_of_onAlive_eq (svcReadJournalL · q first count) h rfl (svcReadJournalL_of_held hnew hfew holdest hhead)
  case journalMany =>
    intro s ln c l q first count h hnew hmany
    exact gives_of_onAlive_eq (svcReadJournalL · q first count) h rfl (svcReadJournalL_of_many hnew first hmany)
  case journalOut =>
    intro s ln c l q first count h hnew hfew hout
    exact gives_of_onAlive_eq (svcReadJournalL · q first count) h rfl (svcReadJournalL_of_not_held hnew hfew hout)
  case close =>
    intro s ln c l q h hnew hsession hid
    exact gives_of_onAlive_eq (svcCloseL · q) h rfl (svcCloseL_of_open hnew hsession hid)
  case idle =>
    intro s ln c l h hsession hidle
    exact gives_of_onAlive_eq sessionTimeoutL h rfl (sessionTimeoutL_of_idle hsession hidle)
  case drop =>
    intro s ln c l h hsession hoff
    exact gives_of_onAlive_eq serviceConditionDropL h rfl (serviceConditionDropL_of_disabled hsession hoff)
  case message =>
    intro s ln ip port target ws bytes hhas halive hbytes hport hlink hgood hnew hsome
    refine gives_of_onAlive_eq (serviceMessageReceiveL s · .good ⟨ip, port⟩ target ⟨ws, bytes⟩) ⟨hhas, rfl, halive, rfl⟩ rfl
      ((serviceMessageReceiveL_of_new (peer := ⟨ip, port⟩) (data := ⟨ws, bytes⟩) hlink hbytes hport hgood hnew).trans ?_)
    exact (Option.get_eq_getD _ (h := hsome)).symm.trans (Option.get_eq_getD _)
  case malformed =>
    intro s ln c l ip port target ws bytes h hbytes hport hlink hbad
    exact gives_of_onAlive_eq (serviceMessageReceiveL s · .good ⟨ip, port⟩ target ⟨ws, bytes⟩) h rfl
      (serviceMessageReceiveL_of_malformed hlink hbytes hport hbad)
  case lost =>
    intro s ln c l fate ip port target ws bytes h hlink hlost
    exact gives_of_onAlive_eq (serviceMessageReceiveL s · fate ⟨ip, port⟩ target ⟨ws, bytes⟩) h rfl
      (serviceMessageReceiveL_of_lost hlink hlost)
  case otherPort =>
    intro s ln c l ip port target ws bytes h hlink hport
    exact gives_of_onAlive_eq (serviceMessageReceiveL s · .good ⟨ip, port⟩ target ⟨ws, bytes⟩) h rfl
      (serviceMessageReceiveL_of_other_port hlink hport)

/-- Settles O35: each clause is the equation of its command, in the open session where the request is one of it. -/
theorem serviceWritesComplete : Obligations.ServiceWritesComplete := by
  refine ⟨?openNew, ?beginCalibration, ?beginSlot, ?data, ?endMissing, ?endCalibration, ?endSlot, ?promote,
    ?abort, ?scanned, ?clean, ?tail⟩
  case openNew =>
    intro s ln c l q h hnew hgate hnone
    exact gives_of_onAlive_eq (svcOpenL · q) h rfl (svcOpenL_of_new hnew hgate hnone)
  case beginCalibration =>
    intro s ln c l q target offset len base sha h hnew hgate hsession hid hnone htarget hplace
    subst htarget
    exact gives_of_onAlive_eq (svcWriteBeginL · q 1 offset len sha) h rfl
      (svcWriteBeginL_of_calibration ⟨hnew, hgate, hsession, hid⟩ hnone hplace)
  case beginSlot =>
    intro s ln c l q offset len base sha h hnew hgate hsession hid hnone hplace
    exact gives_of_onAlive_eq (svcWriteBeginL · q 0 offset len sha) h rfl
      (svcWriteBeginL_of_slot ⟨hnew, hgate, hsession, hid⟩ hnone hplace)
  case data =>
    intro s ln c l q offset data t h hnew hgate hsession hid htxn hnext hfits
    exact gives_of_onAlive_eq (svcWriteDataL · q offset data) h rfl
      (svcWriteDataL_of_next ⟨hnew, hgate, hsession, hid⟩ htxn hnext hfits)
  case endMissing =>
    intro s ln c l q t h hnew hgate hsession hid htxn hmissing
    exact gives_of_onAlive_eq (svcWriteEndL · q) h rfl (svcWriteEndL_of_missing ⟨hnew, hgate, hsession, hid⟩ htxn hmissing)
  case endCalibration =>
    intro s ln c l q t h hnew hgate hsession hid htxn hslot hverifies
    exact gives_of_onAlive_eq (svcWriteEndL · q) h rfl
      (svcWriteEndL_of_calibration ⟨hnew, hgate, hsession, hid⟩ htxn hverifies hslot)
  case endSlot =>
    intro s ln c l q t h hnew hgate hsession hid htxn hslot hverifies
    exact gives_of_onAlive_eq (svcWriteEndL · q) h rfl (svcWriteEndL_of_slot ⟨hnew, hgate, hsession, hid⟩ htxn hverifies hslot)
  case promote =>
    intro s ln c l q h hnew hgate hsession hid hstaged
    exact gives_of_onAlive_eq (svcPromoteL · q) h rfl (svcPromoteL_of_staged ⟨hnew, hgate, hsession, hid⟩ hstaged)
  case abort =>
    intro s ln c l q t h hnew hgate hsession hid htxn
    exact gives_of_onAlive_eq (svcAbortL · q) h rfl (svcAbortL_of_open ⟨hnew, hgate, hsession, hid⟩ htxn)
  case scanned =>
    intro s ln c l h hscanned
    exact gives_of_onAlive_eq (fun _ l => journalScanL l) h rfl (journalScanL_of_scanned hscanned)
  case clean =>
    intro s ln c l h hfirst hclean hkept
    exact gives_of_onAlive_eq (fun _ l => journalScanL l) h rfl (journalScanL_of_clean hfirst hclean hkept)
  case tail =>
    intro s ln c l h hfirst htail
    exact gives_of_onAlive_eq (fun _ l => journalScanL l) h rfl (journalScanL_of_tail hfirst htail)

end Sys2Proof.Machine

/-! PROOFS. The CAN FD controllers and the Ethernet port (R484, R492 to R496): one equation for each case of a command that is stated, and
what an error event shows. -/

namespace Sys2Proof.Machine

section
variable {c : Ctx} {l m : Lane} {k : Fin 2}

/-! ### Controllers and flags -/

theorem Lane.canOf_setCan (l : Lane) (k j : Nat) (x : Can) : (l.setCan k x).canOf j = if j = k then x else l.canOf j := by
  unfold Lane.canOf Lane.setCan
  rw [tabGet_tabPut]
  split <;> rfl

@[simp] theorem Lane.canOf_setCan_same (l : Lane) (k : Nat) (x : Can) : (l.setCan k x).canOf k = x := by simp [Lane.canOf_setCan]

theorem Lane.canOf_of_can_eq (h : m.can = l.can) (j : Nat) : m.canOf j = l.canOf j := by rw [Lane.canOf, h, Lane.canOf]

theorem touches_setCan (as : List Nat) (l : Lane) (k : Nat) (x : Can) : Touches as l (l.setCan k x) := touches_of_eq rfl rfl rfl

theorem touches_flagIf {as : List Nat} (b : Bool) {f : Fld} (hf : f.addr ∈ as) : Touches as l (l.flagIf b f) := by
  cases b
  · exact .refl as l
  · exact touches_flag hf

/-- A field of another register stays when a flag is set or not. -/
theorem Lane.get_flagIf_ne (l : Lane) (b : Bool) {f g : Fld} (h : g.addr ≠ f.addr) : (l.flagIf b f).get g = l.get g :=
  (touches_flagIf (as := [f.addr]) b (by simp)).get g (by simpa using h)

theorem Lane.bit_flagIf_of_bit (b : Bool) {f g : Fld} (hf : f.lo = f.hi) (h32 : f.hi < 32) (hg : g.lo = g.hi) (hset : l.bit g = true) :
    (l.flagIf b f).bit g = true := by
  cases b
  · exact hset
  · exact Lane.bit_flag_of_bit hf h32 hg hset

/-! ### Frames received and sent (R492, R493, R496) -/

section
variable {f : CanFrame} {i : Nat} (hon : l.canOn k.val = true) (hdata : f.remote = false) (hfilter : l.canFilter k.val f = some i)

include hon hdata hfilter

theorem canFrameReceiveL_of_room (hroom : (l.canOf k.val).fifo.length < 32) :
    canFrameReceiveL k f l =
      ((l.setCan k.val { l.canOf k.val with
          fifo := (l.canOf k.val).fifo ++ [⟨f, i, l.stamp⟩], heard := tabPut (l.canOf k.val).heard i (l.stamp, f.data) }).put
        (R.CNk_STATUS_rx_level k.val) ((l.canOf k.val).fifo.length + 1)).flag (R.CNk_FLAGS_rx k.val) := by
  simp only [canFrameReceiveL, hon, hdata, hfilter]
  exact if_neg (Nat.not_le.mpr hroom)

theorem canFrameReceiveL_of_full (hfull : 32 ≤ (l.canOf k.val).fifo.length) :
    canFrameReceiveL k f l =
      (l.setCan k.val { l.canOf k.val with heard := tabPut (l.canOf k.val).heard i (l.stamp, f.data) }).flag
        (R.CNk_FLAGS_rx_overrun k.val) := by
  simp only [canFrameReceiveL, hon, hdata, hfilter]
  exact if_pos hfull

end

theorem canSendL_of_send {i : Fin 16} {v : Word} (hsend : v.getLsbD 0 = true) (hkeep : v.getLsbD 1 = false) :
    canSendL k i v l =
      (({ (l.put (R.CNk_TXm_CTRL_dlc k.val i.val) (v.toNat / 16 % 16)).putB (R.CNk_TXm_CTRL_active_only k.val i.val) (v.getLsbD 3) with
        bus := .done } : Lane).put (R.CNk_TXm_CTRL_pending k.val i.val) 1).canStart k.val := by
  simp only [canSendL, hsend, hkeep, if_true, Bool.false_eq_true, if_false]

theorem Lane.canCancel_of_waiting {n i : Nat} (hpending : l.bit (R.CNk_TXm_CTRL_pending n i) = true)
    (hoff : (l.canOf n).onBus ≠ some i) :
    l.canCancel n i = (l.put (R.CNk_TXm_CTRL_pending n i) 0).flag (R.CNk_FLAGS_tx_cancel n) := if_pos (by simp [hpending, hoff])

/-- The frame of a mailbox has ended, and the bus is free. -/
theorem canTxDoneL_of_on_bus {i : Fin 16} (h : (l.canOf k.val).onBus = some i.val) :
    canTxDoneL k i l =
      (let l1 := ((l.put (R.CNk_TXm_CTRL_pending k.val i.val) 0).stampAt (R.CNk_TXm_STAMP k.val i.val)).flag (R.CNk_FLAGS_tx_done k.val);
        (l1.setCan k.val { l1.canOf k.val with onBus := none }).canStart k.val) := if_pos h

theorem canRxPopL_of_pop {v : Word} (h : v.getLsbD 0 = true) :
    canRxPopL k v l =
      (({ l with bus := .done } : Lane).setCan k.val { l.canOf k.val with fifo := (l.canOf k.val).fifo.drop 1 }).put
        (R.CNk_STATUS_rx_level k.val) ((l.canOf k.val).fifo.length - 1) := if_pos h

/-! ### Bus off (R493) -/

section
variable (hoff : l.get (R.CNk_STATUS_state k.val) = 2)

include hoff

theorem canBusOffRecoverL_of_asked (hasked : (l.bit (R.CNk_CFG_auto_recover k.val) || (l.canOf k.val).recovering) = true) :
    canBusOffRecoverL k l =
      (let l1 := ((l.put (R.CNk_STATUS_state k.val) 0).put (R.CNk_STATUS_tec k.val) 0).put (R.CNk_STATUS_rec k.val) 0;
        (l1.setCan k.val { l1.canOf k.val with recovering := false, onBus := none }).canStart k.val) := if_pos ⟨hoff, hasked⟩

theorem canRecoverWriteL_of_asked {v : Word} (h : v.getLsbD 0 = true) :
    canRecoverWriteL k v l = ({ l with bus := .done } : Lane).setCan k.val { l.canOf k.val with recovering := true } := if_pos ⟨h, hoff⟩

end

/-! ### Errors (R492) -/

/-- The state that error counters give. -/
def canState (t r : Nat) : Nat := if 255 < t then 2 else if 127 < t ∨ 127 < r then 1 else 0

/-- A controller with its error counters and its state shown, and what they call for flagged. -/
def Lane.canErrorShown (l : Lane) (n : Nat) (bad : Bool) (t r : Nat) : Lane :=
  (((((l.put (R.CNk_STATUS_tec n) (min t 255)).put (R.CNk_STATUS_rec n) (min r 255)).flagIf bad (R.CNk_FLAGS_proto_err n)).put
    (R.CNk_STATUS_state n) (canState t r)).flagIf (decide (canState t r = 2)) (R.CNk_FLAGS_bus_off n)).flagIf
      (decide (canState t r = 1 ∧ l.get (R.CNk_STATUS_state n) = 0)) (R.CNk_FLAGS_passive n)

theorem canErrorEventL_of_on {ev : CanError} {t r : Nat} (hon : l.canOn k.val = true)
    (hcounts : canCounts (l.get (R.CNk_STATUS_tec k.val)) (l.get (R.CNk_STATUS_rec k.val)) ev = (t, r)) :
    ∃ bad, canErrorEventL k ev l =
      if canState t r = 2 then
        (l.canErrorShown k.val bad t r).setCan k.val { (l.canErrorShown k.val bad t r).canOf k.val with onBus := none }
      else l.canErrorShown k.val bad t r := by
  refine ⟨decide (ev = .txError) || decide (ev = .rxError) || decide (ev = .rxErrorSevere), ?_⟩
  simp only [canErrorEventL, hon, hcounts]
  rfl

/-- The registers of a controller in which an error shows. -/
def canErrorRegs (n : Nat) : List Nat := [R.CNk_STATUS n, R.CNk_FLAGS n]

theorem touches_canErrorShown (l : Lane) (n : Nat) (bad : Bool) (t r : Nat) :
    Touches (canErrorRegs n) l (l.canErrorShown n bad t r) := by
  have hstatus {f : Fld} (hf : f.addr = R.CNk_STATUS n) : f.addr ∈ canErrorRegs n := by simp [canErrorRegs, hf]
  have hflags {f : Fld} (hf : f.addr = R.CNk_FLAGS n) : f.addr ∈ canErrorRegs n := by simp [canErrorRegs, hf]
  unfold Lane.canErrorShown
  refine .trans (.trans (.trans (.trans (.trans (touches_put _ (hstatus rfl)) (touches_put _ (hstatus rfl)))
    (touches_flagIf _ (hflags rfl))) (touches_put _ (hstatus rfl))) (touches_flagIf _ (hflags rfl))) (touches_flagIf _ (hflags rfl))

theorem Lane.can_canErrorShown (l : Lane) (n : Nat) (bad : Bool) (t r : Nat) : (l.canErrorShown n bad t r).can = l.can := by
  rw [Lane.canErrorShown, Lane.flagIf_can, Lane.flagIf_can, Lane.put_can, Lane.flagIf_can, Lane.put_can, Lane.put_can]

/-- A field of the status is not touched by the flags. -/
theorem Lane.get_status_flagIf (l : Lane) (n : Nat) (b : Bool) {f g : Fld} (hf : f.addr = R.CNk_FLAGS n) (hg : g.addr = R.CNk_STATUS n) :
    (l.flagIf b f).get g = l.get g := l.get_flagIf_ne b (by rw [hf, hg]; simp)

theorem canState_lt (t r : Nat) : canState t r < 4 := by
  unfold canState
  split
  · decide
  · split <;> decide

theorem Lane.get_canErrorShown (l : Lane) (n : Nat) (bad : Bool) (t r : Nat) :
    (l.canErrorShown n bad t r).get (R.CNk_STATUS_tec n) = min t 255 ∧
      (l.canErrorShown n bad t r).get (R.CNk_STATUS_rec n) = min r 255 ∧
      (l.canErrorShown n bad t r).get (R.CNk_STATUS_state n) = canState t r := by
  refine ⟨?tec, ?rec, ?state⟩
  case tec =>
    rw [Lane.canErrorShown, Lane.get_status_flagIf _ n _ rfl rfl, Lane.get_status_flagIf _ n _ rfl rfl,
      Lane.get_put_above _ _ _ _ (by simp) (by simp) (by simp), Lane.get_status_flagIf _ n _ rfl rfl,
      Lane.get_put_below _ _ _ _ (by simp) (by simp) (by simp) (by simp), Lane.get_put_same _ _ _ (by simp) (by simp)]
    exact Nat.mod_eq_of_lt (by simp)
  case rec =>
    rw [Lane.canErrorShown, Lane.get_status_flagIf _ n _ rfl rfl, Lane.get_status_flagIf _ n _ rfl rfl,
      Lane.get_put_above _ _ _ _ (by simp) (by simp) (by simp), Lane.get_status_flagIf _ n _ rfl rfl,
      Lane.get_put_same _ _ _ (by simp) (by simp)]
    exact Nat.mod_eq_of_lt (by simp)
  case state =>
    rw [Lane.canErrorShown, Lane.get_status_flagIf _ n _ rfl rfl, Lane.get_status_flagIf _ n _ rfl rfl,
      Lane.get_put_same _ _ _ (by simp) (by simp)]
    exact Nat.mod_eq_of_lt (canState_lt t r)

theorem Lane.bit_bus_off_canErrorShown (l : Lane) (n : Nat) (bad : Bool) {t r : Nat} (h : canState t r = 2) :
    (l.canErrorShown n bad t r).bit (R.CNk_FLAGS_bus_off n) = true := by
  refine Lane.bit_flagIf_of_bit _ rfl (by simp) rfl ?_
  rw [h]
  exact Lane.bit_flag_same _ _ rfl (by simp)

/-- Above 255 transmit errors, and only there, a controller is in bus off. -/
theorem canState_eq_two_iff (t r : Nat) : canState t r = 2 ↔ 255 < t := by
  unfold canState
  constructor
  · intro h
    by_contra hlow
    rw [if_neg hlow] at h
    split at h <;> omega
  · exact fun h => if_pos h

/-! ### Ethernet (R484) -/

section
variable {x : AskFrame} (hlink : l.bit R.ET_STATUS_link_up = true)

include hlink

theorem arpOrIcmpEchoReceiveL_of_other (h : x.target ≠ l.rd R.ET_IP) : arpOrIcmpEchoReceiveL .good x l = l :=
  (if_neg (by rw [hlink]; decide)).trans ((if_neg (fun h => h rfl)).trans (if_pos h))

theorem arpOrIcmpEchoReceiveL_of_arp (harp : x.icmp = false) (h : x.target = l.rd R.ET_IP) :
    arpOrIcmpEchoReceiveL .good x l =
      { l with mailOut := l.mailOut ++ [⟨x.peer, 0, [l.rd R.ET_MAC_LO, l.rd R.ET_MAC_HI, l.rd R.ET_IP], 0⟩] } := by
  refine (if_neg (by rw [hlink]; decide)).trans ((if_neg (fun h => h rfl)).trans ((if_neg (not_not_intro h)).trans ?_))
  rw [harp]
  rfl

end

end

/-- Settles O38: the counters and the state are shown, and in bus off the frame on the bus is given up. -/
theorem canErrorStates : Obligations.CanErrorStates := by
  intro s ln c l k ev t r h hon hcounts
  obtain ⟨bad, hevent⟩ := canErrorEventL_of_on hon hcounts
  have hgives : Gives (.canErrorEvent ln k ev) s ln (canErrorEventL k ev l) := gives_of_onAlive (fun _ l => canErrorEventL k ev l) h rfl
  rw [hevent] at hgives
  obtain ⟨htec, hrec, hstate⟩ := l.get_canErrorShown k.val bad t r
  have htouches := touches_canErrorShown l k.val bad t r
  have hcan := Lane.canOf_of_can_eq (l.can_canErrorShown k.val bad t r)
  by_cases hoff : 255 < t
  · have htwo := (canState_eq_two_iff t r).mpr hoff
    rw [if_pos htwo] at hgives
    refine ⟨_, hgives, htec, hrec, hstate,
      fun _ => ⟨by rw [Lane.canOf_setCan_same], Lane.bit_bus_off_canErrorShown l k.val bad htwo⟩, ?fifo, ?others,
      htouches.regs, htouches.sameMem⟩
    case fifo => rw [Lane.canOf_setCan_same, hcan]
    case others =>
      intro j hj
      have hne : j.val ≠ k.val := fun heq => hj (Fin.ext heq)
      rw [Lane.canOf_setCan, if_neg hne, hcan]
  · rw [if_neg (fun htwo => hoff ((canState_eq_two_iff t r).mp htwo))] at hgives
    exact ⟨_, hgives, htec, hrec, hstate, fun habove => absurd habove hoff, by rw [hcan], fun j _ => hcan j, htouches.regs,
      htouches.sameMem⟩

/-- Settles O37: each clause is the equation of its command. -/
theorem canAndEthernetComplete : Obligations.CanAndEthernetComplete := by
  refine ⟨?receive, ?overrun, ?send, ?cancel, ?txDone, ?pop, ?recover, ?recoverWrite, ?link, ?arp, ?otherAddress⟩
  case receive =>
    intro s ln c l k f i h hon hdata hfilter hroom
    exact gives_of_onAlive_eq (fun _ l => canFrameReceiveL k f l) h rfl (canFrameReceiveL_of_room hon hdata hfilter hroom)
  case overrun =>
    intro s ln c l k f i h hon hdata hfilter hfull
    exact gives_of_onAlive_eq (fun _ l => canFrameReceiveL k f l) h rfl (canFrameReceiveL_of_full hon hdata hfilter hfull)
  case send =>
    intro s ln c l k m v h hsend hkeep
    exact gives_of_onAlive_eq (fun _ l => canSendL k m v l) h rfl (canSendL_of_send hsend hkeep)
  case cancel =>
    intro s ln c l k m h hpending hoff
    exact gives_of_onAlive_eq (fun _ l => { l.canCancel k.val m.val with bus := .done }) h rfl
      (by rw [Lane.canCancel_of_waiting hpending hoff])
  case txDone =>
    intro s ln c l k m h hbus
    exact gives_of_onAlive_eq (fun _ l => canTxDoneL k m l) h rfl (canTxDoneL_of_on_bus hbus)
  case pop =>
    intro s ln c l k v h hpop
    exact gives_of_onAlive_eq (fun _ l => canRxPopL k v l) h rfl (canRxPopL_of_pop hpop)
  case recover =>
    intro s ln c l k h hoff hasked
    exact gives_of_onAlive_eq (fun _ l => canBusOffRecoverL k l) h rfl (canBusOffRecoverL_of_asked hoff hasked)
  case recoverWrite =>
    intro s ln c l k v h hasked hoff
    exact gives_of_onAlive_eq (fun _ l => canRecoverWriteL k v l) h rfl (canRecoverWriteL_of_asked hoff hasked)
  case link =>
    intro s ln c l up sqi h
    exact gives_of_onAlive (fun _ l => ethernetLinkChangeL up sqi l) h rfl
  case arp =>
    intro s ln c l peer target bytes h hlink htarget
    exact gives_of_onAlive_eq (fun _ l => arpOrIcmpEchoReceiveL .good ⟨false, peer, target, bytes⟩ l) h rfl
      (arpOrIcmpEchoReceiveL_of_arp hlink rfl htarget)
  case otherAddress =>
    intro s ln c l icmp peer target bytes h hlink htarget
    exact gives_of_onAlive_eq (fun _ l => arpOrIcmpEchoReceiveL .good ⟨icmp, peer, target, bytes⟩ l) h rfl
      (arpOrIcmpEchoReceiveL_of_other hlink htarget)

end Sys2Proof.Machine

/-! PROOFS. The health record (R509, R510, R512): a record is stored whole, and what stands beside it stays. -/

namespace Sys2Proof.Machine

section
variable {c : Ctx} {l m : Lane}

/-! ### Words stored one after the other -/

/-- Stored words are read one by one. -/
theorem Lane.granule_setBytes_words (l : Lane) (a : Nat) (ws : List Word) (i : Nat) (hi : i < ws.length) :
    (l.setBytes a (ws.flatMap wordBytes)).granule (a + 4 * i) = ws[i] := by
  induction ws generalizing l a i with
  | nil => exact absurd hi (Nat.not_lt_zero i)
  | cons w t ih =>
    have hsplit : l.setBytes a ((w :: t).flatMap wordBytes) = (l.setGranule a w).setBytes (a + 4) (t.flatMap wordBytes) :=
      l.setBytes_append a _ _
    rw [hsplit]
    cases i with
    | zero => exact ((l.setGranule a w).granule_setBytes_out (Or.inl (Nat.le_refl _))).trans (l.granule_setGranule_same a w)
    | succ i =>
      rw [show a + 4 * (i + 1) = a + 4 + 4 * i by omega]
      exact ih (l.setGranule a w) (a + 4) i (Nat.lt_of_succ_lt_succ hi)

theorem length_flatMap_wordBytes (ws : List Word) : (ws.flatMap wordBytes).length = 4 * ws.length := by
  simp [List.length_flatMap, Nat.mul_comm]

/-! ### A record and its place (R509, R510) -/

/-- The record that is due: its body with the CRC of it. -/
def Lane.recordWhole (l : Lane) : List Word :=
  l.recordBody (BitVec.ofNat 32 l.nextRecord) ++ [crc32cWords (l.recordBody (BitVec.ofNat 32 l.nextRecord))]

theorem Lane.length_recordBody (l : Lane) (k : Word) : (l.recordBody k).length = 127 := by simp [Lane.recordBody]

theorem Lane.length_recordWhole (l : Lane) : l.recordWhole.length = 128 := by
  rw [Lane.recordWhole, List.length_append, Lane.length_recordBody, List.length_singleton]

/-- How many bytes from a record's place its writing may change: the sector where it starts one. -/
def recordSpan (k : Nat) : Nat := if k % 128 = 0 then 65536 else 512

theorem Lane.sameBytes_recordPlace (l : Lane) : SameBytes l l.recordPlace (recordAddr l.nextRecord) (recordSpan l.nextRecord) := by
  intro a ha
  unfold recordSpan at ha
  unfold Lane.recordPlace
  split
  case isTrue hstart => exact l.byte_erase_out _ _ a (by rwa [if_pos hstart] at ha)
  case isFalse => rfl

theorem Lane.recordPlace_frame (l : Lane) : l.recordPlace.regs = l.regs ∧ l.recordPlace.ha = l.ha := by
  unfold Lane.recordPlace
  split <;> exact ⟨rfl, rfl⟩

/-- The record stored at its place. -/
def Lane.recordStored (l : Lane) : Lane := l.recordPlace.setBytes (recordAddr l.nextRecord) (l.recordWhole.flatMap wordBytes)

theorem Lane.recordStored_regs (l : Lane) : l.recordStored.regs = l.regs := by
  rw [Lane.recordStored, Lane.setBytes_regs]
  exact l.recordPlace_frame.1

theorem Lane.granule_recordStored (l : Lane) (i : Nat) (hi : i < 128) :
    l.recordStored.granule (recordAddr l.nextRecord + 4 * i) = wordAt l.recordWhole i := by
  have hlt : i < l.recordWhole.length := by rwa [Lane.length_recordWhole]
  rw [Lane.recordStored, Lane.granule_setBytes_words _ _ _ i hlt, wordAt, List.getElem?_eq_getElem hlt]
  rfl

theorem Lane.sameBytes_recordStored (l : Lane) : SameBytes l l.recordStored (recordAddr l.nextRecord) (recordSpan l.nextRecord) := by
  intro a ha
  have hspan : 512 ≤ recordSpan l.nextRecord := by
    unfold recordSpan
    split <;> decide
  refine (Lane.byte_setBytes_out _ _ a _ ?_).trans (l.sameBytes_recordPlace a ha)
  rw [length_flatMap_wordBytes, Lane.length_recordWhole]
  omega

/-! ### A record noted (R509) -/

/-- The record stored, and shown in the unit's registers. -/
def Lane.recordShown (l : Lane) : Lane :=
  ((l.recordStored.wr R.HA_REC (BitVec.ofNat 32 l.nextRecord)).put R.HA_STATUS_writing 0).flag R.HA_FLAGS_record_written

/-- Nothing of it is due any more. -/
def Lane.recordNoted (l : Lane) : Lane :=
  { l.recordShown with
    ha := { l.recordShown.ha with
      recordAt := none, lastRecord := l.recordWhole, kept := l.recordShown.ha.mons.map fun p => (p.1, (p.2.since, p.2.points)) } }

theorem healthRecordWriteL_of_due {t : Nat} (hdue : l.ha.recordAt = some t) :
    healthRecordWriteL c l = if l.recordNoted.telOn then l.recordNoted.sendTelemetry c 2 l.recordWhole else l.recordNoted := by
  rw [healthRecordWriteL, hdue]
  rfl

theorem Lane.recordShown_mem (l : Lane) : l.recordShown.mem = l.recordStored.mem := by
  rw [Lane.recordShown, Lane.flag_mem, Lane.put_mem, Lane.wr_mem]

/-- The registers in which a record shows. -/
def recordShownRegs : List Nat := [R.HA_REC, R.HA_STATUS, R.HA_FLAGS, R.ET_FLAGS]

theorem touches_recordShown (l : Lane) : Touches recordShownRegs l.recordStored l.recordShown := by
  unfold Lane.recordShown
  exact ((touches_wr _ (by simp [recordShownRegs])).trans (touches_put _ (by simp [recordShownRegs]))).trans
    (touches_flag (by simp [recordShownRegs]))

theorem Lane.rd_rec_recordShown (l : Lane) : l.recordShown.rd R.HA_REC = BitVec.ofNat 32 l.nextRecord := by
  rw [Lane.recordShown, Lane.rd_flag, Lane.rd_put_ne _ _ _ _ (by decide), Lane.rd_put_ne _ _ _ _ (by decide), Lane.rd_wr_same]

theorem Lane.bit_writing_recordShown (l : Lane) : l.recordShown.bit R.HA_STATUS_writing = false := by
  have hput := Lane.bit_put_zero (l.recordStored.wr R.HA_REC (BitVec.ofNat 32 l.nextRecord)) R.HA_STATUS_writing (by decide) (by decide)
  rw [← hput]
  exact Lane.bit_of_get ((Lane.get_flag _ _ _).trans (Lane.get_put_addr _ _ _ _ (by decide)))

theorem Lane.bit_written_recordShown (l : Lane) : l.recordShown.bit R.HA_FLAGS_record_written = true :=
  Lane.bit_flag_same _ _ rfl (by decide)

/-! ### A datagram (R512) -/

theorem touches_mail {as : List Nat} (l : Lane) (ip : Word) (port : Nat) (ws : List Word) (has : R.ET_FLAGS ∈ as) :
    Touches as l (l.mail ip port ws) := by
  unfold Lane.mail
  split
  · exact touches_of_eq rfl rfl rfl
  · exact touches_flag has

theorem Lane.mail_ha (l : Lane) (ip : Word) (port : Nat) (ws : List Word) : (l.mail ip port ws).ha = l.ha := by
  unfold Lane.mail
  split
  · rfl
  · exact l.flag_ha _

/-- A lane whose next datagram has the number `n`. -/
def Lane.numbered (y : Lane) (n : Word) : Lane := ({ y with ha := { y.ha with telSeq := n } } : Lane).draw

theorem touches_numbered {as : List Nat} (y : Lane) (n : Word) : Touches as y (y.numbered n) := touches_of_eq rfl rfl rfl

theorem Lane.recordAt_numbered (y : Lane) (n : Word) : (y.numbered n).ha.recordAt = y.ha.recordAt := rfl

/-- A datagram is dropped for want of a buffer or sent, and numbered either way. -/
theorem Lane.sendTelemetry_eq (c : Ctx) (l : Lane) (type : Nat) (body : List Word) :
    ∃ ws, l.sendTelemetry c type body =
      (if Config.txFull l.free then l.flag R.ET_FLAGS_tx_drop
        else l.mail (l.rd R.ET_TEL_DEST) (l.get R.ET_TEL_port) ws).numbered (l.ha.telSeq + 1) :=
  ⟨_, rfl⟩

/-- A datagram changes no register but the flags of the port, no memory and no record. -/
theorem sendTelemetry_frame (c : Ctx) (l : Lane) (type : Nat) (body : List Word) :
    Touches [R.ET_FLAGS] l (l.sendTelemetry c type body) ∧ (l.sendTelemetry c type body).ha.recordAt = l.ha.recordAt := by
  obtain ⟨ws, hsent⟩ := l.sendTelemetry_eq c type body
  rw [hsent, Lane.recordAt_numbered]
  split
  · exact ⟨(touches_flag (by simp)).trans (touches_numbered _ _), by rw [Lane.flag_ha]⟩
  · exact ⟨(touches_mail _ _ _ _ (by simp)).trans (touches_numbered _ _), by rw [Lane.mail_ha]⟩

/-! ### The command (R509) -/

/-- In `m` the record that was due in `l` is written and noted. -/
structure RecordWritten (l m : Lane) : Prop where
  words : ∀ i, i < 128 → m.granule (recordAddr l.nextRecord + 4 * i) = wordAt l.recordWhole i
  bytes : SameBytes l m (recordAddr l.nextRecord) (recordSpan l.nextRecord)
  due : m.ha.recordAt = none
  index : m.rd R.HA_REC = BitVec.ofNat 32 l.nextRecord
  writing : m.bit R.HA_STATUS_writing = false
  written : m.bit R.HA_FLAGS_record_written = true
  regs : SameRegs l m recordShownRegs

theorem recordWritten_recordNoted (l : Lane) : RecordWritten l l.recordNoted where
  words i hi := (Lane.granule_of_mem_eq l.recordShown_mem _).trans (l.granule_recordStored i hi)
  bytes a ha := (SameMem.of_mem_eq l.recordShown_mem a).trans (l.sameBytes_recordStored a ha)
  due := rfl
  index := l.rd_rec_recordShown
  writing := l.bit_writing_recordShown
  written := l.bit_written_recordShown
  regs a ha := ((touches_recordShown l).regs a ha).trans (congrArg (bankGet · a) l.recordStored_regs)

/-- A written record stays so when a datagram is sent. -/
theorem RecordWritten.sent {n : Lane} (h : RecordWritten l m) (htouches : Touches [R.ET_FLAGS] m n) (hdue : n.ha.recordAt = m.ha.recordAt) :
    RecordWritten l n where
  words i hi := (Lane.granule_of_mem_eq htouches.mem _).trans (h.words i hi)
  bytes a ha := (SameMem.of_mem_eq htouches.mem a).trans (h.bytes a ha)
  due := hdue.trans h.due
  index := (htouches.regs _ (by decide)).trans h.index
  writing := (htouches.bit _ (by decide)).trans h.writing
  written := (htouches.bit _ (by decide)).trans h.written
  regs a ha := ((htouches.mono (by simp [recordShownRegs])).regs a ha).trans (h.regs a ha)

theorem recordWritten_healthRecordWriteL {t : Nat} (hdue : l.ha.recordAt = some t) : RecordWritten l (healthRecordWriteL c l) := by
  have hnoted := recordWritten_recordNoted l
  rw [healthRecordWriteL_of_due hdue]
  split
  · obtain ⟨htouches, hkept⟩ := sendTelemetry_frame c l.recordNoted 2 l.recordWhole
    exact hnoted.sent htouches hkept
  · exact hnoted

end

/-- Settles O40: the record is stored and noted, and the datagram that may follow leaves it. -/
theorem healthRecordWritten : Obligations.HealthRecordWritten := by
  intro s ln c l t k ws h hdue hk hws
  subst hk hws
  obtain ⟨hwords, hbytes, hdone, hindex, hwriting, hwritten, hregs⟩ := recordWritten_healthRecordWriteL (c := c) hdue
  exact ⟨_, gives_of_onAlive healthRecordWriteL h rfl, l.length_recordWhole, hwords, hbytes, hdone, hindex, hwriting, hwritten, hregs⟩

end Sys2Proof.Machine

/-! PROOFS. Ageing, temperature, life and telemetry (R499 to R508, R512): one equation for each case of a command that is stated, and what
an hourly update and a baseline reset leave. -/

namespace Sys2Proof.Machine

section
variable {c : Ctx} {l m : Lane}

/-! ### Samples and telemetry (R499, R503, R512) -/

theorem ageingSampleL_of_accepted {i : Fin 8} {x : AgeRaw} {v : Nat} (hon : l.monOn c i.val = true) (hcounts : l.noSample c = false)
    (hv : l.indicator c i.val x = some v) :
    ageingSampleL c i x l = l.setMon i.val { l.mon i.val with hour := (l.mon i.val).hour ++ [v] } := by
  simp only [ageingSampleL, hon, hcounts, hv]
  rfl

theorem ageingSampleL_of_excluded (i : Fin 8) (x : AgeRaw) (h : l.noSample c = true) : ageingSampleL c i x l = l :=
  if_pos (by rw [h, Bool.or_true])

theorem dieTemperatureSampleL_of_low {t : BitVec 16} (hmax : t.toInt ≤ (l.put R.HA_TEMP_now t.toNat).getS R.HA_TEMP_max)
    (hlimit : t.toInt ≤ (l.put R.HA_TEMP_now t.toNat).getS R.HA_LIMITS_temp_max)
    (hoff : (l.put R.HA_TEMP_now t.toNat).monOn c 6 = false) : dieTemperatureSampleL c t l = l.put R.HA_TEMP_now t.toNat := by
  simp only [dieTemperatureSampleL, if_neg (Int.not_lt.mpr hmax), decide_eq_false (Int.not_lt.mpr hlimit), Lane.flagIf,
    Bool.false_eq_true, if_false, hoff]

/-- The first datagram is sent at once, and fixes the instant of the next one. -/
theorem telemetrySendL_of_first (hon : l.telOn = true) (hfirst : l.ha.telAt = none) :
    telemetrySendL c l =
      (let l1 := l.sendTelemetry c 1 ([l.rd R.LM_ROLE, l.rd R.FC_MODE,
          fldPut R.HA_LIFE_prior (l.rd R.HA_LIFE) (l.get R.HA_STATUS_prior), l.rd R.HA_TEMP] ++
        [l.rd R.EA_LOAD, l.rd R.EA_RA_COMMIT, l.rd R.EA_RA_SQUASH, l.rd R.EA_MISS_CNT, l.rd R.HA_CONFLICT, l.rd R.LM_HANDOVER]);
        { l1 with ha := { l1.ha with telAt := some (c.now + l1.get R.ET_TEL_period_ms * 1000000) } }) := by
  simp only [telemetrySendL, hon, hfirst]
  rfl

/-! ### Baselines reset (R505) -/

/-- The monitors of a list that a mask names, marked for a new baseline. -/
def Lane.marked (l : Lane) (mask : Nat) (is : List Nat) : Lane :=
  is.foldl (fun y i => if Nat.testBit mask i then y.setMon i { y.mon i with reset := true } else y) l

theorem Lane.mon_setMon (l : Lane) (i j : Nat) (x : Monitor) : (l.setMon i x).mon j = if j = i then x else l.mon j := by
  unfold Lane.mon Lane.setMon
  rw [tabGet_tabPut]
  split <;> rfl

theorem Lane.marked_cons (l : Lane) (mask i : Nat) (is : List Nat) :
    l.marked mask (i :: is) = (if Nat.testBit mask i then l.setMon i { l.mon i with reset := true } else l).marked mask is := rfl

theorem Lane.mon_marked (l : Lane) (mask : Nat) (is : List Nat) (j : Nat) :
    (l.marked mask is).mon j = if j ∈ is ∧ Nat.testBit mask j = true then { l.mon j with reset := true } else l.mon j := by
  induction is generalizing l with
  | nil => simp [Lane.marked]
  | cons i is ih =>
    rw [Lane.marked_cons, ih]
    by_cases hji : j = i
    · subst hji
      by_cases hbit : Nat.testBit mask j = true <;> simp [hbit, Lane.mon_setMon]
    · by_cases hbit : Nat.testBit mask i = true <;> simp [hbit, hji, Lane.mon_setMon]

/-- Only the records of the monitors change. -/
theorem Lane.marked_frame (l : Lane) (mask : Nat) (is : List Nat) : ∃ x, l.marked mask is = { l with ha := x } := by
  induction is generalizing l with
  | nil => exact ⟨l.ha, rfl⟩
  | cons i is ih =>
    rw [Lane.marked_cons]
    split
    · obtain ⟨x, hx⟩ := ih (l.setMon i { l.mon i with reset := true })
      exact ⟨x, hx⟩
    · exact ih l

theorem baselineResetL_of_key {v : Word} (hkey : fldOf R.HA_BASELINE_RESET_key v = 0x96) (hparked : l.parked = true) :
    baselineResetL v l =
      (({ l with bus := .done } : Lane).marked (fldOf R.HA_BASELINE_RESET_mask v) (List.range 8)).flag R.HA_FLAGS_baseline_reset :=
  if_pos ⟨hkey, hparked⟩

theorem baselineResetL_of_not {v : Word} (h : fldOf R.HA_BASELINE_RESET_key v ≠ 0x96 ∨ l.parked = false) :
    baselineResetL v l = { l with bus := .done } := by
  refine if_neg fun hboth => ?_
  obtain ⟨hkey, hparked⟩ := hboth
  obtain hother | hmoves := h
  · exact hother hkey
  · exact Bool.false_ne_true (hmoves.symm.trans hparked)

/-! ### The hourly update (R505 to R508, R516) -/

/-- The registers that an hourly update may change, beside HA_HOURS. -/
def hourRegs : List Nat :=
  (List.range 8).flatMap (fun i => [R.HA_MONi_VAL i, R.HA_MONi_DMG i, R.HA_MONi_BASE i]) ++
    [R.HA_CE_HOUR, R.HA_CONFLICT, R.HA_LIFE, R.HA_STATUS, R.HA_FLAGS, R.LM_LIFE_AB, R.LM_LIFE_C, R.LM_STATUS]

/-- From `l` to `m` an hourly update goes on: HA_HOURS, memory and the operating time stay. -/
structure HourGoesOn (l m : Lane) : Prop where
  touches : Touches hourRegs l m
  opNs : m.ha.opNs = l.ha.opNs

theorem HourGoesOn.refl (l : Lane) : HourGoesOn l l := ⟨.refl _ l, rfl⟩

theorem HourGoesOn.trans {n : Lane} (hlm : HourGoesOn l m) (hmn : HourGoesOn m n) : HourGoesOn l n :=
  ⟨hlm.touches.trans hmn.touches, hmn.opNs.trans hlm.opNs⟩

theorem HourGoesOn.ite {p : Prop} [Decidable p] {n : Lane} (hm : HourGoesOn l m) (hn : HourGoesOn l n) :
    HourGoesOn l (if p then m else n) := by
  split
  · exact hm
  · exact hn

theorem hourGoesOn_wr {a : Nat} (w : Word) (ha : a ∈ hourRegs) : HourGoesOn l (l.wr a w) := ⟨touches_wr w ha, rfl⟩

theorem hourGoesOn_put {f : Fld} (v : Nat) (hf : f.addr ∈ hourRegs) : HourGoesOn l (l.put f v) := hourGoesOn_wr _ hf

theorem hourGoesOn_flag {f : Fld} (hf : f.addr ∈ hourRegs) : HourGoesOn l (l.flag f) :=
  ⟨touches_flag hf, congrArg Health.opNs (l.flag_ha f)⟩

theorem hourGoesOn_flagIf (b : Bool) {f : Fld} (hf : f.addr ∈ hourRegs) : HourGoesOn l (l.flagIf b f) :=
  ⟨touches_flagIf b hf, congrArg Health.opNs (l.flagIf_ha b f)⟩

/-- A change of the ageing unit's own record that keeps the operating time. -/
theorem hourGoesOn_ha {x : Health} (hx : x.opNs = l.ha.opNs) : HourGoesOn l { l with ha := x } := ⟨touches_of_eq rfl rfl rfl, hx⟩

theorem hourGoesOn_setMon (l : Lane) (i : Nat) (x : Monitor) : HourGoesOn l (l.setMon i x) := hourGoesOn_ha rfl

section
variable {i : Nat} (hi : i < 8)

include hi

theorem monRegs_mem_hourRegs : R.HA_MONi_VAL i ∈ hourRegs ∧ R.HA_MONi_DMG i ∈ hourRegs ∧ R.HA_MONi_BASE i ∈ hourRegs := by
  have hin {a : Nat} (ha : a ∈ [R.HA_MONi_VAL i, R.HA_MONi_DMG i, R.HA_MONi_BASE i]) : a ∈ hourRegs :=
    List.mem_append_left _ (List.mem_flatMap.mpr ⟨i, List.mem_range.mpr hi, ha⟩)
  exact ⟨hin (by simp), hin (by simp), hin (by simp)⟩

theorem hourGoesOn_showMon (l : Lane) : HourGoesOn l (l.showMon i) := by
  obtain ⟨-, hdamage, -⟩ := monRegs_mem_hourRegs hi
  unfold Lane.showMon
  exact (((hourGoesOn_put _ hdamage).trans (hourGoesOn_put _ hdamage)).trans (hourGoesOn_flagIf _ (by decide))).trans
    (hourGoesOn_setMon _ i _)

theorem hourGoesOn_hourValue (l : Lane) : HourGoesOn l (l.hourValue i) := by
  obtain ⟨hvalue, -, hbase⟩ := monRegs_mem_hourRegs hi
  unfold Lane.hourValue
  refine .ite (.refl l) (.trans (hourGoesOn_wr _ hvalue) (.ite (.ite ?learned (hourGoesOn_setMon _ i _)) (.refl _)))
  case learned => exact ((hourGoesOn_wr _ hbase).trans (hourGoesOn_flag (by decide))).trans (hourGoesOn_setMon _ i _)

theorem hourGoesOn_hourMon (c : Ctx) (l : Lane) : HourGoesOn l (l.hourMon c i) := by
  obtain ⟨-, -, hbase⟩ := monRegs_mem_hourRegs hi
  unfold Lane.hourMon
  refine .ite (.refl l) (.ite ?reset ?hour)
  case reset =>
    exact .trans (.trans (.ite (hourGoesOn_wr _ hbase) (.refl l)) (hourGoesOn_setMon _ i _)) (hourGoesOn_showMon hi _)
  case hour =>
    refine .trans (.trans (.ite (hourGoesOn_wr _ ?six) (hourGoesOn_hourValue hi l)) (hourGoesOn_setMon _ i _)) (hourGoesOn_showMon hi _)
    case six => exact (monRegs_mem_hourRegs (by decide : 6 < 8)).1

end

theorem hourGoesOn_hourMons (c : Ctx) (l : Lane) : HourGoesOn l ((List.range 8).foldl (fun y i => y.hourMon c i) l) :=
  List.foldlRecOn (motive := HourGoesOn l) _ _ (.refl l) fun y hy _ hi => hy.trans (hourGoesOn_hourMon (List.mem_range.mp hi) c y)

theorem hourGoesOn_hourConflicts (l : Lane) : HourGoesOn l l.hourConflicts := by
  unfold Lane.hourConflicts
  exact ((hourGoesOn_wr _ (by decide)).trans (hourGoesOn_flagIf _ (by decide))).trans (hourGoesOn_ha rfl)

theorem hourGoesOn_setLifeOf (l : Lane) (x : LaneId) (h : Nat) : HourGoesOn l (l.setLifeOf x h) := by
  cases x <;> exact hourGoesOn_put _ (by decide)

theorem HourGoesOn.put {f : Fld} (h : HourGoesOn l m) (v : Nat) (hf : f.addr ∈ hourRegs) : HourGoesOn l (m.put f v) :=
  h.trans (hourGoesOn_put v hf)

theorem HourGoesOn.putB {f : Fld} (h : HourGoesOn l m) (b : Bool) (hf : f.addr ∈ hourRegs) : HourGoesOn l (m.putB f b) :=
  h.put _ hf

theorem hourGoesOn_showLife (c : Ctx) (l : Lane) : HourGoesOn l (l.showLife c) := by
  have hstatus (v w ok : Nat) (prior learning : Bool) : HourGoesOn l (((((l.put R.HA_LIFE_life_h v).put R.HA_LIFE_limiting w).putB
      R.HA_STATUS_prior prior).put R.HA_STATUS_baseline_ok ok).putB R.HA_STATUS_learning learning) :=
    (((((HourGoesOn.refl l).put v (by decide)).put w (by decide)).putB prior (by decide)).put ok (by decide)).putB learning (by decide)
  have hwarning (y : Lane) (h : Nat) (b low : Bool) : HourGoesOn y ((((y.setLifeOf c.id h).flagIf b R.HA_FLAGS_age_warning).putB
      R.HA_STATUS_age_warning low).putB R.LM_STATUS_age_warning low) :=
    (((hourGoesOn_setLifeOf y c.id h).trans (hourGoesOn_flagIf b (by decide))).putB low (by decide)).putB low (by decide)
  unfold Lane.showLife
  exact (hstatus _ _ _ _ _).trans (hwarning _ _ _ _)

/-- A request of a pass is the baton's own. -/
theorem Lane.requestPass_frame (l : Lane) (cause : Nat) (want : Option LaneId) :
    ∃ x, l.requestPass cause want = { l with baton := x } := by
  unfold Lane.requestPass
  dsimp only
  generalize (l.active && _ && _) = asks
  cases asks
  · exact ⟨l.baton, rfl⟩
  · exact ⟨_, rfl⟩

/-- A pass that the life asks for is the baton's: registers, memory and the record that is due stay. -/
theorem lifePass_frame (c : Ctx) (l : Lane) :
    (l.lifePass c).regs = l.regs ∧ (l.lifePass c).mem = l.mem ∧ (l.lifePass c).ha.opNs = l.ha.opNs ∧
      (l.lifePass c).ha.recordAt = l.ha.recordAt := by
  unfold Lane.lifePass
  split
  case isFalse => exact ⟨rfl, rfl, rfl, rfl⟩
  case isTrue =>
    split
    next x _ =>
      obtain ⟨b, hb⟩ := l.requestPass_frame 5 (some x)
      rw [hb]
      exact ⟨rfl, rfl, rfl, rfl⟩
    next => exact ⟨rfl, rfl, rfl, rfl⟩

/-- The hour counted, and taken from the operating time. -/
def Lane.hourCounted (l : Lane) : Lane :=
  { l.wr R.HA_HOURS (l.rd R.HA_HOURS + 1) with ha := { l.ha with opNs := l.ha.opNs - 3600000000000 } }

theorem Lane.rd_setHa (l : Lane) (x : Health) (a : Nat) : ({ l with ha := x } : Lane).rd a = l.rd a := rfl

theorem Lane.rd_hours_hourCounted (l : Lane) : l.hourCounted.rd R.HA_HOURS = l.rd R.HA_HOURS + 1 := by
  rw [Lane.hourCounted, Lane.rd_setHa, Lane.rd_wr_same]

/-- The monitors, the corrected errors and the conflicts of the hour taken in, and the life shown. -/
def Lane.hourTaken (c : Ctx) (l : Lane) : Lane :=
  let l1 := (List.range 8).foldl (fun y i => y.hourMon c i) l
  let ce := l1.ceTotal - l1.ha.ceBase
  let l2 := { l1.wr R.HA_CE_HOUR (BitVec.ofNat 32 ce) with ha := { l1.ha with ceBase := l1.ceTotal } }
  ((l2.flagIf (decide (l2.get R.HA_LIMITS_ce_limit < ce)) R.HA_FLAGS_ce_high).hourConflicts).showLife c

/-- The update flagged, and a record due. -/
def Lane.hourNoted (c : Ctx) (l : Lane) : Lane :=
  let l1 := (l.flag R.HA_FLAGS_life_update).put R.HA_STATUS_writing 1
  { l1 with ha := { l1.ha with recordAt := some c.now } }

theorem hourlyLifeUpdateL_of_early (h : l.ha.opNs < 3600000000000 ∨ l.unitsHalt = true) : hourlyLifeUpdateL c l = l := if_pos h

theorem hourlyLifeUpdateL_of_hour (hhour : 3600000000000 ≤ l.ha.opNs) (hruns : l.unitsHalt = false) :
    hourlyLifeUpdateL c l = (((l.hourCounted.hourTaken c).hourNoted c).lifePass c) := by
  have hdue : ¬(l.ha.opNs < 3600000000000 ∨ l.unitsHalt = true) := by
    rw [hruns]
    simpa using hhour
  exact if_neg hdue

theorem hourGoesOn_hourTaken (c : Ctx) (l : Lane) : HourGoesOn l (l.hourTaken c) := by
  unfold Lane.hourTaken
  dsimp only
  refine .trans (.trans (.trans (.trans (hourGoesOn_hourMons c l) ?errors) (hourGoesOn_flagIf _ (by decide)))
    (hourGoesOn_hourConflicts _)) (hourGoesOn_showLife c _)
  case errors => exact (hourGoesOn_wr _ (by decide)).trans (hourGoesOn_ha rfl)

theorem hourGoesOn_hourNoted (c : Ctx) (l : Lane) : HourGoesOn l (l.hourNoted c) := by
  unfold Lane.hourNoted
  exact ((hourGoesOn_flag (by decide)).trans (hourGoesOn_put _ (by decide))).trans (hourGoesOn_ha rfl)

theorem Lane.bit_hourNoted (c : Ctx) (l : Lane) :
    (l.hourNoted c).bit R.HA_STATUS_writing = true ∧ (l.hourNoted c).bit R.HA_FLAGS_life_update = true := by
  have hflag := l.bit_flag_same R.HA_FLAGS_life_update rfl (by decide)
  refine ⟨Lane.bit_put_one _ R.HA_STATUS_writing rfl (by decide), hflag ▸ Lane.bit_of_get ?_⟩
  exact Lane.get_put_addr _ R.HA_STATUS_writing R.HA_FLAGS_life_update 1 (by decide)

/-- In `m` the hour that was due in `l` is counted, and a record is due. -/
structure HourUpdated (c : Ctx) (l m : Lane) : Prop where
  hours : m.rd R.HA_HOURS = l.rd R.HA_HOURS + 1
  opNs : m.ha.opNs = l.ha.opNs - 3600000000000
  writing : m.bit R.HA_STATUS_writing = true
  due : m.ha.recordAt = some c.now
  flag : m.bit R.HA_FLAGS_life_update = true
  sameMem : SameMem l m

theorem hourUpdated_hourlyLifeUpdateL (hhour : 3600000000000 ≤ l.ha.opNs) (hruns : l.unitsHalt = false) :
    HourUpdated c l (hourlyLifeUpdateL c l) := by
  obtain ⟨htouches, hop⟩ := (hourGoesOn_hourTaken c l.hourCounted).trans (hourGoesOn_hourNoted c _)
  obtain ⟨hwriting, hflag⟩ := (l.hourCounted.hourTaken c).bit_hourNoted c
  obtain ⟨hregs, hmem, hpassOp, hpassDue⟩ := lifePass_frame c ((l.hourCounted.hourTaken c).hourNoted c)
  have hget (f : Fld) := Lane.bit_of_get (Lane.get_of_regs_eq hregs f)
  rw [hourlyLifeUpdateL_of_hour hhour hruns]
  refine ⟨?hours, hpassOp.trans hop, (hget _).trans hwriting, hpassDue, (hget _).trans hflag, .of_mem_eq (hmem.trans htouches.mem)⟩
  case hours =>
    refine (sameRegs_of_regs_eq (as := []) hregs _ (by simp)).trans ((htouches.regs _ (by decide)).trans ?_)
    exact l.rd_hours_hourCounted

end

/-- Settles O39: each clause is the equation of its command, or what is proved above of what the command leaves. -/
theorem healthCommandsComplete : Obligations.HealthCommandsComplete := by
  refine ⟨?sample, ?excluded, ?temperature, ?early, ?hour, ?telemetry, ?reset, ?noReset⟩
  case sample =>
    intro s ln c l i x v h hon hcounts hv
    exact gives_of_onAlive_eq (ageingSampleL · i x) h rfl (ageingSampleL_of_accepted hon hcounts hv)
  case excluded =>
    intro s ln c l i x h hexcluded
    exact gives_of_onAlive_eq (ageingSampleL · i x) h rfl (ageingSampleL_of_excluded i x hexcluded)
  case temperature =>
    intro s ln c l t h hmax hlimit hoff
    exact gives_of_onAlive_eq (dieTemperatureSampleL · t) h rfl (dieTemperatureSampleL_of_low hmax hlimit hoff)
  case early =>
    intro s ln c l h hearly
    exact gives_of_onAlive_eq hourlyLifeUpdateL h rfl (hourlyLifeUpdateL_of_early hearly)
  case hour =>
    intro s ln c l h hhour hruns
    obtain ⟨hhours, hop, hwriting, hdue, hflag, hmem⟩ := hourUpdated_hourlyLifeUpdateL (c := c) hhour hruns
    exact ⟨_, gives_of_onAlive hourlyLifeUpdateL h rfl, hhours, hop, hwriting, hdue, hflag, hmem⟩
  case telemetry =>
    intro s ln c l h hon hfirst
    exact gives_of_onAlive_eq telemetrySendL h rfl (telemetrySendL_of_first hon hfirst)
  case reset =>
    intro s ln c l v h hkey hparked
    have hmarked := Lane.mon_marked { l with bus := .done } (fldOf R.HA_BASELINE_RESET_mask v) (List.range 8)
    obtain ⟨x, hx⟩ := Lane.marked_frame { l with bus := .done } (fldOf R.HA_BASELINE_RESET_mask v) (List.range 8)
    have htouches : Touches [R.HA_FLAGS] l
        ((({ l with bus := .done } : Lane).marked (fldOf R.HA_BASELINE_RESET_mask v) (List.range 8)).flag R.HA_FLAGS_baseline_reset) :=
      .trans (hx ▸ touches_of_eq rfl rfl rfl) (touches_flag (by simp))
    refine ⟨_, gives_of_onAlive_eq (fun _ l => baselineResetL v l) h rfl (baselineResetL_of_key hkey hparked), ?monitors,
      Lane.bit_flag_same _ _ rfl (by decide), ?bus, htouches.regs, htouches.sameMem⟩
    case monitors =>
      intro i
      rw [Lane.mon, Lane.flag_ha, ← Lane.mon, hmarked]
      simp [i.isLt]
      rfl
    case bus => rw [Lane.flag_bus, hx]
  case noReset =>
    intro s ln c l v h hnot
    exact gives_of_onAlive_eq (fun _ l => baselineResetL v l) h rfl (baselineResetL_of_not hnot)

end Sys2Proof.Machine
